-- ==== Sys2Proof/Word.lean ====
section
/-! DEFINITION. Word.lean: the machine's word types. A register of the module, a scalar register of a core
and an instruction word are 64 bits (R155, R662); memory is byte addressed. -/

namespace Sys2Proof

/-- A 64-bit word: a scalar register (R155), a register of the MMIO range (R662), ruled time (R20). -/
abbrev Word := BitVec 64

/-- One byte of memory. -/
abbrev Byte := BitVec 8

end Sys2Proof
end

