-- ==== Sys2Proof/Syntax.lean ====
section
/-! DEFINITION. Syntax.lean: the commands the module takes, one constructor of `Instr` per row of
spec/opcode_table.json, and the operands they carry. A tile instruction carries its core and the fields of its word. -/

namespace Sys2Proof

/-! ## Operands of the tile instructions: the fields of their words (R162 to R193) -/

/-- The header of every instruction word (R162): X says that an extension word follows. -/
structure Hdr where
  x : Bool
  pred : BitVec 3
  pneg : Bool
  /-- The word's class or operation code is a reserved one (R163, R190, R193): no row names such a word, so that the sequencer
  meets it as a word of any row (assumption log 49). -/
  reserved : Bool := false
  deriving DecidableEq, Repr

/-- SCL fields (R166); the row gives OP. `ext` is the extension word, read when X is 1. -/
structure SclF where
  h : Hdr
  rd : BitVec 5
  ra : BitVec 5
  rb : BitVec 5
  imm : Bool
  rsv : Bool
  imm32 : BitVec 32
  ext : BitVec 64
  deriving DecidableEq, Repr

/-- CTL fields (R168); the row gives OP. -/
structure CtlF where
  h : Hdr
  ra : BitVec 5
  rsv : BitVec 21
  offset : BitVec 24
  deriving DecidableEq, Repr

/-- TMMA and TMMA.P fields (R172); in a TMMA.P bit 33 is reserved. -/
structure TmmaF where
  h : Hdr
  eng : BitVec 2
  acc : BitVec 3
  ta : BitVec 4
  tb : BitVec 4
  rpt : BitVec 8
  zero : Bool
  sk : BitVec 5
  rsv : BitVec 28
  deriving DecidableEq, Repr

/-- VOP fields (R176); the row gives OP. -/
structure VopF where
  h : Hdr
  td : BitVec 4
  ts1 : BitVec 4
  ts2 : BitVec 4
  ts3 : BitVec 4
  bc : BitVec 2
  rs : BitVec 5
  sat : Bool
  sr : Bool
  rsv : BitVec 24
  deriving DecidableEq, Repr

/-- TLD and TST fields (R180) and the stream extension word (R185). -/
structure TldF where
  h : Hdr
  td : BitVec 4
  ra : BitVec 5
  rs : BitVec 5
  mark : BitVec 2
  scope : BitVec 2
  sc : Bool
  add : Bool
  acc : Bool
  eng : BitVec 2
  atile : BitVec 3
  rsv : BitVec 29
  ext : BitVec 64
  deriving DecidableEq, Repr

/-- GATH fields (R189) and the stream extension word (R185). -/
structure GathF where
  h : Hdr
  td : BitVec 4
  ti : BitVec 4
  rp : BitVec 5
  rl : BitVec 5
  bsz : BitVec 3
  mark : BitVec 2
  scope : BitVec 2
  rsv : BitVec 30
  ext : BitVec 64
  deriving DecidableEq, Repr

/-- ATOM fields (R190); the row gives OP. -/
structure AtomF where
  h : Hdr
  fmt : BitVec 3
  rd : BitVec 5
  ra : BitVec 5
  rb : BitVec 5
  rc : BitVec 5
  mark : BitVec 2
  scope : BitVec 2
  rsv : BitVec 25
  deriving DecidableEq, Repr

/-- SIG fields (R191); the row gives OP. -/
structure SigF where
  h : Hdr
  w : Bool
  ra : BitVec 5
  rb : BitVec 5
  mark : BitVec 2
  scope : BitVec 2
  rsv : BitVec 39
  deriving DecidableEq, Repr

/-- WAITV fields (R192) and the stream extension word (R185). -/
structure WaitvF where
  h : Hdr
  cond : BitVec 3
  w : Bool
  ra : BitVec 5
  rb : BitVec 5
  mark : BitVec 2
  scope : BitVec 2
  tp : BitVec 3
  rsv : BitVec 34
  ext : BitVec 64
  deriving DecidableEq, Repr

/-- SYNC fields (R193); the row gives FORM. -/
structure SyncF where
  h : Hdr
  scope : BitVec 2
  bid : BitVec 2
  rn : BitVec 5
  sp : BitVec 3
  rsv : BitVec 41
  deriving DecidableEq, Repr

/-! ## Operands of the commands and events -/

/-- Operations of ATOM (R190). -/
inductive AtomOp where
  | add | min | max | swap | cas
  deriving DecidableEq, Repr

/-- Operand formats of ATOM and TST.ADD (R190). -/
inductive AtomFmt where
  | i32 | i64 | f32 | b16 | h16
  deriving DecidableEq, Repr

/-- What the check bits of a processor die's system-level cache found (R356): nothing, a corrected error, an
uncorrectable data error in sectors of the line, or one of the tag, each with its byte offset in the slice. -/
inductive SlcErr where
  | none
  | corrected
  | data (off : Nat) (sectors : List Nat)
  | tag (off : Nat)
  deriving DecidableEq, Repr

/-- A double-bit error that a cache nearer to a hart finds in a word it reads: in the L2 block of its complex or in its L1 data
cache, with the byte offset of the word (R398, R537). -/
structure SramErr where
  l2 : Bool
  off : Nat
  deriving DecidableEq, Repr

/-- Page-based memory type of a hart access (R409). -/
inductive Pbmt where
  | pma | nc | io
  deriving DecidableEq, Repr

/-- An access of a hart that a memory request serves: `n` bytes from offset `off` of the line, or none when it is a prefetch
(R413); its page-based memory type (R409); the vector register it loads, if one (R401); and what the die's caches found on the
way (R356, R537). -/
structure HartAcc where
  off : Nat
  n : Nat
  pbmt : Pbmt := .pma
  vec : Option Nat := none
  slc : SlcErr := .none
  sram : Option SramErr := none
  deriving DecidableEq, Repr

/-- Who sends a memory request (R200, R337). -/
inductive Agent where
  | core (c : Nat)
  | cluster (k : Nat)
  | fe (d : Nat)
  | pd (p : Nat)
  | host
  | peel
  | remote (node : Nat)
  | hart (h : Nat) (a : HartAcc)
  deriving DecidableEq, Repr

/-- A 32 B sector in which the check bits of a memory access found an error: the sector's number, the row it lies in, and
whether the error is uncorrectable (R316, R317). -/
structure EccFind where
  sector : Nat
  row : BitVec 32
  hard : Bool
  deriving DecidableEq, Repr

/-- What the check bits of a memory access found, sector by sector. -/
abbrev Ecc := List EccFind

/-- A row or word a scrub visit found in error: its place, and whether it is uncorrectable (R128, R321). -/
structure EccHit where
  place : Nat
  hard : Bool
  deriving DecidableEq, Repr

/-- Parity of a cluster cache hit (R351): good, bad once, or bad again after the refetch. -/
inductive CcParity where
  | good | bad | badAgain
  deriving DecidableEq, Repr

/-- The answer of a target outside the module's own memory: a host, a device or a remote node. -/
inductive Reply where
  | data (bytes : List Byte)
  | poisoned (bytes : List Byte)
  | ack
  | error
  | late
  deriving DecidableEq, Repr

/-- Where a twin pair's words differed (R86): element row and column of the tile. -/
structure TwinFault where
  row : BitVec 5
  col : BitVec 5
  deriving DecidableEq, Repr

/-- Why a completion-entry write failed, and whether the fallback-word write fails too (R487, R488). -/
structure WriteFail where
  timedOut : Bool
  fallbackFails : Bool
  deriving DecidableEq, Repr

/-- Atomics of the harts: the AMOs of RV64A, and an LR/SC pair that succeeds (R411). -/
inductive HartAmo where
  | swap | add | xor | and | or | min | max | minu | maxu | lrsc
  deriving DecidableEq, Repr

/-- The ordering bits of an AMO or an LR/SC pair (R219). -/
structure HartOrder where
  aq : Bool
  rl : Bool
  deriving DecidableEq, Repr

/-- What a hart's store writes: bytes, or `n` elements of `eew` bytes of a vector register (R401, R410). -/
inductive HartData where
  | scalar (bytes : List Byte)
  | vector (reg eew n : Nat)
  deriving DecidableEq, Repr

/-- What the check bits found on the way of a hart's access: in its die's system-level cache, at the home, and in its own caches. -/
structure Finds where
  slc : SlcErr
  e : Ecc
  sram : Option SramErr := none
  deriving DecidableEq, Repr

/-- A non-allocating read or write, or a far atomic: from a core's tag, or from another agent. -/
inductive NaSrc where
  | tag (c : Nat) (tag : Nat)
  | agent (who : Agent) (pa : Nat) (n : Nat)
  deriving DecidableEq, Repr

/-- Who sends a write that the home merges into a line, and what the check bits of that line found (R316). -/
structure NaWrite where
  src : NaSrc
  e : Ecc
  deriving DecidableEq, Repr

/-- A store of a hart: what it writes, and what the check bits found on its way. -/
structure HartWrite where
  data : HartData
  f : Finds
  deriving DecidableEq, Repr

/-- An atomic of a hart: its operation, its ordering, and what the check bits found on its way. -/
structure HartAtomic where
  op : HartAmo
  o : HartOrder
  f : Finds
  deriving DecidableEq, Repr

/-- The slot of a move whose copy has ended, and what the check bits found in the copied lines (R254, R316). -/
structure MoveCopied where
  slot : Nat
  e : Ecc
  deriving DecidableEq, Repr

/-- A row that software asks to remap, and what the check bits found in its copy (R322, R323). -/
structure RowCopied where
  row : BitVec 32
  e : Ecc
  deriving DecidableEq, Repr

/-- A write of the host: its data is poisoned, and what the check bits of the line found (R316, R600). -/
structure HostWrite where
  poison : Bool
  e : Ecc
  deriving DecidableEq, Repr

/-! ## Operands of the power, link, host, boot and hatch events -/

/-- What the meters hold of a rail for the line that closes: its current in 1/16 A, and its energy with its regulator loss in
µJ (R532, R536). -/
structure RailMeas where
  rail : Nat
  amps : Nat
  energy : Nat
  deriving DecidableEq, Repr

/-- A rail and its current, in 1/16 A (R507). -/
structure RailAmps where
  rail : Nat
  amps : Nat
  deriving DecidableEq, Repr

/-- What an operation did in a line, as R532 measures it for a kind of rail (`railClass` in Machine/Energy.lean): engine-cycles
and core cycles on a die, or bytes moved. -/
structure OpAct where
  uid : Nat
  cls : Nat
  units : Nat
  deriving DecidableEq, Repr

/-- What the hub's meters hold for the line that closes (R529, R532): input current and voltage, rail readings, the input
energy, and the activity of operations. -/
structure LineMeas where
  /-- Input current over the line, 1/16 A, and input voltage, mV. -/
  input : Nat
  mv : Nat
  rails : List RailMeas
  /-- Input energy of the line, µJ. -/
  energy : Nat
  acts : List OpAct
  deriving DecidableEq, Repr

/-- What faults change in the digests of a proof run, 0 where there is none (the XOR with the digest R540 gives): of every present
engine of core A in order, of A's vector unit, and the same of B. -/
structure ProofDigests where
  a : List (BitVec 64)
  aVec : BitVec 64
  b : List (BitVec 64)
  bVec : BitVec 64
  deriving DecidableEq, Repr

/-- What a request of a remote node asks of this node's home (R582). -/
inductive RemoteOp where
  | read (n : Nat)
  | write (bytes : List Byte)
  | atom (op : AtomOp) (f : AtomFmt) (v cmp : BitVec 64)
  | adds (f : AtomFmt) (elems : List Nat)
  deriving DecidableEq, Repr

/-- A request of a remote node: its tag and the requester's context there, the address in this node, and what the check bits of
its line found. -/
structure RemoteReq where
  node : Nat
  tag : Nat
  ctx : BitVec 12 := 0
  pa : Nat
  op : RemoteOp
  e : Ecc
  deriving DecidableEq, Repr

/-- What brought the CXL link down. -/
inductive LinkDownCause where
  | linkDown | hostReset | protocolOff
  deriving DecidableEq, Repr

/-- What starts a module cold reset. -/
inductive ColdCause where
  | power | resetPin
  deriving DecidableEq, Repr

/-- The outcome of an ADL module retrain. -/
inductive RetrainResult where
  | full | half | failed
  deriving DecidableEq, Repr

/-- The record in a flash bank, or one to be written: its bytes from header to trailer, whether its CHECK matches, and
whether its signature verifies under the root key (R621, R622; assumption log 6). -/
structure FlashRec where
  bytes : List Byte
  checkOk : Bool
  sigOk : Bool
  deriving DecidableEq, Repr

/-- What a boot samples and finds: straps; the dies, stacks, packages and engines that train and pass the wire check;
whether the ADL revisions agree; lanes repaired outside the factory map, as link and lane; redundant lanes in use by
link; and the rows that post-package repair mends (R327, R565, R571, R628, R630). -/
structure BootEnv where
  straps : BitVec 8
  ad : BitVec 4
  pd : BitVec 2
  hs : BitVec 16
  dram : BitVec 16
  oe : BitVec 8
  adlOk : Bool
  lanes : List (Nat × Nat)
  spares : List (Nat × Nat)
  repaired : List (BitVec 64)
  deriving DecidableEq, Repr


/-- The commands (spec/opcode_table.json): one constructor per row, with its rule. -/
inductive Instr where
  /-- MARK_EDGE (R23). -/
  | markEdge (t : Nat)
  /-- LINE_BOUNDARY (R28). -/
  | lineBoundary (m : LineMeas)
  /-- BOOT_PLATE_TIMEOUT (R27). -/
  | bootPlateTimeout
  /-- RACK_FRAME (R651). -/
  | rackFrame (bytes : List Byte)
  /-- HATCH_CLOCK_LOSS (R47). -/
  | hatchClockLoss
  /-- HATCH_CLOCK_RETURN (R47). -/
  | hatchClockReturn
  /-- PITCH_WRITE (R18). -/
  | pitchWrite (v : BitVec 32)
  /-- STAGED_WRITE (R32). -/
  | stagedWrite (off : Nat) (size : Nat) (v : BitVec 64)
  /-- COMMIT_ARM (R34). -/
  | commitArm (v : BitVec 32)
  /-- SCL_ADD (R166). -/
  | sclAdd (c : Nat) (f : SclF)
  /-- SCL_SUB (R166). -/
  | sclSub (c : Nat) (f : SclF)
  /-- SCL_MUL (R166). -/
  | sclMul (c : Nat) (f : SclF)
  /-- SCL_AND (R166). -/
  | sclAnd (c : Nat) (f : SclF)
  /-- SCL_OR (R166). -/
  | sclOr (c : Nat) (f : SclF)
  /-- SCL_XOR (R166). -/
  | sclXor (c : Nat) (f : SclF)
  /-- SCL_SHL (R166). -/
  | sclShl (c : Nat) (f : SclF)
  /-- SCL_SHR (R166). -/
  | sclShr (c : Nat) (f : SclF)
  /-- SCL_SAR (R166). -/
  | sclSar (c : Nat) (f : SclF)
  /-- SCL_MIN (R166). -/
  | sclMin (c : Nat) (f : SclF)
  /-- SCL_MAX (R166). -/
  | sclMax (c : Nat) (f : SclF)
  /-- SCL_MINU (R166). -/
  | sclMinu (c : Nat) (f : SclF)
  /-- SCL_MAXU (R166). -/
  | sclMaxu (c : Nat) (f : SclF)
  /-- SCL_CMPEQ (R166). -/
  | sclCmpeq (c : Nat) (f : SclF)
  /-- SCL_CMPNE (R166). -/
  | sclCmpne (c : Nat) (f : SclF)
  /-- SCL_CMPLT (R166). -/
  | sclCmplt (c : Nat) (f : SclF)
  /-- SCL_CMPLTU (R166). -/
  | sclCmpltu (c : Nat) (f : SclF)
  /-- SCL_CMPGE (R166). -/
  | sclCmpge (c : Nat) (f : SclF)
  /-- SCL_CMPGEU (R166). -/
  | sclCmpgeu (c : Nat) (f : SclF)
  /-- SCL_PAND (R166). -/
  | sclPand (c : Nat) (f : SclF)
  /-- SCL_POR (R166). -/
  | sclPor (c : Nat) (f : SclF)
  /-- SCL_PXOR (R166). -/
  | sclPxor (c : Nat) (f : SclF)
  /-- SCL_PANDN (R166). -/
  | sclPandn (c : Nat) (f : SclF)
  /-- SCL_LDS (R167). -/
  | sclLds (c : Nat) (f : SclF)
  /-- SCL_STS (R167). -/
  | sclSts (c : Nat) (f : SclF)
  /-- SCL_TDSET (R166). -/
  | sclTdset (c : Nat) (f : SclF)
  /-- SCL_TDGET0 (R166). -/
  | sclTdget0 (c : Nat) (f : SclF)
  /-- SCL_TDGET1 (R166). -/
  | sclTdget1 (c : Nat) (f : SclF)
  /-- SCL_TDADJ (R166). -/
  | sclTdadj (c : Nat) (f : SclF)
  /-- SCL_RDSR (R157). -/
  | sclRdsr (c : Nat) (f : SclF)
  /-- CTL_NOP (R168). -/
  | ctlNop (c : Nat) (f : CtlF)
  /-- CTL_B (R169). -/
  | ctlB (c : Nat) (f : CtlF)
  /-- CTL_LOOP (R169). -/
  | ctlLoop (c : Nat) (f : CtlF)
  /-- CTL_CALL (R170). -/
  | ctlCall (c : Nat) (f : CtlF)
  /-- CTL_RET (R170). -/
  | ctlRet (c : Nat) (f : CtlF)
  /-- CTL_END (R171). -/
  | ctlEnd (c : Nat) (f : CtlF)
  /-- CTL_TRAP (R168). -/
  | ctlTrap (c : Nat) (f : CtlF)
  /-- TMMA (R173). -/
  | tmma (c : Nat) (f : TmmaF)
  /-- TMMA_P (R174). -/
  | tmmaP (c : Nat) (f : TmmaF)
  /-- TMMA_RETIRE (R64). -/
  | tmmaRetire (c : Nat) (eng : Nat) (x : Option TwinFault)
  /-- VOP_ADD (R176). -/
  | vopAdd (c : Nat) (f : VopF)
  /-- VOP_SUB (R176). -/
  | vopSub (c : Nat) (f : VopF)
  /-- VOP_MUL (R176). -/
  | vopMul (c : Nat) (f : VopF)
  /-- VOP_FMA (R176). -/
  | vopFma (c : Nat) (f : VopF)
  /-- VOP_MIN (R176). -/
  | vopMin (c : Nat) (f : VopF)
  /-- VOP_MAX (R176). -/
  | vopMax (c : Nat) (f : VopF)
  /-- VOP_CMPLT (R176). -/
  | vopCmplt (c : Nat) (f : VopF)
  /-- VOP_CMPLE (R176). -/
  | vopCmple (c : Nat) (f : VopF)
  /-- VOP_CMPEQ (R176). -/
  | vopCmpeq (c : Nat) (f : VopF)
  /-- VOP_SEL (R176). -/
  | vopSel (c : Nat) (f : VopF)
  /-- VOP_SQRT (R176). -/
  | vopSqrt (c : Nat) (f : VopF)
  /-- VOP_RCP (R176). -/
  | vopRcp (c : Nat) (f : VopF)
  /-- VOP_RSQ (R176). -/
  | vopRsq (c : Nat) (f : VopF)
  /-- VOP_EXP (R176). -/
  | vopExp (c : Nat) (f : VopF)
  /-- VOP_EXP2 (R176). -/
  | vopExp2 (c : Nat) (f : VopF)
  /-- VOP_LOG (R176). -/
  | vopLog (c : Nat) (f : VopF)
  /-- VOP_LOG2 (R176). -/
  | vopLog2 (c : Nat) (f : VopF)
  /-- VOP_RSUM (R177). -/
  | vopRsum (c : Nat) (f : VopF)
  /-- VOP_RMAX (R177). -/
  | vopRmax (c : Nat) (f : VopF)
  /-- VOP_IADD (R176). -/
  | vopIadd (c : Nat) (f : VopF)
  /-- VOP_ISUB (R176). -/
  | vopIsub (c : Nat) (f : VopF)
  /-- VOP_IMIN (R176). -/
  | vopImin (c : Nat) (f : VopF)
  /-- VOP_IMAX (R176). -/
  | vopImax (c : Nat) (f : VopF)
  /-- VOP_SHL (R176). -/
  | vopShl (c : Nat) (f : VopF)
  /-- VOP_SHR (R176). -/
  | vopShr (c : Nat) (f : VopF)
  /-- VOP_SAR (R176). -/
  | vopSar (c : Nat) (f : VopF)
  /-- VOP_CVT (R178). -/
  | vopCvt (c : Nat) (f : VopF)
  /-- VOP_COPY (R176). -/
  | vopCopy (c : Nat) (f : VopF)
  /-- VOP_SEED (R179). -/
  | vopSeed (c : Nat) (f : VopF)
  /-- VOP_FINISH (R122). -/
  | vopFinish (c : Nat)
  /-- TLD (R182). -/
  | tld (c : Nat) (f : TldF)
  /-- TLD_SC (R182). -/
  | tldSc (c : Nat) (f : TldF)
  /-- TST (R182). -/
  | tst (c : Nat) (f : TldF)
  /-- TST_SC (R182). -/
  | tstSc (c : Nat) (f : TldF)
  /-- TST_ADD (R184). -/
  | tstAdd (c : Nat) (f : TldF)
  /-- TST_ACC (R183). -/
  | tstAcc (c : Nat) (f : TldF)
  /-- GATH (R189). -/
  | gath (c : Nat) (f : GathF)
  /-- ATOM_ADD (R190). -/
  | atomAdd (c : Nat) (f : AtomF)
  /-- ATOM_MIN (R190). -/
  | atomMin (c : Nat) (f : AtomF)
  /-- ATOM_MAX (R190). -/
  | atomMax (c : Nat) (f : AtomF)
  /-- ATOM_SWAP (R190). -/
  | atomSwap (c : Nat) (f : AtomF)
  /-- ATOM_COMPARE_SWAP (R190). -/
  | atomCompareSwap (c : Nat) (f : AtomF)
  /-- SIG_WRITE (R191). -/
  | sigWrite (c : Nat) (f : SigF)
  /-- SIG_ADD (R191). -/
  | sigAdd (c : Nat) (f : SigF)
  /-- WAITV (R192). -/
  | waitv (c : Nat) (f : WaitvF)
  /-- WAITV_REREAD (R192). -/
  | waitvReread (c : Nat) (dev : Option Reply)
  /-- SYNC_FENCE (R193). -/
  | syncFence (c : Nat) (f : SyncF)
  /-- SYNC_BAR (R193). -/
  | syncBar (c : Nat) (f : SyncF)
  /-- STREAM_DATA_ARRIVAL (R133). -/
  | streamDataArrival (c : Nat) (tag : Nat) (r : Option Reply)
  /-- WRITE_ACK (R133). -/
  | writeAck (c : Nat) (tag : Nat) (r : Option Reply)
  /-- STREAM_DEADLINE_EXPIRY (R187). -/
  | streamDeadlineExpiry (c : Nat) (id : Nat)
  /-- DEVICE_WRITE_TIMEOUT (R234). -/
  | deviceWriteTimeout (c : Nat) (tag : Nat)
  /-- DEVICE_READ_TIMEOUT (R236). -/
  | deviceReadTimeout (c : Nat) (tag : Nat)
  /-- LAUNCH_START (R144). -/
  | launchStart (c : Nat)
  /-- SCRATCH_SCRUB (R128). -/
  | scratchScrub (c : Nat) (row : Nat) (errs : List EccHit)
  /-- WINDOW_ACCESS (R149). -/
  | windowAccess (who : Agent) (pa : Nat) (n : Nat) (wr : Option (List Byte))
  /-- WINDOW_ATOMIC (R150). -/
  | windowAtomic (who : Agent) (pa : Nat) (op : AtomOp) (fmt : AtomFmt) (v : BitVec 64) (cmp : BitVec 64)
  /-- READ_SHARED (R340). -/
  | readShared (who : Agent) (line : Nat) (e : Ecc)
  /-- READ_OWN (R340). -/
  | readOwn (who : Agent) (line : Nat) (e : Ecc)
  /-- WRITE_THROUGH_WRITE (R340). -/
  | writeThroughWrite (cl : Nat) (wid : Nat) (e : Ecc)
  /-- NON_ALLOCATING_READ (R340). -/
  | nonAllocatingRead (src : NaSrc) (e : Ecc)
  /-- NON_ALLOCATING_WRITE (R340). -/
  | nonAllocatingWrite (src : NaWrite) (bytes : List Byte)
  /-- FAR_ATOMIC (R340). -/
  | farAtomic (src : NaWrite) (op : AtomOp) (fmt : AtomFmt) (v : BitVec 64) (cmp : BitVec 64)
  /-- WRITEBACK (R340). -/
  | writeback (who : Nat) (line : Nat) (bytes : List (Nat × Byte)) (slc : SlcErr)
  /-- EVICTION_NOTICE (R340). -/
  | evictionNotice (who : Nat) (line : Nat) (slc : SlcErr)
  /-- OWNER_FORWARD (R341). -/
  | ownerForward (line : Nat) (hasCopy : Bool)
  /-- CLUSTER_INVALIDATION (R349). -/
  | clusterInvalidation (cl : Nat) (line : Nat)
  /-- CLUSTER_CACHE_READ (R347). -/
  | clusterCacheRead (c : Nat) (tag : Nat) (parity : CcParity)
  /-- HELD_WRITE_ACK (R348). -/
  | heldWriteAck (cl : Nat) (wid : Nat)
  /-- PROMOTE (R252). -/
  | promote (i : Nat)
  /-- EVICT (R252). -/
  | evict (i : Nat)
  /-- PIN (R261). -/
  | pin (i : Nat)
  /-- UNPIN (R261). -/
  | unpin (i : Nat)
  /-- SET_OWNER (R274). -/
  | setOwner (i : Nat)
  /-- BATCH (R270). -/
  | batch (i : Nat)
  /-- T0_ALLOC (R276). -/
  | t0Alloc (i : Nat)
  /-- T0_FREE (R276). -/
  | t0Free (i : Nat)
  /-- T3_CHARGE (R274). -/
  | t3Charge (i : Nat)
  /-- BATCH_START (R270). -/
  | batchStart (i : Nat)
  /-- MOVE_SWITCH (R255). -/
  | moveSwitch (m : MoveCopied)
  /-- MOVE_SWITCH_COMPLETE (R256). -/
  | moveSwitchComplete (slot : Nat)
  /-- DRAMC_BLOCK_QUERY (R280). -/
  | dramcBlockQuery (v : BitVec 32)
  /-- CMD_RING_TAIL_WRITE (R269). -/
  | cmdRingTailWrite (v : BitVec 32)
  /-- DISPATCH_DECIDE (R291). -/
  | dispatchDecide (uid : Nat)
  /-- DISPATCH_REUSE (R308). -/
  | dispatchReuse (uid : Nat)
  /-- DISPATCH_SHARE (R305). -/
  | dispatchShare (die : Nat)
  /-- DISPATCH_PACKET_WRITE (R304). -/
  | dispatchPacketWrite (die : Nat) (core : Nat)
  /-- PATROL_SCRUB_VISIT (R321). -/
  | patrolScrubVisit (ctl : Nat) (errs : List EccHit)
  /-- REMAP_REQ (R322). -/
  | remapReq (ctl : Nat) (v : RowCopied)
  /-- HBM_TEMP_READ (R330). -/
  | hbmTempRead (ctl : Nat) (temp : Nat)
  /-- MARGIN_START (R333). -/
  | marginStart (ctl : Nat) (v : BitVec 32)
  /-- MARGIN_RUN_DONE (R334). -/
  | marginRunDone (ctl : Nat) (errors : Nat)
  /-- HBMC_DIR_QUERY (R366). -/
  | hbmcDirQuery (ctl : Nat) (v : BitVec 64)
  /-- BISNP_TIMEOUT (R359). -/
  | bisnpTimeout (line : Nat)
  /-- WALK_COMPLETE (R380). -/
  | walkComplete (c : Nat)
  /-- INV_RING_ENTRY (R392). -/
  | invRingEntry (die : Nat)
  /-- INVALIDATION_ACK (R388). -/
  | invalidationAck (inv : Nat) (atu : Nat)
  /-- NW_FENCE_CX (R404). -/
  | nwFenceCx (h : Nat) (w : BitVec 32)
  /-- NW_FENCE_RG (R404). -/
  | nwFenceRg (h : Nat) (w : BitVec 32)
  /-- PD_WARM_RESET (R420). -/
  | pdWarmReset (v : BitVec 32)
  /-- WARM_RESET_RELEASE (R420). -/
  | warmResetRelease
  /-- PD_WDOG_EXPIRE (R425). -/
  | pdWdogExpire (p : Nat)
  /-- PD_WDOG_COUNT_WRITE (R425). -/
  | pdWdogCountWrite (p : Nat) (v : BitVec 32)
  /-- MSI_WRITE (R416). -/
  | msiWrite (off : Nat) (size : Nat) (v : BitVec 64)
  /-- PROCESSOR_DEVICE_TIMEOUT (R238). -/
  | processorDeviceTimeout (h : Nat) (id : Nat)
  /-- CREATE (R432). -/
  | create (die : Nat) (q : Nat)
  /-- ENABLE (R431). -/
  | enable (die : Nat) (q : Nat)
  /-- DISABLE (R431). -/
  | disable (die : Nat) (q : Nat)
  /-- DESTROY (R431). -/
  | destroy (die : Nat) (q : Nat)
  /-- RESUME (R489). -/
  | resume (die : Nat) (q : Nat)
  /-- DOORBELL_REREAD (R436). -/
  | doorbellReread (die : Nat) (q : Nat) (host : Option Reply)
  /-- DOORBELL_PERIODIC_READ (R435). -/
  | doorbellPeriodicRead (die : Nat) (host : List (Nat × Reply))
  /-- DESCRIPTOR_REREAD (R439). -/
  | descriptorReread (die : Nat) (q : Nat) (host : Option Reply)
  /-- DESCRIPTOR_ACCEPT (R440). -/
  | descriptorAccept (die : Nat)
  /-- LAUNCH (R451). -/
  | launch (uid : Nat)
  /-- LAUNCH_RECIPE (R471). -/
  | launchRecipe (uid : Nat)
  /-- RECIPE_NODE_START (R472). -/
  | recipeNodeStart (uid : Nat) (node : Nat)
  /-- INLINE_WRITE (R458). -/
  | inlineWrite (uid : Nat)
  /-- SIGNAL (R456). -/
  | signal (uid : Nat)
  /-- WAIT (R457). -/
  | wait (uid : Nat) (dev : Option Reply)
  /-- WAIT_REREAD (R457). -/
  | waitReread (uid : Nat) (dev : Option Reply)
  /-- PHASE (R464). -/
  | phase (uid : Nat)
  /-- FENCE (R460). -/
  | fence (uid : Nat)
  /-- INSTALL (R469). -/
  | install (uid : Nat)
  /-- REMOVE (R470). -/
  | remove (uid : Nat)
  /-- INVALIDATE_RANGE (R390). -/
  | invalidateRange (uid : Nat)
  /-- PEEL_HINT (R465). -/
  | peelHint (uid : Nat)
  /-- NOP (R466). -/
  | nop (uid : Nat)
  /-- COPY (R455). -/
  | copy (c : Nat)
  /-- FILL (R455). -/
  | fill (c : Nat)
  /-- COPY_2D (R455). -/
  | copy2d (c : Nat)
  /-- FE_HINV (R449). -/
  | feHinv (die : Nat) (v : BitVec 32)
  /-- FE_QQUERY (R477). -/
  | feQquery (die : Nat) (v : BitVec 32)
  /-- FE_RECIPE_QUERY (R477). -/
  | feRecipeQuery (die : Nat) (v : BitVec 32)
  /-- OPERATION_COMPLETE (R484). -/
  | operationComplete (uid : Nat) (act : List (Nat × Nat))
  /-- COMPLETION_WRITE_FAIL (R487). -/
  | completionWriteFail (uid : Nat) (cause : WriteFail)
  /-- INTR_HOLDOFF_EXPIRY (R486). -/
  | intrHoldoffExpiry (q : Nat)
  /-- QUEUE_TIMEOUT (R490). -/
  | queueTimeout (uid : Nat)
  /-- CORE_STOP_TIMEOUT (R491). -/
  | coreStopTimeout (c : Nat)
  /-- HANG_DETECT (R496). -/
  | hangDetect (c : Nat)
  /-- REPLAY_TIMEOUT (R496). -/
  | replayTimeout (die : Nat)
  /-- CONTEXT_RESET (R493). -/
  | contextReset (v : BitVec 32)
  /-- RAS_CTX_QUERY (R506). -/
  | rasCtxQuery (v : BitVec 32)
  /-- POINT_DECISION (R514). -/
  | pointDecision
  /-- VOLTAGE_SETTLED (R514). -/
  | voltageSettled (die : Nat)
  /-- RAIL_EXCESS (R507). -/
  | railExcess (x : RailAmps)
  /-- LIMITER_RATIO_STEP (R508). -/
  | limiterRatioStep (rail : Nat) (amps : Nat)
  /-- INPUT_EXCESS (R524). -/
  | inputExcess (amps : Nat)
  /-- GATE (R529). -/
  | gate (path : BitVec 64) (wfi : Bool)
  /-- UNGATE (R529). -/
  | ungate (path : BitVec 64)
  /-- QUERY (R529). -/
  | query (path : BitVec 64)
  /-- GATING_COMPLETE (R241). -/
  | gatingComplete (path : BitVec 64)
  /-- DOMAIN_WAKE (R529). -/
  | domainWake (path : BitVec 64)
  /-- SENSOR_READ (R530). -/
  | sensorRead (temps : List (Nat × Nat))
  /-- THERMAL_TRIP (R52). -/
  | thermalTrip (die : Nat)
  /-- INPUT_UNDERVOLTAGE (R677). -/
  | inputUndervoltage
  /-- INPUT_POWER_ON (R677). -/
  | inputPowerOn
  /-- PROOF_SUBMIT (R542). -/
  | proofSubmit (v : BitVec 32)
  /-- PROOF_START (R542). -/
  | proofStart (i : Nat)
  /-- PROOF_END (R541). -/
  | proofEnd (i : Nat) (d : ProofDigests)
  /-- PROOF_SKIP (R541). -/
  | proofSkip (i : Nat)
  /-- SUSPECT (R558). -/
  | suspect (path : BitVec 64) (seq : BitVec 8)
  /-- RELEASE (R558). -/
  | release (path : BitVec 64) (seq : BitVec 8)
  /-- QUARANTINE (R548). -/
  | quarantine (path : BitVec 64) (seq : BitVec 8)
  /-- CORE_RESET (R558). -/
  | coreReset (path : BitVec 64) (seq : BitVec 8)
  /-- CORE_RESET_EXECUTE (R153). -/
  | coreResetExecute (c : Nat)
  /-- QUARANTINE_APPLY (R548). -/
  | quarantineApply
  /-- RAS_UNIT_QUERY (R556). -/
  | rasUnitQuery (v : BitVec 64)
  /-- RAS_PROOF_QUERY (R560). -/
  | rasProofQuery (v : BitVec 32)
  /-- ADL_FLIT_CRC_FAIL (R572). -/
  | adlFlitCrcFail (link : Nat) (md : Nat) (again : Bool)
  /-- LASER_LOW (R576). -/
  | laserLow (oe : Nat)
  /-- LASER_RECOVER (R576). -/
  | laserRecover (oe : Nat)
  /-- RUFEN_FLIT_RECEIVE (R579). -/
  | rufenFlitReceive (port : Nat) (flit : List Byte) (sym : Nat) (crcOk : Bool)
  /-- RUFEN_REPLAY_TIMEOUT (R579). -/
  | rufenReplayTimeout (port : Nat)
  /-- NODE_ISOLATE (R583). -/
  | nodeIsolate (node : Nat)
  /-- REMOTE_REQUEST (R582). -/
  | remoteRequest (r : RemoteReq)
  /-- STEP_ISSUE (R584). -/
  | stepIssue (v : BitVec 32)
  /-- STEP_RECEIVE (R585). -/
  | stepReceive (src : Nat) (gate : BitVec 4) (line : BitVec 48) (value : BitVec 32)
  /-- STEP_GATE_WRITE (R584). -/
  | stepGateWrite (gate : BitVec 4)
  /-- FRESET_ISSUE (R586). -/
  | fresetIssue (v : BitVec 32)
  /-- FRESET_RECEIVE (R586). -/
  | fresetReceive (line : BitVec 48)
  /-- FRESET_ACTION (R586). -/
  | fresetAction
  /-- FRESET_END (R586). -/
  | fresetEnd (reach : BitVec 128)
  /-- D2D_QUERY (R587). -/
  | d2dQuery (v : BitVec 32)
  /-- CXL_RECOVERY_ENTER (R612). -/
  | cxlRecoveryEnter
  /-- CXL_RETRAIN_LIMIT (R612). -/
  | cxlRetrainLimit
  /-- CXL_LINK_DOWN (R612). -/
  | cxlLinkDown (cause : LinkDownCause)
  /-- CXL_SESSION_START (R614). -/
  | cxlSessionStart
  /-- MEMRD_SHARED (R600). -/
  | memrdShared (dpa : Nat) (e : Ecc)
  /-- MEMRD_ANY (R600). -/
  | memrdAny (dpa : Nat) (e : Ecc)
  /-- MEMRD_INVALID (R600). -/
  | memrdInvalid (dpa : Nat) (e : Ecc)
  /-- MEMINV_ANY (R600). -/
  | meminvAny (dpa : Nat)
  /-- MEMINV_INVALID (R600). -/
  | meminvInvalid (dpa : Nat)
  /-- MEMWR_OWNER (R600). -/
  | memwrOwner (dpa : Nat) (bytes : List (Nat × Byte)) (w : HostWrite)
  /-- MEMWR_NON_OWNER (R600). -/
  | memwrNonOwner (dpa : Nat) (bytes : List (Nat × Byte)) (w : HostWrite)
  /-- SNPINV (R607). -/
  | snpinv (hpa : Nat)
  /-- SNPDATA (R607). -/
  | snpdata (hpa : Nat)
  /-- SNPCUR (R607). -/
  | snpcur (hpa : Nat)
  /-- GLOBAL_OBSERVATION (R606). -/
  | globalObservation (c : Nat) (tag : Nat)
  /-- BAR0_ACCESS (R595). -/
  | bar0Access (off : Nat) (size : Nat) (wr : Option (BitVec 64))
  /-- BAR2_ACCESS (R596). -/
  | bar2Access (off : Nat) (n : Nat) (wr : Option (List Byte))
  /-- HDM_DECODER_COMMIT (R598). -/
  | hdmDecoderCommit (base : Nat) (ways : Nat)
  /-- MSIX_SEND (R611). -/
  | msixSend (vec : Nat)
  /-- MODULE_COLD_RESET (R631). -/
  | moduleColdReset (cause : ColdCause)
  /-- MODULE_WARM_RESET (R631). -/
  | moduleWarmReset (us : Nat)
  /-- RESET_RELEASE (R632). -/
  | resetRelease (env : BootEnv)
  /-- HART_BOOT_RELEASE (R632). -/
  | hartBootRelease
  /-- RECORD_WRITE_START (R624). -/
  | recordWriteStart (v : BitVec 32)
  /-- RECORD_WRITE_DONE (R625). -/
  | recordWriteDone (verified : Bool)
  /-- DEBUG_TOKEN_SUBMIT (R641). -/
  | debugTokenSubmit (v : BitVec 64)
  /-- MANAGEMENT_CHUNK (R653). -/
  | managementChunk (bytes : List Byte)
  /-- MCTP_CONTROL (R655). -/
  | mctpControl (body : List Byte)
  /-- PLDM_TYPE_0 (R655). -/
  | pldmType0 (body : List Byte)
  /-- PLDM_TYPE_2 (R655). -/
  | pldmType2 (sensor : Nat)
  /-- PLDM_TYPE_5 (R655). -/
  | pldmType5 (region : Nat) (image : FlashRec)
  /-- GET_VERSION (R639). -/
  | getVersion (body : List Byte)
  /-- GET_CAPABILITIES (R639). -/
  | getCapabilities (body : List Byte)
  /-- NEGOTIATE_ALGORITHMS (R639). -/
  | negotiateAlgorithms (body : List Byte)
  /-- GET_DIGESTS (R639). -/
  | getDigests (body : List Byte)
  /-- GET_CERTIFICATE (R639). -/
  | getCertificate (body : List Byte)
  /-- CHALLENGE (R639). -/
  | challenge (body : List Byte)
  /-- GET_MEASUREMENTS (R639). -/
  | getMeasurements (index : Nat)
  /-- UNIT_QUERY (R656). -/
  | unitQuery (path : BitVec 64)
  /-- UNIT_CMD (R657). -/
  | unitCmd (path : BitVec 64) (op : BitVec 3)
  /-- SERVICE_CLEAR (R657). -/
  | serviceClear (paths : List (BitVec 64))
  /-- DEBUG_TOKEN (R641). -/
  | debugToken (body : List Byte)
  /-- SCAN_SELECT (R658). -/
  | scanSelect (path : BitVec 64)
  /-- LOG_READ (R656). -/
  | logRead (index : Nat)
  /-- SCAN_IN_PACKET (R658). -/
  | scanInPacket (bits : Nat) (data : List Byte) (crcOk : Bool)
  /-- MODULE_FRAME_SEND (R652). -/
  | moduleFrameSend
  /-- REGISTER_WRITE (R41). -/
  | registerWrite (off : Nat) (size : Nat) (v : BitVec 64)
  /-- READOUT_COMPLETE (R75). -/
  | readoutComplete (c : Nat) (eng : Nat) (x : Option TwinFault)
  /-- WAITV_DEADLINE_EXPIRY (R192). -/
  | waitvDeadlineExpiry (c : Nat)
  /-- PROOF_RUN_DUE (R542). -/
  | proofRunDue (i : Nat)
  /-- ADL_MODULE_RETRAIN_DONE (R572). -/
  | adlModuleRetrainDone (link : Nat) (md : Nat) (res : RetrainResult)
  /-- RUFEN_PORT_TRAINED (R579). -/
  | rufenPortTrained (port : Nat) (ok : Bool)
  /-- CXL_LINK_TRAINING_END (R612). -/
  | cxlLinkTrainingEnd (ok : Bool) (width : Nat) (rate : Nat)
  /-- HOST_BISNP_RESPONSE (R602). -/
  | hostBisnpResponse (line : Nat) (bytes : List (Nat × Byte))
  /-- HART_FENCE (R414). -/
  | hartFence (h : Nat) (w : BitVec 32)
  /-- HART_STORE (R407). -/
  | hartStore (h : Nat) (pa : Nat) (src : HartWrite) (pbmt : Pbmt)
  /-- HART_AMO (R411). -/
  | hartAmo (h : Nat) (pa : Nat) (op : HartAtomic) (wide : Bool) (v : BitVec 64) (pbmt : Pbmt)
  deriving DecidableEq, Repr

end Sys2Proof
end

