-- ==== Sys2Proof/WellFormed.lean ====
section
/-! DEFINITION. WellFormed.lean: which commands name something that exists on a part: the numbers of their units lie in range,
and their lists have the length of what they stand for. -/

namespace Sys2Proof

/-- A number names one of `n` things. -/
def idx (n i : Nat) : Bool := decide (i < n)

/-- A register access has a size of 1, 2, 4 or 8 bytes. -/
def sizeOk (size : Nat) : Bool := size == 1 || size == 2 || size == 4 || size == 8

/-- An error of a system-level cache comes with a processor die's line, and its word lies in the slice (R356). -/
def slcOk (who : Nat) (e : SlcErr) : Bool :=
  match e with
  | .none => true
  | .corrected => who == 16 || who == 17
  | .data off sectors => (who == 16 || who == 17) && idx 0xC00000 off && off % 8 == 0 && sectors.all (idx 4)
  | .tag off => (who == 16 || who == 17) && idx 0xC00000 off && off % 8 == 0

/-- An extension word belongs to an instruction whose X is 1 (R162). -/
def extOk (h : Hdr) (e : BitVec 64) : Bool := h.x || e == 0

/-- A sender exists: cores, clusters, front ends, processor dies and nodes by their numbers (R200, R337). -/
def agentOk (a : Agent) : Bool :=
  match a with
  | .core c => idx 128 c
  | .cluster k => idx 16 k
  | .fe d => idx 4 d
  | .pd p => idx 2 p
  | .host => true
  | .peel => true
  | .remote node => idx 128 node
  | .hart h a => idx 96 h && decide (a.off + a.n ≤ 128) && (match a.vec with
    | some r => idx 32 r && decide (a.n ≤ 64)
    | none => true)

/-- What sends a non-allocating request exists. -/
def srcOk (s : NaSrc) : Bool :=
  match s with
  | .tag c _ => idx 128 c
  | .agent who _ _ => agentOk who

/-- A store of a hart writes 1 to 128 bytes: given ones, or elements of one vector register (R401, R410). -/
def hartDataOk (d : HartData) : Bool :=
  match d with
  | .scalar bs => idx 129 bs.length
  | .vector reg eew n => idx 32 reg && sizeOk eew && decide (eew * n ≤ 64)

/-- What an acknowledgement is for: a core, a hart from 256 on, or a front end from 1,024 on. -/
def ackOk (c : Nat) : Bool := idx 128 c || (256 ≤ c && idx 352 c) || (1024 ≤ c && idx 1028 c)

/-- The command is well formed. -/
def wellFormed (i : Instr) : Bool :=
  match i with
  | .markEdge _ => true
  | .lineBoundary m => m.rails.all (fun r => idx 17 r.rail)
  | .bootPlateTimeout => true
  | .rackFrame bytes => bytes.length == 14
  | .hatchClockLoss => true
  | .hatchClockReturn => true
  | .pitchWrite _ => true
  | .stagedWrite off size _ => sizeOk size && idx 0x10000000 off
  | .commitArm _ => true
  | .sclAdd c f => idx 128 c && extOk f.h f.ext
  | .sclSub c f => idx 128 c && extOk f.h f.ext
  | .sclMul c f => idx 128 c && extOk f.h f.ext
  | .sclAnd c f => idx 128 c && extOk f.h f.ext
  | .sclOr c f => idx 128 c && extOk f.h f.ext
  | .sclXor c f => idx 128 c && extOk f.h f.ext
  | .sclShl c f => idx 128 c && extOk f.h f.ext
  | .sclShr c f => idx 128 c && extOk f.h f.ext
  | .sclSar c f => idx 128 c && extOk f.h f.ext
  | .sclMin c f => idx 128 c && extOk f.h f.ext
  | .sclMax c f => idx 128 c && extOk f.h f.ext
  | .sclMinu c f => idx 128 c && extOk f.h f.ext
  | .sclMaxu c f => idx 128 c && extOk f.h f.ext
  | .sclCmpeq c f => idx 128 c && extOk f.h f.ext
  | .sclCmpne c f => idx 128 c && extOk f.h f.ext
  | .sclCmplt c f => idx 128 c && extOk f.h f.ext
  | .sclCmpltu c f => idx 128 c && extOk f.h f.ext
  | .sclCmpge c f => idx 128 c && extOk f.h f.ext
  | .sclCmpgeu c f => idx 128 c && extOk f.h f.ext
  | .sclPand c f => idx 128 c && extOk f.h f.ext
  | .sclPor c f => idx 128 c && extOk f.h f.ext
  | .sclPxor c f => idx 128 c && extOk f.h f.ext
  | .sclPandn c f => idx 128 c && extOk f.h f.ext
  | .sclLds c f => idx 128 c && extOk f.h f.ext
  | .sclSts c f => idx 128 c && extOk f.h f.ext
  | .sclTdset c f => idx 128 c && extOk f.h f.ext
  | .sclTdget0 c f => idx 128 c && extOk f.h f.ext
  | .sclTdget1 c f => idx 128 c && extOk f.h f.ext
  | .sclTdadj c f => idx 128 c && extOk f.h f.ext
  | .sclRdsr c f => idx 128 c && extOk f.h f.ext
  | .ctlNop c _ => idx 128 c
  | .ctlB c _ => idx 128 c
  | .ctlLoop c _ => idx 128 c
  | .ctlCall c _ => idx 128 c
  | .ctlRet c _ => idx 128 c
  | .ctlEnd c _ => idx 128 c
  | .ctlTrap c _ => idx 128 c
  | .tmma c _ => idx 128 c
  | .tmmaP c _ => idx 128 c
  | .tmmaRetire c eng _ => idx 128 c && idx 4 eng
  | .vopAdd c _ => idx 128 c
  | .vopSub c _ => idx 128 c
  | .vopMul c _ => idx 128 c
  | .vopFma c _ => idx 128 c
  | .vopMin c _ => idx 128 c
  | .vopMax c _ => idx 128 c
  | .vopCmplt c _ => idx 128 c
  | .vopCmple c _ => idx 128 c
  | .vopCmpeq c _ => idx 128 c
  | .vopSel c _ => idx 128 c
  | .vopSqrt c _ => idx 128 c
  | .vopRcp c _ => idx 128 c
  | .vopRsq c _ => idx 128 c
  | .vopExp c _ => idx 128 c
  | .vopExp2 c _ => idx 128 c
  | .vopLog c _ => idx 128 c
  | .vopLog2 c _ => idx 128 c
  | .vopRsum c _ => idx 128 c
  | .vopRmax c _ => idx 128 c
  | .vopIadd c _ => idx 128 c
  | .vopIsub c _ => idx 128 c
  | .vopImin c _ => idx 128 c
  | .vopImax c _ => idx 128 c
  | .vopShl c _ => idx 128 c
  | .vopShr c _ => idx 128 c
  | .vopSar c _ => idx 128 c
  | .vopCvt c _ => idx 128 c
  | .vopCopy c _ => idx 128 c
  | .vopSeed c _ => idx 128 c
  | .vopFinish c => idx 128 c
  | .tld c f => idx 128 c && extOk f.h f.ext && !f.sc
  | .tldSc c f => idx 128 c && extOk f.h f.ext && f.sc
  | .tst c f => idx 128 c && extOk f.h f.ext && !f.sc && !f.add && !f.acc
  | .tstSc c f => idx 128 c && extOk f.h f.ext && f.sc && !f.add && !f.acc
  | .tstAdd c f => idx 128 c && extOk f.h f.ext && f.add && !f.acc
  | .tstAcc c f => idx 128 c && extOk f.h f.ext && f.acc
  | .gath c f => idx 128 c && extOk f.h f.ext
  | .atomAdd c _ => idx 128 c
  | .atomMin c _ => idx 128 c
  | .atomMax c _ => idx 128 c
  | .atomSwap c _ => idx 128 c
  | .atomCompareSwap c _ => idx 128 c
  | .sigWrite c _ => idx 128 c
  | .sigAdd c _ => idx 128 c
  | .waitv c f => idx 128 c && extOk f.h f.ext
  | .waitvReread c _ => idx 128 c
  | .syncFence c _ => idx 128 c
  | .syncBar c _ => idx 128 c
  | .streamDataArrival c _ _ => idx 128 c
  | .writeAck c _ _ => ackOk c
  | .streamDeadlineExpiry c _ => idx 128 c
  | .deviceWriteTimeout c _ => idx 128 c || (1024 ≤ c && idx 1028 c)
  | .deviceReadTimeout c _ => idx 128 c
  | .launchStart c => idx 128 c
  | .scratchScrub c _ _ => idx 128 c
  | .windowAccess who _ _ _ => agentOk who
  | .windowAtomic who _ _ _ _ _ => agentOk who
  | .readShared who _ _ => agentOk who
  | .readOwn who _ _ => agentOk who
  | .writeThroughWrite cl _ _ => idx 16 cl
  | .nonAllocatingRead src _ => srcOk src
  | .nonAllocatingWrite w _ => srcOk w.src
  | .farAtomic w _ _ _ _ => srcOk w.src
  | .writeback who _ bytes slc => idx 23 who && bytes.all (fun b => idx 128 b.1) && slcOk who slc
  | .evictionNotice who _ slc => idx 23 who && slcOk who slc
  | .ownerForward _ _ => true
  | .clusterInvalidation cl _ => idx 16 cl
  | .clusterCacheRead c _ _ => idx 128 c
  | .heldWriteAck cl _ => idx 16 cl
  | .promote _ => true
  | .evict _ => true
  | .pin _ => true
  | .unpin _ => true
  | .setOwner _ => true
  | .batch _ => true
  | .t0Alloc _ => true
  | .t0Free _ => true
  | .t3Charge _ => true
  | .batchStart _ => true
  | .moveSwitch _ => true
  | .moveSwitchComplete _ => true
  | .dramcBlockQuery _ => true
  | .cmdRingTailWrite _ => true
  | .dispatchDecide _ => true
  | .dispatchReuse _ => true
  | .dispatchShare die => idx 4 die
  | .dispatchPacketWrite die core => idx 4 die && idx 32 core
  | .patrolScrubVisit ctl _ => idx 32 ctl
  | .remapReq ctl _ => idx 32 ctl
  | .hbmTempRead ctl _ => idx 32 ctl
  | .marginStart ctl _ => idx 32 ctl
  | .marginRunDone ctl _ => idx 32 ctl
  | .hbmcDirQuery ctl _ => idx 32 ctl
  | .bisnpTimeout _ => true
  | .walkComplete c => idx 128 c
  | .invRingEntry die => idx 4 die
  | .invalidationAck _ _ => true
  | .nwFenceCx h _ => idx 96 h
  | .nwFenceRg h _ => idx 96 h
  | .pdWarmReset _ => true
  | .warmResetRelease => true
  | .pdWdogExpire p => idx 2 p
  | .pdWdogCountWrite p _ => idx 2 p
  | .msiWrite off size _ => sizeOk size && idx 0x10000000 off
  | .processorDeviceTimeout h _ => idx 96 h
  | .create die q => idx 4 die && idx 1024 q
  | .enable die q => idx 4 die && idx 1024 q
  | .disable die q => idx 4 die && idx 1024 q
  | .destroy die q => idx 4 die && idx 1024 q
  | .resume die q => idx 4 die && idx 1024 q
  | .doorbellReread die q _ => idx 4 die && idx 1024 q
  | .doorbellPeriodicRead die _ => idx 4 die
  | .descriptorReread die q _ => idx 4 die && idx 1024 q
  | .descriptorAccept die => idx 4 die
  | .launch _ => true
  | .launchRecipe _ => true
  | .recipeNodeStart _ node => idx 64 node
  | .inlineWrite _ => true
  | .signal _ => true
  | .wait _ _ => true
  | .waitReread _ _ => true
  | .phase _ => true
  | .fence _ => true
  | .install _ => true
  | .remove _ => true
  | .invalidateRange _ => true
  | .peelHint _ => true
  | .nop _ => true
  | .copy c => idx 128 c
  | .fill c => idx 128 c
  | .copy2d c => idx 128 c
  | .feHinv die _ => idx 4 die
  | .feQquery die _ => idx 4 die
  | .feRecipeQuery die _ => idx 4 die
  | .operationComplete _ _ => true
  | .completionWriteFail _ _ => true
  | .intrHoldoffExpiry q => idx 1024 q
  | .queueTimeout _ => true
  | .coreStopTimeout c => idx 128 c
  | .hangDetect c => idx 128 c
  | .replayTimeout die => idx 4 die
  | .contextReset _ => true
  | .rasCtxQuery _ => true
  | .pointDecision => true
  | .voltageSettled die => idx 6 die
  | .railExcess x => idx 17 x.rail
  | .limiterRatioStep rail _ => idx 18 rail
  | .inputExcess _ => true
  | .gate _ _ => true
  | .ungate _ => true
  | .query _ => true
  | .gatingComplete _ => true
  | .domainWake _ => true
  | .sensorRead temps => temps.all (fun t => idx 32 t.1)
  | .thermalTrip die => idx 32 die
  | .inputUndervoltage => true
  | .inputPowerOn => true
  | .proofSubmit _ => true
  | .proofStart _ => true
  | .proofEnd _ _ => true
  | .proofSkip _ => true
  | .suspect _ _ => true
  | .release _ _ => true
  | .quarantine _ _ => true
  | .coreReset _ _ => true
  | .coreResetExecute c => idx 128 c
  | .quarantineApply => true
  | .rasUnitQuery _ => true
  | .rasProofQuery _ => true
  | .adlFlitCrcFail link md _ => idx 28 link && idx 4 md
  | .laserLow oe => idx 8 oe
  | .laserRecover oe => idx 8 oe
  | .rufenFlitReceive port flit _ _ => idx 32 port && flit.length == 256
  | .rufenReplayTimeout port => idx 32 port
  | .nodeIsolate node => idx 128 node
  | .remoteRequest r => idx 128 r.node
  | .stepIssue _ => true
  | .stepReceive src _ _ _ => idx 128 src
  | .stepGateWrite _ => true
  | .fresetIssue _ => true
  | .fresetReceive _ => true
  | .fresetAction => true
  | .fresetEnd _ => true
  | .d2dQuery _ => true
  | .cxlRecoveryEnter => true
  | .cxlRetrainLimit => true
  | .cxlLinkDown _ => true
  | .cxlSessionStart => true
  | .memrdShared _ _ => true
  | .memrdAny _ _ => true
  | .memrdInvalid _ _ => true
  | .meminvAny _ => true
  | .meminvInvalid _ => true
  | .memwrOwner _ bytes _ => bytes.all (fun b => idx 128 b.1)
  | .memwrNonOwner _ bytes _ => bytes.all (fun b => idx 128 b.1)
  | .snpinv _ => true
  | .snpdata _ => true
  | .snpcur _ => true
  | .globalObservation c _ => ackOk c || c == 512 || c == 513
  | .bar0Access off size _ => sizeOk size && idx 0x10000000 off
  | .bar2Access off _ _ => idx 0x10000000 off
  | .hdmDecoderCommit _ _ => true
  | .msixSend vec => idx 2048 vec
  | .moduleColdReset _ => true
  | .moduleWarmReset _ => true
  | .resetRelease _ => true
  | .hartBootRelease => true
  | .recordWriteStart _ => true
  | .recordWriteDone _ => true
  | .debugTokenSubmit _ => true
  | .managementChunk _ => true
  | .mctpControl _ => true
  | .pldmType0 _ => true
  | .pldmType2 _ => true
  | .pldmType5 region _ => idx 4 region
  | .getVersion _ => true
  | .getCapabilities _ => true
  | .negotiateAlgorithms _ => true
  | .getDigests _ => true
  | .getCertificate _ => true
  | .challenge _ => true
  | .getMeasurements _ => true
  | .unitQuery _ => true
  | .unitCmd _ _ => true
  | .serviceClear _ => true
  | .debugToken _ => true
  | .scanSelect _ => true
  | .logRead _ => true
  | .scanInPacket bits data _ => data.length == (bits + 7) / 8
  | .moduleFrameSend => true
  | .registerWrite off size _ => sizeOk size && idx 0x10000000 off
  | .readoutComplete c eng _ => idx 128 c && idx 4 eng
  | .waitvDeadlineExpiry c => idx 128 c
  | .proofRunDue _ => true
  | .adlModuleRetrainDone link md _ => idx 28 link && idx 4 md
  | .rufenPortTrained port _ => idx 32 port
  | .cxlLinkTrainingEnd _ width _ => idx 17 width
  | .hostBisnpResponse _ bytes => bytes.all (fun b => idx 128 b.1)
  | .hartFence h _ => idx 96 h
  | .hartStore h _ w _ => idx 96 h && hartDataOk w.data
  | .hartAmo h _ _ _ _ _ => idx 96 h

end Sys2Proof
end

