-- ==== Sys2Proof/Decode.lean ====
section
/-! DEFINITION. Decode.lean: the words of the tile instructions, read and written (R162 to R193). The opcode table gives no
row bits, so `decodeTableWord` answers none. -/

namespace Sys2Proof

/-! ## The opcode table -/

/-- The command a word of the opcode table spells: no row of the table gives bits. -/
def decodeTableWord (_nbits _w : Nat) : Option Instr := none

/-! ## The header: R162 -/

/-- The header of a word. -/
def hdrOf (w : BitVec 64) : Hdr := { x := w.getLsbD 59, pred := w.extractLsb' 56 3, pneg := w.getLsbD 55 }

/-- Bits [63:55] of a word: class and header. -/
def hdrBits (cls : BitVec 4) (h : Hdr) : BitVec 9 := cls ++ BitVec.ofBool h.x ++ h.pred ++ BitVec.ofBool h.pneg

/-- The extension word of an instruction: the next word when X is 1. -/
def extWord (h : Hdr) (e : BitVec 64) : BitVec 64 := if h.x then e else 0

/-! ## The fields of each class -/

/-- The fields of SCL (R166). -/
def sclFields (w e : BitVec 64) : SclF :=
  { h := hdrOf w, rd := w.extractLsb' 44 5, ra := w.extractLsb' 39 5, rb := w.extractLsb' 34 5, imm := w.getLsbD 33,
    rsv := w.getLsbD 32, imm32 := w.extractLsb' 0 32, ext := extWord (hdrOf w) e }

/-- The word of SCL (R166). -/
def sclWord (op : BitVec 6) (f : SclF) : BitVec 64 :=
  hdrBits 0 f.h ++ op ++ f.rd ++ f.ra ++ f.rb ++ BitVec.ofBool f.imm ++ BitVec.ofBool f.rsv ++ f.imm32

/-- The fields of CTL (R168). -/
def ctlFields (w : BitVec 64) : CtlF :=
  { h := hdrOf w, ra := w.extractLsb' 45 5, rsv := w.extractLsb' 24 21, offset := w.extractLsb' 0 24 }

/-- The word of CTL (R168). -/
def ctlWord (op : BitVec 5) (f : CtlF) : BitVec 64 :=
  hdrBits 1 f.h ++ op ++ f.ra ++ f.rsv ++ f.offset

/-- The fields of TMMA (R172). -/
def tmmaFields (w : BitVec 64) : TmmaF :=
  { h := hdrOf w, eng := w.extractLsb' 53 2, acc := w.extractLsb' 50 3, ta := w.extractLsb' 46 4,
    tb := w.extractLsb' 42 4, rpt := w.extractLsb' 34 8, zero := w.getLsbD 33, sk := w.extractLsb' 28 5,
    rsv := w.extractLsb' 0 28 }

/-- The word of TMMA (R172). -/
def tmmaWord (cls : BitVec 4) (f : TmmaF) : BitVec 64 :=
  hdrBits cls f.h ++ f.eng ++ f.acc ++ f.ta ++ f.tb ++ f.rpt ++ BitVec.ofBool f.zero ++ f.sk ++ f.rsv

/-- The fields of VOP (R176). -/
def vopFields (w : BitVec 64) : VopF :=
  { h := hdrOf w, td := w.extractLsb' 45 4, ts1 := w.extractLsb' 41 4, ts2 := w.extractLsb' 37 4,
    ts3 := w.extractLsb' 33 4, bc := w.extractLsb' 31 2, rs := w.extractLsb' 26 5, sat := w.getLsbD 25,
    sr := w.getLsbD 24, rsv := w.extractLsb' 0 24 }

/-- The word of VOP (R176). -/
def vopWord (op : BitVec 6) (f : VopF) : BitVec 64 :=
  hdrBits 4 f.h ++ op ++ f.td ++ f.ts1 ++ f.ts2 ++ f.ts3 ++ f.bc ++ f.rs ++ BitVec.ofBool f.sat ++
    BitVec.ofBool f.sr ++ f.rsv

/-- The fields of TLD (R180). -/
def tldFields (w e : BitVec 64) : TldF :=
  { h := hdrOf w, td := w.extractLsb' 51 4, ra := w.extractLsb' 46 5, rs := w.extractLsb' 41 5,
    mark := w.extractLsb' 39 2, scope := w.extractLsb' 37 2, sc := w.getLsbD 36, add := w.getLsbD 35,
    acc := w.getLsbD 34, eng := w.extractLsb' 32 2, atile := w.extractLsb' 29 3, rsv := w.extractLsb' 0 29,
    ext := extWord (hdrOf w) e }

/-- The word of TLD (R180). -/
def tldWord (cls : BitVec 4) (f : TldF) : BitVec 64 :=
  hdrBits cls f.h ++ f.td ++ f.ra ++ f.rs ++ f.mark ++ f.scope ++ BitVec.ofBool f.sc ++ BitVec.ofBool f.add ++
    BitVec.ofBool f.acc ++ f.eng ++ f.atile ++ f.rsv

/-- The fields of GATH (R189). -/
def gathFields (w e : BitVec 64) : GathF :=
  { h := hdrOf w, td := w.extractLsb' 51 4, ti := w.extractLsb' 47 4, rp := w.extractLsb' 42 5,
    rl := w.extractLsb' 37 5, bsz := w.extractLsb' 34 3, mark := w.extractLsb' 32 2, scope := w.extractLsb' 30 2,
    rsv := w.extractLsb' 0 30, ext := extWord (hdrOf w) e }

/-- The word of GATH (R189). -/
def gathWord (f : GathF) : BitVec 64 :=
  hdrBits 7 f.h ++ f.td ++ f.ti ++ f.rp ++ f.rl ++ f.bsz ++ f.mark ++ f.scope ++ f.rsv

/-- The fields of ATOM (R190). -/
def atomFields (w : BitVec 64) : AtomF :=
  { h := hdrOf w, fmt := w.extractLsb' 49 3, rd := w.extractLsb' 44 5, ra := w.extractLsb' 39 5,
    rb := w.extractLsb' 34 5, rc := w.extractLsb' 29 5, mark := w.extractLsb' 27 2, scope := w.extractLsb' 25 2,
    rsv := w.extractLsb' 0 25 }

/-- The word of ATOM (R190). -/
def atomWord (op : BitVec 3) (f : AtomF) : BitVec 64 :=
  hdrBits 8 f.h ++ op ++ f.fmt ++ f.rd ++ f.ra ++ f.rb ++ f.rc ++ f.mark ++ f.scope ++ f.rsv

/-- The fields of SYNC (R193). -/
def syncFields (w : BitVec 64) : SyncF :=
  { h := hdrOf w, scope := w.extractLsb' 51 2, bid := w.extractLsb' 49 2, rn := w.extractLsb' 44 5,
    sp := w.extractLsb' 41 3, rsv := w.extractLsb' 0 41 }

/-- The word of SYNC (R193). -/
def syncWord (op : BitVec 2) (f : SyncF) : BitVec 64 :=
  hdrBits 9 f.h ++ op ++ f.scope ++ f.bid ++ f.rn ++ f.sp ++ f.rsv

/-- The fields of SIG (R191). -/
def sigFields (w : BitVec 64) : SigF :=
  { h := hdrOf w, w := w.getLsbD 53, ra := w.extractLsb' 48 5, rb := w.extractLsb' 43 5, mark := w.extractLsb' 41 2,
    scope := w.extractLsb' 39 2, rsv := w.extractLsb' 0 39 }

/-- The word of SIG (R191). -/
def sigWord (op : BitVec 1) (f : SigF) : BitVec 64 :=
  hdrBits 10 f.h ++ op ++ BitVec.ofBool f.w ++ f.ra ++ f.rb ++ f.mark ++ f.scope ++ f.rsv

/-- The fields of WAITV (R192). -/
def waitvFields (w e : BitVec 64) : WaitvF :=
  { h := hdrOf w, cond := w.extractLsb' 52 3, w := w.getLsbD 51, ra := w.extractLsb' 46 5, rb := w.extractLsb' 41 5,
    mark := w.extractLsb' 39 2, scope := w.extractLsb' 37 2, tp := w.extractLsb' 34 3, rsv := w.extractLsb' 0 34,
    ext := extWord (hdrOf w) e }

/-- The word of WAITV (R192). -/
def waitvWord (f : WaitvF) : BitVec 64 :=
  hdrBits 11 f.h ++ f.cond ++ BitVec.ofBool f.w ++ f.ra ++ f.rb ++ f.mark ++ f.scope ++ f.tp ++ f.rsv

/-! ## From operation codes to rows -/

/-- The SCL rows by operation code; a reserved code has none (R163). -/
def sclRow (c : Nat) (op : BitVec 6) (f : SclF) : Option Instr :=
  match op.toNat with
  | 0x00 => some (.sclAdd c f)
  | 0x01 => some (.sclSub c f)
  | 0x02 => some (.sclMul c f)
  | 0x04 => some (.sclAnd c f)
  | 0x05 => some (.sclOr c f)
  | 0x06 => some (.sclXor c f)
  | 0x07 => some (.sclShl c f)
  | 0x08 => some (.sclShr c f)
  | 0x09 => some (.sclSar c f)
  | 0x0A => some (.sclMin c f)
  | 0x0B => some (.sclMax c f)
  | 0x0C => some (.sclMinu c f)
  | 0x0D => some (.sclMaxu c f)
  | 0x10 => some (.sclCmpeq c f)
  | 0x11 => some (.sclCmpne c f)
  | 0x12 => some (.sclCmplt c f)
  | 0x13 => some (.sclCmpltu c f)
  | 0x14 => some (.sclCmpge c f)
  | 0x15 => some (.sclCmpgeu c f)
  | 0x18 => some (.sclPand c f)
  | 0x19 => some (.sclPor c f)
  | 0x1A => some (.sclPxor c f)
  | 0x1B => some (.sclPandn c f)
  | 0x20 => some (.sclLds c f)
  | 0x21 => some (.sclSts c f)
  | 0x28 => some (.sclTdset c f)
  | 0x29 => some (.sclTdget0 c f)
  | 0x2A => some (.sclTdget1 c f)
  | 0x2B => some (.sclTdadj c f)
  | 0x30 => some (.sclRdsr c f)
  | _ => none

/-- The CTL rows by operation code; a reserved code has none (R163). -/
def ctlRow (c : Nat) (op : BitVec 5) (f : CtlF) : Option Instr :=
  match op.toNat with
  | 0x00 => some (.ctlNop c f)
  | 0x01 => some (.ctlB c f)
  | 0x02 => some (.ctlLoop c f)
  | 0x03 => some (.ctlCall c f)
  | 0x04 => some (.ctlRet c f)
  | 0x05 => some (.ctlEnd c f)
  | 0x06 => some (.ctlTrap c f)
  | _ => none

/-- The VOP rows by operation code; a reserved code has none (R163). -/
def vopRow (c : Nat) (op : BitVec 6) (f : VopF) : Option Instr :=
  match op.toNat with
  | 0x00 => some (.vopAdd c f)
  | 0x01 => some (.vopSub c f)
  | 0x02 => some (.vopMul c f)
  | 0x03 => some (.vopFma c f)
  | 0x04 => some (.vopMin c f)
  | 0x05 => some (.vopMax c f)
  | 0x06 => some (.vopCmplt c f)
  | 0x07 => some (.vopCmple c f)
  | 0x08 => some (.vopCmpeq c f)
  | 0x09 => some (.vopSel c f)
  | 0x10 => some (.vopSqrt c f)
  | 0x11 => some (.vopRcp c f)
  | 0x12 => some (.vopRsq c f)
  | 0x13 => some (.vopExp c f)
  | 0x14 => some (.vopExp2 c f)
  | 0x15 => some (.vopLog c f)
  | 0x16 => some (.vopLog2 c f)
  | 0x18 => some (.vopRsum c f)
  | 0x19 => some (.vopRmax c f)
  | 0x20 => some (.vopIadd c f)
  | 0x21 => some (.vopIsub c f)
  | 0x22 => some (.vopImin c f)
  | 0x23 => some (.vopImax c f)
  | 0x24 => some (.vopShl c f)
  | 0x25 => some (.vopShr c f)
  | 0x26 => some (.vopSar c f)
  | 0x30 => some (.vopCvt c f)
  | 0x31 => some (.vopCopy c f)
  | 0x3F => some (.vopSeed c f)
  | _ => none

/-- The ATOM rows by operation code; a reserved code has none (R163). -/
def atomRow (c : Nat) (op : BitVec 3) (f : AtomF) : Option Instr :=
  match op.toNat with
  | 0x00 => some (.atomAdd c f)
  | 0x01 => some (.atomMin c f)
  | 0x02 => some (.atomMax c f)
  | 0x03 => some (.atomSwap c f)
  | 0x04 => some (.atomCompareSwap c f)
  | _ => none

/-- The row of the word that a core reads, with the word after it; none where its class or operation code is reserved. -/
def tileRow (c : Nat) (w e : BitVec 64) : Option Instr :=
  match (w.extractLsb' 60 4).toNat with
  | 0x0 => sclRow c (w.extractLsb' 49 6) (sclFields w e)
  | 0x1 => ctlRow c (w.extractLsb' 50 5) (ctlFields w)
  | 0x2 => some (.tmma c (tmmaFields w))
  | 0x3 => some (.tmmaP c (tmmaFields w))
  | 0x4 => vopRow c (w.extractLsb' 49 6) (vopFields w)
  | 0x5 => if (tldFields w e).sc then some (.tldSc c (tldFields w e)) else some (.tld c (tldFields w e))
  | 0x6 =>
    let f := tldFields w e
    if f.acc then some (.tstAcc c f)
    else if f.add then some (.tstAdd c f)
    else if f.sc then some (.tstSc c f)
    else some (.tst c f)
  | 0x7 => some (.gath c (gathFields w e))
  | 0x8 => atomRow c (w.extractLsb' 52 3) (atomFields w)
  | 0x9 =>
    match (w.extractLsb' 53 2).toNat with
    | 0 => some (.syncFence c (syncFields w))
    | 1 => some (.syncBar c (syncFields w))
    | _ => none
  | 0xA => if w.getLsbD 54 then some (.sigAdd c (sigFields w)) else some (.sigWrite c (sigFields w))
  | 0xB => some (.waitv c (waitvFields w e))
  | _ => none

/-- A word with a reserved class or operation code, which raises ILLEGAL_INSTRUCTION (R163): it stands under the first row of
CTL (assumption log 49). -/
def reservedWord (c : Nat) (w : BitVec 64) : Instr :=
  let f := ctlFields w
  .ctlNop c { f with h := { f.h with reserved := true } }

/-- The instruction a core reads from a word and the word after it. -/
def decodeTile (c : Nat) (w e : BitVec 64) : Instr := (tileRow c w e).getD (reservedWord c w)

/-- The words of a tile instruction: its word, and its extension word or zero; none for any other command. -/
def encodeTile (i : Instr) : Option (BitVec 64 × BitVec 64) :=
  match i with
  | .sclAdd _ f => some (sclWord 0x00 f, f.ext)
  | .sclSub _ f => some (sclWord 0x01 f, f.ext)
  | .sclMul _ f => some (sclWord 0x02 f, f.ext)
  | .sclAnd _ f => some (sclWord 0x04 f, f.ext)
  | .sclOr _ f => some (sclWord 0x05 f, f.ext)
  | .sclXor _ f => some (sclWord 0x06 f, f.ext)
  | .sclShl _ f => some (sclWord 0x07 f, f.ext)
  | .sclShr _ f => some (sclWord 0x08 f, f.ext)
  | .sclSar _ f => some (sclWord 0x09 f, f.ext)
  | .sclMin _ f => some (sclWord 0x0A f, f.ext)
  | .sclMax _ f => some (sclWord 0x0B f, f.ext)
  | .sclMinu _ f => some (sclWord 0x0C f, f.ext)
  | .sclMaxu _ f => some (sclWord 0x0D f, f.ext)
  | .sclCmpeq _ f => some (sclWord 0x10 f, f.ext)
  | .sclCmpne _ f => some (sclWord 0x11 f, f.ext)
  | .sclCmplt _ f => some (sclWord 0x12 f, f.ext)
  | .sclCmpltu _ f => some (sclWord 0x13 f, f.ext)
  | .sclCmpge _ f => some (sclWord 0x14 f, f.ext)
  | .sclCmpgeu _ f => some (sclWord 0x15 f, f.ext)
  | .sclPand _ f => some (sclWord 0x18 f, f.ext)
  | .sclPor _ f => some (sclWord 0x19 f, f.ext)
  | .sclPxor _ f => some (sclWord 0x1A f, f.ext)
  | .sclPandn _ f => some (sclWord 0x1B f, f.ext)
  | .sclLds _ f => some (sclWord 0x20 f, f.ext)
  | .sclSts _ f => some (sclWord 0x21 f, f.ext)
  | .sclTdset _ f => some (sclWord 0x28 f, f.ext)
  | .sclTdget0 _ f => some (sclWord 0x29 f, f.ext)
  | .sclTdget1 _ f => some (sclWord 0x2A f, f.ext)
  | .sclTdadj _ f => some (sclWord 0x2B f, f.ext)
  | .sclRdsr _ f => some (sclWord 0x30 f, f.ext)
  | .ctlNop _ f => some (ctlWord 0 f, 0)
  | .ctlB _ f => some (ctlWord 1 f, 0)
  | .ctlLoop _ f => some (ctlWord 2 f, 0)
  | .ctlCall _ f => some (ctlWord 3 f, 0)
  | .ctlRet _ f => some (ctlWord 4 f, 0)
  | .ctlEnd _ f => some (ctlWord 5 f, 0)
  | .ctlTrap _ f => some (ctlWord 6 f, 0)
  | .tmma _ f => some (tmmaWord 2 f, 0)
  | .tmmaP _ f => some (tmmaWord 3 f, 0)
  | .vopAdd _ f => some (vopWord 0x00 f, 0)
  | .vopSub _ f => some (vopWord 0x01 f, 0)
  | .vopMul _ f => some (vopWord 0x02 f, 0)
  | .vopFma _ f => some (vopWord 0x03 f, 0)
  | .vopMin _ f => some (vopWord 0x04 f, 0)
  | .vopMax _ f => some (vopWord 0x05 f, 0)
  | .vopCmplt _ f => some (vopWord 0x06 f, 0)
  | .vopCmple _ f => some (vopWord 0x07 f, 0)
  | .vopCmpeq _ f => some (vopWord 0x08 f, 0)
  | .vopSel _ f => some (vopWord 0x09 f, 0)
  | .vopSqrt _ f => some (vopWord 0x10 f, 0)
  | .vopRcp _ f => some (vopWord 0x11 f, 0)
  | .vopRsq _ f => some (vopWord 0x12 f, 0)
  | .vopExp _ f => some (vopWord 0x13 f, 0)
  | .vopExp2 _ f => some (vopWord 0x14 f, 0)
  | .vopLog _ f => some (vopWord 0x15 f, 0)
  | .vopLog2 _ f => some (vopWord 0x16 f, 0)
  | .vopRsum _ f => some (vopWord 0x18 f, 0)
  | .vopRmax _ f => some (vopWord 0x19 f, 0)
  | .vopIadd _ f => some (vopWord 0x20 f, 0)
  | .vopIsub _ f => some (vopWord 0x21 f, 0)
  | .vopImin _ f => some (vopWord 0x22 f, 0)
  | .vopImax _ f => some (vopWord 0x23 f, 0)
  | .vopShl _ f => some (vopWord 0x24 f, 0)
  | .vopShr _ f => some (vopWord 0x25 f, 0)
  | .vopSar _ f => some (vopWord 0x26 f, 0)
  | .vopCvt _ f => some (vopWord 0x30 f, 0)
  | .vopCopy _ f => some (vopWord 0x31 f, 0)
  | .vopSeed _ f => some (vopWord 0x3F f, 0)
  | .tld _ f => some (tldWord 5 f, f.ext)
  | .tldSc _ f => some (tldWord 5 f, f.ext)
  | .tst _ f => some (tldWord 6 f, f.ext)
  | .tstSc _ f => some (tldWord 6 f, f.ext)
  | .tstAdd _ f => some (tldWord 6 f, f.ext)
  | .tstAcc _ f => some (tldWord 6 f, f.ext)
  | .gath _ f => some (gathWord f, f.ext)
  | .atomAdd _ f => some (atomWord 0 f, 0)
  | .atomMin _ f => some (atomWord 1 f, 0)
  | .atomMax _ f => some (atomWord 2 f, 0)
  | .atomSwap _ f => some (atomWord 3 f, 0)
  | .atomCompareSwap _ f => some (atomWord 4 f, 0)
  | .sigWrite _ f => some (sigWord 0 f, 0)
  | .sigAdd _ f => some (sigWord 1 f, 0)
  | .waitv _ f => some (waitvWord f, f.ext)
  | .syncFence _ f => some (syncWord 0 f, 0)
  | .syncBar _ f => some (syncWord 1 f, 0)
  | _ => none

end Sys2Proof
end

