-- ==== Sys2Proof/Config.lean ====
section
/-! DEFINITION. Config.lean: what an implementation fixes, and the free values: constants with no body, so that
nothing proved of the model can rest on a value the spec leaves open. -/

namespace Sys2Proof.Config

/-- A fresh value the spec leaves undefined; the model applies it to the counter `State.fresh` (assumption log 3). -/
opaque freeWord : Nat → Sys2Proof.Word

/-- One byte the spec leaves undefined, of draw `n` at place `a` (assumption log 3). -/
opaque freeByte : Nat → Nat → Sys2Proof.Byte

/-- One accumulator element the spec leaves undefined: draw, then element key (R76, R86, R153; assumption log 3). -/
opaque freeAcc : Nat → Nat → BitVec 32

/-- How many units in the last place, and in which direction, a vector-unit result lies from the truncated exact
value; first the opcode, then the operand. The unit clamps it to the tolerance of R106 (assumption log 4). -/
opaque ulpOffset : Nat → BitVec 32 → Int

/-- The set of a directory slice that a line falls in (R343 gives the geometry, not the hash; assumption log 5). -/
opaque directorySet : Nat → Nat

/-- Where in its set a directory entry lies, by the order in which places are taken (R343 does not say which free way a new
entry fills; assumption log 5). -/
opaque directoryWay : Nat → Nat

/-- The set of a system-level cache slice that a line falls in (R353 gives the geometry, not the hash; assumption log
5). -/
opaque slcSet : Nat → Nat

/-- The set of an L1 data cache, and of an L2 block, that a line falls in (the table "Processor caches" gives the geometry, not
the function; assumption log 5). -/
opaque l1Set : Nat → Nat

/-- See `l1Set`. -/
opaque l2Set : Nat → Nat

/-- VDD_PD in mV at a clock step between the lowest and the highest, which R513 does not state (assumption log 150). -/
opaque stepVolt : Nat → Nat

/-- The 4-bit element that a byte of the proof pattern stands for (R540 does not say which; assumption log 159). -/
opaque proofNibble : Nat → Nat

/-- Where in the proof pattern an operand of a vector multiply-add lies: multiply-add, operand (R540 does not say; assumption log
159). -/
opaque proofPlace : Nat → Nat → Nat

/-- The syndrome of an error record whose class names what it holds and not where: the class, and what it holds (R552,
assumption log 86). -/
opaque syndrome : Nat → List Nat → BitVec 128

/-- The check value of a record of firmware, configuration or fault history read from memory is right
(assumption log 6): the spec names the algorithm, the model does not compute it. -/
opaque checkMatches : List Sys2Proof.Byte → Bool

/-- The signature of a record or token verifies (assumption log 6). -/
opaque signatureVerifies : List Sys2Proof.Byte → Bool

/-- The vendor identifier the CXL function reports (R593), which the spec names and does not number (assumption log 139). -/
opaque vendorId : Nat

/-- How many bytes the packets of a message over the hatch take, BYTE_COUNT with each: the formats of MCTP, PLDM and SPDM are
outside the spec (R654, assumption log 111). -/
opaque messageBytes : List Nat → List Sys2Proof.Byte → Nat

/-- Bytes the module produces by cryptography: a digest, a certificate, a signature, a nonce (assumption log 6). -/
opaque cryptoBytes : Nat → List Sys2Proof.Byte → List Sys2Proof.Byte

end Sys2Proof.Config
end

