-- ==== Sys2Proof/Machine/Bits.lean ====
section
/-! DEFINITION. Machine/Bits.lean: bit fields, byte order and sign extension, the helpers every family uses.
The module is little-endian wherever a rule lays out bytes (R159, R79: entry fields at byte offsets). -/

namespace Sys2Proof.Machine

/-- Bits `[hi:lo]` of `n`, as a number. -/
def bitsOf (n hi lo : Nat) : Nat := (n >>> lo) % 2 ^ (hi + 1 - lo)

/-- Bit `i` of `n`. -/
def bitOf (n i : Nat) : Bool := (n >>> i) % 2 == 1

/-- 1 for true, 0 for false. -/
def b2n (b : Bool) : Nat := if b then 1 else 0

/-- Replace bits `[hi:lo]` of a 64-bit word by the low bits of `v`. -/
def setBits (w : BitVec 64) (hi lo v : Nat) : BitVec 64 :=
  let m := (2 ^ (hi + 1 - lo) - 1) <<< lo
  BitVec.ofNat 64 ((w.toNat - (w.toNat &&& m)) + ((v <<< lo) &&& m))

/-- Set or clear bit `i` of a 64-bit word. -/
def setBit (w : BitVec 64) (i : Nat) (b : Bool) : BitVec 64 := setBits w i i (b2n b)

/-- The low `k` bits of `n`, read as a two's-complement number. -/
def signed (n k : Nat) : Int :=
  let m := n % 2 ^ k
  if m < 2 ^ (k - 1) then (m : Int) else (m : Int) - 2 ^ k

/-- The two's-complement encoding of `z` on `k` bits. -/
def unsigned (z : Int) (k : Nat) : Nat := (z % (2 ^ k : Int)).toNat

/-- A list of bytes, lowest address first, as a number. -/
def ofBytes : List Byte → Nat
  | [] => 0
  | b :: t => b.toNat + 256 * ofBytes t

/-- The `n` low bytes of `v`, lowest address first. -/
def toBytes : Nat → Nat → List Byte
  | 0, _ => []
  | n + 1, v => BitVec.ofNat 8 v :: toBytes n (v / 256)

/-- `[a, a+1, …]`, `n` numbers. -/
def upFrom : Nat → Nat → List Nat
  | _, 0 => []
  | a, n + 1 => a :: upFrom (a + 1) n

/-- Saturating increment of a counter of `k` bits. -/
def satInc (k n : Nat) : Nat := if n + 1 < 2 ^ k then n + 1 else 2 ^ k - 1

/-- Ceiling division. -/
def ceilDiv (a b : Nat) : Nat := (a + b - 1) / b

/-- The `i`th element of a list of bytes, zero beyond its end. -/
def byteAt (l : List Byte) (i : Nat) : Byte := l.getD i 0

/-- The little-endian number of `n` bytes at offset `o` of a list of bytes. -/
def leAt (l : List Byte) (o n : Nat) : Nat := ofBytes ((l.drop o).take n)

/-- The number of set bits among the low `k` bits of `n`. -/
def popcount : Nat → Nat → Nat
  | 0, _ => 0
  | k + 1, n => n % 2 + popcount k (n / 2)

/-- The positions below `k` whose bit of `n` is set, rising. -/
def setBitsBelow (k n : Nat) : List Nat := (upFrom 0 k).filter (bitOf n)

end Sys2Proof.Machine
end

