-- ==== Sys2Proof/Machine/Arith.lean ====
section
/-! DEFINITION. Machine/Arith.lean: number formats and arithmetic, chapter 03 (R91 to R113). Values are exact
(sign, integer mantissa, power of two); every operation computes exactly and rounds once at the end. -/

namespace Sys2Proof.Machine

/-- The formats of the table "Operand formats"; the codes are R91's. -/
inductive Fmt where
  | int8 | mxint8 | e4m3 | e5m2 | e3m2 | e2m3 | e2m1 | bf16 | fp16 | fp32 | int32
  deriving DecidableEq, Repr

/-- The format of a code; 0xB to 0xF are reserved. -/
def Fmt.ofCode : Nat → Option Fmt
  | 0 => some .int8 | 1 => some .mxint8 | 2 => some .e4m3 | 3 => some .e5m2 | 4 => some .e3m2
  | 5 => some .e2m3 | 6 => some .e2m1 | 7 => some .bf16 | 8 => some .fp16 | 9 => some .fp32
  | 10 => some .int32 | _ => none

/-- Element width in bits. -/
def Fmt.width : Fmt → Nat
  | .int8 | .mxint8 | .e4m3 | .e5m2 => 8
  | .e3m2 | .e2m3 => 6
  | .e2m1 => 4
  | .bf16 | .fp16 => 16
  | .fp32 | .int32 => 32

/-- The formats with an E8M0 scale per 32 elements. -/
def Fmt.isMx : Fmt → Bool
  | .mxint8 | .e4m3 | .e5m2 | .e3m2 | .e2m3 | .e2m1 => true
  | _ => false

/-- A value: NaN, an infinity, or (−1)^neg × m × 2^e exactly. -/
inductive Fl where
  | nan
  | inf (neg : Bool)
  | fin (neg : Bool) (m : Nat) (e : Int)
  deriving DecidableEq, Repr

/-- Exponent and mantissa widths of a floating-point element format. -/
def Fmt.shape : Fmt → Nat × Nat
  | .e4m3 => (4, 3) | .e5m2 => (5, 2) | .e3m2 => (3, 2) | .e2m3 => (2, 3) | .e2m1 => (2, 1)
  | .bf16 => (8, 7) | .fp16 => (5, 10) | .fp32 => (8, 23)
  | .int8 | .mxint8 | .int32 => (0, 0)

/-- Whether all-ones exponents encode infinity and NaN as in IEEE 754 (R96). -/
def Fmt.ieee : Fmt → Bool
  | .e5m2 | .bf16 | .fp16 | .fp32 => true
  | _ => false

/-- The encoding of the largest finite magnitude (R96). -/
def Fmt.maxBits : Fmt → Nat
  | .e4m3 => 0x7E | .e5m2 => 0x7B | .e3m2 => 0x1F | .e2m3 => 0x1F | .e2m1 => 0x7
  | .bf16 => 0x7F7F | .fp16 => 0x7BFF | .fp32 => 0x7F7FFFFF
  | .int8 | .mxint8 => 0x7F | .int32 => 0x7FFFFFFF

/-- The canonical quiet NaN of a format that has one (R98). -/
def Fmt.nanBits : Fmt → Nat
  | .e4m3 => 0x7F | .e5m2 => 0x7E | .bf16 => 0x7FC0 | .fp16 => 0x7E00 | .fp32 => 0x7FC00000
  | _ => 0

/-- An integer as an exact value scaled by 2^e. -/
def Fl.ofInt (z : Int) (e : Int) : Fl := .fin (decide (z < 0)) z.natAbs e

/-- Decode one element, without its block scale (R96, R100). -/
def Fmt.decode (f : Fmt) (bits : Nat) : Fl :=
  match f with
  | .int8 => Fl.ofInt (signed bits 8) 0
  | .int32 => Fl.ofInt (signed bits 32) 0
  | .mxint8 => Fl.ofInt (signed bits 8) (-6)
  | _ =>
    let (eb, mb) := f.shape
    let neg := bitOf bits (eb + mb)
    let ex := bitsOf bits (eb + mb - 1) mb
    let man := bits % 2 ^ mb
    let bias : Int := 2 ^ (eb - 1) - 1
    if f.ieee && ex == 2 ^ eb - 1 then
      if man == 0 then .inf neg else .nan
    else if f == .e4m3 && ex == 15 && man == 7 then .nan
    else if ex == 0 then .fin neg man (1 - bias - mb)
    else .fin neg (2 ^ mb + man) (ex - bias - mb)

/-- The value of an E8M0 scale byte as an exponent, none for NaN (R95). -/
def scaleExp (s : Nat) : Option Int := if s == 255 then none else some ((s : Int) - 127)

/-- Multiply by a power of two exactly. -/
def Fl.shift (x : Fl) (k : Int) : Fl :=
  match x with
  | .fin n m e => .fin n m (e + k)
  | y => y

/-- The exponent of the leading bit of a non-zero m × 2^e. -/
def topExp (m : Nat) (e : Int) : Int := (Nat.log2 m : Int) + e

/-- m × 2^e divided by 2^q: the whole part, and the discarded part as a numerator over 2^k (its k first). -/
def cutAt (m : Nat) (e q : Int) : Nat × Nat × Nat :=
  if q ≤ e then (m * 2 ^ (e - q).toNat, 0, 0)
  else
    let k := (q - e).toNat
    (m / 2 ^ k, m % 2 ^ k, k)

/-- How a conversion rounds: to nearest even, stochastically with a 16-bit random value (R110), or toward zero. -/
inductive Rnd where
  | rne
  | stoch (r : Nat)
  | trunc
  deriving DecidableEq, Repr

/-- Round m × 2^e to a multiple of 2^q; the answer counts units of 2^q (R106, R110). -/
def roundAt (rnd : Rnd) (m : Nat) (e q : Int) : Nat :=
  let (n, rest, k) := cutAt m e q
  if rest == 0 then n
  else match rnd with
    | .trunc => n
    | .rne => if 2 * rest > 2 ^ k || (2 * rest == 2 ^ k && n % 2 == 1) then n + 1 else n
    | .stoch r => if rest * 2 ^ 16 / 2 ^ k + r ≥ 2 ^ 16 then n + 1 else n

/-- Round a finite magnitude to the mantissa of a format; the answer is the magnitude's encoding, which exceeds
`maxBits` on overflow. Subnormals are produced, never flushed (R97). -/
def roundMag (f : Fmt) (rnd : Rnd) (m : Nat) (e : Int) : Nat :=
  if m == 0 then 0
  else
    let (eb, mb) := f.shape
    let bias : Int := 2 ^ (eb - 1) - 1
    let low : Int := 1 - bias - mb
    let q := max (topExp m e - mb) low
    (q - low).toNat * 2 ^ mb + roundAt rnd m e q

/-- The sign bit of a format, set or not. -/
def signBit (f : Fmt) (neg : Bool) : Nat :=
  let (eb, mb) := f.shape
  if neg then 2 ^ (eb + mb) else 0

/-- Convert a value to a floating-point element format, unscaled: the table "Narrowing conversions" (R107).
A format without infinities saturates whatever `sat` says; without NaNs, a NaN input gives +0. -/
def Fmt.encode (f : Fmt) (rnd : Rnd) (sat : Bool) (x : Fl) : Nat :=
  let beyond (neg : Bool) : Nat :=
    signBit f neg + (match f with
      | .e4m3 => if sat then f.maxBits else f.nanBits
      | .e5m2 | .bf16 | .fp16 | .fp32 => if sat then f.maxBits else (2 ^ f.shape.1 - 1) * 2 ^ f.shape.2
      | _ => f.maxBits)
  match x with
  | .nan => f.nanBits
  | .inf neg => if f == .e4m3 && !sat then f.nanBits else beyond neg
  | .fin neg m e =>
    let b := roundMag f rnd m e
    if b > f.maxBits then (if f == .e4m3 && !sat then f.nanBits else beyond neg)
    else signBit f neg + b

/-- Convert a value to an integer element of `k` bits with `frac` fraction bits, saturating; NaN gives 0 (R107). -/
def encodeInt (k frac : Nat) (rnd : Rnd) (x : Fl) : Nat :=
  match x with
  | .nan => 0
  | .inf neg => if neg then 2 ^ (k - 1) else 2 ^ (k - 1) - 1
  | .fin neg m e =>
    let n := roundAt rnd m e (-(frac : Int))
    if neg then (if n ≥ 2 ^ (k - 1) then 2 ^ (k - 1) else unsigned (-(n : Int)) k)
    else (if n ≥ 2 ^ (k - 1) then 2 ^ (k - 1) - 1 else n)

/-- Convert a value to any element format, unscaled (R107). -/
def Fmt.encodeAny (f : Fmt) (rnd : Rnd) (sat : Bool) (x : Fl) : Nat :=
  match f with
  | .int8 => encodeInt 8 0 rnd x
  | .mxint8 => encodeInt 8 6 rnd x
  | .int32 => encodeInt 32 0 rnd x
  | _ => f.encode rnd sat x

/-- A correctly rounded result with the special values of IEEE 754 (R103, R106, R113): overflow gives ±∞. -/
def ieeeBits (f : Fmt) (x : Fl) : Nat := f.encode .rne false x

/-- The signed mantissa of a finite value at exponent `q ≤ e`. -/
def mantAt (neg : Bool) (m : Nat) (e q : Int) : Int :=
  let n : Int := m * 2 ^ (e - q).toNat
  if neg then -n else n

/-- Exact sum; an exact zero sum of values of unlike sign is +0, as IEEE 754 rounds to nearest. -/
def Fl.add (x y : Fl) : Fl :=
  match x, y with
  | .nan, _ => .nan
  | _, .nan => .nan
  | .inf a, .inf b => if a == b then .inf a else .nan
  | .inf a, .fin _ _ _ => .inf a
  | .fin _ _ _, .inf b => .inf b
  | .fin na ma ea, .fin nb mb eb =>
    let q := min ea eb
    let z := mantAt na ma ea q + mantAt nb mb eb q
    if z == 0 then .fin (na && nb) 0 q else Fl.ofInt z q

/-- Sign changed. -/
def Fl.neg : Fl → Fl
  | .nan => .nan
  | .inf n => .inf (!n)
  | .fin n m e => .fin (!n) m e

/-- Exact product. -/
def Fl.mul (x y : Fl) : Fl :=
  match x, y with
  | .nan, _ => .nan
  | _, .nan => .nan
  | .inf a, .inf b => .inf (a != b)
  | .inf a, .fin b m _ => if m == 0 then .nan else .inf (a != b)
  | .fin a m _, .inf b => if m == 0 then .nan else .inf (a != b)
  | .fin a m e, .fin b m' e' => .fin (a != b) (m * m') (e + e')

/-- A value is less than another, as IEEE 754 orders numbers; false when either is NaN. -/
def Fl.lt (x y : Fl) : Bool :=
  match x, y with
  | .nan, _ => false
  | _, .nan => false
  | .inf a, .inf b => a && !b
  | .inf a, .fin _ _ _ => a
  | .fin _ _ _, .inf b => !b
  | .fin na ma ea, .fin nb mb eb =>
    let q := min ea eb
    decide (mantAt na ma ea q < mantAt nb mb eb q)

/-- Equal as numbers; false when either is NaN. -/
def Fl.eq (x y : Fl) : Bool :=
  match x, y with
  | .nan, _ => false
  | _, .nan => false
  | x, y => !(x.lt y) && !(y.lt x)

/-- The sign a value carries. -/
def Fl.isNeg : Fl → Bool
  | .nan => false
  | .inf n => n
  | .fin n _ _ => n

/-- Less than, with −0 below +0 (R106, min and max). -/
def Fl.below (x y : Fl) : Bool := x.lt y || (x.eq y && x.isNeg && !y.isNeg)

/-- The lesser of two values (R106). -/
def Fl.min (x y : Fl) : Fl :=
  match x, y with
  | .nan, y => y
  | x, .nan => x
  | x, y => if y.below x then y else x

/-- The greater of two values (R106). -/
def Fl.max (x y : Fl) : Fl :=
  match x, y with
  | .nan, y => y
  | x, .nan => x
  | x, y => if x.below y then y else x

/-! ### The cube step: R100 to R104 -/

/-- The exact window sum of finite products: each magnitude is cut to a multiple of 2^(E − 27), E the leading
exponent of the largest (R101). -/
def windowSum (ps : List (Bool × Nat × Int)) : Fl :=
  let live := ps.filter (fun p => p.2.1 != 0)
  match live with
  | [] => .fin false 0 0
  | p :: t =>
    let top := t.foldl (fun a x => max a (topExp x.2.1 x.2.2)) (topExp p.2.1 p.2.2)
    let q := top - 27
    let z := live.foldl (fun (a : Int) x =>
      let n : Int := (cutAt x.2.1 x.2.2 q).1
      if x.1 then a - n else a + n) 0
    Fl.ofInt z q

/-- One cube step over its products, with the two block scales (R102). -/
def stepResult (prods : List Fl) (sa sb : Option Int) (elemNan : Bool) : Fl :=
  let pos := prods.any (fun p => decide (p = .inf false))
  let neg := prods.any (fun p => decide (p = .inf true))
  match sa, sb with
  | some a, some b =>
    if elemNan || prods.any (fun p => decide (p = .nan)) || (pos && neg) then .nan
    else if pos then .inf false
    else if neg then .inf true
    else
      (windowSum (prods.filterMap (fun p => match p with
        | .fin n m e => some (n, m, e)
        | _ => none))).shift (a + b)
  | _, _ => .nan

/-- An update of an FP32 accumulator element by a step result (R103); `first` is the first update under ZERO. -/
def accUpdate (first : Bool) (acc : Nat) (step : Fl) : Nat :=
  if first then
    match step with
    | .fin _ 0 _ => 0
    | s => ieeeBits .fp32 s
  else ieeeBits .fp32 ((Fmt.decode .fp32 acc).add step)

/-! ### The vector unit: R106 -/

/-- The integer square root of `n`, by bits from `2^k` down. -/
def isqrtFrom : Nat → Nat → Nat → Nat
  | 0, _, r => r
  | k + 1, n, r =>
    let c := r + 2 ^ k
    isqrtFrom k n (if c * c ≤ n then c else r)

/-- The integer square root. -/
def isqrt (n : Nat) : Nat := isqrtFrom (Nat.log2 n / 2 + 1) n 0

/-- √(m × 2^e) as a dyadic with at least 64 significant bits; the low bit is sticky when the root is not exact. -/
def sqrtDyadic (m : Nat) (e : Int) : Nat × Int :=
  let up : Nat := if (e - 130) % 2 = 0 then 130 else 131
  let n := m * 2 ^ up
  let r := isqrt n
  (2 * r + (if r * r = n then 0 else 1), (e - up) / 2 - 1)

/-- (1 / (m × 2^e)) as a dyadic with a sticky low bit. -/
def recipDyadic (m : Nat) (e : Int) : Nat × Int :=
  let up := 80 + Nat.log2 m
  let n := 2 ^ up
  (2 * (n / m) + (if n % m = 0 then 0 else 1), -e - up - 1)

/-- An FP32 result the spec gives within `tol` units in the last place: the truncated exact value moved by an
amount the model leaves free, clamped to that tolerance (R106, log 4). The move is a function of opcode and operand,
so the same inputs give the same bits (R115). A unit in the last place is the distance between neighbouring FP32 values, of
which the move passes as many, also where it crosses a power of two (assumption log 4). -/
def nearBits (op tol : Nat) (arg : BitVec 32) (x : Fl) : Nat :=
  match x with
  | .nan => Fmt.nanBits .fp32
  | .inf n => signBit .fp32 n + 0x7F800000
  | .fin neg m e =>
    if m == 0 then signBit .fp32 neg
    else
      let b := roundMag .fp32 .trunc m e
      let q := max (topExp m e - 23) (-149)
      let exact := (cutAt m e q).2.1 == 0
      let lo : Int := if exact then -(tol : Int) else 1 - (tol : Int)
      let d := max lo (min (tol : Int) (Config.ulpOffset op arg))
      let r := max 0 (min 0x7F800000 ((b : Int) + d))
      signBit .fp32 neg + r.toNat

/-- Fraction bits of the fixed-point values behind exp and log. -/
def fxBits : Nat := 200

/-- ln 2, truncated to 200 fraction bits. -/
def fxLn2 : Int := 0xb17217f7d1cf79abc9e3b39803f2f6af40f343267298b62d8a

/-- Σ y^k / k! in fixed point, from the term `t` of index `k`. -/
def expTerms : Nat → Int → Int → Int → Int
  | 0, _, _, acc => acc
  | n + 1, y, t, acc =>
    let k : Int := 61 - (n + 1 : Nat)
    let t' := t * y / 2 ^ fxBits / k
    expTerms n y t' (acc + t')

/-- e^y for 0 ≤ y < 1 in fixed point. -/
def fxExp (y : Int) : Int := expTerms 60 y (2 ^ fxBits) (2 ^ fxBits)

/-- Σ z^(2k+1) / (2k+1) in fixed point. -/
def atanhTerms : Nat → Int → Int → Int → Int
  | 0, _, _, acc => acc
  | n + 1, z2, t, acc =>
    let k : Int := 2 * (70 - (n + 1 : Nat)) + 1
    atanhTerms n z2 (t * z2 / 2 ^ fxBits) (acc + t / k)

/-- A dyadic in fixed point (rounded down). -/
def toFx (neg : Bool) (m : Nat) (e : Int) : Int :=
  let n : Int := (cutAt m (e + fxBits) 0).1
  if neg then (if (cutAt m (e + fxBits) 0).2.1 == 0 then -n else -n - 1) else n

/-- A fixed-point magnitude as a value; its low bit is made sticky, for the exact value is irrational there. -/
def ofFx (z : Int) (e : Int) : Fl := .fin (decide (z < 0)) (2 * z.natAbs + 1) (e - fxBits - 1)

/-- 2^x (base two) or e^x, before the tolerance of R106. -/
def expValue (base2 : Bool) (x : Fl) : Fl :=
  match x with
  | .nan => .nan
  | .inf n => if n then .fin false 0 0 else .inf false
  | .fin neg m e =>
    if m == 0 then .fin false 1 0
    else if topExp m e ≥ 10 then (if neg then .fin false 1 (-200) else .inf false)
    else
      let v := toFx neg m e
      let whole : Int := if base2 then v / 2 ^ fxBits else v / fxLn2
      let part : Int := if base2 then (v % 2 ^ fxBits) * fxLn2 / 2 ^ fxBits else v % fxLn2
      if base2 && v % 2 ^ fxBits == 0 && e + fxBits ≥ 0 then .fin false 1 whole
      else (ofFx (fxExp part) whole)

/-- log2 x (base two) or ln x, before the tolerance of R106. -/
def logValue (base2 : Bool) (x : Fl) : Fl :=
  match x with
  | .nan => .nan
  | .inf n => if n then .nan else .inf false
  | .fin neg m e =>
    if m == 0 then .inf true
    else if neg then .nan
    else
      let t := topExp m e
      -- mantissa in [1, 2) over 2^log2 m; above about 1.414 it is halved so that values near 1 keep their digits
      let halve := decide (m * m ≥ 2 * 2 ^ (2 * Nat.log2 m))
      let ex : Int := if halve then t + 1 else t
      let den : Int := if halve then 2 * 2 ^ Nat.log2 m else 2 ^ Nat.log2 m
      let mi : Int := m
      if mi == den then (if base2 then Fl.ofInt ex 0 else if ex == 0 then .fin false 0 0
        else ofFx (ex * fxLn2) 0)
      else
        let z := (mi - den) * 2 ^ fxBits / (mi + den)
        let ln := 2 * atanhTerms 70 (z * z / 2 ^ fxBits) z 0
        if base2 then ofFx (ex * 2 ^ fxBits + ln * 2 ^ fxBits / fxLn2) 0
        else ofFx (ex * fxLn2 + ln) 0

/-- Square root of an FP32 element, correctly rounded. -/
def sqrtBits (a : BitVec 32) : Nat :=
  match Fmt.decode .fp32 a.toNat with
  | .nan => Fmt.nanBits .fp32
  | .inf n => if n then Fmt.nanBits .fp32 else 0x7F800000
  | .fin neg m e =>
    if m == 0 then signBit .fp32 neg
    else if neg then Fmt.nanBits .fp32
    else
      let (r, q) := sqrtDyadic m e
      ieeeBits .fp32 (.fin false r q)

/-- Reciprocal, within 1 ulp. -/
def rcpBits (a : BitVec 32) : Nat :=
  match Fmt.decode .fp32 a.toNat with
  | .nan => Fmt.nanBits .fp32
  | .inf n => signBit .fp32 n
  | .fin neg m e =>
    if m == 0 then signBit .fp32 neg + 0x7F800000
    else
      let (r, q) := recipDyadic m e
      nearBits 0x11 1 a (.fin neg r q)

/-- Reciprocal square root, within 2 ulp; the spec lists ±0 → ±∞ and negative → NaN. -/
def rsqBits (a : BitVec 32) : Nat :=
  match Fmt.decode .fp32 a.toNat with
  | .nan => Fmt.nanBits .fp32
  | .inf n => if n then Fmt.nanBits .fp32 else 0
  | .fin neg m e =>
    if m == 0 then signBit .fp32 neg + 0x7F800000
    else if neg then Fmt.nanBits .fp32
    else
      let (r, q) := recipDyadic m e
      let (r', q') := sqrtDyadic r q
      nearBits 0x12 2 a (.fin false r' q')

/-- exp (op 0x13) and exp2 (op 0x14). -/
def expBits (base2 : Bool) (a : BitVec 32) : Nat :=
  let x := Fmt.decode .fp32 a.toNat
  match expValue base2 x with
  | .fin n m e => nearBits (if base2 then 0x14 else 0x13) (if base2 then 2 else 3) a (.fin n m e)
  | v => ieeeBits .fp32 v

/-- log (op 0x15) and log2 (op 0x16). -/
def logBits (base2 : Bool) (a : BitVec 32) : Nat :=
  let x := Fmt.decode .fp32 a.toNat
  match logValue base2 x with
  | .fin n m e => nearBits (if base2 then 0x16 else 0x15) (if base2 then 2 else 3) a (.fin n m e)
  | v => ieeeBits .fp32 v

/-- FP32 operations of two sources, correctly rounded. -/
def f32Bin (f : Fl → Fl → Fl) (a b : BitVec 32) : BitVec 32 :=
  BitVec.ofNat 32 (ieeeBits .fp32 (f (Fmt.decode .fp32 a.toNat) (Fmt.decode .fp32 b.toNat)))

/-- Quotient of two finite values with 64 bits more than the dividend's, its last bit set when it is not exact. -/
def quotient (m : Nat) (e : Int) (n : Nat) (f : Int) : Nat × Int :=
  let q := m * 2 ^ 64 / n
  (2 * q + (if m * 2 ^ 64 % n == 0 then 0 else 1), e - f - 65)

/-- Division, correctly rounded (R297). -/
def f32Div (a b : BitVec 32) : BitVec 32 :=
  let r : Fl := match Fmt.decode .fp32 a.toNat, Fmt.decode .fp32 b.toNat with
    | .nan, _ => .nan
    | _, .nan => .nan
    | .inf _, .inf _ => .nan
    | .inf x, .fin y _ _ => .inf (x != y)
    | .fin x _ _, .inf y => .fin (x != y) 0 0
    | .fin x m e, .fin y n f =>
      if n == 0 then (if m == 0 then .nan else .inf (x != y))
      else
        let q := quotient m e n f
        .fin (x != y) q.1 q.2
  BitVec.ofNat 32 (ieeeBits .fp32 r)

/-- Fused multiply-add: one rounding. -/
def f32Fma (a b c : BitVec 32) : BitVec 32 :=
  let p := (Fmt.decode .fp32 a.toNat).mul (Fmt.decode .fp32 b.toNat)
  BitVec.ofNat 32 (ieeeBits .fp32 (p.add (Fmt.decode .fp32 c.toNat)))

/-- An FP32 comparison: −1 or 0 as INT32 (R176). -/
def f32Cmp (p : Fl → Fl → Bool) (a b : BitVec 32) : BitVec 32 :=
  if p (Fmt.decode .fp32 a.toNat) (Fmt.decode .fp32 b.toNat) then 0xFFFFFFFF#32 else 0#32

/-! ### Stochastic rounding: R110 to R112 -/

/-- γ of R111. -/
def gamma : BitVec 64 := 0x9E3779B97F4A7C15#64

/-- The SplitMix64 output function (R111). -/
def splitMix (x : BitVec 64) : BitVec 64 :=
  let z := (x ^^^ (x >>> 30)) * 0xbf58476d1ce4e5b9#64
  let z := (z ^^^ (z >>> 27)) * 0x94d049bb133111eb#64
  z ^^^ (z >>> 31)

/-- The random value of element `j` (R111). -/
def stochR (s : BitVec 64) (j : Nat) : Nat := (splitMix (s + BitVec.ofNat 64 (j + 1) * gamma)).toNat % 2 ^ 16

/-- S after `n` converted elements (R111). -/
def stochAdvance (s : BitVec 64) (n : Nat) : BitVec 64 := s + BitVec.ofNat 64 n * gamma

/-! ### Block scales: R108, R109 -/

/-- emax of R109. -/
def Fmt.emax : Fmt → Int
  | .e4m3 => 8 | .e5m2 => 15 | .e3m2 => 4 | .e2m3 => 2 | .e2m1 => 2
  | _ => 0

/-- The scale byte of up to 32 values (R109): none when one of them is NaN or infinite. -/
def blockScale (f : Fmt) (xs : List Fl) : Option Nat :=
  if xs.any (fun x => match x with | .fin _ _ _ => false | _ => true) then none
  else
    let tops := xs.filterMap (fun x => match x with
      | .fin _ m e => if m == 0 then none else some (topExp m e)
      | _ => none)
    match tops with
    | [] => some 0
    | t :: ts => some ((max (ts.foldl max t - f.emax) (-127)) + 127).toNat

/-- The 32 elements and the scale byte of one block (R109); `rnd j` rounds the block's element `j`. -/
def mxBlock (f : Fmt) (rnd : Nat → Rnd) (xs : List Fl) : List Nat × Nat :=
  match blockScale f xs with
  | none => (xs.map (fun _ => 0), 255)
  | some s => ((xs.zip (upFrom 0 xs.length)).map (fun p =>
      f.encodeAny (rnd p.2) true (p.1.shift (127 - (s : Int)))), s)

/-! ### Memory-side adders and home atomics: R113, R150, R190 -/

/-- Operand size in bytes. -/
def atomBytes : AtomFmt → Nat
  | .i32 | .f32 => 4
  | .i64 => 8
  | .b16 | .h16 => 2

/-- The code of an operand format (R190). -/
def atomFmtCode : AtomFmt → Nat
  | .i32 => 0 | .i64 => 1 | .f32 => 2 | .b16 => 3 | .h16 => 4

/-- Whether the operand is floating point. -/
def atomIsFloat : AtomFmt → Bool
  | .f32 | .b16 | .h16 => true
  | _ => false

/-- One addition at a memory-side adder or window port (R113). -/
def adderAdd (f : AtomFmt) (a b : Nat) : Nat :=
  let fl (x : Fmt) := ieeeBits x ((x.decode a).add (x.decode b))
  match f with
  | .i32 => (a + b) % 2 ^ 32
  | .i64 => (a + b) % 2 ^ 64
  | .f32 => fl .fp32
  | .b16 => fl .bf16
  | .h16 => fl .fp16

/-- The new value of an atomic: old value, operand, compare value (R190). -/
def atomNew (op : AtomOp) (f : AtomFmt) (old v cmp : Nat) : Nat :=
  let k := 8 * atomBytes f
  let v := v % 2 ^ k
  match op with
  | .add => adderAdd f old v
  | .min => if signed v k < signed old k then v else old
  | .max => if signed old k < signed v k then v else old
  | .swap => v
  | .cas => if old == cmp % 2 ^ k then v else old

end Sys2Proof.Machine
end

