-- ==== Sys2Proof/Machine/Tbl.lean ====
section
/-! DEFINITION. Machine/Tbl.lean: sparse tables with natural-number keys, the one representation this model uses
for memory, register files, queues and directories. A table is a list of pairs whose keys rise strictly; a table
with a default holds no entry equal to that default, so that equal contents are equal lists. -/

namespace Sys2Proof.Machine

/-- A sparse table: pairs of key and value. -/
abbrev Tbl (β : Type) := List (Nat × β)

/-- The entry under key `k`, if the table lists one. -/
def Tbl.get? {β : Type} : Tbl β → Nat → Option β
  | [], _ => none
  | (k', v) :: t, k => if k' = k then some v else Tbl.get? t k

/-- Put `v` under key `k`, keeping the keys in rising order. -/
def Tbl.put {β : Type} : Tbl β → Nat → β → Tbl β
  | [], k, v => [(k, v)]
  | (k', v') :: t, k, v =>
    if k < k' then (k, v) :: (k', v') :: t
    else if k = k' then (k, v) :: t
    else (k', v') :: Tbl.put t k v

/-- Remove what stands under key `k`. -/
def Tbl.erase {β : Type} : Tbl β → Nat → Tbl β
  | [], _ => []
  | (k', v') :: t, k => if k' = k then Tbl.erase t k else (k', v') :: Tbl.erase t k

/-- What the table reads as under `k`, where an unlisted key reads as `d k`. -/
def Tbl.getD {β : Type} (t : Tbl β) (d : Nat → β) (k : Nat) : β :=
  match t.get? k with
  | some v => v
  | none => d k

/-- Write `v` under `k`, keeping the canonical form: a value equal to the default is not listed. -/
def Tbl.setD {β : Type} [DecidableEq β] (t : Tbl β) (d : Nat → β) (k : Nat) (v : β) : Tbl β :=
  if v = d k then t.erase k else t.put k v

/-- The keys rise strictly, and all lie at or above `lo`. -/
def Tbl.risingFrom {β : Type} : Nat → Tbl β → Bool
  | _, [] => true
  | lo, (k, _) :: t => decide (lo ≤ k) && Tbl.risingFrom (k + 1) t

/-- The keys rise strictly. -/
def Tbl.rising {β : Type} (t : Tbl β) : Bool := Tbl.risingFrom 0 t

/-- No entry equals what its key reads as when unlisted. -/
def Tbl.proper {β : Type} [DecidableEq β] (d : Nat → β) : Tbl β → Bool
  | [] => true
  | (k, v) :: t => decide (v ≠ d k) && Tbl.proper d t

/-- The canonical form of a table with default `d`. -/
def Tbl.wf {β : Type} [DecidableEq β] (d : Nat → β) (t : Tbl β) : Bool :=
  t.rising && Tbl.proper d t

/-- Change the entry under `k`, if there is one. -/
def Tbl.modify {β : Type} (t : Tbl β) (k : Nat) (f : β → β) : Tbl β :=
  match t.get? k with
  | some v => t.put k (f v)
  | none => t

/-- Keep the entries whose key and value satisfy `p`. -/
def Tbl.filter {β : Type} (p : Nat → β → Bool) (t : Tbl β) : Tbl β :=
  List.filter (fun e => p e.1 e.2) t

/-- Change every value. -/
def Tbl.mapVals {β : Type} (f : β → β) (t : Tbl β) : Tbl β := t.map fun e => (e.1, f e.2)

/-- The values, in the order of their keys. -/
def Tbl.vals {β : Type} (t : Tbl β) : List β := t.map Prod.snd

end Sys2Proof.Machine
end

