-- ==== Sys2Proof/Machine/State.lean ====
section
/-! DEFINITION. Machine/State.lean: everything the spec gives the module to remember, as plain data; the faults and
refusals; and the state right after reset. -/

namespace Sys2Proof.Machine

/-- Why the machine stops. -/
inductive Fault where
  /-- A command reaches a module whose input power is removed: no unit has a supply to act with (R52, R510). Raised by
  every command but the one that restores power. Safe: the machine stops where the hardware does nothing. -/
  | noPower
  deriving DecidableEq, Repr

/-- Why a command has no meaning. Every command has one, so none raises it. -/
inductive Refusal where
  /-- The command's meaning is not written yet. Safe. -/
  | notModelled (mnemonic : String)
  deriving DecidableEq, Repr

/-! ### The ruling (chapter 01) -/

/-- Tracker states, in the order of their codes in the table "Tracker states" (R24). -/
inductive Tracker where
  | acquiring | locked | flywheel | lost | slew | unruled
  deriving DecidableEq, Repr

/-- The ruling tracker and ruled time (R20, R23, R24, R44, R692). -/
structure Ruling where
  /-- RULE_STAT.STATE. -/
  state : Tracker
  /-- Line number, modulo 2^48 (R21). -/
  line : Nat
  /-- Stroke, 0 to 15. -/
  stroke : Nat
  /-- Tick, 0 to 4,095. -/
  tick : Nat
  /-- The candidate mark of R692, as a hub time in ns. -/
  candidate : Option Nat
  /-- The predicted next boundary in ns of hub time, while the tracker holds a phase (R23). -/
  predicted : Option Nat
  /-- The last measured pitch in ns (R24, FLYWHEEL). -/
  measured : Nat
  /-- Consecutive accepted marks with phase error within 20 ns (R24, LOCKED). -/
  good : Nat
  /-- The last full line-number frame received since the tracker entered ACQUIRING: its number, and the count then. -/
  fullSeen : Option (Nat × Nat)
  /-- A mark was accepted for the boundary that ends the current line. -/
  marked : Bool
  /-- Consecutive boundaries without an accepted mark (R42, R692). -/
  missed : Nat
  /-- In SLEW: lines still to be absorbed (R44). -/
  slewLeft : Nat
  /-- In SLEW: the next mark advances no line (R44, every second mark counts). -/
  slewSkip : Bool
  /-- Lines to add at the next boundary (R44). -/
  jump : Nat
  /-- FRAME_REJECTED holds the tracker in LOST until module reset (R44). -/
  rejected : Bool
  /-- Line boundaries since the hub left reset or the pitch was written (R27). -/
  sinceStart : Nat
  /-- The hatch clock is lost (R47). -/
  ckLost : Bool
  deriving DecidableEq, Repr

/-- A commit that waits for its line (R34, R35). -/
structure Commit where
  /-- Sets to commit. -/
  mask : Nat
  /-- The line at whose start it applies. -/
  due : Nat
  /-- It sets COMMIT_LATE when it applies. -/
  late : Bool
  deriving DecidableEq, Repr

/-- The registers of the MMIO range (R660), keyed by their offset; a 64-bit register under its own offset. -/
structure Regs where
  /-- Live values. -/
  live : Tbl (BitVec 64)
  /-- Staged values of the RWS registers (R31). -/
  staged : Tbl (BitVec 64)
  /-- Pending commits, at most 8 (R35). -/
  commits : List Commit
  /-- CFG_COMMIT_DONE_LINE. -/
  doneLine : Nat
  deriving DecidableEq, Repr

/-! ### Accelerator cores (chapters 02 to 06) -/

/-- A launch on a core: the operation it is part of and what RDSR shows of it (R157). -/
structure Launch where
  uid : Nat
  rank : Nat
  cores : Nat
  ctx : Nat
  gen : Nat
  /-- 0, or 1 + the index of the recipe node it runs (R472): barrier state belongs to one launch (R194). -/
  node : Nat
  /-- ASID and root page of the context entry, kept until the launch ends (R373). -/
  asid : Nat
  root : Nat
  /-- Twin mode, read when the launch starts (R87). -/
  twin : Bool
  deriving DecidableEq, Repr

/-- A staged launch: program located, arguments and descriptors loaded (R144). -/
structure Staged where
  launch : Launch
  entry : Word
  args : List Word
  tds : List (BitVec 128)
  /-- Cores it may be placed on (R451). -/
  set : BitVec 128
  /-- Inline data of its operation and their scratchpad offset (R454). -/
  inlOff : Nat
  inl : List Byte
  deriving DecidableEq, Repr

/-- One active hardware loop (R169). -/
structure LoopEnt where
  first : Nat
  last : Nat
  left : Nat
  deriving DecidableEq, Repr

/-- Where a physical address lies (R369 to R371). -/
inductive Target where
  /-- Tiered memory of this module. -/
  | tiered
  /-- The scratchpad window of a core. -/
  | window (core : Nat)
  /-- A register of the MMIO range. -/
  | mmio
  /-- A cacheable CXL host window. -/
  | host
  /-- A CXL host window marked device. -/
  | hostDevice
  /-- Memory of another node. -/
  | remote (node : Nat)
  deriving DecidableEq, Repr

/-- One request's worth of a stream instruction: at most 128 B of one line (R182), or one device piece (R231). -/
structure Piece where
  va : Nat
  len : Nat
  /-- Scratchpad offset the bytes come from or go to. -/
  off : Nat
  deriving DecidableEq, Repr

/-- A read tag in use (R133). -/
structure RTag where
  tag : Nat
  job : Nat
  pa : Nat
  len : Nat
  off : Nat
  target : Target
  /-- Bytes as the home or the cache answered them, with their poisoned sectors, before they arrive. -/
  served : Option (List Byte × List Nat)
  /-- The cluster cache missed; the line is being fetched. -/
  missed : Bool
  /-- The stroke in which the request left the stream unit. -/
  sent : Nat
  /-- Its instruction has completed LATE; the data is discarded at its arrival (R187). -/
  dead : Bool
  /-- The home answered LATE early (R267). -/
  early : Bool
  /-- The launch it belongs to has ended on the core. -/
  past : Bool := false
  deriving DecidableEq, Repr

/-- How far a write has come (R203). -/
inductive WStage where
  /-- It has left the stream unit; for tiered plain writes the slice has not accepted it (R348). -/
  | sent
  /-- The cluster cache slice holds it (R204). -/
  | held
  /-- The home, the window port, or the remote side has performed it. -/
  | performed
  deriving DecidableEq, Repr

/-- What a write tag carries: bytes, or an operation for the home. -/
inductive WOp where
  | store (bytes : List Byte)
  | atom (op : AtomOp) (f : AtomFmt) (v cmp : Nat)
  | adds (f : AtomFmt) (elems : List Nat)
  deriving DecidableEq, Repr

/-- A write tag in use: one entry of the store buffer (R133, R233). -/
structure WTag where
  tag : Nat
  job : Nat
  pa : Nat
  op : WOp
  target : Target
  /-- Scope code of the instruction (0 CORE, 1 CLUSTER, 2 SYSTEM). -/
  scope : Nat
  vol : Bool
  /-- Its instruction carries the volatile mark (R209). -/
  ordered : Bool
  stage : WStage
  sent : Nat
  /-- Old value of an atomic, once performed. -/
  old : Option Nat
  /-- The address of its instruction, which may have left its unit, and its class and OP field. -/
  pc : Nat := 0
  code : Nat × Nat := (6, 0)
  deriving DecidableEq, Repr

/-- One request's worth of a built-in program (R455): bytes that are read from an address, or are there, to an address. -/
structure Move1 where
  /-- Where they come from, until they have come. -/
  src : Option Nat
  dst : Nat
  len : Nat
  bytes : List Byte
  /-- The read has left. -/
  asked : Bool
  deriving DecidableEq, Repr

/-- A built-in program that a core runs (R455). -/
structure Prog where
  /-- 1 COPY, 2 FILL, 3 COPY_2D. -/
  idx : Nat
  /-- The registers s1 to s6 as it began. -/
  args : List Nat
  /-- The core's next piece of 4 KiB, and the distance to the one after it: the rank and the cores of the launch. -/
  next : Nat
  step : Nat
  /-- What is left of the piece before it. -/
  moves : List Move1
  deriving DecidableEq, Repr

/-- What a queued or running instruction of a unit does, with the values it took at issue (R161, R179). -/
inductive JobKind where
  | tmma (f : TmmaF) (a b : BitVec 128) (koff : Nat)
  | tmmap (f : TmmaF) (a b : BitVec 128) (table : List Byte)
  | readout (f : TldF) (d : BitVec 128)
  | vop (op : Nat) (f : VopF) (d s1 s2 s3 : BitVec 128) (rs s : Word)
  | tld (f : TldF) (d : BitVec 128) (base dist : Nat)
  | tst (f : TldF) (d : BitVec 128) (base dist : Nat)
  | gath (f : GathF) (d i : BitVec 128) (pool limit : Nat)
  | atom (op : AtomOp) (f : AtomF) (addr v cmp : Nat)
  | sig (add : Bool) (f : SigF) (addr v : Nat)
  /-- Not an instruction: the data accesses of a built-in program (R455). -/
  | builtin (g : Prog)
  deriving DecidableEq, Repr

/-- An instruction in a unit's queue or running (R121). -/
structure Job where
  seq : Nat
  pc : Nat
  /-- 0 to 3 the engines, 4 the vector unit, 5 the stream unit. -/
  unit : Nat
  kind : JobKind
  begun : Bool
  /-- Descriptor numbers it reads and writes (R122). -/
  reads : List Nat
  writes : List Nat
  /-- Scalar register and predicate whose final values it has still to write (R120, R188). -/
  rd : Option Nat
  lp : Option Nat
  release : Bool
  acquire : Bool
  scope : Nat
  /-- Deadline as an absolute stroke (R186). -/
  deadline : Option Nat
  /-- Requests not yet issued. -/
  todo : List Piece
  /-- The list `todo` has been built. -/
  planned : Bool
  /-- It had begun when an older instruction faulted: its destinations are undefined (R198). -/
  tainted : Bool
  deriving DecidableEq, Repr

/-- A read of a WAITV that has left for the host or another node, and the stroke in which it left (R192, R236). -/
structure WaitRead where
  pa : Nat
  target : Target
  sent : Nat
  deriving DecidableEq, Repr

/-- Why a core's issue is halted. -/
inductive Block where
  | none
  /-- SYNC FENCE of a scope, with its SP predicate (R193). -/
  | fence (scope sp : Nat)
  /-- SYNC BAR: barrier, count, SP. -/
  | bar (bid rn sp : Nat)
  /-- WAITV: its address and deadline, and a read of it that is out (R192). -/
  | waitv (f : WaitvF) (va pc : Nat) (deadline : Option Nat) (out : Option WaitRead)
  /-- WAITV whose address awaits a walk. -/
  | waitvWalk (f : WaitvF) (va pc : Nat) (deadline : Option Nat)
  /-- An acquire-marked instruction has issued and not completed (R212). -/
  | acquire (seq : Nat)
  /-- END waits for older instructions and the store buffer (R171). -/
  | ending
  /-- An exception drains the core (R197, R198). -/
  | draining
  /-- The core has stopped and reported (R199). -/
  | stopped
  deriving DecidableEq, Repr

/-- An exception a core reports (R199). -/
structure Exc where
  code : Nat
  pc : Nat
  va : Nat
  trap : Nat
  deriving DecidableEq, Repr

/-- A write of a begun instruction that has been performed while an older one may still fault (R198): where its bytes
lie. -/
structure Wrote where
  seq : Nat
  pa : Nat
  len : Nat
  deriving DecidableEq, Repr

/-- An accelerator core (R116, R155). -/
structure Core where
  launch : Option Launch
  staged : List Staged
  s : Tbl Word
  t : Tbl (BitVec 128)
  p : BitVec 8
  pc : Word
  rnd : Word
  loops : List LoopEnt
  rets : List Word
  /-- Accumulator elements written in this launch, key ((engine × 8) + tile) × 1,024 + row × 32 + column. -/
  acc : Tbl (BitVec 32)
  /-- The draw that fills the accumulator elements not written (R76), and the draws of single tiles that became
  undefined later (R86, R198), key engine × 8 + tile. -/
  accDraw : Nat
  accRedraw : Tbl Nat
  /-- Lines of virtual addresses in the instruction buffer, newest first, at most 256 (R119). -/
  ibuf : List Nat
  jobs : List Job
  nextSeq : Nat
  reads : List RTag
  writes : List WTag
  nextTag : Nat
  /-- Virtual page the stream unit waits on a walk for. -/
  walk : Option Nat
  block : Block
  /-- The last issue attempt had to wait (R120). -/
  waiting : Bool
  /-- STATUS (R157). -/
  devTimeout : Bool
  late : Bool
  lateCount : Nat
  exc : Option Exc
  /-- A write was discarded while the present SYNC, release or END waited on it (R234). -/
  syncTimeout : Bool
  /-- Line boundaries since a unit of the core last issued or completed anything (R495). -/
  still : Nat
  /-- A core reset has been requested and waits for the drain (R153). -/
  resetWait : Bool
  /-- Performed writes of instructions that an older one's fault would leave undefined (R198). -/
  wrote : List Wrote
  deriving DecidableEq, Repr

/-! ### Memory, tiers and coherence (chapters 07, 09, 10) -/

/-- A directory entry (R338): owner, and sharers as a vector of caching agents. -/
structure DirEntry where
  owner : Option Nat
  sharers : BitVec 32
  deriving DecidableEq, Repr

/-- A request at its home (R340). -/
inductive HomeKind where
  | readShared
  | readOwn
  | writeThrough (wid : Nat)
  | naRead (pa n : Nat)
  | naWrite (pa : Nat) (bytes : List Byte)
  | atomic (pa : Nat) (op : AtomOp) (f : AtomFmt) (v cmp : Nat)
  /-- Write-adds of a remote node (R582). -/
  | adds (pa : Nat) (f : AtomFmt) (elems : List Nat)
  /-- Read-own without data (R600). -/
  | invOwn
  /-- A host write, byte by byte at offsets in the line, with its poison mark (R600, R601). -/
  | bytesWrite (bytes : List (Nat × Byte)) (poison : Bool)
  /-- A stream unit's request, named by its core and tag. -/
  | coreTag (c tag : Nat)
  /-- The directory gives up its entry of the line (R343). -/
  | evict
  /-- A move's switch takes the line from its holders (R255). -/
  | clear
  /-- The eviction notice of a cluster cache that came to a BUSY line (R339, R342). -/
  | leave (agent : Nat)
  deriving DecidableEq, Repr

/-- A request waiting at, or being performed by, its home. -/
structure HomeReq where
  line : Nat
  kind : HomeKind
  who : Agent
  e : Ecc
  /-- The tag the requester gave it. -/
  tag : Nat := 0
  /-- The context of the requester, when it is one of a remote node (R319). -/
  ctx : Option Nat := none
  /-- It came in the switch step of its block: it is held for the new home (R255). -/
  held : Bool := false
  deriving DecidableEq, Repr

/-- A transaction in progress: its line is BUSY (R339). -/
structure Txn where
  req : HomeReq
  /-- Caching agents whose answer is awaited. -/
  waits : List Nat
  deriving DecidableEq, Repr

/-- A write a cluster cache slice holds until the home acknowledges it (R204). -/
structure Held where
  wid : Nat
  core : Nat
  tag : Nat
  ctx : Nat
  gen : Nat
  /-- Number of its instruction on its core. -/
  seq : Nat
  pa : Nat
  bytes : List Byte
  /-- The home has performed it. -/
  done : Bool
  /-- An invalidation has removed the line since it was accepted (R349). -/
  inval : Bool
  deriving DecidableEq, Repr

/-- One cluster cache (R346 to R351): tags only, for a copy's bytes are memory's overlaid by the held writes. -/
structure Cluster where
  /-- Lines by slice × 16,384 + index. -/
  tags : Tbl Nat
  /-- Victim cache, oldest first, at most 512. -/
  victims : List Nat
  /-- Disabled indices, slice × 16,384 + index. -/
  disabled : List Nat
  held : List Held
  nextWid : Nat
  /-- Lines an invalidation has removed that have not been fetched again (R349). -/
  gone : List Nat
  deriving DecidableEq, Repr

/-- A line in a slice of a processor die's system-level cache, with its way (R353). -/
structure SlcLine where
  line : Nat
  way : Nat
  deriving DecidableEq, Repr

/-- A block's entry in the remap table (R248); the table lists only entries that differ from the initial map. -/
structure Remap where
  state : Nat
  tier : Nat
  ticket : Bool
  slot : Nat
  nominated : Bool
  owner : Nat
  frame : Nat
  count : Nat
  /-- Requests each of its homes has not yet passed on, 0 to 63, by controller (R262). -/
  subs : Tbl Nat
  deriving DecidableEq, Repr

/-- A channel of a memory controller, and the map of blocks to frames by which addresses lay on it at a time (R248, R250). -/
structure Channel where
  ctl : Nat
  chan : Nat
  h : Nat
  d : Nat
  remap : Tbl Remap
  hs : BitVec 16
  dram : BitVec 16
  deriving DecidableEq, Repr

/-- A range of memory whose unlisted bytes became undefined (R239, R334) or zero. -/
structure Undef where
  first : Nat
  len : Nat
  /-- The free draw that fills them; none says that the range has been zeroed. -/
  draw : Option Nat
  /-- Only what lies on this channel, if one is named. -/
  chan : Option Channel
  deriving DecidableEq, Repr

/-- Memory and its coherence. -/
structure Mem where
  /-- Bytes of the tiered range and of the scratchpad windows; an unlisted byte reads as `Mem.blank` gives. -/
  bytes : Tbl Byte
  /-- Ranges whose unlisted bytes have become undefined, newest first (R239, R334). -/
  undef : List Undef
  /-- Errors in sectors of the tiered range that no access has found yet (R316; assumption log 131). -/
  flaws : List EccFind
  /-- Poisoned 32 B sectors of the tiered range, by sector number (R317). -/
  poison : Tbl Bool
  /-- Scratchpad 8 B words with uncorrectable check bits, by word number (R318). -/
  badWords : Tbl Bool
  /-- Directory entries by line number (R338). -/
  dir : Tbl DirEntry
  /-- What places the entry of a line among those of its set, by line number, and the number of the next (R343; assumption
  log 5). -/
  ways : Tbl Nat
  wayNext : Nat
  /-- Transactions in progress. -/
  txns : List Txn
  /-- Requests waiting for a BUSY line, in the order they reached the home. -/
  waitq : List HomeReq
  /-- Bytes an owner holds modified in lines it owns: all of a processor die's, and of the CXL host's those it has last
  shown. -/
  dirty : Tbl Byte
  /-- Lines whose owner, a processor die, has lost its modified copy (R344, R356). -/
  lost : List Nat
  /-- Slices of the system-level caches, key die × 8 + slice: their lines, most recently used first (R353, R355). -/
  slc : Tbl (List SlcLine)
  clusters : Tbl Cluster
  /-- CXL tracker: host lines held, oldest first, with their owner and holders among agents 16 to 21 (R361). -/
  tracker : List (Nat × DirEntry)
  deriving DecidableEq, Repr

/-- A move in progress (R252 to R258). -/
structure Move where
  slot : Nat
  block : Nat
  up : Bool
  /-- Destination frame. -/
  frame : Nat
  /-- Pin at the switch. -/
  pin : Bool
  /-- The switch step has begun. -/
  switching : Bool
  /-- The homes have taken the new frame; the block's requests are held no longer (R255). -/
  switched : Bool
  /-- The command (its index in the ring) that asked for the move, and whether this is its victim's eviction. -/
  cmd : Nat
  victim : Bool
  /-- Pieces of 256 B copied so far, 8,192 in all, and the sectors since written whole in the destination frame too (R254). -/
  copied : Nat := 0
  mirrored : List Nat := []
  /-- Of a victim whose switch has ended: the frame it has freed for the promotion (R258). -/
  kept : Option Nat := none
  deriving DecidableEq, Repr

/-- A hot-block record that has still to be written to the ring (R265). -/
structure HotRec where
  block : Nat
  source : Nat
  count : Nat
  ctx : Nat
  time : Word
  deriving DecidableEq, Repr

/-- A peel command fetched from the ring (R269). -/
structure PeelCmd where
  idx : Nat
  op : Nat
  flags : Nat
  ctx : Nat
  operand : Nat
  start : Word
  /-- 0 not started; 1 waits for a ticket (R253); 2 moving; 3 complete. -/
  phase : Nat
  status : Nat
  victim : Nat
  /-- Held by the batch command of this index, if any (R270). -/
  batch : Option Nat
  rsv : Bool
  deriving DecidableEq, Repr

/-- The peel engine (chapter 07). -/
structure Peel where
  /-- H and D (R247). -/
  h : Nat
  d : Nat
  remap : Tbl Remap
  vacantHbm : List Nat
  vacantDram : List Nat
  moves : List Move
  cmds : List PeelCmd
  /-- Next ring entry to fetch, as a free-running count. -/
  fetched : Nat
  /-- Rotating pointer of victim selection (R259). -/
  pointer : Nat
  quotaReady : Bool
  /-- Owning context of each T0 slot, key core × 64 + slot (R276). -/
  t0 : Tbl Nat
  /-- Block last queried. -/
  query : Nat
  /-- Hot-block records whose line in the ring is BUSY (R265, R339), oldest first. -/
  hot : List HotRec
  deriving DecidableEq, Repr

/-- One HBM or DRAM controller: 0 to 15 the stacks, 16 to 31 the packages (chapter 09). -/
structure MemCtl where
  /-- Tracker of rows with corrected errors: row sub-unit and count, at most 32 (R322). -/
  rows : List (Nat × Nat)
  /-- Remapped rows and the spares used. -/
  remapped : List (Nat × Nat)
  /-- Spares used, by pseudo-channel or bank. -/
  used : Tbl Nat
  /-- Place of the next row to scrub. -/
  scrub : Nat
  margin : Bool
  temp : Nat
  mode : Nat
  dirQuery : Nat
  deriving DecidableEq, Repr

/-! ### Translation (chapter 11) -/

/-- A cached leaf (R377, R381). -/
structure Leaf where
  asid : Nat
  /-- First 4 KiB page and number of pages. -/
  vpn : Nat
  pages : Nat
  ppn : Nat
  r : Bool
  w : Bool
  x : Bool
  d : Bool
  g : Bool
  deriving DecidableEq, Repr

/-- A cached non-leaf entry: the table of `level - 1` for the addresses that share `head`. -/
structure Node where
  asid : Nat
  level : Nat
  head : Nat
  ppn : Nat
  g : Bool
  deriving DecidableEq, Repr

/-- What an acknowledgement waits for (R388): a read or write tag, a read of a WAITV, or an operation that keeps a physical
address. -/
inductive Dep where
  | read (tag : Nat)
  | write (tag : Nat)
  | watch
  | op (uid : Nat)
  | feWrite (tag : Nat)
  deriving DecidableEq, Repr

/-- An invalidation in progress (R387, R388). -/
structure Inval where
  id : Nat
  start : Nat
  pages : Nat
  asid : Nat
  allAsids : Bool
  global : Bool
  whole : Bool
  /-- From die `die`'s ring, or from the operation `uid`. -/
  die : Nat
  uid : Option Nat
  /-- ATUs (cores 0 to 127, front ends 128 to 131) that have not acknowledged. -/
  waits : List Nat
  /-- What each such ATU waits for. -/
  deps : List (Nat × Dep)
  deriving DecidableEq, Repr

/-- TLBs, walk caches and invalidations. -/
structure Xlat where
  /-- L1 TLBs: cores 0 to 127, front ends 128 to 131, newest first. -/
  l1 : Tbl (List Leaf)
  /-- L2 TLBs by cluster, newest first. -/
  l2 : Tbl (List Leaf)
  walkCache : Tbl (List Node)
  invals : List Inval
  nextInv : Nat
  /-- The node number, from the configuration record (R369). -/
  node : Nat
  deriving DecidableEq, Repr

/-! ### Processor dies (chapter 12) -/

/-- A store a hart has issued that has not performed (R414), or a read that waits for its answer. -/
structure HartStore where
  id : Nat
  pa : Nat
  bytes : List Byte
  target : Target
  /-- Cacheable normal memory. -/
  cacheable : Bool
  /-- It waits for an answer with data: a load or a far atomic. -/
  load : Bool
  /-- It writes: a store or a far atomic. -/
  writes : Bool
  /-- It is an acquire: younger accesses wait for it (R219). -/
  acquire : Bool
  /-- A device access (R408, R409, R412). -/
  device : Bool
  sent : Nat
  /-- The vector register it loads (R401). -/
  vec : Option Nat := none
  deriving DecidableEq, Repr

/-- An exception a hart has taken: its cause, and the address in its tval (R405, R411, R413). -/
structure HartTrap where
  cause : Nat
  /-- The address in tval, where the spec gives one. -/
  tval : Option Nat
  deriving DecidableEq, Repr

/-- A fence of a hart that waits (R404, R414): whether it orders accesses to cacheable memory alone, the older stores and
loads it waits for, which are those numbered below `upto`, and the younger ones that wait for it. -/
structure HartFence where
  cacheable : Bool
  stores : Bool
  loads : Bool
  upto : Nat
  thenStores : Bool
  thenLoads : Bool
  deriving DecidableEq, Repr

/-- One hart's side of the memory system (R413, R414), and its vector registers (R401); its RISC-V instructions are no rows
of the command table. -/
structure Hart where
  /-- The 32 vector registers of VLEN 512 bits (R401; assumption log 145). -/
  v : Tbl (BitVec 512)
  stores : List HartStore
  nextId : Nat
  /-- A FENCE or Xnwfence waits. -/
  fence : Option HartFence
  /-- The last exception the hart has taken. -/
  trap : Option HartTrap
  stopped : Bool
  deriving DecidableEq, Repr

/-- The processor dies. -/
structure Pds where
  harts : Tbl Hart
  /-- The lines of the harts' L1 data caches, by hart, and of the complexes' L2 blocks, by complex (0 to 11); R398, R406. -/
  l1 : Tbl (List Nat)
  l2 : Tbl (List Nat)
  /-- Pending bits of the interrupt files, key hart × 9 + file (0 machine, 1 supervisor, 2 to 8 guest 1 to 7); R416. -/
  files : Tbl (BitVec 512)
  /-- Dies in warm reset, and the phase of R420 (0 running, 1 steps 1 to 4, 2 steps 5 and 6). -/
  resetDies : Nat
  phase : Nat
  /-- The line in which phase 2 began. -/
  since : Nat
  /-- The watchdog of die p has fired and holds its count (R425). -/
  wdogHeld : BitVec 2
  /-- The time CSR of every hart (R402): its count at 100 MHz since module reset (assumption log 158). -/
  time : Nat
  deriving DecidableEq, Repr

/-! ### Queues, operations and front ends (chapters 08, 13, 14) -/

/-- The queue context a CREATE read (R427). -/
structure QCtx where
  sqBase : Nat
  sqLog : Nat
  cqLog : Nat
  owner : Nat
  priority : Nat
  intrEn : Bool
  priv : Bool
  context : Nat
  maxInflight : Nat
  cqBase : Nat
  dbAddr : Nat
  fallback : Nat
  sigAddr : Nat
  dbGen : Nat
  timeout : Nat
  intr : Nat
  deriving DecidableEq, Repr

/-- Queue states (R430), in the order of their codes. -/
inductive QState where
  | free | disabled | running | parked | completionFault | hostLost | stopped
  deriving DecidableEq, Repr

/-- A queue (R430 to R441, R480 to R489). -/
structure Queue where
  die : Nat
  state : QState
  cfg : QCtx
  head : Nat
  tail : Nat
  cause : Nat
  /-- The front end's copy of the doorbell line has been invalidated (R435). -/
  dbStale : Bool
  /-- Re-reads of the slot at the head with the wrong PHASE so far (R439). -/
  rereads : Nat
  /-- The descriptor at the head has been read with the expected PHASE. -/
  ready : Bool
  /-- The bytes that read returned (R439), and that they came poisoned (R609). -/
  desc : List Byte
  poison : Bool
  /-- Completion entries written since CREATE, and CQ_HEAD as last read (R480, R481). -/
  cqCount : Nat
  cqHead : Nat
  /-- COUNT of the fallback word (R485). -/
  fbCount : Nat
  /-- Entries held for space or by COMPLETION_FAULT, oldest first, by operation. -/
  heldCq : List Nat
  /-- The state COMPLETION_FAULT left (R489), and that a RESUME is writing the held entries. -/
  left : QState
  rearm : Bool
  /-- End of the interrupt hold-off, and whether completions fell within it (R486). -/
  holdUntil : Option Nat
  holdPend : Bool
  /-- Preferred operating point per accelerator die (R464). -/
  prefs : List Nat
  deriving DecidableEq, Repr

/-- One work item of a dispatch packet (R301). -/
structure Item where
  expert : Nat
  m : Nat
  first : Nat
  count : Nat
  wbase : Nat
  tokens : List Nat
  weights : List Nat
  set : Nat
  deriving DecidableEq, Repr

/-- A core's part of a dispatch, or of a launch handed to another die as a share (R305, R451). -/
structure Part where
  core : Nat
  /-- 0, or 1 + the index of a recipe node. -/
  node : Nat
  items : List Item
  /-- The front end of the core's die has taken it, with the ASID and root page it then read (R305, R373). -/
  taken : Bool
  asid : Nat
  root : Nat
  deriving DecidableEq, Repr

/-- Where an operation stands. -/
inductive OpPhase where
  /-- Accepted; waits under FENCE_BEFORE or to be started. -/
  | waiting
  | running
  /-- Its work has ended; its completion is still to be written (R478). -/
  | ended
  /-- Its completion entry waits for space or for a re-arm. -/
  | held
  /-- Its completion entry, or the fallback word that stands for one, has left and is not performed (R478). -/
  | written
  /-- Aborted by a hang procedure, to be replayed (R496). -/
  | aborted
  deriving DecidableEq, Repr

/-- An operation in flight (R142, R478). -/
structure Op where
  uid : Nat
  die : Nat
  queue : Nat
  opcode : Nat
  flags : Nat
  ctx : Nat
  gen : Nat
  seq : Nat
  desc : List Byte
  phase : OpPhase
  /-- Ruled time of acceptance, and of START and END (R479). -/
  accepted : Word
  start : Option Word
  fin : Option Word
  /-- Physical address the handle named, once relocated, and its virtual address. -/
  pa : Nat
  va : Nat
  /-- The physical address of the second page its bytes reach, when they cross into one. -/
  pa2 : Nat
  /-- ASID and root page of its context, as read when its handle was relocated (R373). -/
  asid : Nat
  root : Nat
  /-- Launch block (R450), recipe body (R468)
  as read at acceptance. -/
  block : List Byte
  /-- Cores whose part has not ended, and the number placed. -/
  cores : List Nat
  placed : List Nat
  /-- Launches of placed cores still without a free staged slot (R451, R304). -/
  waitSlot : List (Nat × Staged)
  /-- Status by the priority of R483. -/
  check : Option Nat
  excOrTimeout : Option Nat
  /-- The first exception its cores reported, with its program counter and address (R199). -/
  exc : Option Exc
  removed : Option Nat
  poison : Bool
  devTimeout : Bool
  replayed : Bool
  /-- It is being stopped on its cores. -/
  stopping : Bool
  stopAt : Option Nat
  subst : Nat
  errIndex : Option Nat
  /-- Line boundaries since acceptance (R475). -/
  age : Nat
  /-- Its shares of the lines that have closed, and, once it has ended, its energy of the line not yet closed (R533). -/
  energy : Nat
  openEnergy : Nat
  /-- Recipe: slot, version, and its nodes started, running and done (R471, R472). -/
  recipe : Option (Nat × Nat)
  nodesStarted : List Nat
  nodesDone : List Nat
  /-- The cores of the running nodes: pairs of core and node + 1; and every node's placement, for a replay (R496). -/
  nodeCores : List (Nat × Nat)
  nodePlaced : List (Nat × List Nat)
  /-- Parts per core still to be placed, all of a dispatch's parts as decided, deadline for s3, and that it has been
  decided. -/
  parts : List Part
  plan : List Part
  dspTotal : Nat
  dspDeadline : Word
  decided : Bool
  /-- The signal word has been written. -/
  signalled : Bool
  /-- It hung the core of a replay, or took too long in one (R496). -/
  hung : Bool
  /-- Its timeout has expired (R490). -/
  expired : Bool
  /-- The stroke in which the read of a WAIT outside the module left, while it waits for its answer (R236, R457). -/
  asked : Option Nat
  deriving DecidableEq, Repr

/-- A version of a recipe slot (R467): its number, which it has from the completion of its RECIPE_PATCH. -/
structure RVersion where
  num : Nat
  va : Nat
  /-- ASID and root page of the slot's context, kept from its installation (R373). -/
  asid : Nat
  root : Nat
  body : List Byte
  runs : Nat
  /-- The RECIPE_PATCH that installs it and has not completed (R469). -/
  arriving : Option Nat
  deriving DecidableEq, Repr

/-- A recipe slot (R467): state 0 FREE, 1 INSTALLED, 2 REMOVING. -/
structure RSlot where
  state : Nat
  ctx : Nat
  current : Option Nat
  last : Nat
  live : List RVersion
  deriving DecidableEq, Repr

/-- A share of a dispatch or of a launch, waiting in a front end's share queue (R305). -/
structure Share where
  uid : Nat
  node : Nat
  /-- The launch block its launch is loaded from. -/
  block : List Byte
  deriving DecidableEq, Repr

/-- A hang procedure in progress (R496). -/
structure Hang where
  core : Nat
  suspects : List Nat
  /-- Suspects not yet replayed. -/
  toReplay : List Nat
  /-- The suspect being replayed. -/
  current : Option Nat
  /-- Suspects that hung in replay. -/
  hung : List Nat
  /-- The second replay of the row "two or more". -/
  second : Bool
  /-- Line boundaries since the current replay started. -/
  lines : Nat
  deriving DecidableEq, Repr

/-- What a write of a front end is: data or a signal word; the completion entry of its operation, or the fallback word of a
queue without a completion ring; the fallback word of a failed entry (R484, R487). -/
inductive FeRole where
  | data | entry | fallback
  deriving DecidableEq, Repr

/-- A write of a front end to the host or to another node that waits for its acknowledgement, with its queue and its
operation (R203, R218, R234, R461). -/
structure FeWrite where
  tag : Nat
  queue : Option Nat
  uid : Option Nat
  role : FeRole
  ctx : Nat
  pa : Nat
  target : Target
  sent : Nat
  /-- The bytes of a write to the MMIO range, which it performs as it is acknowledged. -/
  bytes : List Byte
  deriving DecidableEq, Repr

/-- A front end (chapters 08, 11, 13, 14). -/
structure Fe where
  lastQueue : Nat
  /-- Its share queue, oldest first: those past the sixteenth still wait with their leaders (R305). -/
  shares : List Share
  recipes : Tbl RSlot
  /-- Cached directory and handle entries: context, handle, and the 32 bytes read (R449). -/
  handles : List (Nat × Nat × List Byte)
  qquery : Nat
  rquery : Nat
  hang : Option Hang
  /-- The invalidation-ring entry being served (R392). -/
  ringBusy : Option Nat
  /-- Writes to the host and to other nodes that have not been acknowledged (R203, R234). -/
  writes : List FeWrite
  nextTag : Nat
  deriving DecidableEq, Repr

/-- Operations, queues and contexts. -/
structure Work where
  queues : Tbl Queue
  /-- Operations in flight, in order of acceptance. -/
  ops : List Op
  nextUid : Nat
  fes : Tbl Fe
  /-- Generation tags of the contexts (R444, R493). -/
  gens : Tbl Nat
  /-- Contexts whose reset is in progress. -/
  resetting : List Nat
  ctxQuery : Nat
  /-- The context of the reset RAS_CTX_STAT reports. -/
  reqCtx : Option Nat
  escCount : Nat
  oos : Bool
  /-- Hung cores whose procedures wait for the one in progress, in the order of their hangs (R497). -/
  hangs : List Nat
  deriving DecidableEq, Repr

/-! ### Reliability (chapter 16) -/

/-- An error record (R552), before it is laid out. -/
structure ErrRec where
  unit : BitVec 64
  cls : Nat
  sev : Nat
  intent : Bool
  opKind : Nat
  opcode : Nat
  ctx : Option Nat
  addr : Nat
  coord : Nat
  syndrome : Nat
  deriving DecidableEq, Repr

/-- A record that has its index. -/
structure LogEnt where
  index : Nat
  time : Word
  body : ErrRec
  temp : Nat
  volt : Nat
  deriving DecidableEq, Repr

/-- A unit command in progress (R557, R558). -/
structure UnitCmd where
  path : BitVec 64
  op : Nat
  seq : Nat
  deriving DecidableEq, Repr

/-- A proof run held (R542). -/
structure ProofRun where
  id : Nat
  seed : Word
  whenAt : Word
  a : Nat
  b : Option Nat
  due : Bool
  started : Bool
  deriving DecidableEq, Repr

/-- The reliability block. -/
structure Ras where
  logIndex : Nat
  overflow : Bool
  /-- Records waiting in the hub buffer, at most 256 (R554). -/
  waiting : List LogEnt
  /-- Units whose state differs from what their die's presence gives, by unit path without node: state and line. -/
  units : Tbl (Nat × Nat)
  lastSeq : Nat
  cmd : Option UnitCmd
  /-- A quarantine started over the hatch or in a verdict, waiting for its boundary. -/
  waits : List UnitCmd
  lastPass : Tbl Word
  overdue : List Nat
  runs : List ProofRun
  nextRun : Nat
  unitQuery : Word
  proofQuery : Nat
  /-- Half of the telemetry buffer the next snapshot goes to (R559). -/
  telemHalf : Bool
  /-- Copy of the last snapshot's error index for the hatch. -/
  readIndex : Nat
  deriving DecidableEq, Repr

/-! ### Power (chapter 15) -/

/-- The operating point of a die (R512 to R518): accelerator dies under 0 to 3, processor dies under 4 and 5. -/
structure DiePwr where
  /-- The point, or clock step, it runs at. -/
  point : Nat
  pref : Nat
  /-- HOLD of PWR_ADn_STAT. -/
  hold : Nat
  /-- Preference and HOLD of the next line, once it has been decided. -/
  nextPref : Nat
  nextHold : Nat
  /-- Thermal limit and limiter limit (R510, R530). -/
  tlimit : Nat
  llimit : Nat
  /-- A sensor has read 105 °C or more, or 100 °C or more, during the line. -/
  hot : Bool
  warm : Bool
  /-- Whole lines in a row that stayed below 100 °C, and in which its limiters did not act, since the limit last rose. -/
  cool : Nat
  quiet : Nat
  /-- A limiter that names it has acted in the line. -/
  acted : Bool
  /-- The higher point it takes when its voltage has settled (R514). -/
  settling : Option Nat
  deriving DecidableEq, Repr

/-- Power and thermal control. -/
structure Power where
  /-- Input power is present; the rails are on. -/
  input : Bool
  /-- The thermal trip holds every rail but the hub's off (R52). -/
  tripped : Bool
  dies : Tbl DiePwr
  /-- Temperatures by die code, °C. -/
  temps : Tbl Nat
  /-- Energy credit C in nJ (R526). -/
  credit : Int
  /-- Limiters that act, with their ratio k: rails 0 to 16, and 17 the input (R508, R524). -/
  limiter : Tbl Nat
  /-- Effective ceilings of the current and of the next line in 1/16 A, and whether they are the burst ceiling (R520). -/
  ceilNow : Nat
  ceilNext : Nat
  burstNow : Bool
  burstNext : Bool
  /-- The ceiling the grant frame of this line selects: none received, floor or burst (R520). -/
  grant : Option Bool
  /-- The next line's points have been decided, and the credit was out (R514, R527). -/
  decided : Bool
  creditOut : Bool
  /-- The decision held a die below its preference for the floor ceiling alone (R522). -/
  wanted : Bool
  /-- The cap of the last valid rack frame in watts, and its line (R525). -/
  rackCap : Option (Nat × Nat)
  /-- What the meters gave for the last closed line (R519, R529). -/
  meas : Option LineMeas
  /-- Operations aborted since the last line closed: their share of its energy is residual (R533). -/
  aborted : List Nat
  /-- Gated domains, by unit path without node, and those being gated. -/
  gated : List Nat
  gating : List Nat
  deriving DecidableEq, Repr

/-! ### Links (chapter 17) -/

/-- A UCIe module of a die link (R561, R572). -/
structure AdlMod where
  up : Bool
  /-- It runs at x32. -/
  half : Bool
  retraining : Bool
  /-- Replays of the flit that is being replayed, and retrains within the plate. -/
  streak : Nat
  tries : Nat
  deriving DecidableEq, Repr

/-- A Rufen flit that has been sent and not acknowledged (R579). -/
structure Flit where
  seq : Nat
  bytes : List Byte
  replays : Nat
  deriving DecidableEq, Repr

/-- A Rufen port (R575, R578, R579). -/
structure Port where
  up : Bool
  /-- It stays down until the next fabric reset. -/
  dead : Bool
  /-- Lines it has been down, up to 4 (R583). -/
  down : Nat
  /-- Number of the next flit sent, and of the last flit received in order. -/
  txSeq : Nat
  rxSeq : Nat
  /-- The next flit carries NAK. -/
  nak : Bool
  /-- Credit: slots returned by the peer less slots used; and slots received that are to be returned to it. -/
  credit : Int
  owed : Nat
  /-- Flits kept for replay, oldest first, at most 512. -/
  replay : List Flit
  /-- Failed retrains within the plate. -/
  fails : Nat
  deriving DecidableEq, Repr

/-- A collective step pending at this module (R584). -/
structure Step where
  gate : Nat
  line : Nat
  value : Nat
  deriving DecidableEq, Repr

/-- Die links and fabric. -/
structure Links where
  /-- Modules of the die links, key link × 4 + module; a module not listed is absent or was never trained. -/
  mods : Tbl AdlMod
  /-- Classes each module carries (R566): C 1, D 2, F 4, under the same keys. -/
  roles : Tbl Nat
  /-- Redundant lanes in use, retrains and replays, by link (R587). -/
  spares : Tbl Nat
  retrains : Tbl Nat
  replays : Tbl Nat
  /-- Link last queried. -/
  query : Nat
  ports : Tbl Port
  laserLow : BitVec 8
  isolated : BitVec 128
  /-- The route table as last read, by node; an entry not listed is zero (R581, R586). -/
  routes : Tbl Nat
  /-- Fabric generations of the nodes, as last received (R578). -/
  gens : Tbl Nat
  steps : List Step
  /-- Fabric resets ordered for a line, and the line of the one in progress (R586). -/
  freset : List Nat
  fresetAt : Option Nat
  fabricGen : Nat
  deriving DecidableEq, Repr

/-! ### CXL (chapter 18) -/

/-- Link states of CXL_STAT.LINK (R617). -/
inductive CxlLink where
  | down | training | up | retrain | modeFail
  deriving DecidableEq, Repr

/-- The CXL block. -/
structure Cxl where
  link : CxlLink
  width : Nat
  rate : Nat
  session : Bool
  sessionGen : Nat
  /-- The host has been lost since the last session began (R614). -/
  lost : Bool
  /-- Line boundaries since the link entered Recovery (R612). -/
  recovery : Nat
  /-- The stroke in which the link last entered Recovery (R499). -/
  retrainAt : Nat
  /-- The host physical base of the committed HDM decoder, and its error-not-committed indication (R598). -/
  decoder : Option Nat
  decoderErr : Bool
  /-- Subsystem vendor and device identifiers, from the configuration record (R593, R627). -/
  subsystem : Nat × Nat
  /-- The MSI-X table's bytes, vectors whose pending bit is set, and vectors raised that are still to be sent (R611). -/
  msix : Tbl Byte
  msixPend : List Nat
  raised : List Nat
  deriving DecidableEq, Repr

/-- The identity CSRs of a hart, the same on every hart (R402). -/
structure HartIds where
  mvendorid : Word
  marchid : Word
  mimpid : Word
  deriving DecidableEq, Repr

/-- What the CXL function reports in its configuration space (R593). -/
structure CxlFunction where
  classCode : Nat
  vendor : Nat
  device : Nat
  subVendor : Nat
  subDevice : Nat
  deriving DecidableEq, Repr

/-! ### Boot and the hatch (chapters 19 and 20) -/

/-- The record writer at work (R624). -/
structure RecJob where
  region : Nat
  bank : Nat
  image : FlashRec
  deriving DecidableEq, Repr

/-- Boot state and flash. -/
structure Boot where
  /-- 0 held in reset; 1 booting; 2 boot complete; 3 boot stopped; 4 recovery. -/
  phase : Nat
  /-- The reset in progress, or the last one, was a cold one. -/
  cold : Bool
  straps : BitVec 8
  /-- Banks: 0 and 1 firmware, 2 and 3 configuration, 4 and 5 fault history. -/
  flash : Tbl FlashRec
  /-- The selected record of each region and its bank, as read at the reset (R623). -/
  fw : Option (Nat × FlashRec)
  cfg : Option (Nat × FlashRec)
  hist : Option (Nat × FlashRec)
  /-- HUB_BOOT_STAT.FAIL. -/
  fail : Nat
  /-- The recovery image that runs (R634). -/
  image : Option FlashRec
  writer : Option RecJob
  /-- The repair map of the last cold reset: redundant lanes in use by link (R571). -/
  repairs : Tbl Nat
  /-- The line in which boot step 6 ended (R632). -/
  readyAt : Nat
  /-- History entries to omit from the next record, by unit path (R629, SERVICE_CLEAR). -/
  clears : List (BitVec 64)
  deriving DecidableEq, Repr

/-- How hatch lines are framed (R647): on the grid, with sixteen marks accepted, by the marks. -/
inductive Framing where
  | none | grid | sixteen | marks
  deriving DecidableEq, Repr

/-- A message on its way to the tray: its numbers and bytes, the bytes of its packets, BYTE_COUNT with each, and those of them
that chunks have carried, and that a packet of it was discarded (R47, R653, R654). -/
structure OutMsg where
  args : List Nat
  bytes : List Byte
  packet : Nat
  sent : Nat
  spoilt : Bool
  deriving DecidableEq, Repr

/-- The hatch bus. -/
structure Hatch where
  framing : Framing
  /-- HTCH_ALERT_N is held low; a valid frame of this line acknowledged; an event arose in this line (R646). -/
  alert : Bool
  ack : Bool
  event : Bool
  /-- HATCH_ALERT_CAUSE. -/
  causes : BitVec 6
  /-- The hatch clock has returned or was never lost since the line began (R47). -/
  usable : Bool
  eid : Nat
  /-- Received packets, at most 8, the bytes of the packet in progress, and that chunks are ignored until SOP (R654). -/
  rx : List (List Byte)
  part : Option (List Byte)
  skip : Bool
  /-- Messages the module sends, the first one in progress (R653, R654). -/
  tx : List OutMsg
  /-- Strokes 14 and 15 carry scan, or will from the next line (R650); the selected chain and the units whose clocks are
  stopped (R658). -/
  scan : Bool
  scanNext : Bool
  chain : Option (BitVec 64)
  stopped : List (BitVec 64)
  /-- SEQs of unit commands asked for over the hatch, to be answered (R657). -/
  asks : List Nat
  deriving DecidableEq, Repr

/-- The part and what is present on it (R3, R628). -/
inductive Variant where
  | nwa1640 | nwa1640e | nwa1220
  deriving DecidableEq, Repr

/-- What boot found present, by die and unit (R628, R672). -/
structure Pop where
  variant : Variant
  ad : BitVec 4
  pd : BitVec 2
  hs : BitVec 16
  dram : BitVec 16
  oe : BitVec 8
  deriving DecidableEq, Repr

/-- What the module sends out, for an observer. -/
inductive OutKind where
  | alert | msix | cxl | fabric | frame | mgmt | data | snoop
  deriving DecidableEq, Repr

/-- One output: its kind, its numbers and its bytes. -/
structure Output where
  kind : OutKind
  args : List Nat
  bytes : List Byte
  deriving DecidableEq, Repr

/-- The whole module. -/
structure State where
  pop : Pop
  ruling : Ruling
  regs : Regs
  cores : Tbl Core
  mem : Mem
  ctls : Tbl MemCtl
  peel : Peel
  xlat : Xlat
  pds : Pds
  work : Work
  ras : Ras
  power : Power
  links : Links
  cxl : Cxl
  boot : Boot
  hatch : Hatch
  /-- Outputs, newest first. -/
  out : List Output
  /-- The model's own counter of free draws (assumption log 3): not a part of the hardware. -/
  fresh : Nat
  /-- Commands that wait, first in first out. -/
  pending : List Instr
  deriving DecidableEq, Repr

/-! ### Reset -/

/-- A core after core reset and before any launch (R153): every register zero, S at 1. -/
def Core.init : Core :=
  { launch := none, staged := [], s := [], t := [], p := 0, pc := 0, rnd := 1, loops := [], rets := [], acc := [],
    accDraw := 0, accRedraw := [], ibuf := [], jobs := [], nextSeq := 0, reads := [], writes := [], nextTag := 0, walk := none, block := .none,
    waiting := false, devTimeout := false, late := false, lateCount := 0, exc := none, syncTimeout := false, still := 0,
    resetWait := false, wrote := [] }

/-- A cluster cache that has powered up empty (R352). -/
def Cluster.init : Cluster :=
  { tags := [], victims := [], disabled := [], held := [], nextWid := 0, gone := [] }

/-- A memory controller at module reset (R336). -/
def MemCtl.init : MemCtl :=
  { rows := [], remapped := [], used := [], scrub := 0, margin := false, temp := 0, mode := 0,
    dirQuery := 0 }

/-- A hart with nothing outstanding. -/
def Hart.init : Hart := { v := [], stores := [], nextId := 0, fence := none, trap := none, stopped := false }

/-- A front end with no work. -/
def Fe.init : Fe :=
  { lastQueue := 1023, shares := [], recipes := [], handles := [], qquery := 0, rquery := 0,
    hang := none, ringBusy := none, writes := [], nextTag := 0 }

/-- A queue context of zeros. -/
def QCtx.init : QCtx :=
  { sqBase := 0, sqLog := 0, cqLog := 0, owner := 0, priority := 0, intrEn := false, priv := false, context := 0,
    maxInflight := 0, cqBase := 0, dbAddr := 0, fallback := 0, sigAddr := 0, dbGen := 0, timeout := 0, intr := 0 }

/-- A recipe slot that is FREE. -/
def RSlot.init : RSlot := { state := 0, ctx := 0, current := none, last := 0, live := [] }

/-- A port that has not trained. -/
def Port.init : Port :=
  { up := false, dead := false, down := 4, txSeq := 0, rxSeq := 65535, nak := false, credit := 0, owed := 0, replay := [], fails := 0 }

/-- The links before any has trained; reset values of the registers kept here (R587, R588). -/
def Links.init : Links :=
  { mods := [], roles := [], spares := [], retrains := [], replays := [], query := 0, ports := [], laserLow := 0,
    isolated := 0, routes := [], gens := [], steps := [], freset := [], fresetAt := none, fabricGen := 0 }

/-- The CXL block with the link in Detect (R592). -/
def Cxl.init : Cxl :=
  { link := .down, width := 0, rate := 0, session := false, sessionGen := 0, lost := false, recovery := 0, retrainAt := 0, decoder := none,
    decoderErr := false, msix := [], subsystem := (0, 0), msixPend := [], raised := [] }

/-- The hatch bus while the module is held in reset (R646). -/
def Hatch.init : Hatch :=
  { framing := .none, alert := false, ack := false, event := false, causes := 0, usable := true, eid := 0, rx := [],
    part := none, skip := true, tx := [], scan := false, scanNext := false, chain := none, stopped := [], asks := [] }

/-- A flash bank that has never been written (assumption log 7). -/
def FlashRec.blank : FlashRec := { bytes := [], checkOk := false, sigOk := false }

/-- A die at module reset: the reset values of PWR_ADn_STAT, and no limiter limit (R536). -/
def DiePwr.init : DiePwr :=
  { point := 0, pref := 0, hold := 0, nextPref := 0, nextHold := 0, tlimit := 15, llimit := 15, hot := false, warm := false, cool := 0, quiet := 0
    acted := false, settling := none }

/-- The tracker as the hub leaves reset (R24): ACQUIRING, line 0, no phase. -/
def Ruling.init : Ruling :=
  { state := .acquiring, line := 0, stroke := 0, tick := 0, candidate := none, predicted := none, measured := 20480,
    good := 0, fullSeen := none, marked := false, missed := 0, slewLeft := 0, slewSkip := false, jump := 0,
    rejected := false, sinceStart := 0, ckLost := false }

/-- The module right after reset: every register at its reset value, memory zero, no unit yet found present (boot
has still to run), the pointers at zero, that of victim selection among them (R259; assumption log 137), and no command
waiting (R246, R670, R693; assumption log 1). -/
def State.reset : State :=
  { pop := { variant := .nwa1640, ad := 0, pd := 0, hs := 0, dram := 0, oe := 0 }
    ruling := Ruling.init
    regs := { live := [], staged := [], commits := [], doneLine := 0 }
    cores := []
    mem := { bytes := [], undef := [], flaws := [], poison := [], badWords := [], dir := [], ways := [], wayNext := 0, txns := [], waitq := [], dirty := [],
             lost := [], slc := [], clusters := [], tracker := [] }
    ctls := []
    peel := { h := 0, d := 0, remap := [], vacantHbm := [], vacantDram := [], moves := [], cmds := [], fetched := 0,
              pointer := 0, quotaReady := false, t0 := [], query := 0, hot := [] }
    xlat := { l1 := [], l2 := [], walkCache := [], invals := [], nextInv := 0, node := 0 }
    pds := { harts := [], l1 := [], l2 := [], files := [], resetDies := 0, phase := 0, since := 0, wdogHeld := 0, time := 0 }
    work := { queues := [], ops := [], nextUid := 0, fes := [], gens := [], resetting := [], ctxQuery := 0,
              reqCtx := none, escCount := 0, oos := false, hangs := [] }
    ras := { logIndex := 0, overflow := false, waiting := [], units := [], lastSeq := 0, cmd := none, waits := [],
             lastPass := [], overdue := [], runs := [], nextRun := 0, unitQuery := 0, proofQuery := 0,
             telemHalf := false, readIndex := 0 }
    power := { input := true, tripped := false, dies := [], temps := [], credit := 125829120000, limiter := []
               ceilNow := 200, ceilNext := 200, burstNow := false, burstNext := false, grant := none
               decided := false, creditOut := false, wanted := false, rackCap := none, meas := none, aborted := [], gated := [], gating := [] }
    links := Links.init
    cxl := Cxl.init
    boot := { phase := 0, cold := true, straps := 0, flash := [], fw := none, cfg := none, hist := none, fail := 0
              image := none, writer := none, repairs := [], readyAt := 0, clears := [] }
    hatch := Hatch.init
    out := []
    fresh := 0
    pending := [] }

end Sys2Proof.Machine
end

