-- ==== Sys2Proof/Machine/Set.lean ====
section
/-! DEFINITION. Machine/Set.lean: one setter per field of `State`. -/

namespace Sys2Proof.Machine

/-- `s` with its field `pop` replaced. -/
def State.withPop (s : State) (x : Pop) : State := { s with pop := x }

/-- `s` with its field `ruling` replaced. -/
def State.withRuling (s : State) (x : Ruling) : State := { s with ruling := x }

/-- `s` with its field `regs` replaced. -/
def State.withRegs (s : State) (x : Regs) : State := { s with regs := x }

/-- `s` with its field `cores` replaced. -/
def State.withCores (s : State) (x : Tbl Core) : State := { s with cores := x }

/-- `s` with its field `mem` replaced. -/
def State.withMem (s : State) (x : Mem) : State := { s with mem := x }

/-- `s` with its field `ctls` replaced. -/
def State.withCtls (s : State) (x : Tbl MemCtl) : State := { s with ctls := x }

/-- `s` with its field `peel` replaced. -/
def State.withPeel (s : State) (x : Peel) : State := { s with peel := x }

/-- `s` with its field `xlat` replaced. -/
def State.withXlat (s : State) (x : Xlat) : State := { s with xlat := x }

/-- `s` with its field `pds` replaced. -/
def State.withPds (s : State) (x : Pds) : State := { s with pds := x }

/-- `s` with its field `work` replaced. -/
def State.withWork (s : State) (x : Work) : State := { s with work := x }

/-- `s` with its field `ras` replaced. -/
def State.withRas (s : State) (x : Ras) : State := { s with ras := x }

/-- `s` with its field `power` replaced. -/
def State.withPower (s : State) (x : Power) : State := { s with power := x }

/-- `s` with its field `links` replaced. -/
def State.withLinks (s : State) (x : Links) : State := { s with links := x }

/-- `s` with its field `cxl` replaced. -/
def State.withCxl (s : State) (x : Cxl) : State := { s with cxl := x }

/-- `s` with its field `boot` replaced. -/
def State.withBoot (s : State) (x : Boot) : State := { s with boot := x }

/-- `s` with its field `hatch` replaced. -/
def State.withHatch (s : State) (x : Hatch) : State := { s with hatch := x }

/-- `s` with its field `out` replaced. -/
def State.withOut (s : State) (x : List Output) : State := { s with out := x }

/-- `s` with its field `fresh` replaced. -/
def State.withFresh (s : State) (x : Nat) : State := { s with fresh := x }

/-- `s` with its field `pending` replaced. -/
def State.withPending (s : State) (x : List Instr) : State := { s with pending := x }

end Sys2Proof.Machine
end

