-- ==== Sys2Proof/Machine/RegMap.lean ====
section
/-! DEFINITION. Machine/RegMap.lean: where every register of the MMIO range lies, how it may be accessed, what it
holds at reset, and which commit set it belongs to (chapter 21 and the register tables of every chapter). -/

namespace Sys2Proof.Machine

/-- Access classes: `mixed` registers take no plain write, only their W1C bits clear. -/
inductive RegClass where
  | ro | rw | wo | rws | rwl | mixed
  deriving DecidableEq, Repr

/-- A row of a register table: first offset, step and count of an array of registers, bytes, class, writable bits,
bits cleared by writing 1, reset value. -/
structure RegRow where
  off : Nat
  step : Nat
  count : Nat
  bytes : Nat
  cls : RegClass
  wmask : Nat
  w1c : Nat
  rst : Nat
  deriving DecidableEq, Repr

/-- The blocks and regions of the MMIO map (R660). -/
inductive Block0 where
  | hub | rule | hatch | pwr | ras | cfg
  | fe (d : Nat) | atu (d : Nat) | hbmc (n : Nat) | dramc (n : Nat) | peel
  | d2d | opt | cxl | pd (p : Nat)
  | mfile (h : Nat) | sfile (h g : Nat)
  | msixTable | msixPending | component | loader
  deriving DecidableEq, Repr

/-- Registers of the HUB block. -/
def hubRegs : List RegRow := [
  ⟨0x0, 0x0, 1, 4, .ro, 0x0, 0x0, 0x0⟩ /- HUB_ID -/,
  ⟨0x4, 0x0, 1, 4, .ro, 0x0, 0x0, 0x0⟩ /- HUB_ADL_REV -/,
  ⟨0x8, 0x0, 1, 8, .ro, 0x0, 0x0, 0x8000000000000a16⟩ /- HUB_MARCHID -/,
  ⟨0x10, 0x0, 1, 8, .ro, 0x0, 0x0, 0x101⟩ /- HUB_MIMPID -/,
  ⟨0x18, 0x0, 1, 8, .ro, 0x0, 0x0, 0x0⟩ /- HUB_SERIAL -/,
  ⟨0x100, 0x0, 1, 4, .ro, 0x0, 0x0, 0x0⟩ /- HUB_CAP_GEN -/,
  ⟨0x104, 0x0, 1, 4, .ro, 0x0, 0x0, 0x40⟩ /- HUB_CAP_DIES -/,
  ⟨0x108, 0x0, 1, 4, .ro, 0x0, 0x0, 0x0⟩ /- HUB_CAP_DRAM -/,
  ⟨0x10c, 0x0, 1, 4, .ro, 0x0, 0x0, 0x0⟩ /- HUB_CAP_CLUSTERS -/,
  ⟨0x110, 0x8, 2, 8, .ro, 0x0, 0x0, 0x0⟩ /- HUB_CAP_CORES -/,
  ⟨0x120, 0x8, 8, 8, .ro, 0x0, 0x0, 0x0⟩ /- HUB_CAP_ENGINES -/,
  ⟨0x160, 0x8, 2, 8, .ro, 0x0, 0x0, 0x0⟩ /- HUB_CAP_HARTS -/,
  ⟨0x170, 0x0, 1, 4, .ro, 0x0, 0x0, 0x0⟩ /- HUB_CAP_SLC -/,
  ⟨0x400, 0x0, 1, 4, .ro, 0x0, 0x0, 0x0⟩ /- HUB_STRAPS -/,
  ⟨0x404, 0x0, 1, 4, .ro, 0x0, 0x0, 0x0⟩ /- HUB_BOOT_STAT -/,
  ⟨0x408, 0x0, 1, 4, .wo, 0x80000003, 0x0, 0x0⟩ /- HUB_REC_CTL -/,
  ⟨0x40c, 0x0, 1, 4, .mixed, 0x0, 0x40000000, 0x0⟩ /- HUB_REC_STAT -/,
  ⟨0x410, 0x0, 1, 8, .rw, 0xffffffffffffc0, 0x0, 0x0⟩ /- HUB_REC_SRC -/,
  ⟨0x418, 0x0, 1, 8, .wo, 0xffffffffffffc0, 0x0, 0x0⟩ /- HUB_DEBUG_SRC -/,
  ⟨0x420, 0x0, 1, 4, .mixed, 0x0, 0x40000000, 0x0⟩ /- HUB_DEBUG_STAT -/,
  ⟨0x440, 0x8, 4, 8, .ro, 0x0, 0x0, 0x0⟩ /- HUB_DEBUG_NONCE -/]

/-- Registers of the RULE block. -/
def ruleRegs : List RegRow := [
  ⟨0x0, 0x0, 1, 8, .ro, 0x0, 0x0, 0x0⟩ /- RULE_NOW -/,
  ⟨0x8, 0x0, 1, 4, .rwl, 0x7, 0x0, 0x2⟩ /- RULE_CTL -/,
  ⟨0xc, 0x0, 1, 4, .mixed, 0x0, 0xfa, 0x0⟩ /- RULE_STAT -/,
  ⟨0x10, 0x0, 1, 4, .ro, 0x0, 0x0, 0x0⟩ /- RULE_PHASE_ERR -/,
  ⟨0x14, 0x0, 1, 4, .ro, 0x0, 0x0, 0x0⟩ /- RULE_BAD_MARKS -/,
  ⟨0x18, 0x0, 1, 4, .ro, 0x0, 0x0, 0x0⟩ /- RULE_MISSED_LINES -/,
  ⟨0x20, 0x0, 1, 8, .ro, 0x0, 0x0, 0x0⟩ /- RULE_LAST_LOSS -/,
  ⟨0x28, 0x0, 1, 4, .ro, 0x0, 0x0, 0x0⟩ /- RULE_LAST_JUMP -/,
  ⟨0x2c, 0x0, 1, 4, .rw, 0xff, 0x0, 0x0⟩ /- RULE_INTR_EN -/,
  ⟨0x30, 0x0, 1, 4, .rw, 0x1fdfff, 0x0, 0x0⟩ /- RULE_INTR_TGT -/]

/-- Registers of the HATCH block. -/
def hatchRegs : List RegRow := [
  ⟨0x0, 0x0, 1, 4, .rws, 0x80000003, 0x0, 0x80000000⟩ /- HATCH_CTL -/,
  ⟨0x4, 0x0, 1, 4, .ro, 0x0, 0x0, 0x0⟩ /- HATCH_STAT -/,
  ⟨0x8, 0x0, 1, 4, .mixed, 0x0, 0x3f, 0x0⟩ /- HATCH_ALERT_CAUSE -/,
  ⟨0xc, 0x0, 1, 4, .ro, 0x0, 0x0, 0x0⟩ /- HATCH_FRAME_ERR -/,
  ⟨0x10, 0x0, 1, 4, .ro, 0x0, 0x0, 0x0⟩ /- HATCH_CHUNK_ERR -/,
  ⟨0x14, 0x0, 1, 4, .ro, 0x0, 0x0, 0x0⟩ /- HATCH_RX_DROPS -/]

/-- Registers of the PWR block. -/
def pwrRegs : List RegRow := [
  ⟨0x0, 0x0, 1, 4, .rws, 0xfff, 0x0, 0xc8⟩ /- PWR_FLOOR_CEIL -/,
  ⟨0x4, 0x0, 1, 4, .rws, 0xfff, 0x0, 0x118⟩ /- PWR_BURST_CEIL -/,
  ⟨0x8, 0x0, 1, 4, .rws, 0x7ff, 0x0, 0x5dc⟩ /- PWR_CAP -/,
  ⟨0xc, 0x0, 1, 4, .rws, 0xffff, 0x0, 0x1000⟩ /- PWR_CAP_DEPTH -/,
  ⟨0x10, 0x0, 1, 4, .rws, 0xf00000ff, 0x0, 0x600000c8⟩ /- PWR_CTL -/,
  ⟨0x14, 0x0, 1, 4, .mixed, 0x0, 0xb0000000, 0x0⟩ /- PWR_STAT -/,
  ⟨0x18, 0x0, 1, 4, .ro, 0x0, 0x0, 0x0⟩ /- PWR_INPUT -/,
  ⟨0x1c, 0x0, 1, 4, .ro, 0x0, 0x0, 0x0⟩ /- PWR_CREDIT -/,
  ⟨0x20, 0x0, 1, 8, .ro, 0x0, 0x0, 0x0⟩ /- PWR_ENERGY_TOTAL -/,
  ⟨0x28, 0x0, 1, 8, .ro, 0x0, 0x0, 0x0⟩ /- PWR_ENERGY_RESIDUAL -/,
  ⟨0x100, 0x10, 4, 4, .rws, 0xf, 0x0, 0xf⟩ /- PWR_ADn_CTL -/,
  ⟨0x104, 0x10, 4, 4, .ro, 0x0, 0x0, 0xf00000⟩ /- PWR_ADn_STAT -/,
  ⟨0x108, 0x10, 4, 4, .ro, 0x0, 0x0, 0x0⟩ /- PWR_ADn_HELD -/,
  ⟨0x180, 0x10, 2, 4, .rws, 0xff, 0x0, 0x88⟩ /- PWR_PDp_CTL -/,
  ⟨0x184, 0x10, 2, 4, .ro, 0x0, 0x0, 0xf00000⟩ /- PWR_PDp_STAT -/,
  ⟨0x200, 0x4, 17, 4, .ro, 0x0, 0x0, 0x0⟩ /- PWR_RAIL0-16 -/,
  ⟨0x400, 0x4, 32, 4, .rws, 0xf3f3f3f3, 0x0, 0x0⟩ /- PWR_CORE_CFG0-31 -/,
  ⟨0x500, 0x0, 1, 8, .wo, 0xffffffffffffffff, 0x0, 0x0⟩ /- PWR_DOMAIN_PATH -/,
  ⟨0x508, 0x0, 1, 4, .wo, 0x3, 0x0, 0x0⟩ /- PWR_DOMAIN_CTL -/,
  ⟨0x50c, 0x0, 1, 4, .mixed, 0x0, 0x40000000, 0x0⟩ /- PWR_DOMAIN_STAT -/]

/-- Registers of the RAS block. -/
def rasRegs : List RegRow := [
  ⟨0x0, 0x0, 1, 8, .rws, 0xfffffffffff000, 0x0, 0x0⟩ /- RAS_LOG_BASE -/,
  ⟨0x8, 0x0, 1, 4, .rws, 0x8000001f, 0x0, 0x0⟩ /- RAS_LOG_CTL -/,
  ⟨0xc, 0x0, 1, 4, .ro, 0x0, 0x0, 0x0⟩ /- RAS_LOG_HEAD -/,
  ⟨0x10, 0x0, 1, 4, .rw, 0xffffffff, 0x0, 0x0⟩ /- RAS_LOG_TAIL -/,
  ⟨0x14, 0x0, 1, 4, .ro, 0x0, 0x0, 0x0⟩ /- RAS_LOG_DROPS -/,
  ⟨0x18, 0x0, 1, 4, .rws, 0xe01fdfff, 0x0, 0x40000000⟩ /- RAS_INTR -/,
  ⟨0x20, 0x0, 1, 8, .wo, 0xffffffffffffffff, 0x0, 0x0⟩ /- RAS_UNIT_QUERY -/,
  ⟨0x28, 0x0, 1, 8, .ro, 0x0, 0x0, 0x0⟩ /- RAS_UNIT_STATE -/,
  ⟨0x30, 0x0, 1, 8, .rws, 0xffffffffffffffff, 0x0, 0x0⟩ /- RAS_UNIT_CMD_PATH -/,
  ⟨0x38, 0x0, 1, 4, .rws, 0xff000007, 0x0, 0x0⟩ /- RAS_UNIT_CMD -/,
  ⟨0x3c, 0x0, 1, 4, .mixed, 0x0, 0x40000000, 0x0⟩ /- RAS_UNIT_CMD_STAT -/,
  ⟨0x40, 0x0, 1, 8, .ro, 0x0, 0x0, 0x0⟩ /- RAS_UNIT_CMD_ACK -/,
  ⟨0x48, 0x0, 1, 8, .rws, 0xffffffffffe000, 0x0, 0x0⟩ /- RAS_TELEM_BASE -/,
  ⟨0x50, 0x0, 1, 4, .ro, 0x0, 0x0, 0x0⟩ /- RAS_SUMMARY -/,
  ⟨0x100, 0x0, 1, 4, .wo, 0xfff, 0x0, 0x0⟩ /- RAS_CTX_RESET -/,
  ⟨0x104, 0x0, 1, 4, .mixed, 0x0, 0x40000000, 0x0⟩ /- RAS_CTX_STAT -/,
  ⟨0x108, 0x0, 1, 4, .wo, 0xfff, 0x0, 0x0⟩ /- RAS_CTX_QUERY -/,
  ⟨0x10c, 0x0, 1, 4, .ro, 0x0, 0x0, 0x0⟩ /- RAS_CTX_GEN -/,
  ⟨0x110, 0x0, 1, 4, .rws, 0x7f, 0x0, 0x10⟩ /- RAS_ESC_CTL -/,
  ⟨0x114, 0x0, 1, 4, .ro, 0x0, 0x0, 0x0⟩ /- RAS_ESC_COUNT -/,
  ⟨0x118, 0x0, 1, 4, .ro, 0x0, 0x0, 0x0⟩ /- RAS_MODULE_STAT -/,
  ⟨0x200, 0x0, 1, 8, .wo, 0xffffffffffffffff, 0x0, 0x0⟩ /- RAS_PROOF_SEED -/,
  ⟨0x208, 0x0, 1, 8, .wo, 0xffffffffffffffff, 0x0, 0x0⟩ /- RAS_PROOF_WHEN -/,
  ⟨0x210, 0x0, 1, 4, .wo, 0xff7f, 0x0, 0x0⟩ /- RAS_PROOF_CORES -/,
  ⟨0x214, 0x0, 1, 4, .mixed, 0x0, 0xc0000000, 0x0⟩ /- RAS_PROOF_STAT -/,
  ⟨0x218, 0x0, 1, 4, .rws, 0xffff, 0x0, 0x100⟩ /- RAS_PROOF_WAIT -/,
  ⟨0x21c, 0x0, 1, 4, .rws, 0xffff, 0x0, 0x2cb⟩ /- RAS_PROOF_INTERVAL -/,
  ⟨0x220, 0x0, 1, 4, .wo, 0x7f, 0x0, 0x0⟩ /- RAS_PROOF_QUERY -/,
  ⟨0x228, 0x0, 1, 8, .ro, 0x0, 0x0, 0x0⟩ /- RAS_PROOF_LAST -/]

/-- Registers of the CFG block. -/
def cfgRegs : List RegRow := [
  ⟨0x0, 0x0, 1, 8, .rw, 0xffffffffffff, 0x0, 0x0⟩ /- CFG_COMMIT_LINE -/,
  ⟨0x8, 0x0, 1, 4, .wo, 0x8001ffff, 0x0, 0x0⟩ /- CFG_COMMIT -/,
  ⟨0xc, 0x0, 1, 4, .mixed, 0x0, 0xe0000000, 0x0⟩ /- CFG_COMMIT_STATUS -/,
  ⟨0x10, 0x0, 1, 8, .ro, 0x0, 0x0, 0x0⟩ /- CFG_COMMIT_DONE_LINE -/]

/-- Registers of the FE block. -/
def feRegs : List RegRow := [
  ⟨0x0, 0x0, 1, 8, .rws, 0xfffffffffff000, 0x0, 0x0⟩ /- FE_QTABLE_BASE -/,
  ⟨0x8, 0x0, 1, 8, .rws, 0xfffffffffff000, 0x0, 0x0⟩ /- FE_HDIR_BASE -/,
  ⟨0x10, 0x0, 1, 4, .wo, 0xf00003ff, 0x0, 0x0⟩ /- FE_QCTL -/,
  ⟨0x14, 0x0, 1, 4, .mixed, 0x0, 0x40000000, 0x0⟩ /- FE_QCTL_STATUS -/,
  ⟨0x18, 0x0, 1, 4, .wo, 0x3ff, 0x0, 0x0⟩ /- FE_QQUERY -/,
  ⟨0x20, 0x0, 1, 8, .ro, 0x0, 0x0, 0x0⟩ /- FE_QSTATE -/,
  ⟨0x28, 0x0, 1, 4, .mixed, 0xfff, 0x0, 0x0⟩ /- FE_HINV -/,
  ⟨0x2c, 0x0, 1, 4, .ro, 0x0, 0x0, 0x0⟩ /- FE_INFLIGHT -/,
  ⟨0x30, 0x0, 1, 4, .ro, 0x0, 0x0, 0x0⟩ /- FE_DB_AHEAD -/,
  ⟨0x34, 0x0, 1, 4, .ro, 0x0, 0x0, 0x0⟩ /- FE_DB_STALE -/,
  ⟨0x38, 0x0, 1, 4, .wo, 0xff, 0x0, 0x0⟩ /- FE_RECIPE_QUERY -/,
  ⟨0x40, 0x0, 1, 8, .ro, 0x0, 0x0, 0x0⟩ /- FE_RECIPE_ENTRY -/,
  ⟨0x800, 0x0, 1, 4, .rws, 0xffffffff, 0x0, 0x0⟩ /- FE_TWIN_MASK -/,
  ⟨0x804, 0x0, 1, 4, .ro, 0x0, 0x0, 0x0⟩ /- FE_TWIN_ACTIVE -/,
  ⟨0x900, 0x0, 1, 4, .ro, 0x0, 0x0, 0x0⟩ /- FE_CORE_PRESENT -/,
  ⟨0x904, 0x0, 1, 4, .ro, 0x0, 0x0, 0x0⟩ /- FE_CORE_BUSY -/,
  ⟨0xa00, 0x0, 1, 4, .ro, 0x0, 0x0, 0x0⟩ /- FE_DROP_COUNT -/,
  ⟨0xa08, 0x0, 1, 8, .ro, 0x0, 0x0, 0x0⟩ /- FE_DROP_LAST -/,
  ⟨0xb00, 0x0, 1, 4, .rws, 0xfffff, 0x0, 0x6000⟩ /- FE_DSP_HBM_RATE -/,
  ⟨0xb04, 0x0, 1, 4, .rws, 0xfffff, 0x0, 0x500⟩ /- FE_DSP_DRAM_RATE -/,
  ⟨0xb08, 0x0, 1, 4, .rws, 0xff, 0x0, 0x1⟩ /- FE_DSP_BASE -/,
  ⟨0xb0c, 0x0, 1, 4, .ro, 0x0, 0x0, 0x0⟩ /- FE_DSP_STAT -/,
  ⟨0xb10, 0x0, 1, 4, .ro, 0x0, 0x0, 0x0⟩ /- FE_DSP_SUBST -/,
  ⟨0xb14, 0x0, 1, 4, .ro, 0x0, 0x0, 0x0⟩ /- FE_DSP_DROPS -/,
  ⟨0xb18, 0x0, 1, 4, .ro, 0x0, 0x0, 0x0⟩ /- FE_DSP_WAITS -/,
  ⟨0xc00, 0x0, 1, 4, .ro, 0x0, 0x0, 0x0⟩ /- FE_CC_PARITY -/,
  ⟨0xc04, 0x0, 1, 4, .ro, 0x0, 0x0, 0x0⟩ /- FE_CC_DISABLED -/,
  ⟨0xd00, 0x0, 1, 4, .rws, 0xffff, 0x0, 0x810⟩ /- FE_HANG_CTL -/,
  ⟨0xd04, 0x0, 1, 4, .rws, 0xffff, 0x0, 0x0⟩ /- FE_INTR_HOLDOFF -/,
  ⟨0xd08, 0x0, 1, 4, .ro, 0x0, 0x0, 0x0⟩ /- FE_HANGS -/,
  ⟨0xd0c, 0x0, 1, 4, .ro, 0x0, 0x0, 0x0⟩ /- FE_HANG_TRANSIENT -/,
  ⟨0xd10, 0x0, 1, 4, .ro, 0x0, 0x0, 0x0⟩ /- FE_CQ_FAULTS -/,
  ⟨0xd14, 0x0, 1, 4, .ro, 0x0, 0x0, 0x0⟩ /- FE_HANG_STAT -/]

/-- Registers of the ATU block. -/
def atuRegs : List RegRow := [
  ⟨0x0, 0x0, 1, 8, .rws, 0xffffffffff0000, 0x0, 0x0⟩ /- ATU_CTX_BASE -/,
  ⟨0x8, 0x0, 1, 4, .rws, 0xc0000000, 0x0, 0x0⟩ /- ATU_CTL -/,
  ⟨0x10, 0x0, 1, 8, .rws, 0xfffffffffff000, 0x0, 0x0⟩ /- ATU_INV_RING_BASE -/,
  ⟨0x18, 0x0, 1, 4, .rws, 0xf, 0x0, 0x0⟩ /- ATU_INV_RING_SIZE -/,
  ⟨0x1c, 0x0, 1, 4, .rw, 0xffffffff, 0x0, 0x0⟩ /- ATU_INV_RING_TAIL -/,
  ⟨0x20, 0x0, 1, 4, .ro, 0x0, 0x0, 0x0⟩ /- ATU_INV_RING_HEAD -/,
  ⟨0x24, 0x0, 1, 4, .ro, 0x0, 0x0, 0x0⟩ /- ATU_WALKS -/,
  ⟨0x28, 0x0, 1, 4, .ro, 0x0, 0x0, 0x0⟩ /- ATU_FAULTS -/,
  ⟨0x30, 0x0, 1, 8, .ro, 0x0, 0x0, 0x0⟩ /- ATU_FAULT_LAST -/,
  ⟨0x38, 0x0, 1, 4, .rws, 0x1fdfff, 0x0, 0x0⟩ /- ATU_INV_INTR -/]

/-- Registers of the MC block. -/
def mcRegs : List RegRow := [
  ⟨0x0, 0x0, 1, 4, .rws, 0xe0f00000, 0x0, 0xe0400000⟩ /- HBMC_CTL -/,
  ⟨0x4, 0x0, 1, 4, .ro, 0x0, 0x0, 0x0⟩ /- HBMC_STAT -/,
  ⟨0x8, 0x0, 1, 4, .ro, 0x0, 0x0, 0x0⟩ /- HBMC_CE_COUNT -/,
  ⟨0xc, 0x0, 1, 4, .ro, 0x0, 0x0, 0x0⟩ /- HBMC_UE_COUNT -/,
  ⟨0x10, 0x0, 1, 4, .ro, 0x0, 0x0, 0x40⟩ /- HBMC_SPARE_MIN -/,
  ⟨0x14, 0x0, 1, 4, .wo, 0xffffffff, 0x0, 0x0⟩ /- HBMC_REMAP_REQ -/,
  ⟨0x18, 0x0, 1, 8, .ro, 0x0, 0x0, 0x0⟩ /- HBMC_REMAP_RESULT -/,
  ⟨0x20, 0x0, 1, 4, .ro, 0x0, 0x0, 0x0⟩ /- HBMC_SCRUB_POS -/,
  ⟨0x28, 0x0, 1, 4, .ro, 0x0, 0x0, 0x0⟩ /- HBMC_DIR_EVICTS -/,
  ⟨0x30, 0x0, 1, 8, .wo, 0xffffffffffff80, 0x0, 0x0⟩ /- HBMC_DIR_QUERY -/,
  ⟨0x38, 0x0, 1, 8, .ro, 0x0, 0x0, 0x0⟩ /- HBMC_DIR_ENTRY -/,
  ⟨0x80, 0x0, 1, 4, .rw, 0xfe00ff00, 0x0, 0x0⟩ /- HBMC_MARGIN_CTL -/,
  ⟨0x84, 0x0, 1, 4, .ro, 0x0, 0x0, 0x0⟩ /- HBMC_MARGIN_RESULT -/]

/-- Registers of the PEEL block. -/
def peelRegs : List RegRow := [
  ⟨0x4000, 0x0, 1, 8, .ro, 0x0, 0x0, 0x0⟩ /- DRAMC_TIER_FRAMES -/,
  ⟨0x4008, 0x0, 1, 4, .rws, 0x80007fff, 0x0, 0x1040⟩ /- DRAMC_PEEL_CTL -/,
  ⟨0x400c, 0x0, 1, 4, .ro, 0x0, 0x0, 0x41000000⟩ /- DRAMC_PEEL_STAT -/,
  ⟨0x4010, 0x0, 1, 4, .rws, 0xffff, 0x0, 0x400⟩ /- DRAMC_HOT_THRESH -/,
  ⟨0x4018, 0x0, 1, 8, .rws, 0xfffffffffff000, 0x0, 0x0⟩ /- DRAMC_HOT_RING_BASE -/,
  ⟨0x4020, 0x0, 1, 4, .rws, 0x1f, 0x0, 0x0⟩ /- DRAMC_HOT_RING_SIZE -/,
  ⟨0x4024, 0x0, 1, 4, .ro, 0x0, 0x0, 0x0⟩ /- DRAMC_HOT_RING_HEAD -/,
  ⟨0x4028, 0x0, 1, 4, .rw, 0xffffffff, 0x0, 0x0⟩ /- DRAMC_HOT_RING_TAIL -/,
  ⟨0x402c, 0x0, 1, 4, .ro, 0x0, 0x0, 0x0⟩ /- DRAMC_HOT_DROPS -/,
  ⟨0x4030, 0x0, 1, 8, .rws, 0xfffffffffff000, 0x0, 0x0⟩ /- DRAMC_CMD_RING_BASE -/,
  ⟨0x4038, 0x0, 1, 4, .rws, 0x1f, 0x0, 0x0⟩ /- DRAMC_CMD_RING_SIZE -/,
  ⟨0x403c, 0x0, 1, 4, .rw, 0xffffffff, 0x0, 0x0⟩ /- DRAMC_CMD_RING_TAIL -/,
  ⟨0x4040, 0x0, 1, 4, .ro, 0x0, 0x0, 0x0⟩ /- DRAMC_CMD_RING_HEAD -/,
  ⟨0x4048, 0x0, 1, 8, .rws, 0xfffffffffff000, 0x0, 0x0⟩ /- DRAMC_QUOTA_BASE -/,
  ⟨0x4050, 0x0, 1, 4, .wo, 0x1fffff, 0x0, 0x0⟩ /- DRAMC_BLOCK_QUERY -/,
  ⟨0x4058, 0x0, 1, 8, .ro, 0x0, 0x0, 0x0⟩ /- DRAMC_BLOCK_ENTRY -/]

/-- Registers of the D2D block. -/
def d2dRegs : List RegRow := [
  ⟨0x0, 0x0, 1, 4, .ro, 0x0, 0x0, 0x0⟩ /- D2D_LINK_UP -/,
  ⟨0x8, 0x0, 1, 4, .wo, 0x1f, 0x0, 0x0⟩ /- D2D_QUERY -/,
  ⟨0x10, 0x0, 1, 8, .ro, 0x0, 0x0, 0x0⟩ /- D2D_LINK_STAT -/,
  ⟨0x18, 0x0, 1, 4, .rws, 0x800000ff, 0x0, 0x80000008⟩ /- D2D_CTL -/,
  ⟨0x1c, 0x0, 1, 4, .ro, 0x0, 0x0, 0x0⟩ /- D2D_REPAIRS -/]

/-- Registers of the OPT block. -/
def optRegs : List RegRow := [
  ⟨0x0, 0x0, 1, 4, .ro, 0x0, 0x0, 0x0⟩ /- OPT_PORT_UP -/,
  ⟨0x4, 0x0, 1, 4, .ro, 0x0, 0x0, 0x0⟩ /- OPT_LASER_LOW -/,
  ⟨0x8, 0x0, 1, 8, .rws, 0xfffffffffffc00, 0x0, 0x0⟩ /- OPT_ROUTE_BASE -/,
  ⟨0x10, 0x8, 2, 8, .ro, 0x0, 0x0, 0x0⟩ /- OPT_ISOLATED -/,
  ⟨0x20, 0x0, 1, 4, .ro, 0x0, 0x0, 0x0⟩ /- OPT_DROPS -/,
  ⟨0x24, 0x0, 1, 4, .ro, 0x0, 0x0, 0x0⟩ /- OPT_FEC_CORR -/,
  ⟨0x28, 0x0, 1, 4, .ro, 0x0, 0x0, 0x0⟩ /- OPT_CRC_FAIL -/,
  ⟨0x30, 0x4, 4, 4, .wo, 0xffffffff, 0x0, 0x0⟩ /- OPT_STEP_GROUP0-3 -/,
  ⟨0x40, 0x0, 1, 8, .wo, 0xffffffffffff, 0x0, 0x0⟩ /- OPT_STEP_LINE -/,
  ⟨0x48, 0x0, 1, 4, .wo, 0xffffffff, 0x0, 0x0⟩ /- OPT_STEP_VALUE -/,
  ⟨0x4c, 0x0, 1, 4, .wo, 0x8000000f, 0x0, 0x0⟩ /- OPT_STEP_CMD -/,
  ⟨0x50, 0x0, 1, 4, .mixed, 0x0, 0xc0000000, 0x0⟩ /- OPT_STEP_STAT -/,
  ⟨0x80, 0x8, 16, 8, .rws, 0xfffffffffffffc, 0x0, 0x0⟩ /- OPT_GATE_ADDR0-15 -/,
  ⟨0x100, 0x0, 1, 8, .wo, 0xffffffffffff, 0x0, 0x0⟩ /- OPT_FRESET_LINE -/,
  ⟨0x108, 0x0, 1, 4, .wo, 0x80000000, 0x0, 0x0⟩ /- OPT_FRESET_CMD -/,
  ⟨0x10c, 0x0, 1, 4, .ro, 0x0, 0x0, 0x0⟩ /- OPT_FRESET_STAT -/]

/-- Registers of the CXL block. -/
def cxlRegs : List RegRow := [
  ⟨0x0, 0x0, 1, 4, .ro, 0x0, 0x0, 0x0⟩ /- CXL_ID -/,
  ⟨0x4, 0x0, 1, 4, .mixed, 0x0, 0x380000, 0x0⟩ /- CXL_STAT -/,
  ⟨0x8, 0x0, 1, 4, .rws, 0x800000ff, 0x0, 0x8⟩ /- CXL_CTL -/,
  ⟨0xc, 0x0, 1, 4, .rws, 0x801fdfff, 0x0, 0x0⟩ /- CXL_INTR -/,
  ⟨0x10, 0x0, 1, 8, .rwl, 0x3fff00003fff, 0x0, 0x0⟩ /- CXL_HDM_CTL -/,
  ⟨0x18, 0x0, 1, 4, .rwl, 0xfffff, 0x0, 0x0⟩ /- CXL_BAR0_MASK -/,
  ⟨0x1c, 0x0, 1, 4, .ro, 0x0, 0x0, 0x0⟩ /- CXL_TRACKER -/,
  ⟨0x20, 0x0, 1, 4, .ro, 0x0, 0x0, 0x0⟩ /- CXL_BISNP_TIMEOUTS -/,
  ⟨0x24, 0x0, 1, 4, .ro, 0x0, 0x0, 0x0⟩ /- CXL_POISON_IN -/,
  ⟨0x28, 0x0, 1, 4, .ro, 0x0, 0x0, 0x0⟩ /- CXL_HOST_LOSS -/,
  ⟨0x100, 0x20, 16, 8, .rws, 0x1ffffffe00000, 0x0, 0x0⟩ /- CXL_HWIN_BASE0-15 -/,
  ⟨0x108, 0x20, 16, 8, .rws, 0xfffffffe00000, 0x0, 0x0⟩ /- CXL_HWIN_HPA0-15 -/,
  ⟨0x110, 0x20, 16, 8, .rws, 0xc00000000fffffff, 0x0, 0x0⟩ /- CXL_HWIN_CTL0-15 -/]

/-- Registers of the PD block. -/
def pdRegs : List RegRow := [
  ⟨0x0, 0x0, 1, 8, .ro, 0x0, 0x0, 0x0⟩ /- PD_HART_PRESENT -/,
  ⟨0x8, 0x0, 1, 4, .wo, 0x3, 0x0, 0x0⟩ /- PD_RESET_CTL -/,
  ⟨0xc, 0x0, 1, 4, .mixed, 0x0, 0x80000000, 0x0⟩ /- PD_RESET_STAT -/,
  ⟨0x10, 0x0, 1, 8, .rw, 0xffffffffffffffff, 0x0, 0x0⟩ /- PD_HANDOFF -/,
  ⟨0x18, 0x0, 1, 4, .rw, 0xffff, 0x0, 0x0⟩ /- PD_WDOG_CTL -/,
  ⟨0x1c, 0x0, 1, 4, .rw, 0xffff, 0x0, 0x0⟩ /- PD_WDOG_COUNT -/,
  ⟨0x20, 0x0, 1, 4, .rw, 0x1ff, 0x0, 0x1⟩ /- PD_RAS_CTL -/,
  ⟨0x24, 0x0, 1, 4, .ro, 0x0, 0x0, 0x0⟩ /- PD_MSI_DROPS -/,
  ⟨0x28, 0x0, 1, 4, .ro, 0x0, 0x0, 0x0⟩ /- PD_RESET_COUNT -/,
  ⟨0x2000, 0x4, 8, 4, .rws, 0xffff, 0x0, 0xffff⟩ /- PD_SLC_WAY_MASK0-7 -/,
  ⟨0x2040, 0x4, 6, 4, .rws, 0x77777777, 0x0, 0x0⟩ /- PD_SLC_HART_PART0-5 -/,
  ⟨0x2060, 0x0, 1, 4, .ro, 0x0, 0x0, 0x0⟩ /- PD_SLC_GATED -/,
  ⟨0x2064, 0x0, 1, 4, .ro, 0x0, 0x0, 0x0⟩ /- PD_SLC_CE_COUNT -/,
  ⟨0x2068, 0x0, 1, 4, .ro, 0x0, 0x0, 0x0⟩ /- PD_SLC_UE_COUNT -/]

/-- The first byte of the MMIO range (R660). -/
def mmioBase : Nat := 0x070000000000

/-- The block or region an offset of the MMIO range falls in, and the offset within it (R660). -/
def blockAt (o : Nat) : Option (Block0 × Nat) :=
  if o < 0x10000 then some (.hub, o)
  else if o < 0x20000 then some (.rule, o - 0x10000)
  else if o < 0x30000 then some (.hatch, o - 0x20000)
  else if o < 0x40000 then some (.pwr, o - 0x30000)
  else if o < 0x50000 then some (.ras, o - 0x40000)
  else if o < 0x60000 then some (.cfg, o - 0x50000)
  else if o < 0x1000000 then none
  else if o < 0x1400000 then some (.fe ((o - 0x1000000) / 0x100000), (o - 0x1000000) % 0x100000)
  else if o < 0x1800000 then some (.atu ((o - 0x1400000) / 0x100000), (o - 0x1400000) % 0x100000)
  else if o < 0x2000000 then none
  else if o < 0x2100000 then some (.hbmc ((o - 0x2000000) / 0x10000), (o - 0x2000000) % 0x10000)
  else if o < 0x3000000 then none
  else if o < 0x3010000 then
    let x := o - 0x3000000
    -- the staged copies of controller n lie 0x8000 above its registers, those of the peel engine at 0xC000
    if x % 0x8000 < 0x1000 then some (.dramc (x % 0x8000 / 0x100), x % 0x100 + (if x < 0x8000 then 0 else 0x8000))
    else if 0x4000 ≤ x % 0x8000 then some (.peel, x)
    else none
  else if o < 0x4000000 then none
  else if o < 0x4010000 then some (.d2d, o - 0x4000000)
  else if o < 0x5000000 then none
  else if o < 0x5010000 then some (.opt, o - 0x5000000)
  else if o < 0x6000000 then none
  else if o < 0x6010000 then some (.cxl, o - 0x6000000)
  else if o < 0x6018000 then some (.msixTable, o - 0x6010000)
  else if o < 0x6018100 then some (.msixPending, o - 0x6018000)
  else if o < 0x6020000 then none
  else if o < 0x6030000 then some (.component, o - 0x6020000)
  else if o < 0x7000000 then none
  else if o < 0x7020000 then some (.pd ((o - 0x7000000) / 0x10000), (o - 0x7000000) % 0x10000)
  else if o < 0x7800000 then none
  else if o < 0x7860000 then some (.mfile ((o - 0x7800000) / 0x1000), (o - 0x7800000) % 0x1000)
  else if o < 0x7900000 then none
  else if o < 0x7C00000 then
    some (.sfile ((o - 0x7900000) / 0x8000) ((o - 0x7900000) % 0x8000 / 0x1000), (o - 0x7900000) % 0x1000)
  else if o < 0xF000000 then none
  else if o < 0xF800000 then some (.loader, o - 0xF000000)
  else none

/-- The offset of a block in the MMIO range. -/
def Block0.base : Block0 → Nat
  | .hub => 0 | .rule => 0x10000 | .hatch => 0x20000 | .pwr => 0x30000 | .ras => 0x40000 | .cfg => 0x50000
  | .fe d => 0x1000000 + d * 0x100000
  | .atu d => 0x1400000 + d * 0x100000
  | .hbmc n => 0x2000000 + n * 0x10000
  | .dramc n => 0x3000000 + n * 0x100
  | .peel => 0x3000000
  | .d2d => 0x4000000 | .opt => 0x5000000 | .cxl => 0x6000000
  | .pd p => 0x7000000 + p * 0x10000
  | .mfile h => 0x7800000 + h * 0x1000
  | .sfile h g => 0x7900000 + h * 0x8000 + g * 0x1000
  | .msixTable => 0x6010000 | .msixPending => 0x6018000 | .component => 0x6020000 | .loader => 0xF000000

/-- The register table of a block. -/
def Block0.rows : Block0 → List RegRow
  | .hub => hubRegs | .rule => ruleRegs | .hatch => hatchRegs | .pwr => pwrRegs | .ras => rasRegs | .cfg => cfgRegs
  | .fe _ => feRegs | .atu _ => atuRegs | .hbmc _ => mcRegs | .dramc _ => mcRegs | .peel => peelRegs
  | .d2d => d2dRegs | .opt => optRegs | .cxl => cxlRegs | .pd _ => pdRegs
  | _ => []

/-- The commit set of a block's RWS registers (R33). -/
def Block0.set : Block0 → Option Nat
  | .pwr => some 0 | .hatch => some 1 | .ras => some 2
  | .fe d => some (3 + d) | .atu d => some (7 + d)
  | .hbmc _ => some 11 | .dramc _ => some 12 | .peel => some 12
  | .d2d => some 13 | .opt => some 14 | .cxl => some 15 | .pd _ => some 16
  | _ => none

/-- The row that covers a local offset, and the offset of the register within the block. -/
def rowAt : List RegRow → Nat → Option (RegRow × Nat)
  | [], _ => none
  | r :: t, o =>
    if r.count = 1 then
      if r.off ≤ o ∧ o < r.off + r.bytes then some (r, r.off) else rowAt t o
    else if r.off ≤ o ∧ (o - r.off) / r.step < r.count ∧ (o - r.off) % r.step < r.bytes then
      some (r, o - (o - r.off) % r.step)
    else rowAt t o

/-- The reset value of the register at an offset of the MMIO range: its table's, but where it depends on the part
(PWR_CAP, R536) or on the kind of controller (SPARE_MIN, R336). -/
def regReset (v : Variant) (o : Nat) : BitVec 64 :=
  match blockAt o with
  | none => 0
  | some (b, x) =>
    match rowAt b.rows x with
    | none => 0
    | some (r, _) =>
      match b with
      | .pwr => if x = 0x8 ∧ v = .nwa1220 then 800 else BitVec.ofNat 64 r.rst
      | .dramc _ => if x = 0x10 then 8 else BitVec.ofNat 64 r.rst
      | _ => BitVec.ofNat 64 r.rst

/-- The live value stored for the register at offset `o`. -/
def State.reg (s : State) (o : Nat) : BitVec 64 := s.regs.live.getD (regReset s.pop.variant) o

/-- The staged value stored for the RWS register at offset `o` (R31). -/
def State.regStaged (s : State) (o : Nat) : BitVec 64 := s.regs.staged.getD (regReset s.pop.variant) o

/-- The register's live value as a number. -/
def State.regN (s : State) (o : Nat) : Nat := (s.reg o).toNat

/-- Store a live value. -/
def State.setReg (s : State) (o : Nat) (v : BitVec 64) : State :=
  s.withRegs { s.regs with live := s.regs.live.setD (regReset s.pop.variant) o v }

/-- Store a staged value. -/
def State.setStaged (s : State) (o : Nat) (v : BitVec 64) : State :=
  s.withRegs { s.regs with staged := s.regs.staged.setD (regReset s.pop.variant) o v }

/-- Set or clear bit `i` of the register at `o`. -/
def State.setRegBit (s : State) (o i : Nat) (b : Bool) : State := s.setReg o (setBit (s.reg o) i b)

/-- Replace bits `[hi:lo]` of the register at `o`. -/
def State.setRegBits (s : State) (o hi lo v : Nat) : State := s.setReg o (setBits (s.reg o) hi lo v)

/-- Add one to a 32-bit saturating counter. -/
def State.bump (s : State) (o : Nat) : State := s.setReg o (BitVec.ofNat 64 (satInc 32 (s.regN o)))

/-- Add `n` to a 32-bit saturating counter. -/
def State.bumpBy (s : State) (o n : Nat) : State := s.setReg o (BitVec.ofNat 64 (min (s.regN o + n) 0xFFFFFFFF))

/-! Offsets of the registers the families use, in the MMIO range. -/

/-- RULE registers (R52). -/
def rRuleCtl : Nat := 0x10008
def rRuleStat : Nat := 0x1000C
def rRulePhase : Nat := 0x10010
def rRuleBad : Nat := 0x10014
def rRuleMissed : Nat := 0x10018
def rRuleLoss : Nat := 0x10020
def rRuleJump : Nat := 0x10028
def rRuleIntrEn : Nat := 0x1002C
def rRuleIntrTgt : Nat := 0x10030
/-- CFG registers (R33). -/
def rCommitLine : Nat := 0x50000
def rCommit : Nat := 0x50008
def rCommitStat : Nat := 0x5000C
def rCommitDone : Nat := 0x50010
/-- A register of the FE block of die `d`. -/
def rFe (d o : Nat) : Nat := 0x1000000 + d * 0x100000 + o
/-- A register of the ATU block of die `d`. -/
def rAtu (d o : Nat) : Nat := 0x1400000 + d * 0x100000 + o
/-- A register of memory controller `n`: 0 to 15 the stacks, 16 to 31 the packages. -/
def rMc (n o : Nat) : Nat := if n < 16 then 0x2000000 + n * 0x10000 + o else 0x3000000 + (n - 16) * 0x100 + o
/-- A register of the peel engine, by its offset in the DRAMC block. -/
def rPeel (o : Nat) : Nat := 0x3000000 + o
/-- A register of the PD block of die `p`. -/
def rPd (p o : Nat) : Nat := 0x7000000 + p * 0x10000 + o
/-- A register of the RAS block. -/
def rRas (o : Nat) : Nat := 0x40000 + o
/-- A register of the PWR block. -/
def rPwr (o : Nat) : Nat := 0x30000 + o
/-- A register of the D2D block. -/
def rD2d (o : Nat) : Nat := 0x4000000 + o
/-- A register of the OPT block. -/
def rOpt (o : Nat) : Nat := 0x5000000 + o
/-- A register of the CXL block. -/
def rCxl (o : Nat) : Nat := 0x6000000 + o
/-- A register of the HUB block. -/
def rHub (o : Nat) : Nat := o
/-- A register of the HATCH block. -/
def rHatch (o : Nat) : Nat := 0x20000 + o

end Sys2Proof.Machine
end

