-- ==== Sys2Proof/Machine/Ops.lean ====
section
/-! DEFINITION. Machine/Ops.lean: the named operations over memory, registers, time, units and records that every
family shares. -/

namespace Sys2Proof.Machine

/-- The outcome of a command. -/
abbrev Out := Host.Outcome State Fault Refusal

/-- What a command comes to in a module with power: a next state, or an event that cannot happen now. -/
inductive Act where
  | next (s : State)
  | stay

/-- The outcome of what came of a command given in `s`. An event that cannot happen now leaves everything as it is: what it
waits for may come about, and the command can be given again (assumption log 10). -/
def Act.out (s : State) : Act → Out
  | .next t => .next t
  | .stay => .next s

/-- The event cannot happen in this state. -/
def notNow : Act := .stay

/-- What follows when something came of a command. -/
def Act.andThen (a : Act) (f : State → State) : Act :=
  match a with
  | .next s => .next (f s)
  | .stay => .stay

/-- Answer `k` when the module has power and its rails are on; a unit whose rails the trip holds off does nothing (R52). -/
def whenPowered (s : State) (k : Act) : Out :=
  if !s.power.input then .fault .noPower
  else if s.power.tripped then .next s
  else k.out s

/-- Answer `k` when the hub has power: the thermal trip leaves VDD_HUB on (R52). -/
def whenHub (s : State) (k : Act) : Out := if !s.power.input then .fault .noPower else k.out s

/-- Answer `k` when the event can happen. -/
def whenIt (b : Bool) (k : Act) : Act := if b then k else notNow

/-- Answer `k x` when the thing named is there. -/
def withSome {α : Type} (o : Option α) (k : α → Act) : Act :=
  match o with
  | some x => k x
  | none => notNow

/-! ### Time: R20, R21 -/

/-- Ruled time (R20). -/
def State.now (s : State) : Word :=
  BitVec.ofNat 64 (s.ruling.line * 2 ^ 16 + s.ruling.stroke * 2 ^ 12 + s.ruling.tick)

/-- The stroke that is running, counted over all lines. -/
def State.strokeNow (s : State) : Nat := s.ruling.line * 16 + s.ruling.stroke

/-- The line `t` lies in the future of line `cur` (R21). -/
def lineAhead (t cur : Nat) : Bool := (t + 2 ^ 48 - cur % 2 ^ 48) % 2 ^ 48 < 2 ^ 47

/-- The stroke `d` has been reached: it is the present one, or does not lie in the future under the modular rule of R21. -/
def State.reached (s : State) (d : Nat) : Bool :=
  let ahead := (d + 2 ^ 52 - s.strokeNow % 2 ^ 52) % 2 ^ 52
  ahead == 0 || 2 ^ 51 ≤ ahead

/-- Line `n` has begun or was skipped, and of the lines in `l` of which that holds none lies before it: events whose line
was skipped fall due in the order of their lines (R44). -/
def State.dueFirst (s : State) (l : List Nat) (n : Nat) : Bool :=
  s.reached (n * 16) && l.all (fun m => !s.reached (m * 16) || m == n || !lineAhead n m)

/-- The stroke a ruled time names; the tick is ignored (R186). -/
def strokeOf (w : Word) : Nat := w.toNat / 2 ^ 12

/-- The line a ruled time names. -/
def lineOf (w : Word) : Nat := w.toNat / 2 ^ 16

/-- The lines of the events that wait for one: collective steps, fabric resets, and, on rails that are on, proof runs and
migration batches (R28, step 6; R29). Those whose line has come go in the order of these lines (R44). -/
def State.eventLines (s : State) : List Nat :=
  s.links.steps.map Step.line ++ (if s.links.fresetAt.isNone then s.links.freset else [])
    ++ (if s.power.tripped then [] else
      (s.ras.runs.filter (fun r => !r.due)).map (fun r => lineOf r.whenAt)
        ++ (s.peel.cmds.filter (fun c => c.op == 6 && c.phase == 1)).map (fun c => lineOf c.start))

/-- Insert a number into a rising list without repeats. -/
def insertUp (x : Nat) : List Nat → List Nat
  | [] => [x]
  | y :: t => if x < y then x :: y :: t else if x = y then y :: t else y :: insertUp x t

/-! ### Free draws and outputs -/

/-- A fresh draw: the state with its counter advanced, and the counter's old value (assumption log 3). -/
def State.draw (s : State) : State × Nat := (s.withFresh (s.fresh + 1), s.fresh)

/-- Send something out of the module. -/
def State.emit (s : State) (o : Output) : State := s.withOut (o :: s.out)

/-- An output without bytes. -/
def State.emitN (s : State) (k : OutKind) (args : List Nat) : State :=
  s.emit { kind := k, args := args, bytes := [] }

/-- The bytes of a whole packet: BYTE_COUNT, a transport header of 4 bytes (PRESUMED, assumption log 111), and HATCH_CTL.MTU
bytes (R654). -/
def State.packetBytes (s : State) : Nat :=
  6 + (match s.regN (rHatch 0x0) % 4 with
    | 1 => 128
    | 2 => 256
    | _ => 64)

/-- A message for the tray joins those the module sends: numbers, the first the message type, and bytes (R654). -/
def State.mgmt (s : State) (args : List Nat) (bytes : List Byte) : State :=
  s.withHatch { s.hatch with
    tx := s.hatch.tx ++ [{ args := args, bytes := bytes, packet := s.packetBytes, sent := 0, spoilt := false }] }

/-- HUB_RUNTIME runs: boot has reached step 6, and has not stopped (R632, R655). -/
def State.hubRuns (s : State) : Bool := s.boot.phase == 1 || s.boot.phase == 2 || s.boot.phase == 4

/-! ### Units and their states: R13 to R15, R545, R672 -/

/-- A unit path (R13). -/
def unitPath (node die cl core unit sub : Nat) : BitVec 64 :=
  BitVec.ofNat 64 (node * 2 ^ 57 + die * 2 ^ 52 + cl * 2 ^ 49 + core * 2 ^ 46 + unit * 2 ^ 42 + sub)

/-- The module's own node number in paths and addresses; 0 on the NWA-1640E (R5). -/
def State.node (s : State) : Nat := if s.pop.variant = .nwa1640e then 0 else s.xlat.node

/-- A path on this module. -/
def State.path (s : State) (die cl core unit sub : Nat) : BitVec 64 := unitPath s.node die cl core unit sub

/-- The key of a unit in the table of unit states: its path without the node. -/
def unitKey (p : BitVec 64) : Nat := p.toNat % 2 ^ 57

/-- The key of a unit of this module. -/
def keyOf (die cl core unit : Nat) : Nat := die * 2 ^ 52 + cl * 2 ^ 49 + core * 2 ^ 46 + unit * 2 ^ 42

/-- The accelerator die is present. -/
def State.adPresent (s : State) (d : Nat) : Bool := d < 4 && s.pop.ad.getLsbD d

/-- The processor die is present. -/
def State.pdPresent (s : State) (p : Nat) : Bool := p < 2 && s.pop.pd.getLsbD p

/-- The recorded state of a unit, IN_SERVICE when none is recorded. -/
def State.unitRec (s : State) (key : Nat) : Nat :=
  match s.ras.units.get? key with
  | some e => e.1
  | none => 0

/-- A unit is out of service: quarantined or absent on its own account. -/
def State.unitOut (s : State) (key : Nat) : Bool := 2 ≤ s.unitRec key

/-- The key of an accelerator core. -/
def coreKey (c : Nat) : Nat := keyOf (c / 32) (c / 8 % 4) (c % 8) 0xC

/-- The key of a cluster, index die × 4 + cluster. -/
def clusterKey (k : Nat) : Nat := keyOf (k / 4) (k % 4) 0 0xD

/-- The state code of an accelerator core (R545, R672): its die, its cluster, then its own. -/
def State.coreState (s : State) (c : Nat) : Nat :=
  if 128 ≤ c || !s.adPresent (c / 32) then 3
  else if s.unitOut (clusterKey (c / 8)) then s.unitRec (clusterKey (c / 8))
  else s.unitRec (coreKey c)

/-- The core is present and not quarantined (FE_CORE_PRESENT, R154). -/
def State.corePresent (s : State) (c : Nat) : Bool := s.coreState c < 2

/-- Engine `e` of core `c` is present and not quarantined. -/
def State.enginePresent (s : State) (c e : Nat) : Bool :=
  s.corePresent c && e < 4 && !s.unitOut (keyOf (c / 32) (c / 8 % 4) (c % 8) e)

/-- The cluster is present and not quarantined. -/
def State.clusterPresent (s : State) (k : Nat) : Bool :=
  k < 16 && s.adPresent (k / 4) && !s.unitOut (clusterKey k)

/-- The key of a hart (R398, R399). -/
def hartKey (h : Nat) : Nat := keyOf (4 + h / 48) (h / 24 % 2) (h / 8 % 3) (h % 8)

/-- The key of a complex L2 block. -/
def complexKey (h : Nat) : Nat := keyOf (4 + h / 48) (h / 24 % 2) (h / 8 % 3) 0x8

/-- The hart is present and not quarantined (PD_HART_PRESENT). -/
def State.hartPresent (s : State) (h : Nat) : Bool :=
  h < 96 && s.pdPresent (h / 48) && !s.unitOut (hartKey h) && !s.unitOut (complexKey h)

/-- The optical engine is present and not quarantined. -/
def State.oePresent (s : State) (k : Nat) : Bool :=
  k < 8 && s.pop.oe.getLsbD k && !s.unitOut (keyOf (8 + k) 0 0 0xE)

/-- A system-level cache slice, index 8 × p + s, is present and not quarantined. -/
def State.slcPresent (s : State) (i : Nat) : Bool :=
  i < 16 && s.pdPresent (i / 8) && !s.unitOut (keyOf (4 + i / 8) 0 (i % 8) 0x9)

/-- The hub's own path. -/
def State.hubPath (s : State) : BitVec 64 := s.path 6 0 0 0xE 0

/-- The path of the front end of die `d`. -/
def State.fePath (s : State) (d : Nat) : BitVec 64 := s.path d 0 0 0x9 0

/-- The path of a unit of core `c`. -/
def State.corePath (s : State) (c unit sub : Nat) : BitVec 64 := s.path (c / 32) (c / 8 % 4) (c % 8) unit sub

/-! ### Interrupt files: R416, R417, R423 -/

/-- The die that hosts a hart number's file; PD0 for numbers of 96 or more (R417). -/
def msiDie (h : Nat) : Nat := if h < 96 then h / 48 else 0

/-- An MSI write of `ident` to file `f` of hart `h` (0 machine, 1 supervisor, 2 to 8 guest): it sets the identity
pending, is ignored for identity 0 or above 511, and is discarded and counted where R417 or R423 says so. -/
def State.msi (s : State) (h f ident : Nat) : State :=
  if 9 ≤ f || 96 ≤ h || !s.hartPresent h || (s.pds.phase != 0 && bitOf s.pds.resetDies (h / 48)) then
    s.bump (rPd (msiDie h) 0x24)
  else if ident = 0 || 511 < ident then s
  else
    let k := h * 9 + f
    let v := s.pds.files.getD (fun _ => 0) k
    s.withPds { s.pds with files := s.pds.files.setD (fun _ => 0) k (v ||| BitVec.ofNat 512 (2 ^ ident)) }

/-- An interrupt through a target register in the layout of the table "Interrupt target": identity 0 sends none. -/
def State.msiTarget (s : State) (t : Nat) : State :=
  if t % 2 ^ 9 = 0 then s else s.msi (bitsOf t 20 14) (bitsOf t 12 9) (t % 2 ^ 9)

/-- Raise HTCH_ALERT_N for a cause bit of HATCH_ALERT_CAUSE (R646). -/
def State.alert (s : State) (cause : Nat) : State :=
  (s.withHatch { s.hatch with alert := true, event := true
                              causes := s.hatch.causes ||| BitVec.ofNat 6 (2 ^ cause) }).emitN .alert [cause]

/-! ### Physical memory: R369 to R371, R693 -/

/-- The bytes of one module's address space below its node field. -/
def localPart (pa : Nat) : Nat := pa % 2 ^ 49

/-- The node an address names. -/
def nodePart (pa : Nat) : Nat := pa / 2 ^ 49 % 128

/-- First address of the scratchpad window of core `c` (R147). -/
def windowBase (c : Nat) : Nat := 0x060000000000 + c * 0x400000

/-- First byte beyond the backed blocks (R243, R244). -/
def State.tieredEnd (s : State) : Nat := (s.peel.h + s.peel.d - 32) * 0x200000

/-- The address range lies in backed blocks of the local tiered range. -/
def State.inTiered (s : State) (pa n : Nat) : Bool :=
  (nodePart pa == s.node) && localPart pa + n ≤ s.tieredEnd

/-- The module addresses a host window covers, when its EN bit is set: first and one past the last (R604). -/
def State.winRange (s : State) (w : Nat) : Option (Nat × Nat) :=
  let ctl := s.regN (rCxl (0x110 + w * 0x20))
  let base := s.regN (rCxl (0x100 + w * 0x20))
  if bitOf ctl 63 then some (base, base + ctl % 2 ^ 28 * 0x200000) else none

/-- An enabled window that overlaps an enabled one of lower number, or reaches too far, acts as disabled (R604). -/
def State.winBad (s : State) (w : Nat) : Bool :=
  match s.winRange w with
  | none => false
  | some (a, b) => 2 ^ 49 < b || (upFrom 0 w).any (fun v => match s.winRange v with
      | some (c, d) => decide (a < d ∧ c < b)
      | none => false)

/-- The host window that holds a local address: its number and whether it is marked device (R604). -/
def State.hostWindow (s : State) (a : Nat) : Option (Nat × Bool) :=
  let hit (w : Nat) : Bool := match s.winRange w with
    | some (c, d) => decide (c ≤ a ∧ a < d) && !s.winBad w
    | none => false
  match (upFrom 0 16).filter hit with
  | [] => none
  | w :: _ => some (w, bitOf (s.regN (rCxl (0x110 + w * 0x20))) 62)

/-- Where a physical address lies, or none where the ATU answers ACCESS_FAULT (R370, R371). -/
def State.target (s : State) (pa : Nat) : Option Target :=
  let a := localPart pa
  if nodePart pa != s.node then
    if s.pop.variant == .nwa1640e || 0x070000000000 ≤ a then none else some (.remote (nodePart pa))
  else if a < s.tieredEnd then some .tiered
  else if 0x060000000000 ≤ a && a < 0x060020000000 then
    let c := (a - 0x060000000000) / 0x400000
    if s.corePresent c then some (.window c) else none
  else if mmioBase ≤ a && a < mmioBase + 0x10000000 then some .mmio
  else if 0x100000000000 ≤ a then
    match s.hostWindow a with
    | some (_, dev) => some (if dev then .hostDevice else .host)
    | none => none
  else none

/-! ### Blocks and homes: R243 to R251 -/

/-- The remap entry of block `b` after reset (R246). TIER and FRAME of an unbacked block, and all but STATE of a number
beyond the last block, are zero (assumption log 125). -/
def initRemap (h d b : Nat) : Remap :=
  let base : Remap := { state := 7, tier := 0, ticket := false, slot := 0, nominated := false, owner := 0, frame := 0,
                        count := 0, subs := [] }
  if b < h - 16 then { base with state := 0, frame := b }
  else if b < h + d - 32 then { base with state := 1, tier := 1, frame := b - (h - 16) }
  else base

/-- The remap entry of block `b`. -/
def State.remap (s : State) (b : Nat) : Remap := s.peel.remap.getD (initRemap s.peel.h s.peel.d) b

/-- Replace the remap entry of block `b`. -/
def State.setRemap (s : State) (b : Nat) (r : Remap) : State :=
  s.withPeel { s.peel with remap := s.peel.remap.setD (initRemap s.peel.h s.peel.d) b r }

/-- The 64-bit form of a remap entry (R248). -/
def Remap.word (r : Remap) : BitVec 64 :=
  BitVec.ofNat 64 (r.state * 2 ^ 61 + r.tier * 2 ^ 60 + b2n r.ticket * 2 ^ 59 + r.slot * 2 ^ 55
    + b2n r.nominated * 2 ^ 54 + r.owner * 2 ^ 42 + r.frame * 2 ^ 16 + r.count)

/-- The block of a local address. -/
def blockOf (pa : Nat) : Nat := localPart pa / 0x200000

/-- The largest of 16, 8, 4, 2, 1 that does not exceed `n`, as a power of two (R250). -/
def unitsLog (n : Nat) : Nat :=
  if 16 ≤ n then 4 else if 8 ≤ n then 3 else if 4 ≤ n then 2 else if 2 ≤ n then 1 else 0

/-- The controller on which a piece lies whose block has remap entry `r`, with `hs` stacks and `dram` packages present (R250): 0
to 15 the stacks, 16 to 31 the packages. Second, the channel within the unit. -/
def pieceHome (hs dram : BitVec 16) (r : Remap) (pa : Nat) : Nat × Nat :=
  let units := if r.tier = 0 then setBitsBelow 16 hs.toNat else setBitsBelow 16 dram.toNat
  let u := unitsLog units.length
  let bits := (if r.tier = 0 then 5 else 2) + u
  let g := (localPart pa / 256 % 2 ^ bits) ^^^ (r.frame % 2 ^ bits)
  ((if r.tier = 0 then 0 else 16) + units.getD (g % 2 ^ u) 0, g / 2 ^ u)

/-- The controller whose home agent serves a tiered address, and the channel in its unit (R250, R251). -/
def State.homeOf (s : State) (pa : Nat) : Nat × Nat := pieceHome s.pop.hs s.pop.dram (s.remap (blockOf pa)) pa

/-- The address lay on the channel when the range became undefined. -/
def Channel.holds (c : Channel) (a : Nat) : Bool :=
  pieceHome c.hs c.dram (c.remap.getD (initRemap c.h c.d) (blockOf a)) a == (c.ctl, c.chan)

/-- The range covers a local address. -/
def Undef.covers (u : Undef) (a : Nat) : Bool :=
  u.first ≤ a && a < u.first + u.len && (match u.chan with
    | some c => c.holds a
    | none => true)

/-- What an unlisted byte of memory reads as: zero (R693, R130), but in a range that has become undefined, where it is a free
value (R239, R334; assumption log 3). -/
def Mem.blank (m : Mem) (a : Nat) : Byte :=
  match (m.undef.find? (fun r => r.covers a)).bind Undef.draw with
  | some k => Config.freeByte k a
  | none => 0

/-- A byte as the homes hold it. -/
def State.rawByte (s : State) (a : Nat) : Byte := s.mem.bytes.getD s.mem.blank (localPart a)

/-- A byte as any coherent read sees it: a processor die's modified copy, else memory. -/
def State.sysByte (s : State) (a : Nat) : Byte :=
  match s.mem.dirty.get? (localPart a) with
  | some b => b
  | none => s.rawByte a

/-- `n` bytes from `a`, as a coherent read sees them. -/
def State.sysRead (s : State) (a n : Nat) : List Byte := (upFrom a n).map s.sysByte

/-- The little-endian number in `n` bytes from `a`. -/
def State.sysNat (s : State) (a n : Nat) : Nat := ofBytes (s.sysRead a n)

/-- The sectors of `[a, a + n)`. -/
def sectorsOf (a n : Nat) : List Nat :=
  if n = 0 then [] else upFrom (a / 32) ((a + n - 1) / 32 - a / 32 + 1)

/-- The lines of `[a, a + n)`. -/
def linesOf (a n : Nat) : List Nat :=
  if n = 0 then [] else upFrom (a / 128) ((a + n - 1) / 128 - a / 128 + 1)

/-- A sector is poisoned. -/
def State.poisoned (s : State) (sec : Nat) : Bool := s.mem.poison.getD (fun _ => false) sec

/-- Some sector of the range is poisoned. -/
def State.anyPoison (s : State) (a n : Nat) : Bool := (sectorsOf (localPart a) n).any s.poisoned

/-- Write bytes to a memory table from address `a`, keeping its canonical form. -/
def putBytes (d : Nat → Byte) : Tbl Byte → Nat → List Byte → Tbl Byte
  | t, _, [] => t
  | t, a, b :: bs => putBytes d (t.setD d a b) (a + 1) bs

/-- Forget the bytes a range covers: with a draw they become undefined, without one they become zero. An older range that lies
within it is forgotten with them. -/
def Mem.forgetIn (m : Mem) (u : Undef) : Mem :=
  { m with
    bytes := m.bytes.filter (fun x _ => !u.covers x)
    undef := if u.draw.isNone && !m.undef.any (fun r => r.first < u.first + u.len && u.first < r.first + r.len) then m.undef
             else u :: m.undef.filter (fun r => !(u.chan.isNone && u.first ≤ r.first && r.first + r.len ≤ u.first + u.len)) }

/-- Forget every byte of `[a, a + n)`. -/
def Mem.forget (m : Mem) (a n : Nat) (k : Option Nat) : Mem := m.forgetIn { first := a, len := n, draw := k, chan := none }

/-- Mark or clear poison on a list of sectors. -/
def putPoison : Tbl Bool → List Nat → Bool → Tbl Bool
  | t, [], _ => t
  | t, x :: xs, b => putPoison (t.setD (fun _ => false) x b) xs b

/-- The sectors all of whose 32 bytes lie in `[a, a + n)` (R317). -/
def fullSectors (a n : Nat) : List Nat :=
  (sectorsOf a n).filter (fun x => a ≤ x * 32 && x * 32 + 32 ≤ a + n)

/-- The home performs a write: the bytes change, and a sector covered whole loses its poison (R317). -/
def State.homeWrite (s : State) (pa : Nat) (bs : List Byte) : State :=
  let a := localPart pa
  s.withMem { s.mem with bytes := putBytes s.mem.blank s.mem.bytes a bs
                         poison := putPoison s.mem.poison (fullSectors a bs.length) false }

/-- Mark sectors poisoned. -/
def State.setPoison (s : State) (secs : List Nat) : State :=
  s.withMem { s.mem with poison := putPoison s.mem.poison secs true }

/-! ### Tables of cores, clusters, controllers, front ends, harts -/

/-- Core `c`. -/
def State.core (s : State) (c : Nat) : Core := s.cores.getD (fun _ => Core.init) c

/-- Replace core `c`. -/
def State.setCore (s : State) (c : Nat) (k : Core) : State :=
  s.withCores (s.cores.setD (fun _ => Core.init) c k)

/-- Change core `c`. -/
def State.modCore (s : State) (c : Nat) (f : Core → Core) : State := s.setCore c (f (s.core c))

/-- Cluster cache `k`. -/
def State.cluster (s : State) (k : Nat) : Cluster := s.mem.clusters.getD (fun _ => Cluster.init) k

/-- Replace cluster cache `k`. -/
def State.setCluster (s : State) (k : Nat) (x : Cluster) : State :=
  s.withMem { s.mem with clusters := s.mem.clusters.setD (fun _ => Cluster.init) k x }

/-- Memory controller `n`. -/
def State.ctl (s : State) (n : Nat) : MemCtl := s.ctls.getD (fun _ => MemCtl.init) n

/-- Replace memory controller `n`. -/
def State.setCtl (s : State) (n : Nat) (x : MemCtl) : State :=
  s.withCtls (s.ctls.setD (fun _ => MemCtl.init) n x)

/-- Front end of die `d`. -/
def State.fe (s : State) (d : Nat) : Fe := s.work.fes.getD (fun _ => Fe.init) d

/-- Replace the front end of die `d`. -/
def State.setFe (s : State) (d : Nat) (x : Fe) : State :=
  s.withWork { s.work with fes := s.work.fes.setD (fun _ => Fe.init) d x }

/-- Hart `h`. -/
def State.hart (s : State) (h : Nat) : Hart := s.pds.harts.getD (fun _ => Hart.init) h

/-- Replace hart `h`. -/
def State.setHart (s : State) (h : Nat) (x : Hart) : State :=
  s.withPds { s.pds with harts := s.pds.harts.setD (fun _ => Hart.init) h x }

/-- Queue `q`, when it exists. -/
def State.queue? (s : State) (q : Nat) : Option Queue := s.work.queues.get? q

/-- Replace queue `q`. -/
def State.setQueue (s : State) (q : Nat) (x : Queue) : State :=
  s.withWork { s.work with queues := s.work.queues.put q x }

/-- Remove queue `q`: it is FREE. -/
def State.freeQueue (s : State) (q : Nat) : State :=
  s.withWork { s.work with queues := s.work.queues.erase q }

/-- The operation in flight with a number. -/
def State.op? (s : State) (uid : Nat) : Option Op := s.work.ops.find? (fun o => o.uid == uid)

/-- Change the operation with a number. -/
def State.modOp (s : State) (uid : Nat) (f : Op → Op) : State :=
  s.withWork { s.work with ops := s.work.ops.map (fun o => if o.uid == uid then f o else o) }

/-- Remove an operation from those in flight. -/
def State.dropOp (s : State) (uid : Nat) : State :=
  s.withWork { s.work with ops := s.work.ops.filter (fun o => o.uid != uid) }

/-- The generation tag of a context (R444). -/
def State.gen (s : State) (ctx : Nat) : Nat := s.work.gens.getD (fun _ => 0) ctx

/-- The power record of die `d`: accelerator dies 0 to 3, processor dies 4 and 5. -/
def State.diePwr (s : State) (d : Nat) : DiePwr := s.power.dies.getD (fun _ => DiePwr.init) d

/-- Replace it. -/
def State.setDiePwr (s : State) (d : Nat) (x : DiePwr) : State :=
  s.withPower { s.power with dies := s.power.dies.setD (fun _ => DiePwr.init) d x }

/-! ### Scratchpads: R124 to R130 -/

/-- `n` bytes of core `c`'s scratchpad from offset `o`. -/
def State.scrRead (s : State) (c o n : Nat) : List Byte := (upFrom (windowBase c + o) n).map s.rawByte

/-- The 8 B words of `[a, a + n)`. -/
def wordsOf (a n : Nat) : List Nat := if n = 0 then [] else upFrom (a / 8) ((a + n - 1) / 8 - a / 8 + 1)

/-- Write a scratchpad; whole 8 B words written get good check bits. -/
def State.scrWrite (s : State) (c o : Nat) (bs : List Byte) : State :=
  let a := windowBase c + o
  let full := (wordsOf a bs.length).filter (fun x => a ≤ x * 8 && x * 8 + 8 ≤ a + bs.length)
  s.withMem { s.mem with bytes := putBytes s.mem.blank s.mem.bytes a bs
                         badWords := putPoison s.mem.badWords full false }

/-- What an agent of the module reads of host memory: the host's answer, but where a processor die holds bytes modified
(R361). -/
def State.underDirty (s : State) (pa : Nat) (bs : List Byte) : List Byte :=
  (bs.zip (upFrom (localPart pa) bs.length)).map (fun p => (s.mem.dirty.get? p.2).getD p.1)

/-- Some 8 B word of the range carries uncorrectable check bits (R128, R318). -/
def State.scrBad (s : State) (c o n : Nat) : Bool :=
  (wordsOf (windowBase c + o) n).any (fun w => s.mem.badWords.getD (fun _ => false) w)

/-- Give the words of a range uncorrectable check bits (R318). -/
def State.scrSpoil (s : State) (c o n : Nat) : State :=
  s.withMem { s.mem with badWords := putPoison s.mem.badWords (wordsOf (windowBase c + o) n) true }

/-- Zero a whole scratchpad, as when its domain powers up (R130). -/
def State.scrClear (s : State) (c : Nat) : State :=
  let a := windowBase c
  let m := s.mem.forget a 0x400000 none
  s.withMem { m with badWords := m.badWords.filter (fun k _ => k < a / 8 || a / 8 + 0x80000 ≤ k) }

/-! ### Writes at the homes: R254, R331 -/

/-- The key of the power domain of memory controller `n` (R529). -/
def ctlDomain (n : Nat) : Nat :=
  if n < 16 then keyOf (16 + n) 0 0 0xE + 1 else keyOf (4 + (n - 16) / 8) 0 0 0xE + 2 ^ 31 + (n - 16) * 2 ^ 27 + 1

/-- A request to a gated controller powers its domain up (R331, R529). -/
def State.wakeCtl (s : State) (n : Nat) : State :=
  if s.power.gated.contains (ctlDomain n) then
    s.withPower { s.power with gated := s.power.gated.filter (· != ctlDomain n) }
  else s

/-- A home writes to a block that moves: a piece already copied is written in the destination frame too, where the write may
cover sectors whole, and whose controller is powered up (R254, R331). How far the copy has come is free (assumption log 60). -/
def State.mirror (s : State) (pa n : Nat) : State :=
  match s.peel.moves.find? (fun m => m.block == blockOf pa && !m.switched) with
  | none => s
  | some m =>
    let r := s.draw
    let s := r.1
    let copied := if m.switching then 8192 else max m.copied ((Config.freeWord r.2).toNat % 8193)
    let hit := decide (localPart pa / 256 % 8192 < copied)
    let whole := if hit then (fullSectors (localPart pa) n).filter (fun x => !m.mirrored.contains x) else []
    let s := s.withPeel { s.peel with moves := s.peel.moves.map (fun x =>
      if x.slot == m.slot then { x with copied := copied, mirrored := x.mirrored ++ whole } else x) }
    if hit then
      s.wakeCtl (pieceHome s.pop.hs s.pop.dram { s.remap m.block with tier := if m.up then 0 else 1, frame := m.frame } pa).1
    else s

/-- Sectors of a line that several writes of one request cover whole are whole in the destination frame too, where the copy has
passed them (R254). -/
def State.mirrorWhole (s : State) (line : Nat) (secs : List Nat) : State :=
  s.withPeel { s.peel with moves := s.peel.moves.map (fun m =>
    if m.block == blockOf (line * 128) && !m.switched && line / 2 % 8192 < m.copied then
      { m with mirrored := m.mirrored ++ secs.filter (fun x => !m.mirrored.contains x) }
    else m) }

/-- The home performs a write, and of a block that moves its mirror (R254). -/
def State.homeStore (s : State) (pa : Nat) (bs : List Byte) : State := (s.homeWrite pa bs).mirror pa bs.length

/-- A write of whole sectors replaces what was in error in them. -/
def State.overwrite (s : State) (secs : List Nat) : State :=
  if s.mem.flaws.isEmpty then s else s.withMem { s.mem with flaws := s.mem.flaws.filter (fun f => !secs.contains f.sector) }

/-! ### Copies of lines: R337 to R344, R349, R359, R413 -/

/-- The directory index of a caching agent; a hart's requests are its die's (R337, R406). -/
def agentIndex : Agent → Option Nat
  | .cluster k => some k
  | .pd p => some (16 + p)
  | .hart h _ => some (16 + h / 48)
  | .fe d => some (18 + d)
  | .host => some 22
  | _ => none

/-- The directory entry of a line; none is UNCACHED. -/
def State.dirOf (s : State) (line : Nat) : DirEntry :=
  match s.mem.dir.get? line with
  | some e => e
  | none => { owner := none, sharers := 0 }

/-- A line gets a directory entry, in the place kept for it or in a free one, which no rule names (R343; assumption log 5). -/
def Mem.placed (m : Mem) (line : Nat) : Mem :=
  if (m.ways.get? line).isSome then m else { m with ways := m.ways.put line m.wayNext, wayNext := m.wayNext + 1 }

/-- Replace a line's entry; an entry without holders is not listed. -/
def State.setDir (s : State) (line : Nat) (e : DirEntry) : State :=
  s.withMem (if e.owner.isNone && e.sharers = 0 then { s.mem with dir := s.mem.dir.erase line, ways := s.mem.ways.erase line }
    else { s.mem.placed line with dir := s.mem.dir.put line e })

/-- Add or remove a sharer. -/
def sharer (v : BitVec 32) (i : Nat) (b : Bool) : BitVec 32 :=
  if b then v ||| BitVec.ofNat 32 (2 ^ i) else v &&& ~~~ (BitVec.ofNat 32 (2 ^ i))

/-- An agent leaves a line's holders (R342). -/
def State.notice (s : State) (line i : Nat) : State :=
  let e := s.dirOf line
  s.setDir line { e with sharers := sharer e.sharers i false
                         owner := if e.owner == some i then none else e.owner }

/-- The place of a line in its cluster cache: slice × 16,384 + index (R346). -/
def cacheSlot (line : Nat) : Nat := line % 8 * 16384 + line / 8 % 16384

/-- The cluster cache holds the line, in its slice or its victim cache. -/
def Cluster.has (x : Cluster) (line : Nat) : Bool :=
  x.tags.get? (cacheSlot line) == some line || x.victims.contains line

/-- Remove a line from the slice and the victim cache (R349). -/
def Cluster.drop (x : Cluster) (line : Nat) : Cluster :=
  { x with tags := if x.tags.get? (cacheSlot line) == some line then x.tags.erase (cacheSlot line) else x.tags
           victims := x.victims.filter (· != line) }

/-- An invalidation reaches a cluster cache: the line goes, and writes held for it are marked (R349). -/
def State.clusterInval (s : State) (k line : Nat) : State :=
  let x := (s.cluster k).drop line
  s.setCluster k { x with gone := if x.gone.contains line then x.gone else line :: x.gone, held := x.held.map (fun h => if localPart h.pa / 128 == line then { h with inval := true } else h) }

/-- A front end loses its shared copy of a line: a queue whose doorbell it is must be re-read (R435). -/
def State.doorbellLost (s : State) (d line : Nat) : State :=
  s.withWork { s.work with queues := s.work.queues.mapVals (fun q =>
    if q.die == d && localPart q.cfg.dbAddr / 128 == line then { q with dbStale := true } else q) }

/-- The slice of a line in a system-level cache (R353). -/
def slcSlice (line : Nat) : Nat := line % 8 ^^^ (line / 256 % 8)

/-- The lines of slice `i` of die `p`'s system-level cache, most recently used first. -/
def State.slcLines (s : State) (p i : Nat) : List SlcLine := s.mem.slc.getD (fun _ => []) (p * 8 + i)

/-- Replace the lines of a slice. -/
def State.setSlc (s : State) (p i : Nat) (l : List SlcLine) : State :=
  s.withMem { s.mem with slc := s.mem.slc.setD (fun _ => []) (p * 8 + i) l }

/-- The system-level cache of die `p` holds the line, in whatever way (R355). -/
def State.slcHas (s : State) (p line : Nat) : Bool := (s.slcLines p (slcSlice line)).any (fun x => x.line == line)

/-- The line leaves the system-level cache of die `p`. -/
def State.slcDrop (s : State) (p line : Nat) : State :=
  if s.slcHas p line then s.setSlc p (slcSlice line) ((s.slcLines p (slcSlice line)).filter (fun x => x.line != line)) else s

/-- The line leaves the caches a test picks of a table of them. -/
def dropLine (who : Nat → Bool) (line : Nat) (t : Tbl (List Nat)) : Tbl (List Nat) :=
  Tbl.filter (fun _ l => !l.isEmpty) (t.map (fun e => if who e.1 then (e.1, e.2.filter (· != line)) else e))

/-- The line leaves every L1 and L2 cache of die `p` (R354). -/
def State.upperDrop (s : State) (p line : Nat) : State :=
  s.withPds { s.pds with l1 := dropLine (fun h => h / 48 == p) line s.pds.l1, l2 := dropLine (fun x => x / 6 == p) line s.pds.l2 }

/-- The line leaves every cache of die `p`. -/
def State.dieDrop (s : State) (p line : Nat) : State := (s.slcDrop p line).upperDrop p line

/-- A holder other than the host drops its copy of a line: a cluster, a processor die, a front end. -/
def State.dropCopy (s : State) (line i : Nat) : State :=
  if i < 16 then s.clusterInval i line
  else if i < 18 then s.dieDrop (i - 16) line
  else if i < 22 then s.doorbellLost (i - 18) line
  else s

/-- Bytes of a line that its owner holds modified go to memory (R338, OWNED). -/
def State.flush (s : State) (line : Nat) : State :=
  let mine := s.mem.dirty.filter (fun a _ => a / 128 == line)
  if mine.isEmpty then s
  else
    let s := mine.foldl (fun s e => s.homeWrite e.1 [e.2]) s
    let s := s.withMem { s.mem with dirty := s.mem.dirty.filter (fun a _ => a / 128 != line) }
    (s.overwrite (upFrom (line * 4) 4)).mirror (line * 128) 128

/-- A record with the fields most classes leave at zero. -/
def errRec (unit : BitVec 64) (cls sev : Nat) : ErrRec :=
  { unit := unit, cls := cls, sev := sev, intent := false, opKind := 0, opcode := 0, ctx := none, addr := 0,
    coord := 0, syndrome := 0 }

/-- A state with the error records that are still to be logged of what led to it. -/
abbrev Noted := State × List ErrRec

/-- A snoop of the host for a line goes unanswered (R359): a line it owned is poisoned, it leaves the entry, and a record
names the CXL block. -/
def State.hostSilent (s : State) (line : Nat) : Noted :=
  let s := if (s.dirOf line).owner == some 22 then s.setPoison (upFrom (line * 4) 4) else s
  (s.notice line 22, [{ errRec (s.path 6 0 0 0x0 0) 0x04 1 with opKind := 3, addr := line * 128 }])

/-- The host shows bytes of a line it owns; a sector shown whole is free of poison (R317). -/
def State.hostShows (s : State) (line : Nat) (bs : List (Nat × Byte)) : State :=
  let at' (b : Nat × Byte) : Nat := line * 128 + b.1 % 128
  let whole := (upFrom (line * 4) 4).filter (fun x => (upFrom (x * 32) 32).all (fun a => bs.any (fun b => at' b == a)))
  s.withMem { s.mem with
    dirty := bs.foldl (fun (t : Tbl Byte) b => t.put (at' b) b.2) s.mem.dirty
    poison := putPoison s.mem.poison whole false }

/-- The host is asked for a line, and its answer, or its silence, taken in the same step: both are free, and so are the
bytes it holds (assumption log 12). -/
def State.snoopNow (s : State) (line : Nat) : Noted :=
  let r := (s.emitN .snoop [22, line]).draw
  if (Config.freeWord r.2).getLsbD 0 then r.1.hostSilent line
  else
    (if (r.1.dirOf line).owner == some 22 then r.1.hostShows line ((upFrom 0 128).map (fun i => (i, Config.freeByte r.2 i)))
     else r.1, [])

/-- An owner is asked for a line it has lost: the home poisons it, and a record names the owner (R344). -/
def State.lostCopy (s : State) (line i : Nat) : Noted :=
  let s := s.setPoison (upFrom (line * 4) 4)
  (s.withMem { s.mem with lost := s.mem.lost.filter (· != line), dirty := s.mem.dirty.filter (fun a _ => a / 128 != line) },
    [{ errRec (s.path (4 + (i - 16)) 0 0 0xE 0) 0x04 1 with opKind := 3, addr := line * 128 }])

/-- The owner of a line is asked for its copy, which then stands over memory's (R340, R344). -/
def State.askOwner (s : State) (line : Nat) : Noted :=
  match (s.dirOf line).owner with
  | some 22 => s.snoopNow line
  | some i => if s.mem.lost.contains line then s.lostCopy line i else (s, [])
  | none => (s, [])

/-- Take every copy of a line back at once (R340): the owner's data goes to memory, the sharers lose the line, the line is
UNCACHED. -/
def State.reclaim (s : State) (line : Nat) : Noted :=
  let e := s.dirOf line
  let r := if e.sharers.getLsbD 22 then s.snoopNow line else s.askOwner line
  let s := r.1.flush line
  let s := (setBitsBelow 32 e.sharers.toNat).foldl (fun s i => s.dropCopy line i) s
  let s := match e.owner with
    | some i => s.dropCopy line i
    | none => s
  (s.setDir line { owner := none, sharers := 0 }, r.2)

/-! ### Requests at the homes: R255, R262 to R266, R339 -/

/-- A transaction on the line is in progress: it is BUSY (R339). -/
def State.lineBusy (s : State) (line : Nat) : Bool := s.mem.txns.any (fun t => t.req.line == line)

/-- The block of the line is in its switch step (R255). -/
def State.inSwitch (s : State) (line : Nat) : Bool :=
  s.peel.moves.any (fun m => m.switching && !m.switched && m.block == blockOf (line * 128))

/-- A transaction on the line is in progress, or its block is in its switch step (R255). -/
def State.busy (s : State) (line : Nat) : Bool := s.lineBusy line || s.inSwitch line

/-- The hot-block ring can take a record more than those that wait for it: its size is one of R279's and it is not full
(R266). -/
def State.hotRoom (s : State) : Bool :=
  let size := s.regN (rPeel 0x4020) % 32
  let used := (s.regN (rPeel 0x4024) + 2 ^ 32 - s.regN (rPeel 0x4028)) % 2 ^ 32
  8 ≤ size && size ≤ 20 && used + s.peel.hot.length < 2 ^ size

/-- A nomination: NOMINATED is set, and the record joins those that are to be written to the ring, or counts as dropped when
that is full (R264, R266). A pinned block is passed over (R260). -/
def State.enrol (s : State) (b source ctx : Nat) : State :=
  let r := s.remap b
  if r.nominated || r.state = 4 then s
  else
    let s := s.setRemap b { r with nominated := true }
    if s.hotRoom then
      s.withPeel { s.peel with hot := s.peel.hot ++
        [{ block := b, source := source, count := r.count, ctx := ctx, time := s.now }] }
    else s.bump (rPeel 0x402C)

/-- A home takes a request on a block, which powers it up when it is gated (R331): every 64 of one home raise COUNT by one
(R262), which may nominate the block (R264). -/
def State.count (s : State) (pa : Nat) : State :=
  let h := (s.homeOf pa).1
  let s := if s.power.gated.isEmpty then s else s.wakeCtl h
  let b := blockOf pa
  let r := s.remap b
  let n := r.subs.getD (fun _ => 0) h
  if n < 63 then s.setRemap b { r with subs := r.subs.setD (fun _ => 0) h (n + 1) }
  else
    let c := satInc 16 r.count
    let s := s.setRemap b { r with subs := r.subs.setD (fun _ => 0) h 0, count := c }
    if r.state = 1 && s.regN (rPeel 0x4010) ≤ c then s.enrol b 0 r.owner else s

/-- A write to tiered memory that takes every copy of its lines back first (R205). -/
def State.ownWrite (s : State) (pa : Nat) (bs : List Byte) : Noted :=
  let r := (linesOf (localPart pa) bs.length).foldl (fun (r : Noted) l =>
    let x := r.1.reclaim l
    (x.1, r.2 ++ x.2)) (s, [])
  (r.1.homeStore pa bs, r.2)

/-! ### The error-record log: R552 to R555 -/

/-- The bytes of a laid-out record (R552). -/
def LogEnt.bytes (e : LogEnt) (overflow : Bool) : List Byte :=
  let r := e.body
  toBytes 8 r.unit.toNat ++ toBytes 8 e.time.toNat ++ toBytes 4 e.index ++ toBytes 1 r.cls ++ toBytes 1 r.sev
    ++ toBytes 1 (b2n overflow + 2 * b2n r.intent) ++ toBytes 1 r.opKind ++ toBytes 2 r.opcode
    ++ toBytes 2 (match r.ctx with | some c => c | none => 0xFFFF)
    ++ toBytes 2 e.temp ++ toBytes 2 e.volt ++ toBytes 8 r.addr ++ toBytes 8 r.coord ++ toBytes 16 r.syndrome

/-- The log can take records (R554). -/
def State.logUsable (s : State) : Bool :=
  let ctl := s.regN (rRas 0x8)
  let size := ctl % 32
  bitOf ctl 31 && 8 ≤ size && size ≤ 20 && s.inTiered (s.regN (rRas 0x0)) (64 * 2 ^ size)

/-- The RAS interrupt of a record that has been written or dropped, and the alert of a FATAL one (R555). -/
def State.rasIntr (s : State) (sev : Nat) : State :=
  let r := s.regN (rRas 0x18)
  let s := if bitOf r 31 && bitsOf r 30 29 ≤ sev then s.msiTarget (r % 2 ^ 21) else s
  if sev = 3 then s.alert 4 else s

/-- The rail that supplies a unit, by its path (R507, R552). -/
def unitRail (p : BitVec 64) : Nat :=
  let die := bitsOf p.toNat 56 52
  let unit := bitsOf p.toNat 45 42
  if die < 4 then (if unit = 6 || unit = 8 then 4 + die else die)
  else if die < 6 then (if unit = 0xE && bitOf p.toNat 31 then 15 else 4 + die)
  else if die < 8 then 10
  else if die < 16 then 16
  else 11 + (die - 16) / 4

/-- A record as it enters the log, with the next INDEX. -/
def State.entry (s : State) (r : ErrRec) (time : Word) : LogEnt :=
  { index := s.ras.logIndex, time := time, body := r, temp := 4 * s.power.temps.getD (fun _ => 0) (bitsOf r.unit.toNat 56 52)
    volt := bitsOf (s.regN (rPwr (0x200 + unitRail r.unit * 4))) 31 16 }

/-- The next record takes the following INDEX. -/
def State.nextIndex (s : State) : State :=
  (s.withRas { s.ras with logIndex := (s.ras.logIndex + 1) % 2 ^ 32 }).setReg (rRas 0xC)
    (BitVec.ofNat 64 ((s.ras.logIndex + 1) % 2 ^ 32))

/-- A record is dropped (R554). -/
def State.logDrop (s : State) (sev : Nat) : State :=
  ((s.bump (rRas 0x14)).withRas { s.ras with overflow := true }).rasIntr sev

/-- A record takes its INDEX and waits in the hub buffer, when that has room (R553, R554). -/
def State.logKeep (s : State) (r : ErrRec) (time : Word) : State :=
  let e := s.entry r time
  let s := s.nextIndex
  let s := if s.hubRuns && (2 ≤ r.sev || r.cls = 0x0C) then s.mgmt [0x01, 2, r.cls, r.sev, e.index] [] else s
  if s.ras.waiting.length < 256 then s.withRas { s.ras with waiting := s.ras.waiting ++ [e] } else s.logDrop r.sev

/-- Where a record with an INDEX is written (R553). -/
def State.logAddr (s : State) (index : Nat) : Nat :=
  s.regN (rRas 0x0) + index % 2 ^ (s.regN (rRas 0x8) % 32) * 64

/-- Write one record to the log, or drop it (R553, R554). A copy of the ring's line that its write finds lost gives a
record of its own, which waits in the hub buffer. -/
def State.logPut (s : State) (e : LogEnt) : State :=
  let size := 2 ^ (s.regN (rRas 0x8) % 32)
  let tail := s.regN (rRas 0x10)
  if size ≤ (e.index + 2 ^ 32 - tail % 2 ^ 32) % 2 ^ 32 then s.logDrop e.body.sev
  else
    let a := s.logAddr e.index
    let r := (s.count a).ownWrite a (e.bytes s.ras.overflow)
    r.2.foldl (fun s x => s.logKeep x s.now) ((r.1.withRas { r.1.ras with overflow := false }).rasIntr e.body.sev)

/-- Write the waiting records, in INDEX order, as far as their lines in the log are free (R339, R255, R554). -/
def State.logWaiting (s : State) : Nat → State
  | 0 => s
  | n + 1 =>
    match s.ras.waiting with
    | [] => s
    | e :: es =>
      if s.busy (localPart (s.logAddr e.index) / 128) then s
      else State.logWaiting ((s.withRas { s.ras with waiting := es }).logPut e) n

/-- Write the waiting records once the log is usable (R554). -/
def State.logFlush (s : State) : State := if s.logUsable then s.logWaiting s.ras.waiting.length else s

/-- The bytes of a hot-block record (R265). -/
def HotRec.bytes (r : HotRec) : List Byte :=
  toBytes 4 (r.block + r.source * 2 ^ 29) ++ toBytes 2 r.count ++ toBytes 2 r.ctx ++ toBytes 8 r.time.toNat

/-- The next hot-block record is written and HEAD advances (R265). -/
def State.hotPut (s : State) (r : HotRec) : State :=
  let size := 2 ^ (s.regN (rPeel 0x4020) % 32)
  let head := s.regN (rPeel 0x4024)
  let a := s.regN (rPeel 0x4018) + head % size * 16
  let w := (s.count a).ownWrite a r.bytes
  (w.2.foldl (fun s x => s.logKeep x s.now) w.1).setReg (rPeel 0x4024) (BitVec.ofNat 64 ((head + 1) % 2 ^ 32))

/-- Write hot-block records in the order of their nominations, as far as their lines of the ring are free (R265, R339). -/
def State.hotFlush (s : State) : Nat → State
  | 0 => s
  | n + 1 =>
    match s.peel.hot with
    | [] => s
    | r :: rest =>
      let a := s.regN (rPeel 0x4018) + s.regN (rPeel 0x4024) % 2 ^ (s.regN (rPeel 0x4020) % 32) * 16
      if s.busy (localPart a / 128) then s
      else State.hotFlush ((s.withPeel { s.peel with hot := rest }).hotPut r) n

/-- The records that wait are written, as far as their lines are free: of errors once the log is usable (R554), then of hot
blocks, and with them what the counting of the ring's own blocks adds. -/
def State.recordsOut (s : State) : State :=
  let s := if s.ras.waiting.isEmpty then s else s.logFlush
  s.hotFlush (2 * s.peel.hot.length)

/-- Log an error record of a time: it takes the next INDEX, and is written, dropped, or kept in the hub buffer (R553,
R554). -/
def State.logAt (s : State) (r : ErrRec) (time : Word) : State := (s.logKeep r time).recordsOut

/-- Log an error record of the present time. -/
def State.log (s : State) (r : ErrRec) : State := s.logAt r s.now

/-- A nomination, its record written at once where its line is free (R264 to R266). -/
def State.nominate (s : State) (b source ctx : Nat) : State := (s.enrol b source ctx).recordsOut

/-- A request at a home, counted (R262); a record that follows is written at once where its line is free. -/
def State.touch (s : State) (pa : Nat) : State := (s.count pa).recordsOut

/-- Take every copy of a line back at once, and log what that found. -/
def State.recall (s : State) (line : Nat) : State :=
  let r := s.reclaim line
  r.2.foldl State.log r.1

/-- The owner of a line shows its copy; log what that found. -/
def State.showOwner (s : State) (line : Nat) : State :=
  let r := s.askOwner line
  r.2.foldl State.log r.1

/-- Log a record an operation caused: its completion entry carries the index of the first (R480). -/
def State.logOp (s : State) (uid : Nat) (r : ErrRec) : State :=
  let i := s.ras.logIndex
  (s.log r).modOp uid (fun o => if o.errIndex.isNone then { o with errIndex := some i } else o)

/-- What caused an error record: the kind and the opcode that it shows, the context, and the operation that completes with its
index (R480, R552). -/
structure Cause where
  kind : Nat
  opcode : Nat
  ctx : Option Nat
  uid : Option Nat

/-- No instruction, descriptor or request of a context caused it. -/
def Cause.none : Cause := { kind := 0, opcode := 0, ctx := Option.none, uid := Option.none }

/-- A memory request caused it. -/
def Cause.request : Cause := { kind := 3, opcode := 0, ctx := Option.none, uid := Option.none }

/-- A descriptor with opcode `op` caused it. -/
def Cause.descriptor (op ctx : Nat) (uid : Option Nat) : Cause := { kind := 2, opcode := op, ctx := some ctx, uid := uid }

/-- A tile instruction of a launch caused it: class and OP field, 0 where its class has none or its word is not read yet (R552). -/
def Cause.tile (cls op : Nat) (l : Option Launch) : Cause :=
  { kind := 1, opcode := cls * 2 ^ 12 + op * 2 ^ 6, ctx := l.map Launch.ctx, uid := l.map Launch.uid }

/-- Log a record that shows its cause. -/
def State.logBy (s : State) (w : Cause) (r : ErrRec) : State :=
  let r := { r with opKind := w.kind, opcode := w.opcode, ctx := w.ctx }
  match w.uid with
  | some u => s.logOp u r
  | Option.none => s.log r

/-- The cause that a descriptor in work is. -/
def Op.cause (o : Op) : Cause := .descriptor o.opcode o.ctx (some o.uid)

/-- What an operation did in going from `s` to `t` counts the records logged on the way as its own: its completion entry carries
the index of the first (R480). -/
def State.causing (s : State) (uid : Nat) (t : State) : State :=
  if t.ras.logIndex = s.ras.logIndex then t
  else t.modOp uid (fun o => if o.errIndex.isNone then { o with errIndex := some s.ras.logIndex } else o)

end Sys2Proof.Machine
end

