-- ==== Sys2Proof/Machine/Fabric.lean ====
section
/-! DEFINITION. Machine/Fabric.lean: the Rufen ports as every sender uses them: the route table, the choice of a port, and
the sending of a flit (R575, R578, R579, R581). -/

namespace Sys2Proof.Machine

/-- Port `p` of the module. -/
def State.port (s : State) (p : Nat) : Port := s.links.ports.getD (fun _ => Port.init) p

/-- Replace port `p`. -/
def State.setPort (s : State) (p : Nat) (x : Port) : State :=
  s.withLinks { s.links with ports := s.links.ports.setD (fun _ => Port.init) p x }

/-- Port `p` is trained: its optical engine is in use and the port is up (OPT_PORT_UP). -/
def State.portUp (s : State) (p : Nat) : Bool := p < 32 && s.oePresent (p / 4) && (s.port p).up

/-- The route-table entry of a node, as the module last read the table (R581, R586; assumption log 93). -/
def State.route (s : State) (n : Nat) : Nat := s.links.routes.getD (fun _ => 0) n

/-- The ports of a node's entry that are up and can keep one more flit for replay. -/
def State.routePorts (s : State) (n : Nat) : List Nat :=
  let e := s.route n
  if !bitOf e 63 then []
  else (upFrom 0 32).filter (fun p => bitOf e p && s.portUp p && decide ((s.port p).replay.length < 512))

/-- The port with the most credit, the lowest number first among equals (R581). -/
def State.bestPort (s : State) (n : Nat) : Option Nat :=
  match s.routePorts n with
  | [] => none
  | p :: t => some (t.foldl (fun a q => if (s.port a).credit < (s.port q).credit then q else a) p)

/-- The header of a flit that leaves on a port (R578). -/
def State.flitHeader (s : State) (x : Port) (type dest src hops sgen dgen : Nat) : List Byte :=
  toBytes 1 (type * 16) ++ toBytes 1 dest ++ toBytes 1 src ++ toBytes 1 hops ++ toBytes 2 x.txSeq
    ++ toBytes 2 (b2n x.nak * 2 ^ 15 + x.rxSeq % 2 ^ 15)
    ++ toBytes 2 (s.ruling.line % 2 ^ 12 * 16 + s.ruling.stroke) ++ toBytes 2 x.owed ++ toBytes 1 sgen ++ toBytes 1 dgen
    ++ toBytes 2 0

/-- A flit leaves on port `p`: it takes the port's next number and is kept for replay (R579). CRC and FEC, bytes 240 to
255, are the link's and are not shown; `info` says for an observer what the flit is about. -/
def State.sendOn (s : State) (p type dest src hops sgen dgen : Nat) (slots : List Byte) (info : List Nat) : State :=
  let x := s.port p
  let bytes := s.flitHeader x type dest src hops sgen dgen ++ slots
  let f : Flit := { seq := x.txSeq, bytes := bytes, replays := 0 }
  (s.setPort p { x with txSeq := (x.txSeq + 1) % 2 ^ 16, nak := false, owed := 0
                        credit := x.credit - (ceilDiv slots.length 16 : Nat), replay := x.replay ++ [f] }).emit
    { kind := .fabric, args := [p, type, dest] ++ info, bytes := bytes }

/-- Send a flit of this node's own to node `n`; without a port that can take it, it stays in the fabric interface and
the device timeout ends it (R234). -/
def State.sendFlit (s : State) (n type : Nat) (slots : List Byte) (info : List Nat) : State :=
  match s.bestPort n with
  | none => s
  | some p =>
    s.sendOn p type n s.node (bitsOf (s.route n) 35 32) s.links.fabricGen (s.links.gens.getD (fun _ => 0) n) slots
      info

/-- A message to node `n`: a header slot, whose layout is not given and is free, then its data. -/
def State.sendMsg (s : State) (n : Nat) (data : List Byte) (info : List Nat) : State :=
  let (s, k) := s.draw
  s.sendFlit n 1 ((upFrom 0 16).map (Config.freeByte k) ++ data) info

/-- A node is isolated: since a fabric reset or NODE_ISOLATE, or because its route entry is not VALID (R583). -/
def State.isolated (s : State) (n : Nat) : Bool := s.links.isolated.getLsbD n || !bitOf (s.route n) 63

/-- Accesses to a node are answered as those to an isolated one: it is isolated, or a fabric reset is in progress
(R235, R583, R586). -/
def State.nodeLost (s : State) (n : Nat) : Bool := s.isolated n || s.links.fresetAt.isSome

/-- An access to this target is lost: the host without a session, or a node the fabric has isolated (R235, R613). -/
def State.targetLost (s : State) (t : Target) : Bool :=
  match t with
  | .host | .hostDevice => !s.cxl.session
  | .remote n => s.nodeLost n
  | _ => false

/-- The device timeout of an access that left in stroke `sent` has expired (R234); a retrain of the link suspends it
(R499). -/
def State.timedOut (s : State) (t : Target) (sent : Nat) : Bool :=
  match t with
  | .host | .hostDevice => !s.cxl.session || (s.reached (sent + 64) && s.cxl.link != .retrain)
  | .remote n => s.nodeLost n || s.reached (sent + 64)
  | _ => false

/-- The answer of this node leaves for a requester of another node; its code is 1 for an error (R582). The mask names the
poisoned sectors of the data (R318). -/
def State.respond (s : State) (node tag : Nat) (err : Bool) (bs : List Byte) (mask : Nat) : State :=
  s.sendMsg node bs [2, tag, b2n err, mask]

end Sys2Proof.Machine
end

