-- ==== Sys2Proof/Machine/Operands.lean ====
section
/-! DEFINITION. Machine/Operands.lean: the operand forms of the tile instructions: tile descriptors (R158 to R160),
rows and elements in the scratchpad (R159), the problem table (R79), the extension word (R185), scalar operands. -/

namespace Sys2Proof.Machine

/-! ### Tile descriptors: R158 -/

/-- A tile descriptor, field by field. -/
structure Td where
  fmt : Nat
  unscaled : Bool
  rows : Nat
  elems : Nat
  base : Nat
  stride : Nat
  sstride : Nat
  sbase : Nat
  /-- A reserved field is not zero. -/
  reserved : Bool
  deriving DecidableEq, Repr

/-- Read a descriptor from its two words (R158); strides in bytes. -/
def tdOf (d : BitVec 128) : Td :=
  let w0 := d.toNat % 2 ^ 64
  let w1 := d.toNat / 2 ^ 64
  { fmt := bitsOf w0 63 60, unscaled := bitOf w0 59, rows := bitsOf w0 54 43 + 1, elems := bitsOf w0 42 27 + 1
    base := bitsOf w0 21 0, stride := bitsOf w1 63 46 * 16, sstride := bitsOf w1 43 26 * 16, sbase := bitsOf w1 21 0
    reserved := bitsOf w0 58 55 != 0 || bitsOf w0 26 22 != 0 || bitsOf w1 45 44 != 0 || bitsOf w1 25 22 != 0 }

/-- The format, when its code is not reserved (R91). -/
def Td.format (t : Td) : Option Fmt := Fmt.ofCode t.fmt

/-- The element width in bits; 0 for a reserved code. -/
def Td.width (t : Td) : Nat :=
  match t.format with
  | some f => f.width
  | none => 0

/-- The tile has a scale array (R92, R159). -/
def Td.scaled (t : Td) : Bool :=
  match t.format with
  | some f => f.isMx && !t.unscaled
  | none => false

/-- The row length in bytes (R159). -/
def Td.rowBytes (t : Td) : Nat := (t.elems * t.width + 7) / 8

/-- Bytes of a row of scales. -/
def Td.scaleBytes (t : Td) : Nat := (t.elems + 31) / 32

/-- The checks of R160 that raise ILLEGAL_SHAPE. -/
def Td.badShape (t : Td) : Bool := t.reserved || t.base % 16 != 0 || (t.scaled && t.sbase % 16 != 0)

/-- First byte beyond the scratchpad. -/
def scratchSize : Nat := 0x400000

/-- Rows `0` to `rows − 1` of `n` bytes from `base` at a stride end within the scratchpad (R160). -/
def rowsFit (base stride rows n : Nat) : Bool := rows = 0 || n = 0 || base + (rows - 1) * stride + n ≤ scratchSize

/-- Every element row of the tile lies in the scratchpad. -/
def Td.fits (t : Td) : Bool := rowsFit t.base t.stride t.rows t.rowBytes

/-- Every scale row of the tile lies in the scratchpad. -/
def Td.scalesFit (t : Td) : Bool := rowsFit t.sbase t.sstride t.rows t.scaleBytes

/-- The tile as `copy`, VOP and cvt reach it: its rows, and its scales when it has some. -/
def Td.fitsAll (t : Td) : Bool := t.fits && (!t.scaled || t.scalesFit)

/-! ### Rows and elements: R159 -/

/-- Element `k` of a row given as one number. -/
def elemAt (w row k : Nat) : Nat := row / 2 ^ (k * w) % 2 ^ w

/-- The elements packed densely into one number, element 0 lowest. -/
def packElems (w : Nat) : List Nat → Nat
  | [] => 0
  | e :: es => e % 2 ^ w + 2 ^ w * packElems w es

/-- Row `r` of the tile as one number. -/
def State.tileRow (s : State) (c : Nat) (t : Td) (r : Nat) : Nat :=
  ofBytes (s.scrRead c (t.base + r * t.stride) t.rowBytes)

/-- The elements of row `r`. -/
def State.tileElems (s : State) (c : Nat) (t : Td) (r : Nat) : List Nat :=
  let row := s.tileRow c t r
  (upFrom 0 t.elems).map (elemAt t.width row)

/-- Scale byte `j` of row `r`: 0x7F, which is 2⁰, where the tile has no scales (R92). -/
def State.tileScale (s : State) (c : Nat) (t : Td) (r j : Nat) : Nat :=
  if t.scaled then ofBytes (s.scrRead c (t.sbase + r * t.sstride + j) 1) else 0x7F

/-- Write row `r`. Bits of the last byte beyond the last element are a free value (R159 gives them no contents). -/
def State.putRow (s : State) (c : Nat) (t : Td) (r : Nat) (es : List Nat) : State :=
  let used := t.elems * t.width
  let pad := if used % 8 = 0 then 0
    else (Config.freeByte s.fresh (t.base + r * t.stride)).toNat % 2 ^ (8 - used % 8) * 2 ^ used
  let s := if used % 8 = 0 then s else s.draw.1
  s.scrWrite c (t.base + r * t.stride) (toBytes t.rowBytes (packElems t.width es + pad))

/-- Write the rows of a tile, from row `r` on. -/
def State.putRows (s : State) (c : Nat) (t : Td) : Nat → List (List Nat) → State
  | _, [] => s
  | r, es :: rest => State.putRows (s.putRow c t r es) c t (r + 1) rest

/-- Write the scale rows of a tile, from row `r` on. -/
def State.putScales (s : State) (c : Nat) (t : Td) : Nat → List (List Nat) → State
  | _, [] => s
  | r, bs :: rest =>
    State.putScales (s.scrWrite c (t.sbase + r * t.sstride) (bs.map (BitVec.ofNat 8))) c t (r + 1) rest

/-- The tile's element rows hold an uncorrectable word; the offset of the first (R128). -/
def State.rowsBad (s : State) (c base stride rows n : Nat) : Option Nat :=
  ((upFrom 0 rows).find? (fun r => s.scrBad c (base + r * stride) n)).bind (fun r =>
    ((wordsOf (windowBase c + base + r * stride) n).find? (fun w => s.mem.badWords.getD (fun _ => false) w)).map
      (fun w => w * 8 - windowBase c))

/-- Make the rows of a tile undefined (R198). -/
def State.spillRows (s : State) (c base stride rows n : Nat) : State :=
  (upFrom 0 rows).foldl (fun s r =>
    let (s, k) := s.draw
    s.withMem (s.mem.forget (windowBase c + base + r * stride) n (some k))) s

/-! ### The problem table of TMMA.P: R79 -/

/-- One entry of the table. -/
structure Prob where
  aOff : Nat
  bOff : Nat
  m : Nat
  n : Nat
  zero : Bool
  reserved : Bool
  deriving DecidableEq, Repr

/-- Entry `p` of a problem table. -/
def probAt (tbl : List Byte) (p : Nat) : Prob :=
  let a := leAt tbl (16 * p) 4
  let b := leAt tbl (16 * p + 4) 4
  { aOff := a % 2 ^ 22, bOff := b % 2 ^ 22, m := leAt tbl (16 * p + 8) 1, n := leAt tbl (16 * p + 9) 1
    zero := bitOf (leAt tbl (16 * p + 10) 1) 0
    reserved := a / 2 ^ 22 != 0 || b / 2 ^ 22 != 0 || leAt tbl (16 * p + 10) 1 / 2 != 0
      || leAt tbl (16 * p + 11) 5 != 0 }

/-- The stream extension word (R185). -/
structure ExtF where
  dlm : Nat
  lp : Nat
  dr : Nat
  dl : Nat
  slice : Nat
  rsv : Nat
  deriving DecidableEq, Repr

/-- Its fields. -/
def extOf (w : BitVec 64) : ExtF :=
  let n := w.toNat
  { dlm := bitsOf n 63 62, lp := bitsOf n 61 59, dr := bitsOf n 58 54, dl := bitsOf n 53 38, slice := bitsOf n 37 22
    rsv := bitsOf n 21 0 }

/-! ### Registers of a core: R155 -/

/-- Scalar register `r`; s0 reads as zero. -/
def Core.sreg (k : Core) (r : Nat) : Word := if r = 0 then 0 else k.s.getD (fun _ => 0) r

/-- Write scalar register `r`; a write to s0 is ignored. -/
def Core.setS (k : Core) (r : Nat) (v : Word) : Core :=
  if r = 0 then k else { k with s := k.s.setD (fun _ => 0) r v }

/-- Predicate `p`; p0 reads as 1. -/
def Core.preg (k : Core) (p : Nat) : Bool := p = 0 || k.p.getLsbD p

/-- Write predicate `p`; a write to p0 is ignored. -/
def Core.setP (k : Core) (p : Nat) (b : Bool) : Core :=
  if p = 0 then k else { k with p := if b then k.p ||| BitVec.ofNat 8 (2 ^ p) else k.p &&& ~~~ (BitVec.ofNat 8 (2 ^ p)) }

/-- Tile descriptor `n`. -/
def Core.treg (k : Core) (n : Nat) : BitVec 128 := k.t.getD (fun _ => 0) n

/-- Write tile descriptor `n`. -/
def Core.setT (k : Core) (n : Nat) (v : BitVec 128) : Core := { k with t := k.t.setD (fun _ => 0) n v }

/-- The second operand of SCL (R166): the register, the sign-extended immediate, or the extension word. -/
def Core.sclB (k : Core) (f : SclF) : Word :=
  if f.imm then (if f.h.x then f.ext else f.imm32.signExtend 64) else k.sreg f.rb.toNat

/-! ### Accumulator tiles: R72, R76 -/

/-- The key of an accumulator element. -/
def accKey (e a row col : Nat) : Nat := (e * 8 + a) * 1024 + row * 32 + col

/-- An accumulator element: as written in this launch, else undefined (R76). -/
def Core.accAt (k : Core) (e a row col : Nat) : BitVec 32 :=
  match k.acc.get? (accKey e a row col) with
  | some v => v
  | none => Config.freeAcc (k.accRedraw.getD (fun _ => k.accDraw) (e * 8 + a)) (accKey e a row col)

/-- Write an accumulator element. -/
def Core.accPut (k : Core) (e a row col : Nat) (v : BitVec 32) : Core :=
  { k with acc := k.acc.put (accKey e a row col) v }

/-- Make one accumulator tile undefined, under a draw (R86, R198). -/
def Core.accSpill (k : Core) (e a d : Nat) : Core :=
  { k with acc := k.acc.filter (fun x _ => x / 1024 != e * 8 + a)
           accRedraw := k.accRedraw.put (e * 8 + a) d }

end Sys2Proof.Machine
end

