-- ==== Sys2Proof/Machine/Flags.lean ====
section
/-! DEFINITION. Machine/Flags.lean: exception codes and their order (R196, R695), the STATUS value (R157), and the
conditions of WAITV and WAIT (R192). -/

namespace Sys2Proof.Machine

/-! ### Exception codes: R196 -/

def excIllegal : Nat := 0x01
def excShape : Nat := 0x02
def excFormat : Nat := 0x03
def excEngine : Nat := 0x04
def excBounds : Nat := 0x05
def excAlign : Nat := 0x06
def excStack : Nat := 0x07
def excTranslation : Nat := 0x08
def excAccess : Nat := 0x09
def excIndex : Nat := 0x0A
def excTwin : Nat := 0x0B
def excUncorrectable : Nat := 0x0C
def excTrap : Nat := 0x0D

/-- The conditions an instruction meets at issue, apart from ILLEGAL_INSTRUCTION, in the order of R695. -/
structure IssueFaults where
  engine : Bool := false
  format : Bool := false
  shape : Bool := false
  align : Bool := false
  bounds : Bool := false
  stack : Bool := false
  trap : Bool := false
  /-- The faulting virtual address of an ALIGNMENT (R199). -/
  va : Nat := 0
  /-- The trap code of PROGRAM_TRAP. -/
  code : Nat := 0
  deriving DecidableEq, Repr

/-- The exception an instruction raises at issue: the first in the order of R695. -/
def IssueFaults.first (f : IssueFaults) : Option Nat :=
  if f.engine then some excEngine
  else if f.format then some excFormat
  else if f.shape then some excShape
  else if f.align then some excAlign
  else if f.bounds then some excBounds
  else if f.stack then some excStack
  else if f.trap then some excTrap
  else none

/-- The STATUS special value (R157). -/
def Core.status (k : Core) : Word :=
  BitVec.ofNat 64 (b2n k.devTimeout + 2 * b2n k.late + k.lateCount * 2 ^ 16)

/-- Count a LATE completion (R187): STATUS bit 1 and the saturating count. -/
def Core.noteLate (k : Core) : Core := { k with late := true, lateCount := satInc 16 k.lateCount }

/-- The conditions of WAITV and WAIT (R192), on operands of `n` bits. -/
def condHolds (cond n : Nat) (v r : Nat) : Bool :=
  let v := v % 2 ^ n
  let r := r % 2 ^ n
  match cond with
  | 0 => v == r
  | 1 => v != r
  | 2 => decide (r ≤ v)
  | 3 => decide (signed r n ≤ signed v n)
  | 4 => decide (v < r)
  | 5 => decide (signed v n < signed r n)
  | _ => false

end Sys2Proof.Machine
end

