-- ==== Sys2Proof/Machine/Tiers.lean ====
section
/-! DEFINITION. Machine/Tiers.lean: blocks, frames and homes (R243 to R251), access counters and nominations
(R262 to R266), and the memory controllers' handling of errors and remaps (R316 to R324). -/

namespace Sys2Proof.Machine

/-- Controller `n` serves the frames of its tier: every frame is spread over the units in use (R250). -/
def State.ctlInUse (s : State) (n : Nat) : Bool :=
  let units := if n < 16 then setBitsBelow 16 s.pop.hs.toNat else (setBitsBelow 16 s.pop.dram.toNat).map (· + 16)
  (units.take (2 ^ unitsLog units.length)).contains n

/-- The stack or package `n` is present. -/
def State.ctlPresent (s : State) (n : Nat) : Bool :=
  if n < 16 then s.pop.hs.getLsbD n else n < 32 && s.pop.dram.getLsbD (n - 16)

/-- The unit path of a row of controller `n`, by its sub-unit (R314, R315). -/
def State.rowPath (s : State) (n row : Nat) : BitVec 64 :=
  if n < 16 then s.path (16 + n) 0 0 0xE row
  else s.path (4 + (n - 16) / 8) 0 0 0xE row

/-- The commit state of controller `n`: OFFLINE is live (R336). -/
def State.offline (s : State) (n : Nat) : Bool := bitOf (s.regN (rMc n 0x0)) 29

/-! ### The memory units: R313 to R315 -/

/-- The shape of a memory unit: its channels, the ranks or stack IDs of each, the banks and rows of those, and the bytes of a
row. -/
structure MemShape where
  channels : Nat
  ranks : Nat
  banks : Nat
  rows : Nat
  rowBytes : Nat
  deriving DecidableEq, Repr

/-- The HBM3E stacks and LPDDR6 packages with the options of R313 (R314, R315). Their repair is made at module reset only
(`State.applyHistory`), and in service a row goes to a spare (`State.remapRow`). -/
def memShape (n : Nat) : MemShape :=
  if n < 16 then { channels := 32, ranks := 2, banks := 16, rows := 2 ^ 15, rowBytes := 1024 }
  else { channels := 4, ranks := 4, banks := 16, rows := 2 ^ 18, rowBytes := 2048 }

/-- The rows of a unit, without its spares (R321). -/
def rowCount (n : Nat) : Nat :=
  let m := memShape n
  m.channels * m.ranks * m.banks * m.rows

/-- The capacity of a unit: 32 GiB of a stack, 128 GiB of a package (R313). -/
def unitBytes (n : Nat) : Nat := rowCount n * (memShape n).rowBytes

/-- The 2 MiB frames of a unit (R247). -/
def unitFrames (n : Nat) : Nat := unitBytes n / 0x200000

/-! ### Row remapping: R322 to R324 -/

/-- The place whose spares a row uses: its pseudo-channel, or its DRAM bank (R323). -/
def sparePlace (n row : Nat) : Nat :=
  if n < 16 then row / 2 ^ 27 else row / 2 ^ 19 % 2 ^ 8

/-- Spares of a place: 64 per pseudo-channel, 8 per bank. -/
def spareMax (n : Nat) : Nat := if n < 16 then 64 else 8

/-- The sub-unit names a row of controller `n` (R314, R315, HBMC_REMAP_REQ). -/
def rowValid (n row : Nat) : Bool :=
  if n < 16 then row % 2 == 0 && row / 2 % 64 == 0
  else row % 2 == 0 && bitOf row 31 && row / 2 ^ 27 % 16 == n - 16

/-- A row goes to a free spare of its place, if there is one; SPARE_MIN and SPARES_OUT follow (R323, R336). -/
def State.takeSpare (s : State) (n row : Nat) : State :=
  let k := s.ctl n
  let place := sparePlace n row
  let used := k.used.getD (fun _ => 0) place
  let done := used < spareMax n
  let k' := if done then
      { k with used := k.used.setD (fun _ => 0) place (used + 1)
               remapped := (row, used) :: k.remapped.filter (fun e => e.1 != row)
               rows := k.rows.filter (fun e => e.1 != row) }
    else k
  let s := s.setCtl n k'
  let free := spareMax n - k'.used.getD (fun _ => 0) place
  let s := if done && free < s.regN (rMc n 0x10) % 128 then
      s.setReg (rMc n 0x10) (BitVec.ofNat 64 (place * 256 + free)) else s
  if free = 0 then s.setRegBit (rMc n 0x4) 21 true else s

/-- The entry a full tracker replaces: the lowest count (R322). -/
def trackerDrop (rows : List (Nat × Nat)) : List (Nat × Nat) :=
  match rows with
  | [] => []
  | r :: t =>
    let low := t.foldl (fun a e => if e.2 < a.2 then e else a) r
    rows.erase low

/-- A corrected error of a row is counted, and logged when it brings the row to its threshold, which is the second component
(R320, R322). -/
def State.tallyRow (s : State) (n row : Nat) : State × Bool :=
  let s := s.bump (rMc n 0x8)
  let k := s.ctl n
  let old := (k.rows.find? (fun e => e.1 == row)).map Prod.snd
  let count := old.getD 0 + 1
  let rest := k.rows.filter (fun e => e.1 != row)
  let rest := if rest.length < 32 then rest else trackerDrop rest
  let s := s.setCtl n { k with rows := rest ++ [(row, count)] }
  let ctl := s.regN (rMc n 0x0)
  let thresh := if bitsOf ctl 23 20 = 0 then 4 else bitsOf ctl 23 20
  if count = thresh then (s.log { errRec (s.rowPath n row) 0x03 0 with opKind := 3, syndrome := row }, true) else (s, false)

/-- A row gives an uncorrectable error: it is counted and logged with the sector's address (R317). -/
def State.rowBad (s : State) (n row addr : Nat) : State :=
  let s := s.bump (rMc n 0xC)
  s.log { errRec (s.rowPath n row) 0x04 1 with opKind := 3, addr := addr, syndrome := row }

/-- What the check bits of one sector read show, without what follows for its row: the error is corrected and counted, or the
sector is poisoned and logged (R316, R317). -/
def State.flawRead (s : State) (n : Nat) (f : EccFind) : State :=
  if f.hard then (s.setPoison [f.sector]).rowBad n f.row.toNat (f.sector * 32) else (s.tallyRow n f.row.toNat).1

/-- The errors that no access has found yet and a test picks, and the state without them. -/
def State.takeFlaws (s : State) (p : EccFind → Bool) : State × List EccFind :=
  (s.withMem { s.mem with flaws := s.mem.flaws.filter (fun f => !p f) }, s.mem.flaws.filter p)

/-- Errors arise in sectors of memory (assumption log 8). -/
def State.noteFlaws (s : State) (e : Ecc) : State :=
  if e.isEmpty then s else s.withMem { s.mem with flaws := s.mem.flaws ++ e }

/-- Step 3 of a remap (R323): every sector of the row is read and copied, poison with it. -/
def State.copyRow (s : State) (n row : Nat) : State :=
  let r := s.takeFlaws (fun f => f.row.toNat == row && (s.homeOf (f.sector * 32)).1 == n)
  r.2.foldl (fun s f => s.flawRead n f) r.1

/-- Remap a row (R323): cause 0 threshold, 1 uncorrectable, 2 request, 3 spare retired. Its sectors are copied to the spare, which
then enters the table. With no free spare the row stays, RESULT shows NO_SPARE and a record is logged (R324). -/
def State.remapRow (s : State) (n row cause : Nat) : State :=
  let k := s.ctl n
  let cause := if k.remapped.any (fun e => e.1 == row) then 3 else cause
  let done := k.used.getD (fun _ => 0) (sparePlace n row) < spareMax n
  let res := (if done then 1 else 2) * 2 ^ 62 + cause * 2 ^ 58 + row
  let s := if done then s.copyRow n row else s
  let s := (s.takeSpare n row).setReg (rMc n 0x18) (BitVec.ofNat 64 res)
  s.log { errRec (s.rowPath n row) 0x05 0 with opKind := 3, syndrome := res }

/-- A corrected error of a row, which is remapped at its threshold when REMAP_AUTO says so (R320, R322). -/
def State.correctedRow (s : State) (n row : Nat) : State :=
  let r := s.tallyRow n row
  if r.2 && bitOf (r.1.regN (rMc n 0x0)) 30 then r.1.remapRow n row 0 else r.1

/-- A row gives an uncorrectable error, and is remapped when REMAP_AUTO says so (R317, R322). -/
def State.rowFailed (s : State) (n row addr : Nat) : State :=
  let s := s.rowBad n row addr
  if bitOf (s.regN (rMc n 0x0)) 30 then s.remapRow n row 1 else s

/-- An uncorrectable error of a sector: it is poisoned (R317). -/
def State.uncorrectable (s : State) (n row sec : Nat) : State := (s.setPoison [sec]).rowFailed n row (sec * 32)

/-- One sector in which an access to controller `n` found an error (R316, R317). -/
def State.eccFind (s : State) (n : Nat) (f : EccFind) : State :=
  if f.hard then s.uncorrectable n f.row.toNat f.sector else s.correctedRow n f.row.toNat

/-- Take the errors a test picks, one after another, as reads of their sectors find them; a remap that one causes takes those of
its row. -/
def State.findFlaws (s : State) (p : EccFind → Bool) (found : State → EccFind → State) : Nat → State
  | 0 => s
  | k + 1 =>
    match s.mem.flaws.find? p with
    | none => s
    | some f => State.findFlaws (found (s.withMem { s.mem with flaws := s.mem.flaws.erase f }) f) p found k

/-- A controller reads a tiered line and checks the check bits of its sectors (R316). -/
def State.checkLine (s : State) (line : Nat) : State :=
  s.findFlaws (fun f => f.sector / 4 == line) (fun s f => s.eccFind (s.homeOf (line * 128)).1 f) s.mem.flaws.length

/-- What the check bits of an access to a tiered line found (R316, R317), when the errors `e` have arisen. -/
def State.applyEcc (s : State) (line : Nat) (e : Ecc) : State := (s.noteFlaws e).checkLine line

/-! ### Heat: R263 -/

/-- Plate boundary: every COUNT halves and every NOMINATED bit clears (R263). -/
def State.decay (s : State) : State :=
  let fix (b : Nat) (t : Tbl Remap) (r : Remap) : Tbl Remap :=
    t.setD (initRemap s.peel.h s.peel.d) b { r with count := r.count / 2, nominated := false }
  s.withPeel { s.peel with remap := s.peel.remap.foldl (fun t e => fix e.1 t e.2) s.peel.remap }

end Sys2Proof.Machine
end

