-- ==== Sys2Proof/Machine/Home.lean ====
section
/-! DEFINITION. Machine/Home.lean: the home agents, the directory and the cluster caches (chapter 10), and the reads
and writes the module's own engines make through them. -/

namespace Sys2Proof.Machine

/-- The cluster cache is gated (R352). -/
def State.clusterGated (s : State) (k : Nat) : Bool := s.power.gated.contains (keyOf (k / 4) (k % 4) 0 0x8)

/-- An eviction notice of cluster `k` reaches the home: on a BUSY line, or in the switch step of its block, it waits there
(R339, R255). -/
def State.noticeTo (s : State) (line k : Nat) : State :=
  if s.busy line then
    s.withMem { s.mem with waitq := s.mem.waitq ++
      [{ line := line, kind := .leave k, who := .cluster k, e := [], held := s.inSwitch line }] }
  else s.notice line k

/-- Allocate a line at its index; the displaced line enters the victim cache, and the oldest victim leaves with an
eviction notice (R350). A disabled index allocates nothing (R351). -/
def State.clusterFill (s : State) (k line : Nat) : State :=
  let x := s.cluster k
  let i := cacheSlot line
  if x.disabled.contains i || s.clusterGated k then s
  else
    let vs := match x.tags.get? i with
      | some old => if old == line then x.victims else (x.victims.filter (· != line)) ++ [old]
      | none => x.victims.filter (· != line)
    let leave := if vs.length ≤ 512 then [] else vs.take (vs.length - 512)
    let s := s.setCluster k { x with tags := x.tags.put i line, victims := vs.drop (vs.length - 512)
                                     gone := x.gone.filter (· != line) }
    leave.foldl (fun s l => s.noticeTo l k) s

/-- A hit in the victim cache swaps the line with the one at its index (R350). -/
def State.clusterHit (s : State) (k line : Nat) : State :=
  let x := s.cluster k
  if x.tags.get? (cacheSlot line) == some line then s
  else if x.victims.contains line then s.clusterFill k line else s

/-! ### The system-level cache: R353 to R358 -/

/-- The key of a slice's power domain (R529). -/
def slcDomain (p i : Nat) : Nat := keyOf (4 + p) 0 i 0x9

/-- A slice works: it is present and not gated (R358). -/
def State.slcWorks (s : State) (p i : Nat) : Bool :=
  s.slcPresent (p * 8 + i) && !s.power.gated.contains (slcDomain p i)

/-- The partition of a hart: its nibble of PD_SLC_HART_PART (R355, R367). -/
def State.slcPartition (s : State) (h : Nat) : Nat :=
  s.regN (rPd (h / 48) (0x2040 + h % 48 / 8 * 4)) / 2 ^ (4 * (h % 8)) % 8

/-- The ways the partition of a hart may allocate in (R355). -/
def State.slcWays (s : State) (h : Nat) : List Nat :=
  setBitsBelow 16 (s.regN (rPd (h / 48) (0x2000 + s.slcPartition h * 4)))

/-- A request of a hart for a line passes the system-level cache of its die (R354, R355): a line that is there becomes the
most recently used; another is allocated in a way of the hart's partition, a free one or that of the set's least recently
used line. The set is not architectural (R353), nor is which free way is taken: the lowest (assumption log 126). -/
def State.slcUse (s : State) (h line : Nat) : State :=
  let p := h / 48
  let i := slcSlice line
  let ls := s.slcLines p i
  if !s.slcWorks p i then s
  else match ls.find? (fun x => x.line == line) with
    | some x => s.setSlc p i (x :: ls.filter (fun y => y.line != line))
    | none =>
      let ways := s.slcWays h
      let set := ls.filter (fun x => Config.slcSet x.line % 6144 == Config.slcSet line % 6144)
      match ways.find? (fun w => !set.any (fun x => x.way == w)) with
      | some w => s.setSlc p i ({ line := line, way := w } :: ls)
      | none =>
        match (set.filter (fun x => ways.contains x.way)).getLast? with
        | some x => s.setSlc p i ({ line := line, way := x.way } :: ls.filter (fun y => y.line != x.line))
        | none => s

/-! ### The L1 and L2 caches of the harts: R354, R398, R406 -/

/-- The lines of a hart's L1 data cache. -/
def State.l1Lines (s : State) (h : Nat) : List Nat := s.pds.l1.getD (fun _ => []) h

/-- The lines of the L2 block of complex `x`. -/
def State.l2Lines (s : State) (x : Nat) : List Nat := s.pds.l2.getD (fun _ => []) x

/-- A line enters a set of `ways` lines among those of a cache: the list with it, and the line that a full set gives up for it,
which no rule names (assumption log 67). -/
def fillSet (set : Nat → Nat) (ways draw line : Nat) (ls : List Nat) : List Nat × Option Nat :=
  let mates := ls.filter (fun l => set l == set line)
  if mates.length < ways then (line :: ls, none)
  else
    let v := mates.getD (draw % max 1 mates.length) 0
    (line :: ls.filter (· != v), some v)

/-- A line enters the L2 block of hart `h`'s complex: the line that leaves it leaves the L1 caches of the complex, and is allocated
in the system-level cache (R354; the table "Processor caches"). -/
def State.l2Fill (s : State) (h line : Nat) : State :=
  let x := h / 8
  let r := s.draw
  let f := fillSet (fun l => Config.l2Set l % 8192) 16 (Config.freeWord r.2).toNat line (s.l2Lines x)
  match f.2 with
  | none => s.withPds { s.pds with l2 := s.pds.l2.setD (fun _ => []) x f.1 }
  | some v => (r.1.withPds { s.pds with
      l2 := s.pds.l2.setD (fun _ => []) x f.1, l1 := dropLine (fun k => k / 8 == x) v s.pds.l1 }).slcUse h v

/-- A line enters the L1 data cache of hart `h`; the line that leaves stays in the L2 block, which is inclusive. -/
def State.l1Fill (s : State) (h line : Nat) : State :=
  let r := s.draw
  let f := fillSet (fun l => Config.l1Set l % 64) 8 (Config.freeWord r.2).toNat line (s.l1Lines h)
  (if f.2.isNone then s else r.1).withPds { s.pds with l1 := s.pds.l1.setD (fun _ => []) h f.1 }

/-- An access of hart `h` to a line its die holds, or has just fetched, passes the die's caches: L1, L2, system-level (R354). -/
def State.dieUse (s : State) (h line : Nat) : State :=
  if (s.l1Lines h).contains line then s
  else if (s.l2Lines (h / 8)).contains line then s.l1Fill h line
  else ((s.slcUse h line).l2Fill h line).l1Fill h line

/-- Hart `h` writes a line that its die owns: no other core of the die keeps a copy (R406). -/
def State.soleCore (s : State) (h line : Nat) : State :=
  s.withPds { s.pds with l1 := dropLine (fun k => k != h && k / 48 == h / 48) line s.pds.l1
                         l2 := dropLine (fun x => x != h / 8 && x / 6 == h / 48) line s.pds.l2 }

/-- Some L2 block of die `p`, and with it perhaps an L1, holds the line. -/
def State.upperHas (s : State) (p line : Nat) : Bool := s.pds.l2.any (fun e => e.1 / 6 == p && e.2.contains line)

/-! ### Host lines held on the module: R361, R362, R607 -/

/-- The tracker's entry for a host line. -/
def State.tracked (s : State) (line : Nat) : Option DirEntry :=
  (s.mem.tracker.find? (fun e => e.1 == line)).map Prod.snd

/-- Bytes of a line a processor die holds modified, as they leave for the host. -/
def State.dirtyOut (s : State) (line : Nat) : State :=
  let mine := s.mem.dirty.filter (fun a _ => a / 128 == line)
  if mine.isEmpty then s
  else s.emit { kind := .cxl, args := 3 :: line * 128 :: mine.map (fun e => e.1 % 128), bytes := mine.map Prod.snd }

/-- Every holder of a host line but `i` drops its copy. -/
def State.hostYield (s : State) (line i : Nat) (e : DirEntry) : State :=
  (setBitsBelow 32 e.sharers.toNat ++ e.owner.toList).foldl (fun (s : State) x =>
    if x = i then s else s.dropCopy line x) s

/-- The module gives up every copy of a host line, and with it the marks of poison the host gave it; the tracker's entry goes. -/
def State.hostDrop (s : State) (line : Nat) : State :=
  let s := match s.tracked line with
    | some e => s.hostYield line 32 e
    | none => s
  s.withMem { s.mem with dirty := s.mem.dirty.filter (fun a _ => a / 128 != line)
                         poison := putPoison s.mem.poison (upFrom (line * 4) 4) false
                         tracker := s.mem.tracker.filter (fun e => e.1 != line) }

/-- The owner of a host line shares it: what it holds modified goes to the host. -/
def State.hostShare (s : State) (line : Nat) : State :=
  let s := s.dirtyOut line
  let share (e : DirEntry) : DirEntry := match e.owner with
    | some o => { owner := none, sharers := sharer e.sharers o true }
    | none => e
  s.withMem { s.mem with
    dirty := s.mem.dirty.filter (fun a _ => a / 128 != line)
    tracker := s.mem.tracker.map (fun e => if e.1 == line then (line, share e.2) else e) }

/-- A holder obtains a host line: shared with its owner, or alone; a full tracker first gives up the entry granted longest ago,
writing a modified line back (R361). -/
def State.trackHold (s : State) (line i : Nat) (own : Bool) : State :=
  match s.tracked line with
  | some e =>
    let s := if own then s.hostYield line i e else if e.owner == some i then s else s.hostShare line
    let e := (s.tracked line).getD e
    let e : DirEntry := if own then { owner := some i, sharers := 0 }
      else if e.owner == some i then e else { e with sharers := sharer e.sharers i true }
    s.withMem { s.mem with tracker := s.mem.tracker.map (fun x => if x.1 == line then (line, e) else x) }
  | none =>
    let s := if s.mem.tracker.length < 65536 then s
      else match s.mem.tracker with
        | [] => s
        | x :: _ => (s.dirtyOut x.1).hostDrop x.1
    let e : DirEntry := if own then { owner := some i, sharers := 0 } else { owner := none, sharers := sharer 0 i true }
    s.withMem { s.mem with tracker := s.mem.tracker ++ [(line, e)] }

/-- A holder gives up its clean copy of a host line; an entry without holders is freed. -/
def State.hostLeave (s : State) (line i : Nat) : State :=
  let out (e : DirEntry) : DirEntry := { owner := if e.owner == some i then none else e.owner, sharers := sharer e.sharers i false }
  let t := (s.mem.tracker.map (fun e => if e.1 == line then (line, out e.2) else e)).filter
    (fun e => e.2.owner.isSome || e.2.sharers != 0)
  s.withMem { s.mem with tracker := t, poison := if t.any (fun e => e.1 == line) then s.mem.poison
                                                else putPoison s.mem.poison (upFrom (line * 4) 4) false }

/-- Lines of host memory that a write of the module reaches: the holders on the module lose them, and modified data goes to
the host first (R361). -/
def State.hostClear (s : State) (pa n : Nat) : State :=
  (linesOf (localPart pa) n).foldl (fun (s : State) l =>
    if (s.tracked l).isSome then (s.dirtyOut l).hostDrop l else s) s

/-- What a write or an atomic says of itself where it leaves the module: 1 a write, 2 an atomic with its operation and
format, 3 adds with their format. -/
def WOp.info : WOp → List Nat
  | .store _ => [1]
  | .atom op f _ _ => [2, match op with | .add => 0 | .min => 1 | .max => 2 | .swap => 3 | .cas => 4, atomFmtCode f]
  | .adds f _ => [3, atomFmtCode f]

/-- The data a write or an atomic carries: its bytes, its operands, or its elements (R223, R224). -/
def WOp.bytes : WOp → List Byte
  | .store bs => bs
  | .atom op f v cmp => toBytes (atomBytes f) v ++ (if op = .cas then toBytes (atomBytes f) cmp else [])
  | .adds f es => es.flatMap (toBytes (atomBytes f))

/-- A request leaves for another node or for the host, unless its target is known lost (R235, R582, R605, R606, R613);
`info` is 0 for a read. -/
def State.sendOut (s : State) (t : Target) (pa : Nat) (info : List Nat) (data : List Byte) : State :=
  match t with
  | .remote n => if s.nodeLost n then s else s.sendMsg n data (info ++ [pa])
  | .host | .hostDevice =>
    if s.cxl.session then
      (if t == .host && info != [0] then s.hostClear pa data.length else s).emit { kind := .cxl, args := info ++ [pa], bytes := data }
    else s
  | _ => s

/-! ### The homes: R339 to R345 -/

/-- The home of a line holds fewer than 256 lines BUSY (R339). -/
def State.busyRoom (s : State) (line : Nat) : Bool :=
  let h := (s.homeOf (line * 128)).1
  (s.mem.txns.filter (fun t => (s.homeOf (t.req.line * 128)).1 == h)).length < 256

/-- The request is the home's own: a recall in a switch step, or to free a directory entry (R255, R343). -/
def HomeReq.own (r : HomeReq) : Bool := r.kind == .clear || r.kind == .evict

/-- The home of a line takes a request: it holds fewer than 256 lines BUSY and fewer than 4,096 waiting requests (R339). -/
def State.homeTakes (s : State) (line : Nat) : Bool :=
  s.busyRoom line
    && (s.mem.waitq.filter (fun r => !r.own && (s.homeOf (r.line * 128)).1 == (s.homeOf (line * 128)).1)).length < 4096

/-- The read tag or write tag a core's request names. -/
def State.rtag (s : State) (c tag : Nat) : Option RTag := (s.core c).reads.find? (fun t => t.tag == tag)

/-- The write tag a core's request names. -/
def State.wtag (s : State) (c tag : Nat) : Option WTag := (s.core c).writes.find? (fun t => t.tag == tag)

/-- A TLD or GATH with the volatile mark (R209). -/
def JobKind.isVolRead : JobKind → Bool
  | .tld f _ _ _ => f.mark == 3
  | .gath f _ _ _ _ => f.mark == 3
  | _ => false

/-- A request of core `c` to the line of `pa` that left before tag `tag` has still to be made (R207, R208): a read without
its bytes, or a write. A plain read of the cluster cache (`home` false) sees older stores where they are, and waits with
an older read that has missed. -/
def State.lineOpen (s : State) (c tag pa : Nat) (t : Target) (home : Bool) : Bool :=
  let k := s.core c
  let same (x : Nat) (u : Target) : Bool := u == t && localPart x / 128 == localPart pa / 128
  k.reads.any (fun r => r.tag < tag && same r.pa r.target && r.served.isNone && !r.dead && !r.early && (home || !r.missed))
    || k.writes.any (fun w => w.tag < tag && same w.pa w.target && w.stage == .sent && (home || (match w.op with
        | .store _ => false
        | _ => true)))
    || (home && (s.cluster (c / 8)).held.any (fun h => h.core == c && h.tag < tag && same h.pa .tiered && !h.done))

/-- A write that the slices of cluster `k` took before write `wid`, to the same line, has still to be performed at the home: one
byte's writes are performed in the order in which its slice shows them (R204, R207). -/
def State.heldBefore (s : State) (k wid : Nat) : Bool :=
  match (s.cluster k).held.find? (fun h => h.wid == wid) with
  | some h => (s.cluster k).held.any (fun x => x.wid < wid && !x.done && localPart x.pa / 128 == localPart h.pa / 128)
  | none => false

/-- A volatile access of core `c` that left before tag `tag` has still to be performed (R209). -/
def State.volOpen (s : State) (c tag : Nat) : Bool :=
  let k := s.core c
  k.reads.any (fun r => r.tag < tag && r.served.isNone && !r.dead && !r.early
      && k.jobs.any (fun j => j.seq == r.job && j.kind.isVolRead))
    || k.writes.any (fun w => w.tag < tag && w.ordered && w.stage == .sent)

/-- While a suspect is replayed no other context may use the hung core or its window port (R496). -/
def State.hangHolds (s : State) (c ctx : Nat) : Bool :=
  match (s.fe (c / 32)).hang with
  | some h => h.core == c && h.current != some ctx
  | none => false

/-- The request of core `c` is to the window port of a hung core that another context may not use now (R496). -/
def State.portHeld (s : State) (c : Nat) (t : Target) : Bool :=
  match t, (s.core c).launch with
  | .window x, some l => s.hangHolds x l.ctx
  | _, _ => false

/-- A volatile read waits for no older volatile access of its core; another read for none at all (R209). -/
def State.volReadTurn (s : State) (c : Nat) (t : RTag) : Bool :=
  !((s.core c).jobs.any (fun j => j.seq == t.job && j.kind.isVolRead) && s.volOpen c t.tag)

/-- The same for a write (R209). -/
def State.volWriteTurn (s : State) (c : Nat) (w : WTag) : Bool := !(w.ordered && s.volOpen c w.tag)

/-- A read tag's turn at its home or window port has come (R207 to R209, R496). -/
def State.readTurn (s : State) (c : Nat) (t : RTag) : Bool :=
  !s.portHeld c t.target && !s.lineOpen c t.tag t.pa t.target true && s.volReadTurn c t

/-- A write tag's turn at its home or window port has come (R207 to R209, R496). -/
def State.writeTurn (s : State) (c : Nat) (w : WTag) : Bool :=
  !s.portHeld c w.target && !s.lineOpen c w.tag w.pa w.target true && s.volWriteTurn c w

/-- What a request asks of the holders: 0 nothing but a current copy, 1 a shared copy, 2 sole use. -/
def State.reqForce (s : State) (r : HomeReq) : Nat :=
  match r.kind with
  | .readShared => 1
  | .readOwn => 2
  | .writeThrough _ => 2
  | .naRead _ _ => 0
  | .naWrite _ _ => 2
  | .atomic _ _ _ _ _ => 2
  | .adds _ _ _ => 2
  | .invOwn => 2
  | .bytesWrite _ _ => 2
  | .evict => 2
  | .clear => 2
  | .leave _ => 0
  | .coreTag c tag => if (s.rtag c tag).isSome then 0 else 2

/-- The agent a request excepts from invalidation: the requester, or the writing cluster (R340). -/
def HomeReq.excepts (r : HomeReq) : Option Nat :=
  match r.kind with
  | .readShared | .readOwn | .invOwn | .writeThrough _ => (agentIndex r.who)
  | _ => none

/-- The agents whose answer a request awaits: clusters that must drop the line, an owner that must forward it, the
host. Front ends and clean processor copies answer at once. -/
def State.reqWaits (s : State) (r : HomeReq) : List Nat :=
  let e := s.dirOf r.line
  let me := r.excepts
  let own := match r.kind, e.owner with
    | .leave _, _ => []
    | _, some o => if some o == me then [] else [o]
    | _, none => []
  if s.reqForce r = 2 then
    own ++ (setBitsBelow 32 e.sharers.toNat).filter (fun i =>
      some i != me && (i < 16 && !s.clusterGated i || i == 22))
  else own

/-- Bytes of a line as a plain read of core `c` sees them: the home's, overlaid by the writes the slice holds that the home
has still to perform (R204), but for the core's own that left after tag `tag` (R208). -/
def State.clusterBytes (s : State) (k c tag pa n : Nat) : List Byte :=
  let held := (s.cluster k).held.filter (fun h => !h.done && !(h.core == c && tag < h.tag))
  (upFrom pa n).map (fun a =>
    held.foldl (fun b h => if h.pa ≤ a && a < h.pa + h.bytes.length then byteAt h.bytes (a - h.pa) else b)
      (s.sysByte a))

/-- The reading core's own older writes still in its store buffer overlay the bytes (R206, R208), but for a byte that a younger
write of the core, which its slice has taken in `held`, has changed since (R208). -/
def Core.ownBytes (k : Core) (held : List Held) (t : RTag) (bs : List Byte) : List Byte :=
  let covered (w : WTag) (a : Nat) : Bool :=
    held.any (fun h => w.tag < h.tag && h.tag < t.tag && h.pa ≤ a && a < h.pa + h.bytes.length)
  (bs.zip (upFrom t.pa bs.length)).map (fun p =>
    k.writes.foldl (fun b w => match w.op with
      | .store ws => if w.job < t.job && w.stage == .sent && w.pa ≤ p.2 && p.2 < w.pa + ws.length && !covered w p.2
          then byteAt ws (p.2 - w.pa) else b
      | _ => b) p.1)

/-- The writes of core `c` that the slices of its cluster hold. -/
def State.heldOf (s : State) (c : Nat) : List Held := (s.cluster (c / 8)).held.filter (fun h => h.core == c)

/-- A read tag is answered with the bytes it asked for, and the poisoned sectors among them (R318). -/
def State.serve (s : State) (c : Nat) (t : RTag) (bs : List Byte) : State :=
  let bad := (sectorsOf (localPart t.pa) t.len).filter s.poisoned
  s.modCore c (fun k => { k with reads := k.reads.map (fun x =>
    if x.tag == t.tag then { x with served := some (k.ownBytes (s.heldOf c) x bs, bad) } else x) })

/-- The number in `n` bytes, as a walker of cluster `k` or another of its plain readers sees them (R206). -/
def State.clusterNat (s : State) (k pa n : Nat) : Nat :=
  let held := (s.cluster k).held.filter (fun h => !h.done)
  ofBytes ((upFrom pa n).map (fun a =>
    held.foldl (fun b h => if h.pa ≤ a && a < h.pa + h.bytes.length then byteAt h.bytes (a - h.pa) else b) (s.sysByte a)))

/-- The line a cluster waited for has come: every read tag of its cores that missed on it is answered. -/
def State.serveCluster (s : State) (k line : Nat) : State :=
  (upFrom (k * 8) 8).foldl (fun s c =>
    ((s.core c).reads.filter (fun t => t.missed && t.served.isNone && !t.early && localPart t.pa / 128 == line)).foldl
      (fun s t => s.serve c t (s.clusterBytes k c t.tag t.pa t.len)) s) s

/-- What two services of one read give when the sectors whose bit `mask` holds take the second (R221). -/
def mixSectors (mask pa : Nat) (old new : List Byte × List Nat) : List Byte × List Nat :=
  let pick (sec : Nat) : Bool := bitOf mask (sec % 4)
  ((upFrom 0 old.1.length).map (fun i => byteAt (if pick (localPart (pa + i) / 32) then new.1 else old.1) i),
   old.2.filter (fun x => !pick x) ++ new.2.filter pick)

/-- The read may still find some of its sectors at a later time: its data has not arrived, and every request that the core
has sent since still waits (R207 to R209, R221). -/
def Core.stillReads (k : Core) (t : RTag) : Bool :=
  t.served.isSome && !t.dead && !t.early && t.target == .tiered
    && (k.reads.filter (fun x => t.tag < x.tag && x.served.isNone)).length
      + (k.writes.filter (fun x => t.tag < x.tag && x.stage == .sent)).length + t.tag + 1 == k.nextTag

/-- A core's write to a line has been performed: reads of the line by other cores, whose data is still on its way, find any
of their sectors after it and the others before it, in no defined order (R221; assumption log 144). A volatile read finds what
its home has performed and no more (R206). -/
def State.mixReads (s : State) (writer line : Nat) : State :=
  s.cores.foldl (fun s p =>
    if p.1 = writer then s
    else (p.2.reads.filter (fun t => localPart t.pa / 128 == line && p.2.stillReads t)).foldl (fun s t =>
      let r := s.draw
      let vol := p.2.jobs.any (fun j => j.seq == t.job && j.kind.isVolRead)
      let bs := if vol then r.1.sysRead t.pa t.len
        else p.2.ownBytes (r.1.heldOf p.1) t (r.1.clusterBytes (p.1 / 8) p.1 t.tag t.pa t.len)
      let now := (bs, (sectorsOf (localPart t.pa) t.len).filter r.1.poisoned)
      r.1.modCore p.1 (fun k => { k with reads := k.reads.map (fun x =>
        if x.tag == t.tag then { x with served := x.served.map (fun o => mixSectors (Config.freeWord r.2).toNat t.pa o now) }
        else x) })) s) s

/-- A write of instruction `seq` of core `c` has been performed; while an older instruction may still fault, its bytes may
still become undefined (R198). -/
def State.noteWrote (s : State) (c seq pa n : Nat) : State :=
  if (s.core c).jobs.any (fun j => j.seq < seq) then
    s.modCore c (fun k => { k with wrote := { seq := seq, pa := localPart pa, len := n } :: k.wrote })
  else s

/-- A write tag has been performed. -/
def State.performed (s : State) (c tag : Nat) (old : Option Nat) : State :=
  s.modCore c (fun k => { k with writes := k.writes.map (fun w =>
    if w.tag == tag then { w with stage := .performed, old := old } else w) })

/-- The sub-unit of the row that holds a tiered address at its home: its pseudo-channel, or package and sub-channel, as R250
places it, and a free rank, bank and row, whose map the spec does not give (R314, R315; assumption log 127). -/
def State.rowHolding (s : State) (pa : Nat) : State × Nat :=
  let h := s.homeOf pa
  let r := s.draw
  let free := (Config.freeWord r.2).toNat
  (r.1, if h.1 < 16 then h.2 % 32 * 2 ^ 27 + free % 2 ^ 20 * 2 ^ 7
        else 2 ^ 31 + (h.1 - 16) * 2 ^ 27 + h.2 % 4 * 2 ^ 25 + free % 2 ^ 24 * 2)

/-- A refused atomic or add on poison (R319): the record, and the operation's status. -/
def State.refusePoison (s : State) (pa : Nat) (ctx uid : Option Nat) : State :=
  let x := s.rowHolding pa
  let r := { errRec (s.rowPath (s.homeOf pa).1 x.2) 0x04 2 with opKind := 3, ctx := ctx, addr := pa, syndrome := x.2 }
  match uid with
  | some u => (x.1.logOp u r).modOp u (fun o => { o with poison := true })
  | none => x.1.log r

/-- The context and operation a core's launch belongs to. -/
def Core.owner (k : Core) : Option Nat × Option Nat := (k.launch.map Launch.ctx, k.launch.map Launch.uid)

/-- One element after another added at the home, from address `pa` (R223). -/
def State.addElems (s : State) (ctx uid : Option Nat) (f : AtomFmt) : Nat → List Nat → State
  | _, [] => s
  | pa, v :: vs =>
    let s' := if s.anyPoison pa (atomBytes f) then s.refusePoison pa ctx uid
      else s.homeStore pa (toBytes (atomBytes f) (adderAdd f (s.sysNat pa (atomBytes f)) v))
    State.addElems s' ctx uid f (pa + atomBytes f) vs

/-- The home performs a core's tagged request; a read it has answered with LATE it has answered (R267). -/
def State.performTag (s : State) (c tag : Nat) : State :=
  let (ctx, uid) := (s.core c).owner
  match s.rtag c tag with
  | some t => if t.early then s else s.serve c t (s.sysRead t.pa t.len)
  | none =>
    match s.wtag c tag with
    | none => s
    | some w =>
      match w.op with
      | .store bs => ((s.homeStore w.pa bs).performed c tag none).noteWrote c w.job w.pa bs.length
      | .atom op f v cmp =>
        if s.anyPoison w.pa (atomBytes f) then
          (s.refusePoison w.pa ctx uid).performed c tag (some (2 ^ 64 - 1))
        else
          let old := s.sysNat w.pa (atomBytes f)
          ((s.homeStore w.pa (toBytes (atomBytes f) (atomNew op f old v cmp))).performed c tag (some old)).noteWrote c w.job
            w.pa (atomBytes f)
      | .adds f es =>
        ((s.addElems ctx uid f w.pa es).performed c tag none).noteWrote c w.job w.pa (es.length * atomBytes f)

/-- The number of an agent in an output. -/
def agentId : Agent → Nat
  | .cluster k => k
  | .pd p => 16 + p
  | .fe d => 18 + d
  | .host => 22
  | .peel => 48
  | .remote k => 64 + k
  | .core c => 256 + c
  | .hart h _ => 512 + h

/-- The poisoned sectors of a range, as a mask from its first sector on (R318). -/
def State.poisonMask (s : State) (pa n : Nat) : Nat :=
  let l := sectorsOf (localPart pa) n
  ((l.zip (upFrom 0 l.length)).map (fun x => if s.poisoned x.1 then 2 ^ x.2 else 0)).foldl (· + ·) 0

/-- Data leaves for a requester outside the accelerator cores, sector by sector with its poison marks (R318). -/
def State.deliver (s : State) (who : Agent) (pa n tag : Nat) : State :=
  match who with
  | .remote k => s.respond k tag false (s.sysRead pa n) (s.poisonMask pa n)
  | who => s.emit { kind := .data, args := [agentId who, pa, s.poisonMask pa n], bytes := s.sysRead pa n }

/-- The hart takes an exception. -/
def State.hartTrap (s : State) (h cause : Nat) (tval : Option Nat) : State :=
  s.setHart h { s.hart h with trap := some { cause := cause, tval := tval } }

/-- The access a hart's request serves consumes its bytes, from address `pa`: a poisoned one raises a hardware error (R413), and
others go to the vector register it loads, if one (R401). A prefetch, of no bytes, raises nothing. -/
def State.hartGets (s : State) (h : Nat) (vec : Option Nat) (pa : Nat) (bs : List Byte) (bad : Bool) : State :=
  if bad then s.hartTrap h 19 (some pa)
  else match vec with
    | some v =>
      let k := s.hart h
      let old := toBytes 64 (k.v.getD (fun _ => 0) v).toNat
      s.setHart h { k with v := k.v.setD (fun _ => 0) v (BitVec.ofNat 512 (ofBytes (bs.take 64 ++ old.drop bs.length))) }
    | none => s

/-- The access a cacheable request of a hart serves gets its bytes of the line. -/
def State.consume (s : State) (who : Agent) (line : Nat) : State :=
  match who with
  | .hart h a =>
    let pa := s.node * 2 ^ 49 + line * 128 + a.off
    s.hartGets h a.vec pa (s.sysRead pa a.n) (s.anyPoison pa a.n)
  | _ => s

/-! ### Room in the directory: R343 -/

/-- The other entries of the directory set a line falls in, those of BUSY lines among them (R338); none while no set can be
full. -/
def State.dirSet (s : State) (line : Nat) : List (Nat × DirEntry) :=
  if s.mem.dir.length + s.mem.txns.length < 16 then []
  else
    let h := (s.homeOf (line * 128)).1
    let mine (l : Nat) : Bool := l != line && (s.homeOf (l * 128)).1 == h
      && Config.directorySet l % 32768 == Config.directorySet line % 32768
    s.mem.dir.filter (fun l _ => mine l)
      ++ ((s.mem.txns.map (fun t => t.req.line)).filter (fun l => mine l && (s.mem.dir.get? l).isNone)).map (fun l => (l, s.dirOf l))

/-- A new entry for the line has no place: its set is full. -/
def State.noRoom (s : State) (line : Nat) : Bool := (s.mem.dir.get? line).isNone && 16 ≤ (s.dirSet line).length

/-- An entry of the line's set is being evicted. -/
def State.evicting (s : State) (line : Nat) : Bool :=
  s.mem.txns.any (fun t => t.req.kind == .evict && (s.dirSet line).any (fun e => e.1 == t.req.line))

/-- The way of a line's entry, among those of its set (assumption log 5). -/
def State.wayOf (s : State) (line : Nat) : Nat := ((s.mem.ways.get? line).map Config.directoryWay).getD 0

/-- The entry a full set gives up (R343): no owner and fewest sharers first, of equal entries the one in the lowest way. None
while each has a transaction in progress. -/
def State.evictee (s : State) (line : Nat) : Option Nat :=
  let cost (e : Nat × DirEntry) : Nat := (if e.2.owner.isSome then 64 else 0) + popcount 32 e.2.sharers.toNat
  let idle := (s.dirSet line).filter (fun e => !s.busy e.1)
  let least := idle.foldl (fun a x => min a (cost x)) 128
  match idle.filter (fun e => cost e == least) with
  | [] => none
  | e :: es => some (es.foldl (fun a x => if s.wayOf x.1 < s.wayOf a.1 then x else a) e).1

/-- The new line takes the way of the entry given up for it (R343). -/
def State.keepWay (s : State) (line old : Nat) : State :=
  match s.mem.ways.get? old with
  | some w => s.withMem { s.mem with ways := s.mem.ways.put line w }
  | none => s

/-- The request adds a holder to the line. -/
def HomeReq.takesEntry (r : HomeReq) : Bool :=
  match r.kind with
  | .readShared | .readOwn | .invOwn => true
  | _ => false

/-- The sectors of a line that bytes at places in it cover whole. -/
def wholeSectors (line : Nat) (bs : List (Nat × Byte)) : List Nat :=
  (upFrom (line * 4) 4).filter (fun x => (upFrom (x * 32) 32).all (fun a => bs.any (fun b => line * 128 + b.1 % 128 == a)))

/-- A host write to a line (R601): its bytes are written; with its poison mark each sector it covers is poisoned, and
without it a sector covered whole loses its poison (R317). -/
def State.hostBytes (s : State) (line : Nat) (bs : List (Nat × Byte)) (poison : Bool) : State :=
  let s := bs.foldl (fun s b => s.homeStore (line * 128 + b.1 % 128) [b.2]) s
  if poison then s.setPoison ((upFrom (line * 4) 4).filter (fun x => bs.any (fun b => (line * 128 + b.1 % 128) / 32 == x)))
  else (s.withMem { s.mem with poison := putPoison s.mem.poison (wholeSectors line bs) false }).mirrorWhole line (wholeSectors line bs)

/-- Every holder but `me` drops its copy of the line; the owner's data is memory's. -/
def State.dropAll (s : State) (line : Nat) (e : DirEntry) (me : Option Nat) : State :=
  let s := (setBitsBelow 32 e.sharers.toNat).foldl (fun s i => if some i == me then s else s.dropCopy line i) (s.flush line)
  match e.owner with
  | some i => if some i == me then s else s.dropCopy line i
  | none => s

/-- A die that owns a line asks the home for it: it has lost its copy (R344). -/
def State.ownLost (s : State) (line : Nat) (who : Agent) : State :=
  match (s.dirOf line).owner with
  | some i =>
    if s.mem.lost.contains line && agentIndex who == some i then
      let r := s.lostCopy line i
      r.2.foldl State.log r.1
    else s
  | none => s

/-- The home answers what it has performed: it acknowledges a remote node's write or add (R229, R582), and gives the asker of
an atomic the old value. To a remote node the answer of an operation it has refused on poison is marked as poisoned data is
(R319; assumption log 157). -/
def State.homeReply (s : State) (r : HomeReq) (pa v : Nat) (refused : Bool) : State :=
  match r.who, r.kind with
  | .remote k, .atomic _ _ f _ _ => s.respond k r.tag false (toBytes (atomBytes f) v) (b2n refused)
  | .remote k, _ => s.respond k r.tag false [] (b2n refused)
  | who, .atomic _ _ _ _ _ => s.emitN .data [agentId who, pa, v]
  | _, _ => s

/-- A hart's access that its home has performed leaves its store buffer (R414). -/
def State.hartDone (s : State) (who : Agent) (id : Nat) : State :=
  match who with
  | .hart h _ => s.setHart h { s.hart h with stores := (s.hart h).stores.filter (fun x => x.id != id) }
  | _ => s

/-- The sectors that a request writes whole. -/
def State.reqWhole (s : State) (r : HomeReq) : List Nat :=
  match r.kind with
  | .naWrite pa bs => fullSectors (localPart pa) bs.length
  | .bytesWrite bs _ => wholeSectors r.line bs
  | .writeThrough wid =>
    match r.who with
    | .cluster k => match (s.cluster k).held.find? (fun h => h.wid == wid) with
      | some h => fullSectors (localPart h.pa) h.bytes.length
      | none => []
    | _ => []
  | .coreTag c tag =>
    match s.wtag c tag with
    | some w => match w.op with
      | .store bs => fullSectors (localPart w.pa) bs.length
      | _ => []
    | none => []
  | _ => []

/-- The memory access of a request: what check bits show of the sectors that it does not write whole, and its count; the home's
own recalls and eviction notices access no memory (R262, R316). -/
def State.reqAccess (s : State) (r : HomeReq) : State :=
  match r.kind with
  | .evict | .clear | .leave _ => s
  | _ => (((s.noteFlaws r.e).overwrite (s.reqWhole r)).checkLine r.line).touch (r.line * 128)

/-- The home performs a request all of whose answers have returned (R340). -/
def State.performReq (s : State) (r : HomeReq) : State :=
  let s := (s.reqAccess r).ownLost r.line r.who
  let e := s.dirOf r.line
  let free : DirEntry := { owner := none, sharers := 0 }
  let clear (s : State) : State := (s.dropAll r.line e none).setDir r.line free
  match r.kind with
  | .readShared =>
    let s := s.flush r.line
    let keep := match e.owner with
      | some o => sharer e.sharers o true
      | none => e.sharers
    match agentIndex r.who with
    | none => s
    | some i =>
      let s := s.setDir r.line { owner := none, sharers := sharer keep i true }
      match r.who with
      | .cluster k =>
        let s := if s.anyPoison (r.line * 128) 128 then s else s.clusterFill k r.line
        s.serveCluster k r.line
      | .hart h _ => (((s.dieUse h r.line).deliver r.who (r.line * 128) 128 r.tag).consume r.who r.line).hartDone r.who r.tag
      | who => s.deliver who (r.line * 128) 128 r.tag
  | .readOwn =>
    let s := (s.dropAll r.line e (agentIndex r.who)).setDir r.line { owner := agentIndex r.who, sharers := 0 }
    match r.who with
    | .hart h _ => ((s.dieUse h r.line).deliver r.who (r.line * 128) 128 r.tag).consume r.who r.line
    | who => s.deliver who (r.line * 128) 128 r.tag
  | .writeThrough wid =>
    match r.who with
    | .cluster k =>
      let s := s.dropAll r.line e (some k)
      match (s.cluster k).held.find? (fun h => h.wid == wid) with
      | none => s
      | some h =>
        let s := s.homeStore h.pa h.bytes
        let s := s.setCluster k { s.cluster k with held := (s.cluster k).held.map (fun x =>
          if x.wid == wid then { x with done := true } else x) }
        let s := s.noteWrote h.core h.seq h.pa h.bytes.length
        (s.setDir r.line { owner := none, sharers := if e.sharers.getLsbD k then sharer 0 k true else 0 }).mixReads h.core
          r.line
    | _ => s
  | .naRead pa n =>
    if n = 0 then s
    else
      let s := (s.deliver r.who pa n r.tag).hartDone r.who r.tag
      match r.who with
      | .hart h a => s.hartGets h a.vec pa (s.sysRead pa n) (s.anyPoison pa n)
      | _ => s
  | .naWrite pa bs => (((clear s).homeStore pa bs).homeReply r pa 0 false).hartDone r.who r.tag
  | .atomic pa op f v cmp =>
    let s := clear s
    let s := s.hartDone r.who r.tag
    if s.anyPoison pa (atomBytes f) then (s.refusePoison pa r.ctx none).homeReply r pa (2 ^ 64 - 1) true
    else
      let old := s.sysNat pa (atomBytes f)
      (s.homeStore pa (toBytes (atomBytes f) (atomNew op f old v cmp))).homeReply r pa old false
  | .adds pa f elems =>
    let s := clear s
    (s.addElems r.ctx none f pa elems).homeReply r pa 0 (s.anyPoison pa (elems.length * atomBytes f))
  | .invOwn =>
    ((s.dropAll r.line e (agentIndex r.who)).setDir r.line { owner := agentIndex r.who, sharers := 0 }).emitN .data
      [agentId r.who, r.line * 128, 0]
  | .bytesWrite bs poison => (clear s).hostBytes r.line bs poison
  | .coreTag c tag => if (s.rtag c tag).isSome then s.performTag c tag else ((clear s).performTag c tag).mixReads c r.line
  | .evict => clear s
  | .clear => clear s
  | .leave i => s.notice r.line i

/-- A request starts: at once when nobody must answer, else its line is BUSY and the holders are asked (R340). -/
def State.startReq (s : State) (r : HomeReq) : State :=
  match s.reqWaits r with
  | [] => s.performReq r
  | ws => (ws.foldl (fun s i => s.emitN .snoop [i, r.line]) s).withMem
      { s.mem with txns := s.mem.txns ++ [{ req := r, waits := ws }] }

/-- A full directory set starts to give up an entry for a new line (R343). -/
def State.startEvict (s : State) (line : Nat) : State :=
  match s.evictee line with
  | none => s
  | some v => ((s.keepWay line v).bump (rMc (s.homeOf (line * 128)).1 0x28)).startReq
      { line := v, kind := .evict, who := .peel, e := [] }

/-- A waiting request can go on: its line is not BUSY, no earlier request waits for the line, it is not held for the end of a
switch step, the home can hold its line BUSY if it must, and the directory has room for it or can begin to make some (R255,
R339, R343). -/
def State.canStart (s : State) (before : List HomeReq) (r : HomeReq) : Bool :=
  !s.lineBusy r.line && !(r.held && s.inSwitch r.line) && !before.any (fun x => x.line == r.line)
    && ((s.reqWaits r).isEmpty || s.busyRoom r.line)
    && (!r.takesEntry || !s.noRoom r.line || (!s.evicting r.line && (s.evictee r.line).isSome && s.busyRoom r.line))

/-- The first of a list of waiting requests that can go on; `before` came earlier. -/
def State.nextWaiting (s : State) : List HomeReq → List HomeReq → Option HomeReq
  | _, [] => none
  | before, r :: rest => if s.canStart before r then some r else State.nextWaiting s (before ++ [r]) rest

/-- Take the waiting requests, in the order in which they reached their homes, as far as they can go on (R339, R255). -/
def State.drain (s : State) : Nat → State
  | 0 => s
  | n + 1 =>
    match s.nextWaiting [] s.mem.waitq with
    | none => s
    | some r =>
      if r.takesEntry && s.noRoom r.line then State.drain (s.startEvict r.line) n
      else State.drain ((s.withMem { s.mem with waitq := s.mem.waitq.erase r }).startReq r) n

/-- As many rounds as the waiting requests can need. -/
def State.drainAll (s : State) : State := s.drain (3 * s.mem.waitq.length)

/-- A request reaches its home (R339): past the home's limits it is not accepted, and stays where it is. In the switch step of
its block it is held for the new home (R255). -/
def State.reqArrive (s : State) (r : HomeReq) : Act :=
  whenIt (s.homeTakes r.line)
    (.next (s.withMem { s.mem with waitq := s.mem.waitq ++ [{ r with held := s.inSwitch r.line }] }).drainAll)

/-- The transaction on a line ends: the home performs its request, and those that waited go on. -/
def State.endTxn (s : State) (t : Txn) : State :=
  ((s.withMem { s.mem with txns := s.mem.txns.filter (fun x => x.req.line != t.req.line) }).performReq t.req).drainAll.recordsOut

/-- Agent `i` answers the transaction on a line (R340); an owner that has lost its copy answers without data (R344). -/
def State.answer (s : State) (line i : Nat) : Act :=
  withSome (s.mem.txns.find? (fun t => t.req.line == line && t.waits.contains i)) fun t =>
    let s := if i < 16 then s.clusterInval i line else s
    let s := if (i = 16 || i = 17) && s.mem.lost.contains line then
        let r := s.lostCopy line i
        r.2.foldl State.log r.1
      else s
    let left := t.waits.filter (· != i)
    if left.isEmpty then .next (s.endTxn t)
    else
      .next (s.withMem { s.mem with txns := s.mem.txns.map (fun x =>
        if x.req.line == line then { x with waits := left } else x) })

/-- Agent `i` answers every transaction that awaits it, on the lines a test picks. -/
def State.answersFor (s : State) (i : Nat) (p : Nat → Bool) : State :=
  ((s.mem.txns.filter (fun t => t.waits.contains i && p t.req.line)).map (fun t => t.req.line)).foldl (fun (s : State) l =>
    match s.answer l i with
    | .next s => s
    | _ => s) s

/-! ### Accesses of the module's own engines: R218, R340

A front end, the peel engine, a walker and the hub make their accesses within one step of the model: an access that has to
wait for a transaction on its line, for a holder's answer or for a switch does so within that step (assumption log 12). -/

/-- The answer an agent owes the transaction on a line comes now; the host's is free. -/
def State.answerNow (s : State) (line i : Nat) : State :=
  let s := if i = 22 then
      let r := s.snoopNow line
      r.2.foldl State.log r.1
    else s
  match s.answer line i with
  | .next s => s
  | _ => s

/-- Transactions on a line, and the requests that wait for it, come to their end. -/
def State.finishLine (s : State) (line : Nat) : Nat → State
  | 0 => s
  | n + 1 =>
    match s.mem.txns.find? (fun t => t.req.line == line) with
    | none => s
    | some t => State.finishLine (t.waits.foldl (fun s i => s.answerNow line i) s) line n

/-- A request that waits was accepted before the switch step of its block (R255). -/
def HomeReq.ahead (r : HomeReq) (b : Nat) : Bool := !r.held && blockOf (r.line * 128) == b

/-- Every request that the homes accepted before the switch step of the block of a move has finished, and every copy has been taken
back (R255). -/
def State.switchReady (s : State) (m : Move) : Bool :=
  !s.mem.txns.any (fun t => blockOf (t.req.line * 128) == m.block) && !s.mem.waitq.any (fun r => r.ahead m.block)

/-- The homes of the block of a move take the new frame, and the source frame is vacant, kept for the promotion when the block is
its victim (R245, R256, R258); held requests go to their new homes in the order in which they were held (R255). No entry of the
block is left (R345), and no error of the frame it has left. -/
def State.takeFrame (s : State) (m : Move) : State :=
  let s := ((s.mem.dir.filter (fun l _ => blockOf (l * 128) == m.block)).map Prod.fst).foldl State.recall s
  let s := (s.takeFlaws (fun f => blockOf (f.sector * 32) == m.block)).1
  let old := (s.remap m.block).frame
  let s := s.setRemap m.block { s.remap m.block with
    state := if m.pin then 4 else if m.up then 0 else 1, tier := if m.up then 0 else 1, frame := m.frame }
  (s.withPeel { s.peel with
    moves := s.peel.moves.map (fun x =>
      if x.slot == m.slot then { x with switched := true, kept := if m.victim then some old else none } else x)
    vacantHbm := if m.up then s.peel.vacantHbm.erase m.frame else s.peel.vacantHbm ++ [old]
    vacantDram := if m.up then s.peel.vacantDram ++ [old] else s.peel.vacantDram.erase m.frame }).drainAll.recordsOut

/-- The switch step of a block comes to its end. -/
def State.finishSwitch (s : State) (line : Nat) : State :=
  match s.peel.moves.find? (fun m => m.switching && !m.switched && m.block == blockOf (line * 128)) with
  | none => s
  | some m =>
    let ls := (s.mem.txns.map Txn.req ++ s.mem.waitq.filter (fun r => !r.held)).filter (fun r => blockOf (r.line * 128) == m.block)
    (ls.foldl (fun s r => s.finishLine r.line (s.mem.waitq.length + 1)) s).takeFrame m

/-- An access of an engine to a line takes its turn at the home (R339, R255). -/
def State.lineTurn (s : State) (line : Nat) : State :=
  let s := s.finishSwitch line
  s.finishLine line (s.mem.waitq.length + 1)

/-- A read by an engine: a non-allocating read of each line, with the owner's current copy (R340). What it returns is then
read by `State.sysRead`, after the check bits of its lines (R316). -/
def State.homeRead (s : State) (pa n : Nat) : State :=
  if localPart pa < s.tieredEnd then
    (linesOf (localPart pa) n).foldl (fun (s : State) l => (((s.lineTurn l).checkLine l).showOwner l).touch (l * 128)) s
  else s

/-- A write of SYSTEM scope by an engine: a non-allocating write (R205, R340). -/
def State.sysWrite (s : State) (pa : Nat) (bs : List Byte) : State :=
  let ls := linesOf (localPart pa) bs.length
  let s := (ls.foldl State.lineTurn s).overwrite (fullSectors (localPart pa) bs.length)
  let s := ls.foldl State.checkLine s
  let w := s.ownWrite pa bs
  let s := w.2.foldl State.log w.1
  if localPart pa < s.tieredEnd then ls.foldl (fun (s : State) l => s.touch (l * 128)) s else s

/-- An add of SYSTEM scope at the home (R224, R328): the old value and the new state, or none on poison (R319). -/
def State.sysAdd (s : State) (pa : Nat) (op : AtomOp) (f : AtomFmt) (v cmp : Nat) : State × Option Nat :=
  let n := atomBytes f
  let ls := linesOf (localPart pa) n
  let s := (ls.foldl State.lineTurn s)
  let s := ls.foldl State.checkLine s
  let s := ls.foldl State.recall s
  let s := if localPart pa < s.tieredEnd then s.touch pa else s
  if s.anyPoison pa n then (s, none)
  else
    let old := s.sysNat pa n
    (s.homeStore pa (toBytes n (atomNew op f old v cmp)), some old)

/-- A full directory set makes room for a new line at once (R343). -/
def State.roomNow (s : State) (line : Nat) : State :=
  if !s.noRoom line then s
  else
    let s := (s.dirSet line).foldl (fun (s : State) e => if s.noRoom line then s.finishLine e.1 1 else s) s
    match s.evictee line with
    | none => s
    | some v => ((s.keepWay line v).recall v).bump (rMc (s.homeOf (line * 128)).1 0x28)

/-- A read-shared of an engine or a cluster, made within the step: the owner keeps a shared copy, and agent `i` becomes a
sharer (R340). -/
def State.shareNow (s : State) (line i : Nat) : State :=
  let s := (((s.lineTurn line).checkLine line).showOwner line).roomNow line
  let s := (s.flush line).touch (line * 128)
  let e := s.dirOf line
  let keep := match e.owner with
    | some o => sharer e.sharers o true
    | none => e.sharers
  s.setDir line { owner := none, sharers := sharer keep i true }

/-- The cluster has to wait for its held writes before it reads the line again after an invalidation (R349). -/
def Cluster.mustWait (x : Cluster) (line : Nat) : Bool :=
  x.gone.contains line && x.held.any (fun h => localPart h.pa / 128 == line)

/-- Writes cluster `k` holds for a line reach their home now and are performed. -/
def State.heldNow (s : State) (k line : Nat) : State :=
  ((s.cluster k).held.filter (fun h => localPart h.pa / 128 == line && !h.done)).foldl (fun (s : State) h =>
    let waiting := s.mem.txns.any (fun t => t.req.kind == .writeThrough h.wid && t.req.who == .cluster k)
    let s := if waiting then s
      else (s.lineTurn line).startReq { line := line, kind := .writeThrough h.wid, who := .cluster k, e := [] }
    s.finishLine line 1) s

/-- A plain read through cluster cache `k`, made within the step by an instruction fetch or a walker (R119, R380): a hit, or
a read-shared whose line is allocated unless it is poisoned (R347). -/
def State.clusterLine (s : State) (k line : Nat) : State :=
  if (s.cluster k).has line && !(s.cluster k).disabled.contains (cacheSlot line) && !s.clusterGated k then s.clusterHit k line
  else
    let s := if (s.cluster k).mustWait line then s.heldNow k line else s
    let s := s.shareNow line k
    if s.anyPoison (line * 128) 128 then s else s.clusterFill k line

end Sys2Proof.Machine
end

