-- ==== Sys2Proof/Machine/Walk.lean ====
section
/-! DEFINITION. Machine/Walk.lean: address translation (chapter 11): context entries, the Sv57 walk with the checks
of R376 to R380, the TLBs, and what an invalidation removes. -/

namespace Sys2Proof.Machine

/-- What an access does, as far as translation and the physical map ask (R370, R378). -/
inductive Acc where
  | load | gather | store | add | sigStore | sigAdd | watch | fetch
  deriving DecidableEq, Repr

/-- The access reads, and it writes (R378, check 5). -/
def Acc.reads : Acc → Bool
  | .load | .gather | .add | .sigAdd | .watch => true
  | _ => false

/-- See `Acc.reads`. -/
def Acc.writes : Acc → Bool
  | .store | .add | .sigStore | .sigAdd => true
  | _ => false

/-- TRANSLATION_FAULT or ACCESS_FAULT. -/
inductive XFault where
  | translation | access
  deriving DecidableEq, Repr

/-- The exception code of a fault (R196). -/
def XFault.code : XFault → Nat
  | .translation => 0x08
  | .access => 0x09

/-- The physical range accepts the access (R184, R232, R370, R371, R382). -/
def Target.accepts (t : Target) (a : Acc) : Bool :=
  match t with
  | .tiered | .window _ => true
  | .mmio | .hostDevice => match a with
    | .load | .store | .sigStore | .watch => true
    | _ => false
  | .host => match a with
    | .add | .sigAdd => false
    | _ => true
  | .remote _ => a != .fetch

/-- The ASID and root page of a context's translation entry in the table of die `d`, where it is good (R372, R373). -/
def State.ctxGood (s : State) (d ctx : Nat) : Option (Nat × Nat) :=
  let a := s.regN (rAtu d 0x0) + ctx * 16
  let w := s.sysNat a 8
  let v := s.sysNat (a + 8) 8
  if s.inTiered a 16 && !s.anyPoison a 16 && v = 2 ^ 31 && w / 2 ^ 60 = 10 then some (w / 2 ^ 44 % 2 ^ 16, w % 2 ^ 44)
  else none

/-- A context's translation entry is read (R372, R373): ASID and root page, or none where the operation ends in
ACCESS_FAULT; a poisoned entry also logs a record. -/
def State.ctxEntry (s : State) (d op ctx : Nat) : State × Option (Nat × Nat) :=
  let a := s.regN (rAtu d 0x0) + ctx * 16
  if !s.inTiered a 16 then (s, none)
  else
  let s := s.homeRead a 16
  if s.anyPoison a 16 then
    (s.logBy (.descriptor op ctx none) { errRec (s.fePath d) 0x04 2 with addr := a }, none)
  else (s, s.ctxGood d ctx)

/-- The virtual address is canonical under Sv57 (R376). -/
def canonical (va : Nat) : Bool := va / 2 ^ 56 % 256 = 0 || va / 2 ^ 56 % 256 = 255

/-- VPN[i] of an address (R376). -/
def vpnAt (va i : Nat) : Nat := va / 2 ^ (12 + 9 * i) % 512

/-- A leaf PTE at a level as a TLB entry, or none where R377 gives no such leaf. -/
def leafOf (asid va pte level : Nat) : Option Leaf :=
  let n := bitOf pte 63
  let ppn := pte / 2 ^ 10 % 2 ^ 44
  let pages := if level = 0 then (if n then 16 else 1) else if level = 1 then 512 else 2 ^ 18
  let ok := if level = 0 then !n || ppn % 16 = 8
    else if level = 1 then !n && ppn % 512 = 0
    else if level = 2 then !n && ppn % 2 ^ 18 = 0
    else false
  if ok then
    let vpn := va / 4096 % 2 ^ 52
    some { asid := asid, vpn := vpn - vpn % pages, pages := pages, ppn := ppn - ppn % pages
           r := bitOf pte 1, w := bitOf pte 2, x := bitOf pte 3, d := bitOf pte 7, g := bitOf pte 5 }
  else none

/-- A leaf serves an address and ASID (R383: a leaf with G = 1 matches every ASID). -/
def Leaf.covers (l : Leaf) (asid va : Nat) : Bool :=
  let vpn := va / 4096 % 2 ^ 52
  (l.asid == asid || l.g) && l.vpn ≤ vpn && vpn < l.vpn + l.pages

/-- A leaf gives the rights an access needs (R378, checks 5 and 6). -/
def Leaf.allows (l : Leaf) (a : Acc) : Bool :=
  (!a.reads || l.r) && (!a.writes || (l.w && l.d)) && (a != .fetch || l.x)

/-- The physical address a leaf gives. -/
def Leaf.pa (l : Leaf) (va : Nat) : Nat :=
  (l.ppn + (va / 4096 % 2 ^ 52 - l.vpn)) % 2 ^ 44 * 4096 + va % 4096

/-- The outcome of a walk: a leaf and the nodes on its path; or a fault, with the address of a poisoned PTE. -/
inductive WalkRes where
  | leaf (l : Leaf) (path : List Node)
  | fault (f : XFault) (poison : Option Nat)
  deriving DecidableEq, Repr

/-- The walk from the table at `ppn`, level `level`, `n` steps at most, on the walker of cluster `k` (R376 to R380): each PTE
is a plain read through its cluster cache. -/
def State.walkFrom (s : State) (k asid va : Nat) (a : Acc) : Nat → Nat → Nat → List Node → State × WalkRes
  | 0, _, _, _ => (s, .fault .translation none)
  | n + 1, level, ppn, path =>
    let addr := ppn * 4096 + vpnAt va level * 8
    if !s.inTiered addr 8 then (s, .fault .access none)
    else
      let s := s.clusterLine k (localPart addr / 128)
      if s.anyPoison addr 8 then (s, .fault .access (some addr))
      else
        let pte := s.clusterNat k addr 8
        let v := bitOf pte 0
        let r := bitOf pte 1
        let w := bitOf pte 2
        let x := bitOf pte 3
        if !v || (!r && w) || bitsOf pte 60 54 != 0 || bitsOf pte 62 61 == 3 then (s, .fault .translation none)
        else if !r && !w && !x then
          if bitOf pte 6 || bitOf pte 7 || bitOf pte 4 || bitOf pte 63 || level = 0 then (s, .fault .translation none)
          else
            let next := pte / 2 ^ 10 % 2 ^ 44
            State.walkFrom s k asid va a n (level - 1) next
              ({ asid := asid, level := level - 1, head := va % 2 ^ 57 / 2 ^ (12 + 9 * level), ppn := next
                 g := bitOf pte 5 } :: path)
        else match leafOf asid va pte level with
          | none => (s, .fault .translation none)
          | some l =>
            if !bitOf pte 4 || !(Leaf.allows { l with d := true } a) || !bitOf pte 6 || (a.writes && !bitOf pte 7) then
              (s, .fault .translation none)
            else match s.target (l.pa va) with
              | none => (s, .fault .access none)
              | some t => if t.accepts a then (s, .leaf l path) else (s, .fault .access none)

/-- The cached node nearest the leaf for an address, among those of a walk cache. -/
def nearestNode (cache : List Node) (asid va : Nat) : Option Node :=
  (upFrom 0 4).findSome? (fun lv => cache.find? (fun n =>
    n.asid == asid && n.level == lv && n.head == va % 2 ^ 57 / 2 ^ (12 + 9 * (lv + 1))))

/-- The cluster whose walker a front end uses (R384). -/
def State.feWalker (s : State) (d : Nat) : Option Nat := (upFrom (d * 4) 4).find? s.clusterPresent

/-- A walk on cluster `k`'s walker: it starts at the nearest cached node (R383). -/
def State.walk (s : State) (k asid root va : Nat) (a : Acc) : State × WalkRes :=
  if !canonical va then (s, .fault .translation none)
  else match nearestNode (s.xlat.walkCache.getD (fun _ => []) k) asid va with
    | some n => s.walkFrom k asid va a (n.level + 1) n.level n.ppn []
    | none => s.walkFrom k asid va a 5 4 root []

/-- Enter a leaf in an L1 TLB (128 + d is front end d's), at most 256 entries, the oldest leaving (assumption log 13). -/
def State.fillL1 (s : State) (u : Nat) (l : Leaf) : State :=
  let t := s.xlat.l1.getD (fun _ => []) u
  s.withXlat { s.xlat with l1 := s.xlat.l1.setD (fun _ => []) u ((l :: t.filter (· != l)).take 256) }

/-- Enter a leaf in a cluster's L2 TLB and the path's nodes in its walk cache. -/
def State.fillL2 (s : State) (k : Nat) (l : Leaf) (path : List Node) : State :=
  let t := s.xlat.l2.getD (fun _ => []) k
  let c := s.xlat.walkCache.getD (fun _ => []) k
  s.withXlat { s.xlat with
    l2 := s.xlat.l2.setD (fun _ => []) k ((l :: t.filter (· != l)).take 8192)
    walkCache := s.xlat.walkCache.setD (fun _ => []) k ((path ++ c.filter (fun n => !path.contains n)).take 64) }

/-- Record a fault in the die's ATU registers (R395). -/
def State.noteFault (s : State) (d ctx va : Nat) (f : XFault) : State :=
  (s.bump (rAtu d 0x28)).setReg (rAtu d 0x30)
    (BitVec.ofNat 64 ((if f = .access then 2 ^ 63 else 0) + ctx * 2 ^ 48 + va % 2 ^ 57 / 2 ^ 9))

/-- The outcome of a translation. -/
inductive XRes where
  | ok (pa : Nat) (t : Target)
  | miss
  | fault (f : XFault)
  deriving DecidableEq, Repr

/-- A leaf found in a TLB answers an access: it may still fail the physical map (R370). -/
def State.hit (s : State) (l : Leaf) (va : Nat) (a : Acc) : XRes :=
  match s.target (l.pa va) with
  | none => .fault .access
  | some t => if t.accepts a then .ok (l.pa va) t else .fault .access

/-- Look up unit `u` (core, or 128 + die) with the L2 TLB of cluster `k` (R383, R395). -/
def State.lookup (s : State) (u k d asid va : Nat) (a : Acc) : State × XRes :=
  if !bitOf (s.regN (rAtu d 0x8)) 31 then (s, .fault .access)
  else if !canonical va then (s, .fault .translation)
  else match (s.xlat.l1.getD (fun _ => []) u).find? (fun l => l.covers asid va && l.allows a) with
    | some l => (s, s.hit l va a)
    | none =>
      match (s.xlat.l2.getD (fun _ => []) k).find? (fun l => l.covers asid va && l.allows a) with
      | some l => (s.fillL1 u l, s.hit l va a)
      | none => (s, .miss)

/-- Run a walk for unit `u`: install what it found, or report the fault, with the record of a poisoned PTE (R380). -/
def State.runWalk (s : State) (u k d : Nat) (w : Cause) (asid root va : Nat) (a : Acc) : State × XRes :=
  let s := s.bump (rAtu d 0x24)
  match s.walk k asid root va a with
  | (s, .leaf l path) => (((s.fillL2 k l path).fillL1 u l), s.hit l va a)
  | (s, .fault f none) => (s, .fault f)
  | (s, .fault f (some p)) =>
    let who := if u < 128 then s.corePath u 0x7 0 else s.fePath d
    (s.logBy w { errRec who 0x04 2 with addr := p }, .fault f)

/-- Translate for unit `u`: a TLB hit, or a walk; misses to one page that wait together take one walk, for the later ones find
its leaf (R383). -/
def State.translate (s : State) (u k d : Nat) (w : Cause) (asid root va : Nat) (a : Acc) : State × XRes :=
  match s.lookup u k d asid va a with
  | (s, .miss) => s.runWalk u k d w asid root va a
  | r => r

/-- A front end's own translation, walk and all (R373, R384; assumption log 14: one step). -/
def State.feTranslate (s : State) (d op ctx asid root va : Nat) (a : Acc) : State × XRes :=
  match s.feWalker d with
  | none => (s, .fault .access)
  | some k =>
    match s.translate (128 + d) k d (.descriptor op ctx none) asid root va a with
    | (s, .fault f) => (s.noteFault d ctx va f, .fault f)
    | r => r

/-! ### Invalidation: R386 to R388 -/

/-- A leaf that an invalidation removes. -/
def Inval.hits (i : Inval) (l : Leaf) : Bool :=
  let first := i.start / 4096 % 2 ^ 52
  ((i.whole || (l.vpn < first + i.pages && first < l.vpn + l.pages)) && (i.allAsids || l.asid == i.asid))
    || (i.global && l.g)

/-- A cached node on the path of an address of the range, of whatever ASID, or a global one under GLOBAL (R387). -/
def Inval.hitsNode (i : Inval) (n : Node) : Bool :=
  let first := i.start / 4096 % 2 ^ 45
  let size := 2 ^ (9 * (n.level + 1))
  let lo := n.head * size
  i.whole || (lo < first + i.pages && first < lo + size) || (i.global && n.g)

/-- The ATU's L1 TLB lies in a gated domain: a core's, or its front end's (R385). -/
def State.atuGated (s : State) (u : Nat) : Bool :=
  s.power.gated.contains (if u < 128 then keyOf (u / 32) (u / 8 % 4) (u % 8) 0x6 else keyOf (u - 128) 0 0 0x9)

/-- The operation keeps addresses of its relocated handle: INLINE_WRITE, SIGNAL, WAIT (R448). -/
def Op.relocated (o : Op) : Bool := o.check.isNone && (o.opcode == 0x03 || o.opcode == 0x04 || o.opcode == 0x05)

/-- The accesses of an ATU's unit that used a removed leaf and have not finished (R388): a core's tags, its writes that the
slices hold, a WAITV's read; a front end's writes, and its operations that keep a physical address. -/
def State.invalDeps (s : State) (i : Inval) (u : Nat) : List (Nat × Dep) :=
  let cl := if u < 128 then some (u / 8) else s.feWalker (u - 128)
  let l2 := match cl with
    | some k => s.xlat.l2.getD (fun _ => []) k
    | none => []
  let gone := (s.xlat.l1.getD (fun _ => []) u ++ l2).filter i.hits
  let used (pa : Nat) : Bool := gone.any (fun l => l.ppn ≤ pa / 4096 && pa / 4096 < l.ppn + l.pages)
  let deps : List Dep :=
    if gone.isEmpty then []
    else if u < 128 then
      let k := s.core u
      (k.reads.filter (fun t => used t.pa)).map (fun t => Dep.read t.tag)
        ++ (k.writes.filter (fun t => used t.pa)).map (fun t => Dep.write t.tag)
        ++ ((s.cluster (u / 8)).held.filter (fun h => h.core == u && used h.pa)).map (fun h => Dep.write h.tag)
        ++ (match k.block with
            | .waitv _ _ _ _ (some r) => if used r.pa then [Dep.watch] else []
            | _ => [])
    else
      ((s.fe (u - 128)).writes.filter (fun w => used w.pa)).map (fun w => Dep.feWrite w.tag)
        ++ (s.work.ops.filter (fun o => o.die == u - 128 && o.relocated && (used o.pa || used o.pa2))).map (fun o => Dep.op o.uid)
  deps.map (fun x => (u, x))

/-- The ATUs that take part: cores and front ends that are present (R388). -/
def State.atus (s : State) : List Nat :=
  (upFrom 0 128).filter s.corePresent ++ ((upFrom 0 4).filter s.adPresent).map (· + 128)

/-- Start an invalidation: the entries go from every TLB and walk cache; each ATU that is not gated has still to
acknowledge (R385, R388). -/
def State.startInval (s : State) (i : Inval) : State :=
  let us := s.atus.filter (fun u => !s.atuGated u)
  let deps := us.flatMap (s.invalDeps i)
  let i := { i with id := s.xlat.nextInv, waits := us, deps := deps }
  s.withXlat { s.xlat with
    l1 := s.xlat.l1.mapVals (fun t => t.filter (fun l => !i.hits l)) |>.filter (fun _ t => !t.isEmpty)
    l2 := s.xlat.l2.mapVals (fun t => t.filter (fun l => !i.hits l)) |>.filter (fun _ t => !t.isEmpty)
    walkCache := s.xlat.walkCache.mapVals (fun t => t.filter (fun n => !i.hitsNode n))
      |>.filter (fun _ t => !t.isEmpty)
    invals := s.xlat.invals ++ [i]
    nextInv := s.xlat.nextInv + 1 }

/-- What an acknowledgement waits for has not finished (R388): a read's tag is in use, a write is not performed at SYSTEM, a
WAITV's read is out, an operation may still use its address. -/
def State.depOpen (s : State) (d : Nat × Dep) : Bool :=
  match d.2 with
  | .read tag => (s.rtag d.1 tag).isSome
  | .write tag =>
    (s.wtag d.1 tag).isSome || (s.cluster (d.1 / 8)).held.any (fun h => h.core == d.1 && h.tag == tag && !h.done)
  | .watch => (match (s.core d.1).block with
    | .waitv _ _ _ _ (some _) => true
    | _ => false)
  | .op uid => s.work.ops.any (fun o => o.uid == uid && (o.phase == .waiting || o.phase == .running || o.phase == .aborted
      || (s.fe o.die).writes.any (fun w => w.uid == some uid && w.role == .data)))
  | .feWrite tag => (s.fe (d.1 - 128)).writes.any (fun w => w.tag == tag)

end Sys2Proof.Machine
end

