-- ==== Sys2Proof/Machine/Launches.lean ====
section
/-! DEFINITION. Machine/Launches.lean: changes of unit state (R545, R552), the power-up of a core's domain (R130,
R152), and the placement of launches on cores and their staged slots (R144, R451, R545). -/

namespace Sys2Proof.Machine

/-! ### Unit states: R545 -/

/-- A unit takes a state: its line is kept and a UNIT_STATE record logged, with the SEQ of the command that changed it
(R552, class 0x0C). -/
def State.setUnit (s : State) (key new seq : Nat) (intent : Bool) : State :=
  let old := s.unitRec key
  if old = new then s
  else
    let s := s.withRas { s.ras with units := s.ras.units.put key (new, s.ruling.line) }
    s.log { errRec (BitVec.ofNat 64 (s.node * 2 ^ 57 + key)) 0x0C 0 with
            intent := intent, syndrome := old + 4 * new + seq * 256 }

/-! ### Power domains of a core: R130, R152 -/

/-- The key of the shared-logic domain of core `c` (unit 0x6 of its path, R529). -/
def coreDomain (c : Nat) : Nat := keyOf (c / 32) (c / 8 % 4) (c % 8) 0x6

/-- The key of the domain of engine `e` of core `c`. -/
def engineDomain (c e : Nat) : Nat := keyOf (c / 32) (c / 8 % 4) (c % 8) e

/-- The core's shared logic is gated. -/
def State.coreGated (s : State) (c : Nat) : Bool := s.power.gated.contains (coreDomain c)

/-! ### Voltages of the dies and trims of the cores: R512, R513, R516 -/

/-- VDD_AD of an operating point in mV (R512). -/
def pointVolt (p : Nat) : Nat :=
  [500, 500, 510, 520, 530, 540, 560, 580, 600, 620, 640, 660, 680, 700, 730, 760].getD p 760

/-- VDD_PD of a clock step in mV: 600 at step 0 and 900 at step 8; between them the spec states no value (R513; assumption log
150). -/
def stepVolt (step : Nat) : Nat :=
  if step = 0 then 600 else if 8 ≤ step then 900 else max 600 (min 900 (Config.stepVolt step))

/-- The TRIM a code acts as, in steps of 10 mV (R516). -/
def trimOf (code : Nat) : Int := max (-5) (min 5 (signed code 4))

/-- The TRIM code of a core in PWR_CORE_CFG (R516, R536). -/
def State.trimCode (s : State) (c : Nat) : Nat := bitsOf (s.regN (rPwr (0x400 + c / 4 * 4))) (8 * (c % 4) + 7) (8 * (c % 4) + 4)

/-- What the trim of a core asks of its die's supply, in mV: the die's point voltage and its trim (R516). -/
def State.trimVolt (s : State) (c : Nat) : Int := (pointVolt (s.diePwr (c / 32)).point : Int) + 10 * trimOf (s.trimCode c)

/-- The cores of a die whose domain is powered. -/
def State.poweredCores (s : State) (d : Nat) : List Nat := (upFrom (d * 32) 32).filter (fun c => s.corePresent c && !s.coreGated c)

/-- VDD_ADn in mV: the point's voltage plus the largest positive trim of a powered core, at most 760 (R512, R516). -/
def State.adVolt (s : State) (d : Nat) : Nat :=
  min 760 ((s.poweredCores d).foldl (fun v c => max v (s.trimVolt c).toNat) (pointVolt (s.diePwr d).point))

/-- The voltage of a core's own regulator in mV, which VDD_ADn supplies (R516). -/
def State.coreVolt (s : State) (c : Nat) : Nat := min (s.adVolt (c / 32)) (s.trimVolt c).toNat

/-- The voltage of a rail in mV: of a die's by its point or step, of the others as the table of rails has it, and none where the
trip holds the rail off (R52, R507, R512, R513). -/
def State.railVolt (s : State) (r : Nat) : Nat :=
  if s.power.tripped && r != 10 then 0
  else if r < 4 then s.adVolt r
  else if r < 8 then 750
  else if r < 10 then stepVolt (s.diePwr (4 + (r - 8))).point
  else if r = 10 then 750
  else if r < 15 then 1100
  else if r = 15 then 1050
  else 900

/-- A trim code out of range, or a trim of a powered core that would need more than 760 mV, sets TRIM_CLAMP (R516). -/
def State.trimCheck (s : State) : State :=
  let bad (c : Nat) : Bool := signed (s.trimCode c) 4 != trimOf (s.trimCode c)
    || (s.corePresent c && !s.coreGated c && decide (760 < s.trimVolt c))
  if (upFrom 0 128).any bad then s.setRegBit (rPwr 0x14) 28 true else s

/-- An access to the window of a gated core powers its domain up, and the scratchpad reads as zero (R130, R152); its trim
counts from then on (R516). -/
def State.wakeCore (s : State) (c : Nat) : State :=
  if s.coreGated c then
    ((s.scrClear c).withPower { s.power with gated := s.power.gated.filter (· != coreDomain c) }).trimCheck
  else s

/-- A launch placed on a core wakes its shared logic and its engines (R529). -/
def State.wakeForLaunch (s : State) (c : Nat) : State :=
  let s := s.wakeCore c
  s.withPower { s.power with gated := s.power.gated.filter (fun k => !((upFrom 0 4).map (engineDomain c)).contains k) }

/-! ### Launch placement: R144, R451 -/

/-- A launch belongs to an operation, and to a node of it when `node` is not 0. -/
def Launch.of (l : Launch) (uid node : Nat) : Bool := l.uid == uid && l.node == node

/-- The launches running and staged on a core (R451). -/
def State.coreLoad (s : State) (c : Nat) : Nat := b2n (s.core c).launch.isSome + (s.core c).staged.length

/-- The context holds every T0 slot of the range on a core's scratchpad (R276, R454). -/
def State.t0Holds (s : State) (c ctx off n : Nat) : Bool :=
  n = 0 || (off + n ≤ 0x400000 &&
    (upFrom (off / 0x10000) ((off + n - 1) / 0x10000 - off / 0x10000 + 1)).all
      (fun i => s.peel.t0.get? (c * 64 + i) == some ctx))

/-- Of a list of cores, the `n` with the least load, of equal load the lower index (R451). -/
def State.leastLoaded (s : State) : Nat → List Nat → List Nat
  | 0, _ => []
  | _, [] => []
  | n + 1, c :: cs =>
    let best := cs.foldl (fun a x => if s.coreLoad x < s.coreLoad a then x else a) c
    best :: State.leastLoaded s n ((c :: cs).filter (· != best))

/-- The inline data of a launch go into the scratchpad of a core it is placed on (R454). -/
def State.writeInline (s : State) (c : Nat) (g : Staged) : State :=
  if g.inl.isEmpty then s else (s.wakeCore c).scrWrite c g.inlOff g.inl

/-- A core with a free staged slot takes the oldest launch that waits for one (R451, R304), of those that a replay on it lets
through (R496), and its inline data (R454). -/
def State.fillSlots (s : State) (c : Nat) : State :=
  if 3 ≤ (s.core c).staged.length || s.coreState c != 0 then s
  else
    match s.work.ops.find? (fun o => !s.hangHolds c o.ctx && o.waitSlot.any (fun w => w.1 == c)) with
    | none => s
    | some o =>
      match o.waitSlot.find? (fun w => w.1 == c) with
      | none => s
      | some w =>
        ((s.writeInline c w.2).modCore c (fun k => { k with staged := k.staged ++ [w.2] })).modOp o.uid
          (fun o => { o with waitSlot := o.waitSlot.erase w })

/-- Give a launch to a core: a free staged slot, or the wait for one. -/
def State.stage (s : State) (c : Nat) (g : Staged) : State :=
  (s.modOp g.launch.uid (fun o => { o with waitSlot := o.waitSlot ++ [(c, g)] })).fillSlots c

/-- A launch returned by core `c` is placed on another core of its set that serves, runs no other part of it, and holds
its T0 range; without one it waits at `c` (R153, R545). -/
def State.placeAgain (s : State) (c : Nat) (g : Staged) : State :=
  let used := match s.op? g.launch.uid with
    | some o => (o.parts.filter (fun (p : Part) => p.node == g.launch.node)).map Part.core ++ if g.launch.node = 0 then o.cores
                else (o.nodeCores.filter (fun (e : Nat × Nat) => e.2 == g.launch.node)).map Prod.fst
    | none => []
  let free := (setBitsBelow 128 g.set.toNat).filter (fun x =>
    s.coreState x = 0 && (x == c || !used.contains x) && s.t0Holds x g.launch.ctx g.inlOff g.inl.length)
  match s.leastLoaded 1 free with
  | x :: _ =>
    let move (y : Nat) : Nat := if y = c then x else y
    (s.modOp g.launch.uid (fun o =>
      if g.launch.node = 0 then { o with cores := o.cores.map move, placed := o.placed.map move }
      else { o with nodeCores := o.nodeCores.map (fun (e : Nat × Nat) => if e.2 == g.launch.node then (move e.1, e.2) else e) })).stage
        x g
  | [] => s.modOp g.launch.uid (fun o => { o with waitSlot := o.waitSlot ++ [(c, g)] })

/-- Return a core's staged launches to their front ends to be placed again (R153, R545). -/
def State.returnStaged (s : State) (c : Nat) : State :=
  let gs := (s.core c).staged
  gs.foldl (fun s g => s.placeAgain c g) (s.modCore c (fun k => { k with staged := [] }))

/-- The dispatches in progress at the unit of a die (R309): those it has decided of which it has still a packet to write on its own
die, or a share to hand to another die, whose queue is full (R305; assumption log 155). -/
def State.dispatching (s : State) (d : Nat) : List Op :=
  s.work.ops.filter (fun o => o.opcode == 0x0A && o.die == d && o.decided && o.phase == .running
    && (o.parts.any (fun (p : Part) => p.core / 32 == d)
      || (upFrom 0 4).any (fun e => ((s.fe e).shares.drop 16).any (fun h => h.uid == o.uid))))

/-- A fault makes an accelerator core SUSPECT at once (R545, R546). -/
def State.suspectCore (s : State) (c seq : Nat) (intent : Bool) : State :=
  if s.coreState c = 0 then (s.setUnit (coreKey c) 1 seq intent).returnStaged c else s

end Sys2Proof.Machine
end

