-- ==== Sys2Proof/Machine/CoreOps.lean ====
section
/-! DEFINITION. Machine/CoreOps.lean: what every tile instruction shares: waiting at issue and issue (R120 to R122,
R163 to R165, R695), the unit queues (R121), the stream unit's requests (R133, R136, R208), the store buffer (R233),
taking an exception (R197 to R199), and the end of a launch on a core (R171). -/

namespace Sys2Proof.Machine

/-! ### The store buffer: R203, R204, R233, R348 -/

/-- A plain write to tiered memory: the cluster cache slice holds it (R204). -/
def WTag.plain (w : WTag) : Bool :=
  match w.op with
  | .store _ => w.target == .tiered && !w.vol
  | _ => false

/-- A write tag is performed at a scope (R203). -/
def WTag.doneAt (w : WTag) (scope : Nat) : Bool :=
  if w.plain then scope = 0 || w.stage != .sent else w.stage == .performed

/-- The home has performed what the slice holds of a write tag of core `c`. -/
def State.heldDone (s : State) (c tag : Nat) : Bool :=
  !(s.cluster (c / 8)).held.any (fun h => h.core == c && h.tag == tag && !h.done)

/-- A write tag of core `c` is acknowledged at the point of its instruction's scope, which frees it (R133, R203): a plain
write of scope SYSTEM when its home has performed it. -/
def State.tagDone (s : State) (c : Nat) (w : WTag) : Bool :=
  w.stage != .sent && w.doneAt w.scope && (w.scope ≤ 1 || s.heldDone c w.tag)

/-- The writes of core `c` older than instruction `seq` are performed at a scope (R211, R233). -/
def State.writesDone (s : State) (c seq scope : Nat) : Bool :=
  (s.core c).writes.all (fun w => seq ≤ w.job || w.doneAt scope)
    && (scope ≤ 1 || !(s.cluster (c / 8)).held.any (fun h => h.core == c && !h.done))

/-- Every write of core `c` is performed at SYSTEM: its store buffer is drained (R233). -/
def State.drained (s : State) (c : Nat) : Bool := s.writesDone c (s.core c).nextSeq 2

/-- The slice takes a plain write when it holds fewer than 64 (R348). -/
def State.acceptWrite (s : State) (c : Nat) (w : WTag) : State :=
  let x := s.cluster (c / 8)
  let slice := w.pa / 128 % 8
  match w.op with
  | .store bs =>
    if w.plain && w.stage == .sent && (x.held.filter (fun h => h.pa / 128 % 8 == slice)).length < 64 then
      let l := (s.core c).launch
      let h : Held := { wid := x.nextWid, core := c, tag := w.tag, ctx := (l.map Launch.ctx).getD 0
                        gen := (l.map Launch.gen).getD 0, seq := w.job, pa := w.pa, bytes := bs, done := false, inval := false }
      (s.setCluster (c / 8) { x with held := x.held ++ [h], nextWid := x.nextWid + 1 }).modCore c (fun k =>
        { k with writes := k.writes.map (fun v => if v.tag == w.tag then { v with stage := .held } else v) })
    else s
  | _ => s

/-- Offer the slices every plain write they have not taken, oldest first. -/
def State.acceptWrites (s : State) (c : Nat) : State := (s.core c).writes.foldl (fun s w => s.acceptWrite c w) s

/-! ### The plan of a stream instruction: R137, R159, R182 -/

/-- Cut `n` bytes from a virtual address into pieces that lie in one 128 B line each. -/
def cutLines : Nat → Nat → Nat → Nat → List Piece
  | 0, _, _, _ => []
  | fuel + 1, va, n, off =>
    if n = 0 then []
    else
      let m := min n (128 - va % 128)
      { va := va % 2 ^ 64, len := m, off := off } :: cutLines fuel (va + m) (n - m) (off + m)

/-- The pieces of one row. -/
def rowPieces (va n off : Nat) : List Piece := cutLines (n / 128 + 2) va n off

/-- The pieces of a TLD or TST (R182): rows of the tile, or of its scale array. -/
def tilePieces (t : Td) (sc : Bool) (base dist : Nat) : List Piece :=
  (upFrom 0 t.rows).flatMap (fun r =>
    if sc then rowPieces (base + r * dist) t.scaleBytes (t.sbase + r * t.sstride)
    else rowPieces (base + r * dist) t.rowBytes (t.base + r * t.stride))

/-- The index list of a GATH (R137, R189). -/
def State.gathIndex (s : State) (c : Nat) (ti : Td) : List Nat := s.tileElems c ti 0

/-- The block size of a GATH (R189). -/
def gathBlock (f : GathF) : Nat := 512 * 2 ^ f.bsz.toNat

/-- The pieces of a GATH, holes passed over (R137, R138). -/
def gathPieces (t : Td) (f : GathF) (pool : Nat) (idx : List Nat) : List Piece :=
  (idx.zip (upFrom 0 idx.length)).flatMap (fun p =>
    if p.1 = 2 ^ 32 - 1 then []
    else rowPieces (pool + p.1 * gathBlock f + (extOf f.ext).slice * 16 * b2n f.h.x) t.rowBytes
      (t.base + p.2 * t.stride))

/-- The scratchpad rows a job writes: base, stride, rows, row bytes. -/
def JobKind.dest : JobKind → List (Nat × Nat × Nat × Nat)
  | .readout _ d => let t := tdOf d; [(t.base, t.stride, t.rows, t.rowBytes)]
  | .vop _ _ d _ _ _ _ _ =>
    let t := tdOf d
    (t.base, t.stride, t.rows, t.rowBytes) :: (if t.scaled then [(t.sbase, t.sstride, t.rows, t.scaleBytes)] else [])
  | .tld f d _ _ =>
    let t := tdOf d
    if f.sc then [(t.sbase, t.sstride, t.rows, t.scaleBytes)] else [(t.base, t.stride, t.rows, t.rowBytes)]
  | .gath _ d _ _ _ => let t := tdOf d; [(t.base, t.stride, t.rows, t.rowBytes)]
  | _ => []

/-- The engine and accumulator tile a job computes into or reads. -/
def JobKind.accTile : JobKind → Option (Nat × Nat × Bool)
  | .tmma f _ _ _ => some (f.eng.toNat, f.acc.toNat, true)
  | .tmmap f _ _ _ => some (f.eng.toNat, f.acc.toNat, true)
  | .readout f _ => some (f.eng.toNat, f.atile.toNat, false)
  | _ => none

/-! ### Taking an exception: R197 to R199 -/

/-- What a write still to be performed becomes when its instruction's destination is undefined (R198): free bytes, written as
they would have been; `d` is a draw. An atomic still returns a value. -/
def WTag.spoil (w : WTag) (d : Nat) : WTag :=
  let free (n : Nat) : List Byte := (upFrom 0 n).map (fun i => Config.freeByte d (w.tag * 128 + i))
  match w.op with
  | .store bs => { w with op := .store (free bs.length) }
  | .atom _ f _ _ => { w with op := .atom .swap f (ofBytes (free (atomBytes f))) 0 }
  | .adds f es => { w with op := .store (free (es.length * atomBytes f)), vol := true }

/-- Bytes of memory become undefined. -/
def State.spoilBytes (s : State) (pa n : Nat) : State :=
  let r := s.draw
  r.1.withMem (r.1.mem.forget (localPart pa) n (some r.2))

/-- Writes that instructions younger than `seq` have already performed, in memory or in the scratchpad, and those the slices
hold for them, are undefined (R198). -/
def State.spoilDone (s : State) (c seq : Nat) : State :=
  let s := ((s.core c).wrote.filter (fun w => seq < w.seq)).foldl (fun (s : State) w => s.spoilBytes w.pa w.len) s
  let r := s.draw
  let x := r.1.cluster (c / 8)
  r.1.setCluster (c / 8) { x with held := x.held.map (fun h =>
    if h.core == c && seq < h.seq && !h.done then
      { h with bytes := (upFrom 0 h.bytes.length).map (fun i => Config.freeByte r.2 (h.wid * 128 + i)) } else h) }

/-- Writes of instructions younger than `seq` that are on their way, also of those that have left their unit, become
undefined (R198). -/
def State.spoilSent (s : State) (c seq : Nat) : State :=
  let r := s.draw
  r.1.modCore c (fun k => { k with
    writes := k.writes.map (fun w => if seq < w.job && w.stage == .sent then w.spoil r.2 else w) })

/-- The destinations of a begun instruction younger than a fault become undefined (R198). -/
def State.taint (s : State) (c : Nat) (j : Job) : State :=
  let s := j.kind.dest.foldl (fun s r => s.spillRows c r.1 r.2.1 r.2.2.1 r.2.2.2) s
  let (s, d) := s.draw
  let s := match j.kind.accTile with
    | some (e, a, true) => s.modCore c (fun k => k.accSpill e a d)
    | _ => s
  s.modCore c (fun k => { k with jobs := k.jobs.map (fun x => if x.seq == j.seq then { x with tainted := true } else x) })

/-- An exception detected at issue (R197): the instruction has no effect; older ones complete and the store buffer
drains before the core stops. -/
def State.issueFault (s : State) (c : Nat) (e : Exc) : State :=
  let s := s.modCore c (fun k => { k with exc := some e, block := .draining, waiting := false })
  if e.code = excUncorrectable then s.suspectCore c 0 false else s

/-- A built-in program starts no more accesses. -/
def JobKind.halt : JobKind → JobKind
  | .builtin g => .builtin { g with step := 0, moves := g.moves.filter (fun m => m.asked && m.src.isSome) }
  | k => k

/-- Instruction `seq` faults in execution (R198): it starts no further access, queued younger instructions are discarded, begun
ones go on, and what these write is undefined. -/
def State.overtake (s : State) (c seq : Nat) : State :=
  let k := s.core c
  let s := s.modCore c (fun k => { k with jobs := k.jobs.map (fun x =>
    if x.seq == seq then { x with todo := [], begun := true, planned := true, kind := x.kind.halt } else x) })
  let younger := k.jobs.filter (fun x => x.begun && seq < x.seq)
  let s := younger.foldl (fun s x => s.taint c x) ((s.spoilDone c seq).spoilSent c seq)
  s.modCore c (fun k => { k with jobs := k.jobs.filter (fun x => x.begun || x.seq < seq) })

/-- An exception detected during execution of the instruction with number `seq` at `pc` (R198): issue stops and the core drains.
An exception already detected stays the one reported (assumption log 128). -/
def State.faultAt (s : State) (c seq pc code va : Nat) : State :=
  let s := s.overtake c seq
  if (s.core c).exc.isSome then s
  else
    let s := s.modCore c (fun k => { k with
      exc := some { code := code, pc := pc, va := va, trap := 0 }
      block := .draining, waiting := false, walk := none })
    if code = excUncorrectable || code = excTwin then s.suspectCore c 0 false else s

/-- An exception detected during execution of job `j`. -/
def State.execFault (s : State) (c : Nat) (j : Job) (code va : Nat) : State := s.faultAt c j.seq j.pc code va

/-- Record of an uncorrectable scratchpad word met by core `c` (R199, class SRAM_UE). -/
def State.scratchRecord (s : State) (c off : Nat) (w : Cause) : State :=
  let bank := bitsOf off 11 7 ^^^ bitsOf off 16 12
  s.logBy w { errRec (s.corePath c 0x6 (bank * 2 ^ 27 + bitsOf off 21 12 * 2 ^ 17)) 0x01 2 with syndrome := off }

/-- The operation code of ATOM (R190). -/
def atomCode : AtomOp → Nat
  | .add => 0 | .min => 1 | .max => 2 | .swap => 3 | .cas => 4

/-- The class and the OP field of a queued instruction (R162, R552); a built-in program stores what it reads, as a TST
(assumption log 138). -/
def JobKind.code : JobKind → Nat × Nat
  | .tmma _ _ _ _ => (2, 0)
  | .tmmap _ _ _ _ => (3, 0)
  | .readout _ _ | .tst _ _ _ _ | .builtin _ => (6, 0)
  | .vop op _ _ _ _ _ _ _ => (4, op)
  | .tld _ _ _ _ => (5, 0)
  | .gath _ _ _ _ _ => (7, 0)
  | .atom op _ _ _ _ => (8, atomCode op)
  | .sig add _ _ _ => (0xA, b2n add)

/-- The cause that a queued instruction of core `c` is. -/
def State.jobCause (s : State) (c : Nat) (j : JobKind) : Cause := .tile j.code.1 j.code.2 (s.core c).launch

/-! ### Hazards and queues: R120 to R122, R75 -/

/-- A scalar register waits for its final value. -/
def Core.pendS (k : Core) (r : Nat) : Bool := r != 0 && k.jobs.any (fun j => j.rd == some r)

/-- A predicate waits for its final value. -/
def Core.pendP (k : Core) (p : Nat) : Bool := p != 0 && k.jobs.any (fun j => j.lp == some p)

/-- Hazards through descriptor numbers (R122). -/
def Core.hazard (k : Core) (reads writes : List Nat) : Bool :=
  k.jobs.any (fun j => reads.any j.writes.contains || writes.any (fun n => j.reads.contains n || j.writes.contains n))

/-- Depth of a unit's queue (R121). -/
def queueDepth (u : Nat) : Nat := if u < 4 then 4 else if u = 4 then 8 else 32

/-- The unit's queue has a free entry. -/
def Core.room (k : Core) (u : Nat) : Bool := (k.jobs.filter (fun j => j.unit == u && !j.begun)).length < queueDepth u

/-- A readout waits for TMMAs into its tile; a TMMA waits for readouts of its tile (R75). -/
def Core.accHold (k : Core) (e a : Nat) (isTmma : Bool) : Bool :=
  k.jobs.any (fun j => match j.kind.accTile with
    | some (e', a', b) => e' == e && a' == a && b != isTmma
    | none => false)

/-- An instruction completes: it leaves its unit, its predicate LP becomes final, and an acquire lets issue go on
(R188, R212). -/
def State.finishJob (s : State) (c : Nat) (j : Job) (late : Bool) : State :=
  let s := j.kind.dest.foldl (fun (s : State) d => (upFrom 0 d.2.2.1).foldl (fun (s : State) r =>
    s.noteWrote c j.seq (windowBase c + d.1 + r * d.2.1) d.2.2.2) s) s
  s.modCore c (fun k =>
    let k := match j.lp with
      | some p => k.setP p late
      | none => k
    { k with jobs := k.jobs.filter (fun x => x.seq != j.seq), still := 0
             wrote := k.wrote.filter (fun w => k.jobs.any (fun x => x.seq != j.seq && x.seq < w.seq))
             block := if k.block = .acquire j.seq then .none else k.block })

/-- Engines and the vector unit begin the head of their queues: an engine runs one TMMA and one readout at a time, the
vector unit one VOP (assumption log 15). -/
def Core.begins (k : Core) (j : Job) : Bool :=
  let same (x : Job) : Bool := x.unit == j.unit && x.seq < j.seq
  let readout := match j.kind with
    | .readout _ _ => true
    | _ => false
  let isReadout (x : Job) : Bool := match x.kind with
    | .readout _ _ => true
    | _ => false
  !j.begun && j.unit ≤ 4 && k.jobs.all (fun x => !same x || (x.begun && isReadout x != readout))

/-- Begin every instruction of the engines and the vector unit that can begin. -/
def State.beginUnits (s : State) (c : Nat) : State :=
  s.modCore c (fun k => { k with jobs := k.jobs.map (fun j => if k.begins j then { j with begun := true } else j) })

/-! ### The stream unit -/

/-- How translation sees a stream instruction (R184, R232, R378). -/
def JobKind.acc : JobKind → Acc
  | .tld _ _ _ _ => .load
  | .gath _ _ _ _ _ => .gather
  | .tst f _ _ _ => if f.add then .add else .store
  | .atom _ _ _ _ _ => .add
  | .sig add _ _ _ => if add then .sigAdd else .sigStore
  | _ => .load

/-- The instruction adds in floating point at its target (R150, R184). -/
def JobKind.floatAdd : JobKind → Bool
  | .atom _ f _ _ _ => 2 ≤ f.fmt.toNat
  | .tst f d _ _ => f.add && (tdOf d).fmt != 10
  | _ => false

/-- The format of a TST.ADD's elements (R184). -/
def addFmt (t : Td) : AtomFmt :=
  match t.fmt with
  | 7 => .b16
  | 8 => .h16
  | 9 => .f32
  | _ => .i32

/-- The format of an ATOM (R190). -/
def atomFmt (f : AtomF) : AtomFmt :=
  match f.fmt.toNat with
  | 0 => .i32
  | 1 => .i64
  | 2 => .f32
  | 3 => .b16
  | _ => .h16

/-- The bytes of one piece as elements of `n` bytes. -/
def pieceElems (n : Nat) (bs : List Byte) : List Nat := (upFrom 0 (bs.length / n)).map (fun i => leAt bs (i * n) n)

/-- The naturally aligned piece of at most 8 B that starts a device access (R231). -/
def deviceCut (va n : Nat) : Nat :=
  if va % 8 = 0 && 8 ≤ n then 8 else if va % 4 = 0 && 4 ≤ n then 4 else if va % 2 = 0 && 2 ≤ n then 2 else 1

/-- A target whose accesses are device accesses (R231). -/
def Target.device : Target → Bool
  | .mmio | .hostDevice => true
  | _ => false

/-- Read tags and write tags in use (R133). A read the home answered early with LATE has freed its tag (R267). -/
def Core.readsUsed (k : Core) : Nat := (k.reads.filter (fun t => !t.early)).length

/-- A device access is outstanding (R232). -/
def Core.deviceOut (k : Core) : Bool :=
  k.reads.any (fun t => t.target.device && !t.early) || k.writes.any (fun w => w.target.device)

/-- The scope code a request is tracked at: stream instructions without a scope act at their own point. -/
def Job.tagScope (j : Job) : Nat := j.scope

/-- An offset lies in rows of `n` bytes at a distance. -/
def rowsCover (base dist rows n x : Nat) : Bool :=
  (upFrom 0 rows).any (fun r => base + r * dist ≤ x && x < base + r * dist + n)

/-- Base, distance and length of the scratchpad rows a TLD or TST moves (R182). -/
def tileRows (t : Td) (sc : Bool) : Nat × Nat × Nat :=
  if sc then (t.sbase, t.sstride, t.scaleBytes) else (t.base, t.stride, t.rowBytes)

/-- The bytes of a copy within the scratchpad that reach offset `o` on: those whose place the copy also reads are
undefined (R135); `k` is a free draw. -/
def selfBytes (hit : Nat → Bool) (k o : Nat) (bs : List Byte) : List Byte :=
  (bs.zip (upFrom o bs.length)).map (fun p => if hit p.2 then Config.freeByte k p.2 else p.1)

/-- What a piece of a stream instruction writes at `pa`: bytes, or an operation (R135, R182, R184, R190, R191). -/
def State.pieceOp (s : State) (c : Nat) (j : Job) (p : Piece) (pa : Nat) (dest : Target) : WOp :=
  match j.kind with
  | .tst f d _ _ =>
    let bs := if j.tainted then (upFrom 0 p.len).map (fun i => Config.freeByte s.fresh i) else s.scrRead c p.off p.len
    let r := tileRows (tdOf d) f.sc
    let bs := if dest == .window c then
        selfBytes (rowsCover r.1 r.2.1 (tdOf d).rows r.2.2) s.fresh (localPart pa - windowBase c) bs
      else bs
    if f.add && !j.tainted then .adds (addFmt (tdOf d)) (pieceElems (atomBytes (addFmt (tdOf d))) bs) else .store bs
  | .atom op f _ v cmp =>
    if j.tainted then .atom .swap (atomFmt f) (Config.freeWord s.fresh).toNat 0 else .atom op (atomFmt f) v cmp
  | .sig add f _ v =>
    let v := if j.tainted then (Config.freeWord s.fresh).toNat else v
    if add then .atom (if j.tainted then .swap else .add) (if f.w then .i64 else .i32) v 0 else .store (toBytes p.len v)
  | _ => .store []

/-- The stream instruction reads its target into the scratchpad. -/
def JobKind.isRead : JobKind → Bool
  | .tld _ _ _ _ | .gath _ _ _ _ _ => true
  | _ => false

/-- The stream instruction takes its data from the scratchpad. -/
def JobKind.isStore : JobKind → Bool
  | .tst _ _ _ _ => true
  | _ => false

/-- The instruction's requests go to the home: the volatile mark, ATOM and SIG (R203, R206). -/
def JobKind.vol : JobKind → Bool
  | .tld f _ _ _ => f.mark == 3
  | .tst f _ _ _ => f.mark == 3
  | .gath f _ _ _ _ => f.mark == 3
  | .builtin _ => false
  | _ => true

/-- Replace a job of core `c`. -/
def State.setJob (s : State) (c : Nat) (j : Job) : State :=
  s.modCore c (fun k => { k with jobs := k.jobs.map (fun x => if x.seq == j.seq then j else x) })

/-- A request has to wait before it leaves: a device access for every older write of the core (R232); one to the host or
another node, when it is a read, for the core's older writes to the line (R206, R208), and when it is volatile, for its older
volatile ones (R209). What happens at the other side the module does not order. -/
def State.leaveLater (s : State) (c : Nat) (read vol : Bool) (pa : Nat) (t : Target) : Bool :=
  let k := s.core c
  (t.device && !(k.writes.isEmpty && s.drained c))
    || (match t with
        | .host | .hostDevice | .remote _ =>
          (read && k.writes.any (fun w => w.target == t && w.pa / 128 == pa / 128 && w.stage == .sent))
            || (vol && s.volOpen c k.nextTag)
        | _ => false)

/-- A read leaves the stream unit; none when every read tag is in use (R133). -/
def State.openRead (s : State) (c : Nat) (j : Job) (pa len off : Nat) (t : Target) : Option State :=
  let k := s.core c
  if 2048 ≤ k.readsUsed then none
  else
    let tag : RTag := { tag := k.nextTag, job := j.seq, pa := pa, len := len, off := off, target := t, served := none
                        missed := false, sent := s.strokeNow, dead := false, early := false }
    some (((s.setJob c j).modCore c (fun k =>
      { k with reads := k.reads ++ [tag], nextTag := k.nextTag + 1, still := 0 })).sendOut t pa [0] [])

/-- A write leaves the stream unit; none when every write tag is in use (R133). -/
def State.openWrite (s : State) (c : Nat) (j : Job) (pa : Nat) (op : WOp) (t : Target) : Option State :=
  let k := s.core c
  if 512 ≤ k.writes.length then none
  else
    let tag : WTag := { tag := k.nextTag, job := j.seq, pa := pa, op := op, target := t
                        scope := j.tagScope, vol := j.kind.vol || j.tainted, ordered := j.kind.vol && j.kind.isStore, stage := .sent
                        sent := s.strokeNow, old := none, pc := j.pc, code := j.kind.code }
    some (((s.setJob c j).modCore c (fun k =>
      { k with writes := k.writes ++ [tag], nextTag := k.nextTag + 1, still := 0 })).sendOut t pa op.info op.bytes)

/-- Send one request of a stream instruction whose address has been translated: it takes a tag (R133). `rest` is what
is left of the plan. None when a tag, or the quiet a device access needs (R232), is missing. -/
def State.sendPiece (s : State) (c : Nat) (j : Job) (p : Piece) (rest : List Piece) (pa : Nat) (t : Target) :
    Option State :=
  let k := s.core c
  let m := if t.device then deviceCut p.va p.len else p.len
  let rest := if m < p.len then { va := p.va + m, len := p.len - m, off := p.off + m } :: rest else rest
  let p := { p with len := m }
  if s.leaveLater c j.kind.isRead (j.kind.vol && (j.kind.isRead || j.kind.isStore)) pa t then none
  else if j.kind.isRead then s.openRead c { j with todo := rest } pa m p.off t
  else if 512 ≤ k.writes.length then none
  else
    let bad := if j.kind.isStore then s.rowsBad c p.off 0 1 m else none
    match bad with
    | some off => some ((s.scratchRecord c off (s.jobCause c j.kind)).execFault c j excUncorrectable 0)
    | none =>
      (if j.tainted || t == .window c then s.draw.1 else s).openWrite c { j with todo := rest } pa (s.pieceOp c j p pa t) t

/-! ### The built-in programs: R455 -/

/-- Two ranges share a byte. -/
def rangesMeet (a b n : Nat) : Bool := a < b + n && b < a + n

/-- A register as the program began, s1 being number 1. -/
def Prog.arg (g : Prog) (n : Nat) : Nat := g.args.getD (n - 1) 0

/-- Pieces of 4 KiB in one row of COPY_2D. -/
def Prog.perRow (g : Prog) : Nat := ceilDiv (g.arg 3) 4096

/-- Pieces of 4 KiB of the whole program. -/
def Prog.total (g : Prog) : Nat :=
  match g.idx with
  | 1 => ceilDiv (g.arg 3) 4096
  | 2 => ceilDiv (g.arg 2) 4096
  | _ => g.arg 4 * g.perRow

/-- Source and destination overlap, which leaves the destination undefined. -/
def Prog.overlaps (g : Prog) : Bool :=
  match g.idx with
  | 1 => rangesMeet (g.arg 1) (g.arg 2) (g.arg 3)
  | 2 => false
  | _ =>
    let span (d : Nat) : Nat := (g.arg 4 - 1) * d + g.arg 3
    g.arg 4 != 0 && g.arg 3 != 0 && decide (g.arg 1 < g.arg 2 + span (g.arg 6)) && decide (g.arg 2 < g.arg 1 + span (g.arg 5))
      && (upFrom 0 (g.arg 4)).any (fun i => (upFrom 0 (g.arg 4)).any (fun j =>
        rangesMeet (g.arg 1 + i * g.arg 5) (g.arg 2 + j * g.arg 6) (g.arg 3)))

/-- Cut a copy into requests: neither its source nor its destination leaves its line. -/
def cutMoves : Nat → Option Nat → Nat → Nat → (Nat → Nat → List Byte) → List Move1
  | 0, _, _, _, _ => []
  | fuel + 1, src, dst, n, fill =>
    if n = 0 then []
    else
      let m := min n (min (128 - dst % 128) (128 - (src.getD 0) % 128))
      { src := src.map (· % 2 ^ 64), dst := dst % 2 ^ 64, len := m, bytes := fill dst m, asked := false } ::
        cutMoves fuel (src.map (· + m)) (dst + m) (n - m) fill

/-- The requests of piece `i`. -/
def Prog.piece (g : Prog) (i : Nat) : List Move1 :=
  let none' : Nat → Nat → List Byte := fun _ _ => []
  match g.idx with
  | 1 => cutMoves 70 (some (g.arg 1 + i * 4096)) (g.arg 2 + i * 4096) (min 4096 (g.arg 3 - i * 4096)) none'
  | 2 => cutMoves 70 none (g.arg 1 + i * 4096) (min 4096 (g.arg 2 - i * 4096)) (fun a n =>
      (upFrom 0 n).map (fun x => byteAt (toBytes 8 (g.arg 3)) ((a - g.arg 1 + x) % 8)))
  | _ =>
    let r := i / g.perRow
    let o := i % g.perRow * 4096
    cutMoves 70 (some (g.arg 1 + r * g.arg 5 + o)) (g.arg 2 + r * g.arg 6 + o) (min 4096 (g.arg 3 - o)) none'

/-- The program has accesses left to make. -/
def Prog.left (g : Prog) : Bool := !g.moves.isEmpty || (g.step != 0 && g.next < g.total)

/-- A built-in program that has accesses left. -/
def JobKind.goesOn : JobKind → Bool
  | .builtin g => g.left
  | _ => false

/-- Replace one request of the program by others. -/
def Prog.put (g : Prog) (dst : Nat) (ms : List Move1) : Prog :=
  { g with moves := g.moves.flatMap (fun m => if m.dst == dst then ms else [m]) }

/-- What a built-in program does next at an address: a load when it is the source of bytes still to come. -/
def Prog.accAt (g : Prog) (va : Nat) : Acc := if g.moves.any (fun m => m.src == some va && !m.asked) then .load else .store

/-- How translation sees what a stream instruction or a built-in program does next at an address. -/
def JobKind.accAt (k : JobKind) (va : Nat) : Acc :=
  match k with
  | .builtin g => g.accAt va
  | k => k.acc

/-- The program sends one request, whose address `va` has been translated; a device access takes at most 8 B of it (R231). -/
def State.sendMove (s : State) (c : Nat) (j : Job) (g : Prog) (m : Move1) (va pa : Nat) (t : Target) : Option State :=
  let n := if t.device then deviceCut va m.len else m.len
  let rest : List Move1 := if n < m.len then
      [{ m with src := m.src.map (· + n), dst := m.dst + n, len := m.len - n, bytes := m.bytes.drop n }]
    else []
  let job (ms : List Move1) : Job := { j with kind := .builtin (g.put m.dst ms) }
  if s.leaveLater c m.src.isSome false pa t then none
  else if m.src.isSome then s.openRead c (job ({ m with len := n, asked := true } :: rest)) pa n m.dst t
  else if g.overlaps then
    s.draw.1.openWrite c (job rest) pa (.store ((upFrom 0 n).map (Config.freeByte s.fresh))) t
  else s.openWrite c (job rest) pa (.store (m.bytes.take n)) t

/-- An access of an instruction to `va`: it asks for a walk when its address has no translation yet, faults where it must (R380), or
goes on with the physical address and the target. -/
def State.translated (s : State) (c : Nat) (l : Launch) (j : Job) (va : Nat) (a : Acc)
    (send : State → Nat → Target → Option State) : Option State :=
  match s.lookup c (c / 8) (c / 32) l.asid va a with
  | (s, .miss) => some (s.modCore c (fun k => { k with walk := some va }))
  | (s, .fault f) => some ((s.noteFault (c / 32) l.ctx va f).execFault c j f.code va)
  | (s, .ok pa t) => send s pa t

/-- Try one request of the program. -/
def State.tryMove (s : State) (c : Nat) (l : Launch) (j : Job) (g : Prog) (m : Move1) : Option State :=
  let va := m.src.getD m.dst
  s.translated c l j va (if m.src.isSome then .load else .store) (fun s pa t => s.sendMove c j g m va pa t)

/-- One action of a built-in program: a write whose bytes are there, else a read, else the core's next piece of 4 KiB. -/
def State.pumpProg (s : State) (c : Nat) (l : Launch) (j : Job) (g : Prog) : Option State :=
  let write := (g.moves.find? (fun m => m.src.isNone)).bind (s.tryMove c l j g)
  let read := (g.moves.find? (fun m => m.src.isSome && !m.asked)).bind (s.tryMove c l j g)
  let piece := if g.moves.isEmpty && g.left then
      some (s.setJob c { j with kind := .builtin { g with moves := g.piece g.next, next := g.next + g.step } })
    else none
  write.or (read.or piece)

/-- Bytes arrive for a built-in program. Bad ones raise UNCORRECTABLE where they are read again to be stored (R318), with
the record of a scratchpad word whose place the spec does not give (R199; assumption log 138). -/
def State.landMove (s : State) (c : Nat) (j : Job) (g : Prog) (dst : Nat) (bs : List Byte) (bad : Bool) : State :=
  if bad then
    let r := s.draw
    let j := { j with kind := .builtin (g.put dst []) }
    ((r.1.scratchRecord c ((Config.freeWord r.2).toNat % 2 ^ 19 * 8) (s.jobCause c j.kind)).setJob c j).execFault c j excUncorrectable 0
  else
    let ms := (g.moves.filter (fun m => m.dst == dst)).map (fun m => { m with src := none, bytes := bs })
    s.setJob c { j with kind := .builtin (g.put dst (if g.step = 0 then [] else ms)) }

/-- The head of the stream unit's queue: the oldest instruction with requests still to issue (R121, R208). -/
def Core.streamHead (k : Core) : Option Job :=
  k.jobs.find? (fun j => j.unit == 5 && !(j.begun && j.planned && j.todo.isEmpty && !j.kind.goesOn))

/-- Begin the head of the stream queue: a release waits for older work and older writes (R211); a GATH checks its
index list (R139) and writes zeros for its holes (R138). -/
def State.beginStream (s : State) (c : Nat) (j : Job) : Option State :=
  let k := s.core c
  let ready := !j.release || (k.jobs.all (fun x => j.seq ≤ x.seq) && s.writesDone c j.seq j.scope)
  if !ready then none
  else
    let go (todo : List Piece) : Job := { j with begun := true, planned := true, todo := todo }
    match j.kind with
    | .tld f d base dist => some (s.setJob c (go (tilePieces (tdOf d) f.sc base dist)))
    | .tst f d base dist => some (s.setJob c (go (tilePieces (tdOf d) f.sc base dist)))
    | .atom _ f addr _ _ => some (s.setJob c (go [{ va := addr, len := atomBytes (atomFmt f), off := 0 }]))
    | .sig _ f addr _ => some (s.setJob c (go [{ va := addr, len := if f.w then 8 else 4, off := 0 }]))
    | .gath f d i pool limit =>
      let t := tdOf d
      let ti := tdOf i
      let s1 := s.setJob c (go [])
      match s.rowsBad c ti.base 0 1 ti.rowBytes with
      | some off => some ((s1.scratchRecord c off (s.jobCause c j.kind)).execFault c (go []) excUncorrectable 0)
      | none =>
        let idx := s.gathIndex c ti
        if idx.any (fun x => x != 2 ^ 32 - 1 && limit ≤ x) then some (s1.execFault c (go []) excIndex 0)
        else
          let s2 := (idx.zip (upFrom 0 idx.length)).foldl (fun s p =>
            if p.1 = 2 ^ 32 - 1 then
              s.scrWrite c (t.base + p.2 * t.stride) ((upFrom 0 t.rowBytes).map (fun _ => 0))
            else s) s
          some (s2.setJob c (go (gathPieces t f pool idx)))
    | _ => none

/-- The address lies in the window range of its node (R147). -/
def inWindows (pa : Nat) : Bool := 0x060000000000 ≤ localPart pa && localPart pa < 0x060020000000

/-- The target of an address is a scratchpad window, of this node or another. -/
def Target.atWindow (t : Target) (pa : Nat) : Bool :=
  match t with
  | .window _ => true
  | .remote _ => inWindows pa
  | _ => false

/-- The next request of a stream instruction that has begun; a floating-point add has no meaning at a window (R150, R184). -/
def State.pumpPiece (s : State) (c : Nat) (l : Launch) (j : Job) : Option State :=
  match j.todo with
  | [] => none
  | p :: rest => s.translated c l j p.va j.kind.acc fun s pa t =>
      if j.kind.floatAdd && t.atWindow pa then some (s.execFault c j excFormat 0) else s.sendPiece c j p rest pa t

/-- What the stream unit does for the head of its queue. -/
def State.pumpHead (s : State) (c : Nat) (l : Launch) (j : Job) : Option State :=
  if !j.begun then s.beginStream c j
  else match j.kind with
    | .builtin g => s.pumpProg c l j g
    | _ => s.pumpPiece c l j

/-- One action of core `c`'s stream unit; none when it can do nothing more. -/
def State.pumpOne (s : State) (c : Nat) : Option State :=
  let k := s.core c
  if k.walk.isSome || k.deviceOut then none
  else k.launch.bind fun l => k.streamHead.bind (s.pumpHead c l)

/-- Let the stream unit act until it can do nothing more. -/
def State.pump (s : State) (c : Nat) : Nat → State
  | 0 => s
  | n + 1 =>
    match s.pumpOne c with
    | none => s
    | some s => State.pump s c n

/-- A begun stream instruction has ended: its requests are out, and what it waits for has come (R133, R190). -/
def Core.streamDone (k : Core) (j : Job) : Bool :=
  j.unit == 5 && j.begun && j.planned && j.todo.isEmpty &&
    (match j.kind with
     | .tld _ _ _ _ | .gath _ _ _ _ _ => !k.reads.any (fun t => t.job == j.seq)
     | .atom _ _ _ _ _ => !k.writes.any (fun w => w.job == j.seq)
     | .builtin g => !g.left && !k.reads.any (fun t => t.job == j.seq)
     | _ => true)

/-- The instruction has been answered in part with LATE, and every other request has its data (R267). -/
def Core.streamEarly (k : Core) (j : Job) : Bool :=
  j.unit == 5 && j.begun && j.planned && j.todo.isEmpty && j.kind.isRead
    && k.reads.any (fun t => t.job == j.seq && t.early)
    && k.reads.all (fun t => t.job != j.seq || t.early)

/-- A TLD or GATH completes with LATE (R187): STATUS, LP, and a LATE nomination for each block of module DRAM with a
request not answered (R264). Tags of data still to come stay in use; the data is dropped when it arrives. -/
def State.lateJob (s : State) (c : Nat) (j : Job) : State :=
  let k := s.core c
  let ctx := (k.launch.map Launch.ctx).getD 0
  let mine := k.reads.filter (fun t => t.job == j.seq && !t.dead)
  let s := mine.foldl (fun s t =>
    let b := blockOf t.pa
    if t.target == .tiered && (s.remap b).state = 1 then s.nominate b 1 ctx else s) s
  let s := s.modCore c (fun k => { k.noteLate with
    walk := if k.streamHead.map Job.seq = some j.seq then none else k.walk
    reads := (k.reads.map (fun t => if t.job == j.seq then { t with dead := true } else t)).filter (fun t =>
      !(t.job == j.seq && t.early)) })
  s.finishJob c j true

/-- Complete every stream instruction that has ended. -/
def State.endStreams (s : State) (c : Nat) : State :=
  (s.core c).jobs.foldl (fun s j =>
    if (s.core c).streamDone j then s.finishJob c j false
    else if (s.core c).streamEarly j then s.lateJob c j
    else s) s

/-! ### The end of a launch on a core: R171, R199, R472, R478 -/

/-- The core holds a running launch no more; its registers and scratchpad stay. -/
def Core.idle (k : Core) : Core :=
  { k with launch := none, jobs := [], block := .none, walk := none, waiting := false, exc := none
           syncTimeout := false, still := 0, wrote := []
           reads := k.reads.map (fun t => { t with past := true }) }

/-- Stop a core whose launch another core's exception, a timeout or a reset ends (R198, R199, R490). -/
def Core.stop (k : Core) : Core :=
  match k.block with
  | .draining | .stopped => k
  | _ => { k with jobs := (k.jobs.filter (fun j => j.begun)).map (fun j => { j with kind := j.kind.halt }), block := .draining, waiting := false, walk := none }

/-- End a launch on all its cores: running ones drain and stop, staged ones and waiting ones go (R199). -/
def State.stopLaunch (s : State) (uid node : Nat) : State :=
  let gone := (s.cores.filter (fun _ k => k.staged.any (fun g => g.launch.of uid node))).map Prod.fst
  let s := s.withCores (s.cores.mapVals (fun k =>
    let k := { k with staged := k.staged.filter (fun g => !g.launch.of uid node) }
    match k.launch with
    | some l => if l.of uid node then k.stop else k
    | none => k))
  let s := s.withWork { s.work with fes := s.work.fes.mapVals (fun f =>
    { f with shares := f.shares.filter (fun h => !(h.uid == uid && h.node == node)) }) }
  s.modOp uid (fun o =>
    let wait := (o.waitSlot.filter (fun w => w.2.launch.node == node)).map Prod.fst
    let out := gone ++ wait
    { o with waitSlot := o.waitSlot.filter (fun w => w.2.launch.node != node)
             cores := o.cores.filter (fun c => !out.contains c)
             parts := o.parts.filter (fun (p : Part) => p.node != node)
             nodeCores := o.nodeCores.filter (fun e => !(e.2 == node && out.contains e.1)) })

/-- All 64 bits of a recipe's node set that have ended, or that never will start: the operation's work is over. -/
def Op.recipeOver (o : Op) (nodes : Nat) : Bool :=
  o.nodeCores.isEmpty && o.parts.isEmpty && (o.excOrTimeout.isSome || o.stopping
    || (upFrom 0 nodes).all (fun n => o.nodesDone.contains n))

/-- An operation whose work has ended on every core it used waits only for its completion (R478). -/
def State.opCheck (s : State) (uid : Nat) : State :=
  match s.op? uid with
  | none => s
  | some o =>
    let nodes := match o.recipe with
      | some (slot, v) =>
        (((s.fe o.die).recipes.get? slot).bind (fun r => r.live.find? (fun x => x.num == v))).map
          (fun x => leAt x.body 0 2)
      | none => none
    let allEnded := match nodes with
      | some n => o.recipeOver n
      | none => o.cores.isEmpty && o.waitSlot.isEmpty && o.parts.isEmpty
    if o.phase == .running && allEnded then s.modOp uid (fun o => { o with phase := .ended }) else s

/-- The core's part of its launch has ended: it reports to the front end (R171, R199, R237). -/
def State.partEnd (s : State) (c : Nat) : State :=
  let k := s.core c
  match k.launch with
  | none => s
  | some l =>
    let s := s.setCore c k.idle
    let s := s.modOp l.uid (fun o =>
      let left := o.nodeCores.filter (fun e => !(e.1 == c && e.2 == l.node))
      { o with cores := o.cores.filter (· != c)
               nodeCores := left
               nodesDone := if l.node != 0 && !left.any (fun e => e.2 == l.node) && !o.parts.any (fun (p : Part) => p.node == l.node) then (l.node - 1) :: o.nodesDone
                            else o.nodesDone
               devTimeout := o.devTimeout || k.devTimeout
               exc := if o.exc.isNone then k.exc else o.exc
               excOrTimeout := match o.excOrTimeout, k.exc with
                 | none, some e => some (0x100 + e.code)
                 | x, _ => x })
    let s := if k.exc.isSome then s.stopLaunch l.uid l.node else s
    s.opCheck l.uid

/-! ### Blocks: SYNC, END, draining -/

/-- The core has reached barrier `bid` and its release of scope CLUSTER is done (R193, R216). -/
def State.atBarrier (s : State) (c bid : Nat) (l : Launch) : Bool :=
  let k := s.core c
  match k.block, k.launch with
  | .bar b _ _, some l' => b == bid && l'.of l.uid l.node && k.jobs.isEmpty && s.writesDone c k.nextSeq 1
  | _, _ => false

/-- A SYNC completes: SP says whether a write it waited on was discarded, which also sets STATUS bit 0 (R195, R234). -/
def Core.endSync (k : Core) (sp : Nat) : Core :=
  { (k.setP sp k.syncTimeout) with
    block := .none, devTimeout := k.devTimeout || k.syncTimeout, syncTimeout := false, still := 0 }

/-- The barrier of core `c` completes for all that have reached it when they are as many as RN (R193). R194 forbids cores that
name different RN and says nothing of an RN of 0: the count of the core that is looked at decides, and 0 is reached at once
(assumption log 152). -/
def State.barCheck (s : State) (c : Nat) : State :=
  let k := s.core c
  match k.block, k.launch with
  | .bar bid rn _, some l =>
    let here := (upFrom (c / 8 * 8) 8).filter (fun d => s.atBarrier d bid l)
    if here.contains c && rn ≤ here.length then
      here.foldl (fun s d => s.modCore d (fun k => match k.block with
        | .bar _ _ sp => k.endSync sp
        | _ => k)) s
    else s
  | _, _ => s

/-- What holds issue ends when its condition holds: FENCE, BAR, END, and the drain before a stop. -/
def State.unblock (s : State) (c : Nat) : State :=
  let k := s.core c
  match k.block with
  | .fence scope sp => if k.jobs.isEmpty && s.writesDone c k.nextSeq scope then s.setCore c (k.endSync sp) else s
  | .bar _ _ _ => s.barCheck c
  | .ending | .draining =>
    if k.jobs.isEmpty && s.drained c then
      (s.modCore c (fun k => { k with devTimeout := k.devTimeout || k.syncTimeout })).partEnd c
    else s
  | _ => s

/-- After an event on core `c`: slices take waiting writes, units begin, requests go out, instructions that have ended
complete, and what held issue may end. Each round lets the next act. -/
def State.settle (s : State) (c : Nat) : Nat → State
  | 0 => s.unblock c
  | n + 1 => State.settle ((((s.acceptWrites c).beginUnits c).pump c 4096).endStreams c) c n

/-- Cores that are draining and have nothing left to drain stop. -/
def State.sweep (s : State) : State :=
  ((s.cores.filter (fun _ k => k.block == .draining)).map Prod.fst).foldl State.unblock s

/-- What follows an event on core `c`, on it and on the cores its end stops. -/
def State.after (s : State) (c : Nat) : State := (s.settle c 8).sweep

/-! ### Issue -/

/-- What an instruction needs at issue. -/
structure Ins where
  h : Hdr
  /-- ILLEGAL_INSTRUCTION by its encoding (R163, R181, R186), beside that of a reserved word. -/
  illegal : Bool
  /-- Scalar registers and predicates it reads. -/
  srcS : List Nat := []
  srcP : List Nat := []
  /-- Descriptors it reads and writes. -/
  reads : List Nat := []
  writes : List Nat := []
  /-- The unit whose queue it enters. -/
  unit : Option Nat := none
  /-- An accumulator tile it computes into or reads out (R75). -/
  acc : Option (Nat × Nat × Bool) := none

/-- The loop stack after the word at `last` has been executed: the innermost loop that ends there goes round again, or
ends and lets the next one decide (R169). Answers the stack and the branch back. -/
def loopBack : List LoopEnt → List Nat → List LoopEnt × Option Nat
  | [], _ => ([], none)
  | e :: t, ends =>
    if ends.contains e.last then
      if 2 ≤ e.left then ({ e with left := e.left - 1 } :: t, some e.first) else loopBack t ends
    else (e :: t, none)

/-- The core moves past the instruction at its PC, which is `n` bytes long. -/
def Core.advance (k : Core) (n : Nat) : Core :=
  let pc := k.pc.toNat
  let r := loopBack k.loops (if n = 16 then [pc, pc + 8] else [pc])
  { k with loops := r.1
           pc := match r.2 with
             | some a => BitVec.ofNat 64 a
             | none => k.pc + BitVec.ofNat 64 n
           waiting := false, still := 0 }

/-- Length of an instruction in bytes (R162). -/
def hdrLen (h : Hdr) : Nat := if h.x then 16 else 8

/-- The instruction's predicate lets it execute (R164). -/
def Core.executes (k : Core) (h : Hdr) : Bool := k.preg h.pred.toNat != h.pneg

/-- The fetch of the line at `va` (R119, R382): from the instruction buffer, else translated, the walk made at once
(assumption log 14), and read through the cluster cache. A full buffer gives up the line filled longest ago (assumption log
129). -/
def State.fetchLine (s : State) (c va : Nat) (l : Launch) : State × Option XFault :=
  if (s.core c).ibuf.contains (va / 128) then (s, none)
  else
    match s.translate c (c / 8) (c / 32) (.tile 0 0 (some l)) l.asid l.root va .fetch with
    | (s, .ok pa t) =>
      let s := match t with
        | .tiered => s.clusterLine (c / 8) (localPart pa / 128)
        | .window w => s.wakeCore w
        | _ => s
      (s.modCore c (fun k => { k with ibuf := (va / 128 :: k.ibuf).take 256 }), none)
    | (s, .fault f) => (s.noteFault (c / 32) l.ctx va f, some f)
    | (s, .miss) => (s, none)

/-- The fetch of the instruction at the PC, with its extension word when it has one. -/
def State.fetch (s : State) (c : Nat) (h : Hdr) (l : Launch) : State × Option (XFault × Nat) :=
  let pc := (s.core c).pc.toNat
  match s.fetchLine c pc l with
  | (s, some f) => (s, some (f, pc))
  | (s, none) =>
    if h.x && pc % 128 = 120 then
      match s.fetchLine c (pc + 8) l with
      | (s, some f) => (s, some (f, pc + 8))
      | (s, none) => (s, none)
    else (s, none)

/-- The instruction has to wait at issue; nothing else happens (R120). -/
def State.hold (s : State) (c : Nat) : State := s.modCore c (fun k => { k with waiting := true })

/-- Something the instruction needs is not ready: a source register, a descriptor, an accumulator tile, its queue. -/
def Core.mustWait (k : Core) (i : Ins) : Bool :=
  i.srcS.any k.pendS || i.srcP.any k.pendP || k.hazard i.reads i.writes
    || (match i.unit with
        | some u => !k.room u
        | none => false)
    || (match i.acc with
        | some (e, a, b) => k.accHold e a b
        | none => false)

/-- The sequencer tries to issue an instruction on core `c`. It waits while something holds issue; else it raises its
first exception in the order of R695, is passed over by its predicate, waits for what it needs, or takes effect:
`body` gets the state with the core moved past the instruction, the core as it was, and the launch. An instruction that waits
for a full engine holds back every younger one, as R120 says, where R73 lets the others issue (assumption log 151). -/
def State.issue (s : State) (c : Nat) (i : Ins) (faults : Core → Launch → IssueFaults)
    (body : State → Core → Launch → State) : Out :=
  whenPowered s <|
  withSome (s.core c).launch fun l =>
    let k := s.core c
    if k.block ≠ .none then .next (s.hold c)
    else
      let pc := k.pc.toNat
      let fault (s : State) (code va trap : Nat) : Act :=
        .next ((s.issueFault c { code := code, pc := pc, va := va, trap := trap }).after c)
      if pc % 8 ≠ 0 then fault s excIllegal 0 0
      else match s.fetch c i.h l with
        | (s, some (f, va)) => fault s f.code va 0
        | (s, none) =>
          let k := s.core c
          if i.illegal || i.h.reserved then fault s excIllegal 0 0
          else if k.pendP i.h.pred.toNat then .next (s.hold c)
          else if !k.executes i.h then .next ((s.setCore c (k.advance (hdrLen i.h))).after c)
          else if k.mustWait i then .next (s.hold c)
          else
            let f := faults k l
            match f.first with
            | some code => fault s code (if code = excAlign then f.va else 0) (if code = excTrap then f.code else 0)
            | none => .next ((body (s.setCore c (k.advance (hdrLen i.h))) k l).after c)

/-- Put an instruction into its unit's queue. -/
def State.enqueue (s : State) (c : Nat) (k0 : Core) (i : Ins) (unit : Nat) (kind : JobKind)
    (f : Job → Job) : State :=
  s.modCore c (fun k => { k with
    nextSeq := k.nextSeq + 1
    jobs := k.jobs ++ [f { seq := k.nextSeq, pc := k0.pc.toNat, unit := unit, kind := kind, begun := false
                           reads := i.reads, writes := i.writes, rd := none, lp := none, release := false
                           acquire := false, scope := 0, deadline := none, todo := [], planned := false
                           tainted := false }] })

end Sys2Proof.Machine
end

