-- ==== Sys2Proof/Machine/Windows.lean ====
section
/-! DEFINITION. Machine/Windows.lean: scratchpad windows and scrub (R128, R147 to R152), and the start of a staged launch
on a core (R144, R156). -/

namespace Sys2Proof.Machine

/-- The core and offset of a window address of a present core (R147, R151). -/
def State.windowOf (s : State) (pa : Nat) : Option (Nat × Nat) :=
  if nodePart pa != s.node then none
  else
    let a := localPart pa
    if 0x060000000000 ≤ a && a < 0x060020000000 then
      let c := (a - 0x060000000000) / 0x400000
      if s.corePresent c then some (c, (a - 0x060000000000) % 0x400000) else none
    else none

/-- The hart among the agents that reach a window. -/
def hartOf : Agent → Option Nat
  | .hart h _ => some h
  | _ => none

/-! ### What holds back an access of a hart: R219, R404, R412, R414 -/

/-- The hart executes instructions: it is present, boot is complete, and no warm reset has stopped it (R420, R632). -/
def State.hartRuns (s : State) (h : Nat) : Bool :=
  s.hartPresent h && s.boot.phase == 2 && !(s.hart h).stopped && !s.power.gated.contains (hartKey h)

/-- A fence that waits holds back a younger access (R404): its successors, of cacheable memory alone or of any. -/
def HartFence.holds (f : HartFence) (cacheable load writes : Bool) : Bool :=
  (cacheable || !f.cacheable) && ((load && f.thenLoads) || (writes && f.thenStores))

/-- The hart can start a memory access: no fence holds it back, no acquire is outstanding, and for a write its store buffer
has one of its 64 entries free (R219, R404, R414). -/
def Hart.canStart (k : Hart) (cacheable load writes : Bool) : Bool :=
  !(match k.fence with
    | some f => f.holds cacheable load writes
    | none => false)
  && !k.stores.any (fun x => x.acquire) && !(writes && 64 ≤ (k.stores.filter (fun x => x.writes)).length)

/-- Enter a store, or a read or an atomic that waits for its answer, among the hart's accesses that have not performed. -/
def State.hartEnter (s : State) (h pa : Nat) (bs : List Byte) (t : Target) (cacheable device load writes acquire : Bool)
    (vec : Option Nat := none) : State :=
  let k := s.hart h
  s.setHart h { k with
    stores := k.stores ++ [{ id := k.nextId, pa := pa, bytes := bs, target := t, cacheable := cacheable, load := load
                             writes := writes, acquire := acquire, device := device, sent := s.strokeNow, vec := vec }]
    nextId := k.nextId + 1 }

/-- An older store of the hart writes a byte of the range. -/
def Hart.older (k : Hart) (pa n : Nat) : Bool := k.stores.any (fun x => x.pa < pa + n && pa < x.pa + x.bytes.length)

/-- A device access of the hart is outstanding (R412). -/
def Hart.deviceOut (k : Hart) : Bool := k.stores.any (fun x => x.device)

/-- A hart's access may reach its target now: the hart runs, nothing holds the access back, and no older access of the hart to the
same bytes is open (R219, R404, R407, R420). Other agents' accesses may. -/
def State.hartMay (s : State) (who : Agent) (pa n : Nat) (load writes : Bool) : Bool :=
  match hartOf who with
  | some h => s.hartRuns h && (s.hart h).canStart false load writes && !(s.hart h).older pa n
  | none => true

/-! ### The window port: R147 to R152 -/

/-- The window port counts as a unit of its core (R495). -/
def State.portUsed (s : State) (c : Nat) : State := s.modCore c (fun k => { k with still := 0 })

/-- A load at the window port: the bytes, and whether some word of them is uncorrectable, which is recorded (R128). -/
def State.windowLoad (s : State) (c o n : Nat) (w : Cause) : State × List Byte × Bool :=
  let s := (s.wakeCore c).portUsed c
  match s.rowsBad c o 0 1 n with
  | none => (s, s.scrRead c o n, false)
  | some off => (s.scratchRecord c off w, s.scrRead c o n, true)

/-- A store at the window port. -/
def State.windowStore (s : State) (c o : Nat) (bs : List Byte) : State := ((s.wakeCore c).portUsed c).scrWrite c o bs

/-- An atomic at the window port (R150): the old value. On an uncorrectable word nothing is stored and the value is
free (assumption log 20). -/
def State.windowAtomic (s : State) (c o : Nat) (op : AtomOp) (f : AtomFmt) (v cmp : Nat) (w : Cause) : State × Nat :=
  let r := s.windowLoad c o (atomBytes f) w
  if r.2.2 then (r.1.draw.1, (Config.freeWord r.1.fresh).toNat % 2 ^ (8 * atomBytes f))
  else
    let old := ofBytes r.2.1
    (r.1.scrWrite c o (toBytes (atomBytes f) (atomNew op f old v cmp)), old)

/-- WINDOW_ACCESS: a load or store of 1 to 128 B reaches a window port and is performed at the bank (R149). A processor's
access to the window of an absent core takes an access fault (R151), and a load of an uncorrectable word a hardware error
(R413). -/
def execWindowAccess (who : Agent) (pa : Nat) (n : Nat) (wr : Option (List Byte)) (s : State) : Out :=
  whenPowered s <|
    match s.windowOf pa, hartOf who with
    | some w, _ =>
      let len := match wr with
        | some bs => bs.length
        | none => n
      whenIt (1 ≤ len && len ≤ 128 && w.2 + len ≤ scratchSize && s.hartMay who pa len wr.isNone wr.isSome) <|
        match wr with
        | some bs => .next (s.windowStore w.1 w.2 bs)
        | none =>
          let r := s.windowLoad w.1 w.2 n .request
          match who, r.2.2 with
          | .hart h _, true => .next (r.1.hartTrap h 19 (some pa))
          | .hart h a, false =>
            .next ((r.1.emit { kind := .data, args := [agentId who, pa, 0], bytes := r.2.1 }).hartGets h a.vec pa r.2.1 false)
          | _, bad => .next (r.1.emit { kind := .data, args := [agentId who, pa, b2n bad], bytes := r.2.1 })
    | none, some h =>
      whenIt (nodePart pa = s.node && inWindows pa && s.hartMay (.hart h { off := 0, n := 0 }) pa n wr.isNone wr.isSome) (.next (s.hartTrap h (if wr.isSome then 7 else 5) none))
    | none, none => notNow

/-- WINDOW_ATOMIC: an aligned INT32 or INT64 operation is performed at the window port (R150). -/
def execWindowAtomic (who : Agent) (pa : Nat) (op : AtomOp) (fmt : AtomFmt) (v : BitVec 64) (cmp : BitVec 64)
    (s : State) : Out :=
  whenPowered s <| withSome (s.windowOf pa) fun w =>
    whenIt (!atomIsFloat fmt && pa % atomBytes fmt = 0 && s.hartMay who pa (atomBytes fmt) true true) <|
      let r := s.windowAtomic w.1 w.2 op fmt v.toNat cmp.toNat .request
      .next (r.1.emitN .data [agentId who, pa, r.2])

/-! ### Patrol scrub: R128 -/

/-- The scratchpad offset of bank row `i` of 32,768 (R124): bank `i / 1024`, row `i % 1024`. -/
def bankRowOffset (i : Nat) : Nat :=
  let row := i % 1024
  row * 4096 + ((i / 1024) ^^^ (row % 32)) * 128

/-- SCRATCH_SCRUB: patrol scrub reads a bank row. A single-bit error is corrected; an uncorrectable word is reported and
stays uncorrectable until it is written (R128). -/
def execScratchScrub (c : Nat) (row : Nat) (errs : List EccHit) (s : State) : Out :=
  whenPowered s <| whenIt (s.corePresent c && row < 32768 && errs.all (fun e => e.place < 16)) <|
    .next ((errs.filter (fun e => e.hard)).foldl (fun s e =>
      let off := bankRowOffset row + e.place * 8
      (s.scrSpoil c off 8).scratchRecord c off .none) s)

/-! ### Starting a launch: R144, R156, R451 -/

/-- A proof run has taken the core out of launches: its time has come (R542). -/
def State.proofHolds (s : State) (c : Nat) : Bool :=
  s.ras.runs.any (fun r => (r.due || s.reached (strokeOf r.whenAt)) && (r.a == c || r.b == some c))

/-- The core takes a launch: it is present, runs none, and nothing reserves it. -/
def State.coreFree (s : State) (c : Nat) : Bool :=
  let k := s.core c
  s.corePresent c && k.launch.isNone && !k.resetWait && !s.proofHolds c

/-- A core as a launch starts on it (R156, R112, R76, R119). -/
def Core.begin (k : Core) (g : Staged) (twin : Bool) (draw : Nat) : Core :=
  { k with
    launch := some { g.launch with twin := twin }
    s := (g.args.zip (upFrom 1 15)).foldl (fun t p => t.setD (fun _ => 0) p.2 p.1) []
    t := (g.tds.zip (upFrom 0 16)).foldl (fun t p => t.setD (fun _ => 0) p.2 p.1) []
    p := 0, pc := g.entry, rnd := 1, loops := [], rets := [], acc := [], accDraw := draw, accRedraw := [], ibuf := []
    jobs := [], walk := none, block := .none, waiting := false, devTimeout := false, late := false, lateCount := 0
    exc := none, syncTimeout := false, still := 0, wrote := [] }

/-- Every decision row of a dispatch is performed: no launch of it starts before (R288). -/
def State.rowsDone (s : State) (uid : Nat) : Bool :=
  match s.op? uid with
  | some o => o.opcode != 0x0A || !(s.fe o.die).writes.any (fun w => w.uid == some uid)
  | none => true

/-- LAUNCH_START: the oldest staged launch starts on the core, once the running one has ended (R144). -/
def execLaunchStart (c : Nat) (s : State) : Out :=
  whenPowered s <|
    let s := s.fillSlots c
    match (s.core c).staged with
    | [] => notNow
    | g :: rest =>
      whenIt (s.coreFree c && !s.hangHolds c g.launch.ctx && s.rowsDone g.launch.uid) <|
        let twin := bitOf (s.regN (rFe (c / 32) 0x800)) (c % 32)
        let (s, d) := (s.wakeForLaunch c).draw
        let s := s.modCore c (fun k => { (k.begin g twin d) with staged := rest })
        let s := s.modOp g.launch.uid (fun o =>
          { o with start := if o.start.isNone then some s.now else o.start })
        .next (s.fillSlots c)

end Sys2Proof.Machine
end

