-- ==== Sys2Proof/Machine/HartStores.lean ====
section
/-! DEFINITION. Machine/HartStores.lean: the harts' store buffers where they meet the homes (R407, R414), and the write-back
of a processor die that is being reset (R415, R420). -/

namespace Sys2Proof.Machine

/-- The line, of tiered memory or of a cacheable host window, is owned by the processor die of agent `i` (R337, R361). -/
def State.ownsLine (s : State) (i line : Nat) : Bool :=
  (s.dirOf line).owner == some i
    || (match s.tracked line with
        | some e => e.owner == some i
        | none => false)

/-- The processor die of agent `i` owns the line and has not lost it to a tag error (R356). -/
def State.holdsOwned (s : State) (i line : Nat) : Bool := s.ownsLine i line && !s.mem.lost.contains line

/-! ### Errors of a system-level cache: R344, R353, R356 -/

/-- Processor die `p` holds bytes of a line modified. -/
def State.modifiedBy (s : State) (p line : Nat) : Bool :=
  s.ownsLine (16 + p) line && s.mem.dirty.any (fun e => e.1 / 128 == line)

/-- Processor die `p` writes back a line it owns, or gives it up clean: to its home, or to the host (R340, R606). -/
def State.pdGivesUp (s : State) (p line : Nat) : State :=
  let s := s.dieDrop p line
  if (s.tracked line).isSome then (s.dirtyOut line).hostDrop line
  else ((s.flush line).setDir line { owner := none, sharers := 0 }).touch (line * 128)

/-- The record of an uncorrectable error in a slice of a processor die's system-level cache (R353, R356). -/
def State.slcRecord (s : State) (p line off : Nat) : State :=
  s.log { errRec (s.path (4 + p) 0 (slcSlice line) 0x9 0) 0x01 2 with syndrome := off, addr := line * 128 }

/-- What processor die `p` does about an error its system-level cache finds in a line (R356): it corrects it; it drops a clean
line, to fetch it again; it writes a modified one back with its bad sectors poisoned; or it loses the way, and with it a
modified line. -/
def State.slcError (s : State) (p line : Nat) (e : SlcErr) : State :=
  match e with
  | .none => s
  | .corrected => s.bump (rPd p 0x2064)
  | .data off sectors =>
    let m := s.modifiedBy p line
    let s := s.bump (rPd p 0x2068)
    if m then ((s.pdGivesUp p line).setPoison (sectors.map (fun n => line * 4 + n % 4))).slcRecord p line off
    else s.slcDrop p line
  | .tag off =>
    let m := s.modifiedBy p line
    let s := ((s.bump (rPd p 0x2068)).slcDrop p line).slcRecord p line off
    if m then s.withMem { s.mem with
      dirty := s.mem.dirty.filter (fun a _ => a / 128 != line)
      lost := if s.mem.lost.contains line then s.mem.lost else line :: s.mem.lost }
    else s

/-- A double-bit error that a cache nearer to hart `h` finds in a word is recorded, naming the L2 block of its complex or its L1
(R537). What it does to the line no rule says: a clean one is fetched again (assumption log 67). -/
def State.sramError (s : State) (h line : Nat) (e : Option SramErr) : State :=
  match e with
  | none => s
  | some x =>
    let unit := if x.l2 then s.path (4 + h / 48) (h / 24 % 2) (h / 8 % 3) 8 0
      else s.path (4 + h / 48) (h / 24 % 2) (h / 8 % 3) (h % 8) 0
    let s := s.log { errRec unit 0x01 2 with syndrome := x.off, addr := line * 128 }
    if s.modifiedBy (h / 48) line then s
    else s.withPds { s.pds with
      l1 := dropLine (fun k => if x.l2 then k / 8 == h / 8 else k == h) line s.pds.l1
      l2 := if x.l2 then dropLine (fun k => k == h / 8) line s.pds.l2 else s.pds.l2 }

/-- The L2 block of complex `x` is gated (R529): its lines are evicted into the system-level cache (R354), and one that finds no
place there and is nowhere else on the die leaves it, written back when modified. -/
def State.complexGate (s : State) (x : Nat) : State :=
  let p := x / 6
  let ls := s.l2Lines x
  let s := s.withPds { s.pds with l2 := s.pds.l2.setD (fun _ => []) x [], l1 := s.pds.l1.filter (fun h _ => h / 8 != x) }
  ls.foldl (fun (s : State) l =>
    let s := s.slcUse (x * 8) l
    if s.slcHas p l || s.upperHas p l || s.mem.lost.contains l then s
    else if s.modifiedBy p l then s.pdGivesUp p l
    else if (s.tracked l).isSome then s.hostLeave l (16 + p)
    else s.notice l (16 + p)) s

/-- A slice of a system-level cache is gated (R358): it writes its modified lines back, gives notice of its clean ones, and is
empty. A line that an L2 block holds too stays with the die (R354). -/
def State.slcGate (s : State) (p i : Nat) : State :=
  let ls := (s.slcLines p i).map SlcLine.line
  let s := s.answersFor (16 + p) ls.contains
  let s := ls.foldl (fun (s : State) l =>
    if s.mem.lost.contains l || s.upperHas p l then s
    else if s.modifiedBy p l then s.pdGivesUp p l
    else if (s.tracked l).isSome then s.hostLeave l (16 + p)
    else s.notice l (16 + p)) s
  (s.setSlc p i []).withPower { s.power with gated := insertUp (slcDomain p i) s.power.gated }

/-! ### Stores -/

/-- A store is written into a hart's L1 (R407); a sector it covers whole loses its poison (R317). -/
def State.hartPut (s : State) (pa : Nat) (bs : List Byte) : State :=
  let a := localPart pa
  s.withMem { s.mem with
    dirty := (bs.zip (upFrom a bs.length)).foldl (fun (t : Tbl Byte) p => t.put p.2 p.1) s.mem.dirty
    poison := putPoison s.mem.poison (fullSectors a bs.length) false }

/-- Two stores write a common byte. -/
def HartStore.overlaps (x y : HartStore) : Bool := x.pa < y.pa + y.bytes.length && y.pa < x.pa + x.bytes.length

/-- A fence of the hart waits no more (R404, R414): for older stores, to cacheable memory alone or to any, nor for older
loads. -/
def Hart.fenceDone (k : Hart) : Bool :=
  match k.fence with
  | some f => !k.stores.any (fun x => x.id < f.upto && (x.cacheable || !f.cacheable)
      && ((x.load && f.loads) || (x.writes && f.stores)))
  | none => false

/-- A fence that waits for nothing more completes. -/
def Hart.settle (k : Hart) : Hart := if k.fenceDone then { k with fence := none } else k

/-- A cacheable store of hart `h` performs in its L1 data cache, and no other core of the die keeps a copy (R406, R407). -/
def State.hartPerform (s : State) (h : Nat) (x : HartStore) : State :=
  ((linesOf (localPart x.pa) x.bytes.length).foldl (fun (s : State) l => (s.dieUse h l).soleCore h l) s).hartPut x.pa x.bytes

/-- The cacheable stores of hart `h` whose lines its die now owns perform; one that follows an older store to the same
bytes waits for it. -/
def State.drainHart (s : State) (h : Nat) : State :=
  let owned (x : HartStore) : Bool := (linesOf (localPart x.pa) x.bytes.length).all (s.holdsOwned (16 + h / 48))
  let r := (s.hart h).stores.foldl (fun (acc : State × List HartStore) x =>
    if x.cacheable && !x.load && owned x && !acc.2.any (fun y => y.overlaps x) then (acc.1.hartPerform h x, acc.2)
    else (acc.1, acc.2 ++ [x])) (s, [])
  r.1.setHart h ({ s.hart h with stores := r.2 }).settle

/-- Step 3 of R420 for die `p`: its own requests are void (assumption log 146), transactions that await the die are answered
(R415), modified lines are written back, and no home holds the die as owner or sharer. A line that the die has lost without
knowing is poisoned at its home when it leaves it (R344; assumption log 146). -/
def State.writeBackDie (s : State) (p : Nat) : State :=
  let i := 16 + p
  let s := s.withMem { s.mem with waitq := s.mem.waitq.filter (fun r => agentIndex r.who != some i)
                                  txns := s.mem.txns.filter (fun t => agentIndex t.req.who != some i) }
  let s := (s.answersFor i (fun _ => true)).drainAll
  let own := (s.mem.dir.filter (fun _ e => e.owner == some i)).map Prod.fst
  let s := (own.filter s.mem.lost.contains).foldl (fun (s : State) l =>
    let r := s.lostCopy l i
    r.2.foldl State.log r.1) s
  let s := own.foldl State.flush s
  let s := (s.mem.dir.map Prod.fst).foldl (fun (s : State) l => s.notice l i) s
  let mine (e : DirEntry) : Bool := e.owner == some i
  let s := ((s.mem.tracker.filter (fun e => mine e.2)).map Prod.fst).foldl (fun (s : State) l => (s.dirtyOut l).hostDrop l) s
  let rest := s.mem.tracker.map (fun e => (e.1, { e.2 with sharers := sharer e.2.sharers i false }))
  s.withMem { s.mem with tracker := rest.filter (fun e => e.2.owner.isSome || e.2.sharers != 0) }

/-- The dies a warm reset names. -/
def State.resetDieList (s : State) : List Nat := (upFrom 0 2).filter (bitOf s.pds.resetDies)

/-- The harts of a die. -/
def dieHarts (p : Nat) : List Nat := upFrom (p * 48) 48

/-- Step 5 of R420 for die `p`: harts and interrupt files return to their reset values, and so do the registers of the die
but for those R421 keeps. -/
def State.resetDie (s : State) (p : Nat) : State :=
  let keep : List Nat := [0x18, 0x1C, 0x20, 0x24]
  let s := s.withPds { s.pds with
    harts := (dieHarts p).foldl (fun (t : Tbl Hart) h => t.setD (fun _ => Hart.init) h { Hart.init with stopped := true }) s.pds.harts
    files := s.pds.files.filter (fun k _ => k / 9 / 48 != p)
    l1 := s.pds.l1.filter (fun h _ => h / 48 != p), l2 := s.pds.l2.filter (fun x _ => x / 6 != p)
    wdogHeld := s.pds.wdogHeld &&& ~~~ BitVec.ofNat 2 (2 ^ p) }
  let s := (upFrom 0 8).foldl (fun (s : State) i => s.setSlc p i []) s
  keep.foldl (fun (s : State) o => s.setReg (rPd p o) (regReset s.pop.variant (rPd p o))) s

/-- Once every store of the dies being reset has performed, their caches are written back and they are held in reset
(R420, steps 3 and 5). -/
def State.warmCheck (s : State) : State :=
  let ps := s.resetDieList
  if s.pds.phase = 1 && ps.all (fun p => (dieHarts p).all (fun h => (s.hart h).stores.isEmpty)) then
    let s := ps.foldl State.writeBackDie s
    let s := ps.foldl State.resetDie s
    s.withPds { s.pds with phase := 2, since := s.ruling.line }
  else s

/-- What an event at the homes or a target lets the harts do: stores perform, fences complete, a warm reset goes on. -/
def State.hartDrain (s : State) : State :=
  ((s.pds.harts.map Prod.fst).foldl State.drainHart s).warmCheck

/-- An exception of a hart is taken once no older fence waits. -/
def Hart.trapTurn (k : Hart) (s : State) : Act := whenIt k.fence.isNone (.next s)

end Sys2Proof.Machine
end

