-- ==== Sys2Proof/Machine/Coherence.lean ====
section
/-! DEFINITION. Machine/Coherence.lean: requests at the homes and in the cluster caches, as commands (R339 to R351,
R359). -/

namespace Sys2Proof.Machine

/-- What follows an event at a home: every core with a launch goes on where it can, and so do the harts. -/
def State.afterAll (s : State) : State :=
  (((s.cores.filter (fun _ k => k.launch.isSome)).map Prod.fst).foldl State.after s).hartDrain

/-- The line lies in backed blocks of this module's tiered range; a line is numbered by its local address. -/
def State.tieredLine (s : State) (line : Nat) : Bool := line * 128 + 128 ≤ s.tieredEnd

/-- A request is already at its home. -/
def State.queued (s : State) (p : HomeKind → Bool) : Bool :=
  s.mem.txns.any (fun t => p t.req.kind) || s.mem.waitq.any (fun r => p r.kind)

/-- A core's tag already has its request at the home. -/
def State.tagQueued (s : State) (c tag : Nat) : Bool :=
  s.queued (fun k => match k with
    | .coreTag c' t' => c' == c && t' == tag
    | _ => false)

/-- A queue of front end `d` has its doorbell in the line: only such lines does a front end share (R337). -/
def State.watchesLine (s : State) (d line : Nat) : Bool :=
  s.work.queues.any (fun e => e.2.die == d && localPart e.2.cfg.dbAddr / 128 == line)

/-- The line lies in a cacheable CXL host window: the CXL block is its home on the module (R361). -/
def State.hostLine (s : State) (line : Nat) : Bool := s.target (s.node * 2 ^ 49 + line * 128) == some .host

/-- A processor die obtains a line of the host over CXL.cache (R361, R606); the line comes from a holder on the module, or
from the host, whose bytes and marks of poison are free (R609). -/
def State.hostFill (s : State) (who : Agent) (h line : Nat) (own : Bool) : State :=
  let i := 16 + h / 48
  let r := s.draw
  let bs := (upFrom (line * 128) 128).map (fun a => match s.mem.dirty.get? a with
    | some b => b
    | none => Config.freeByte r.2 a)
  let bad := if (s.tracked line).isSome then [] else (upFrom (line * 4) 4).filter (fun x => bitOf (Config.freeWord r.2).toNat (x % 4))
  let s := if own then r.1 else r.1.dirtyOut line
  let s := s.emitN .cxl [if own then 2 else 4, line * 128]
  let s := (((s.trackHold line i own).setPoison bad).dieUse h line)
  let s := s.emit { kind := .data, args := [agentId who, line * 128, s.poisonMask (line * 128) 128], bytes := bs }
  match who with
  | .hart _ a =>
    let pa := s.node * 2 ^ 49 + line * 128 + a.off
    s.hartGets h a.vec pa ((bs.drop a.off).take a.n) (s.anyPoison pa a.n)
  | _ => s

/-- A die that a warm reset does not hold can make requests of its own (R420). -/
def State.dieAsks (s : State) (p : Nat) : Bool := s.pdPresent p && !(s.pds.phase != 0 && bitOf s.pds.resetDies p)

/-- A hart can make a cacheable request for a line (R404, R407, R413, R420): it runs, and for an access that is no prefetch nothing
holds that back and no older access of the hart to the same bytes is open. -/
def State.hartAsks (s : State) (h : Nat) (a : HartAcc) (line : Nat) : Bool :=
  s.hartRuns h && (a.n == 0
    || ((s.hart h).canStart true true false && !(s.hart h).older (s.node * 2 ^ 49 + line * 128 + a.off) a.n))

/-- What the caches of the die of a hart find as its request passes them (R356, R537). -/
def State.askFinds (s : State) (who : Agent) (line : Nat) : State :=
  match who with
  | .hart h a => (s.slcError (h / 48) line a.slc).sramError h line a.sram
  | _ => s

/-- A load of a hart that fetches its line is open until the home has served it (R404, R414). -/
def State.loadOpens (s : State) (who : Agent) (line : Nat) : State :=
  match who with
  | .hart h a =>
    if a.n = 0 then s
    else s.hartEnter h (s.node * 2 ^ 49 + line * 128 + a.off) (List.replicate a.n 0) .tiered true false true false false
  | _ => s

/-- The number of the access that a request of a hart serves. -/
def State.askTag (s : State) (who : Agent) : Nat :=
  match who with
  | .hart h _ => (s.hart h).nextId
  | _ => 0

/-- READ_SHARED: the home serves a read-shared request of a cluster that missed, a processor die, a front end or the
host (R340); the CXL block serves one of a hart for a line of the host (R361). -/
def execReadShared (who : Agent) (line : Nat) (e : Ecc) (s : State) : Out :=
  whenPowered s <|
    let asked := match who with
      | .cluster k => s.clusterPresent k && (upFrom (k * 8) 8).any (fun c =>
          (s.core c).reads.any (fun t => t.missed && t.served.isNone && localPart t.pa / 128 == line))
      | .pd p => s.dieAsks p
      | .hart h a => s.hartAsks h a line
      | .fe d => s.adPresent d && s.watchesLine d line
      | .host => s.cxl.session
      | _ => false
    whenIt asked <|
      let s := s.askFinds who line
      if s.tieredLine line then
        ((s.loadOpens who line).reqArrive { line := line, kind := .readShared, who := who, e := e, tag := s.askTag who }).andThen
          State.afterAll
      else match who with
        | .hart h _ => whenIt (s.hostLine line && s.cxl.session) (.next (s.hostFill who h line false).hartDrain)
        | _ => notNow

/-- READ_OWN: the home serves a read-own request of a processor die or the host (R340); the CXL block serves one of a hart
for a line of the host (R361). -/
def execReadOwn (who : Agent) (line : Nat) (e : Ecc) (s : State) : Out :=
  whenPowered s <|
    let asked := match who with
      | .pd p => s.dieAsks p
      | .hart h _ => s.hartRuns h
      | .host => s.cxl.session
      | _ => false
    whenIt asked <|
      let s := s.askFinds who line
      if s.tieredLine line then
        (s.reqArrive { line := line, kind := .readOwn, who := who, e := e }).andThen State.afterAll
      else match who with
        | .hart h _ => whenIt (s.hostLine line && s.cxl.session) (.next (s.hostFill who h line true).hartDrain)
        | _ => notNow

/-- WRITE_THROUGH_WRITE: a write a cluster cache slice holds reaches its home (R340, R348), after those the cluster took before
it to the line (R207). -/
def execWriteThroughWrite (cl : Nat) (wid : Nat) (e : Ecc) (s : State) : Out :=
  whenPowered s <| withSome ((s.cluster cl).held.find? (fun h => h.wid == wid)) fun h =>
    let atHome := s.mem.txns.any (fun t => t.req.kind == .writeThrough wid && t.req.who == .cluster cl)
      || s.mem.waitq.any (fun r => r.kind == .writeThrough wid && r.who == .cluster cl)
    whenIt (!h.done && !atHome && !s.heldBefore cl wid && !s.lineOpen h.core h.tag h.pa .tiered true) <|
      (s.reqArrive { line := localPart h.pa / 128, kind := .writeThrough wid, who := .cluster cl, e := e }).andThen
        State.afterAll

/-- A core's tag whose request goes to the home of a tiered address and is not there yet. -/
def State.tagAtHome (s : State) (c tag : Nat) (line : Nat) (e : Ecc) : Act :=
  whenIt (!s.tagQueued c tag) <|
    (s.reqArrive { line := line, kind := .coreTag c tag, who := .core c, e := e }).andThen State.afterAll

/-- A write or an atomic that a hart sends to a home is open until that has performed it (R414). -/
def State.accessOpens (s : State) (who : Agent) (pa : Nat) (bytes : List Byte) (load : Bool) : State :=
  match who with
  | .hart h _ => s.hartEnter h pa bytes .tiered false false load true false
  | _ => s

/-- NON_ALLOCATING_WRITE: a volatile TST or a SIG write, or a write of an agent that holds no copy (R340). -/
def execNonAllocatingWrite (src : NaWrite) (bytes : List Byte) (s : State) : Out :=
  whenPowered s <|
    match src.src with
    | .tag c tag =>
      withSome (s.wtag c tag) fun w =>
        let store := match w.op with
          | .store _ => true
          | _ => false
        whenIt (w.target == .tiered && w.vol && w.stage == .sent && store && s.writeTurn c w)
          (s.tagAtHome c tag (localPart w.pa / 128) src.e)
    | .agent who pa _ =>
      whenIt (1 ≤ bytes.length && pa % 128 + bytes.length ≤ 128 && s.inTiered pa bytes.length
          && s.hartMay who pa bytes.length false true) <|
        ((s.accessOpens who pa bytes false).reqArrive
          { line := localPart pa / 128, kind := .naWrite pa bytes, who := who, e := src.e, tag := s.askTag who }).andThen State.afterAll

/-- FAR_ATOMIC: an ATOM, a TST.ADD piece or a SIG add of a core's tag, or an atomic of another agent, at the
memory-side adder (R340, R224). A tag carries its own operation. -/
def execFarAtomic (src : NaWrite) (op : AtomOp) (fmt : AtomFmt) (v : BitVec 64) (cmp : BitVec 64) (s : State) : Out :=
  whenPowered s <|
    match src.src with
    | .tag c tag =>
      withSome (s.wtag c tag) fun w =>
        let store := match w.op with
          | .store _ => true
          | _ => false
        whenIt (w.target == .tiered && w.stage == .sent && !store && s.writeTurn c w)
          (s.tagAtHome c tag (localPart w.pa / 128) src.e)
    | .agent who pa _ =>
      whenIt (pa % atomBytes fmt = 0 && s.inTiered pa (atomBytes fmt) && s.hartMay who pa (atomBytes fmt) true true) <|
        ((s.accessOpens who pa (toBytes (atomBytes fmt) v.toNat) true).reqArrive
          { line := localPart pa / 128, kind := .atomic pa op fmt v.toNat cmp.toNat, who := who, e := src.e
            tag := s.askTag who }).andThen State.afterAll

/-- WRITEBACK: an owner evicts a modified line (R340): the line is written and UNCACHED. A line with a transaction in
progress is written back by the owner's answer to it instead (R339, R415). An error its system-level cache finds leaves bad
sectors poisoned, or loses the line, which then is not written back (R356). A line of the host goes to the host (R606). -/
def execWriteback (who : Nat) (line : Nat) (bytes : List (Nat × Byte)) (slc : SlcErr) (s : State) : Out :=
  whenPowered s <| whenIt (s.ownsLine who line && !s.busy line) <|
    if who = 22 then
      .next ((((s.flush line).hostBytes line bytes false).setDir line { owner := none, sharers := 0 }).touch (line * 128))
    else
      let s := s.slcError (who - 16) line slc
      whenIt (who = 16 || who = 17) <|
        if s.mem.lost.contains line || !s.ownsLine who line then .next s else .next (s.pdGivesUp (who - 16) line)

/-- EVICTION_NOTICE: an agent that drops a clean copy leaves the line's holders (R340, R342); a processor die may drop
it for an error of its cache (R356), but gives no notice of a line it has lost without knowing (R344). -/
def execEvictionNotice (who : Nat) (line : Nat) (slc : SlcErr) (s : State) : Out :=
  whenPowered s <| whenIt (!(who < 16 && (s.cluster who).has line) && !s.busy line
      && !(s.mem.dirty.any (fun e => e.1 / 128 == line) && s.ownsLine who line)
      && !(s.mem.lost.contains line && s.ownsLine who line)) <|
    let s := if who = 16 || who = 17 then (s.slcError (who - 16) line slc).dieDrop (who - 16) line else s
    .next (if (s.tracked line).isSome then s.hostLeave line who else s.notice line who)

/-- OWNER_FORWARD: a processor die answers a forward or a probe for a line it owns (R341), or finds no copy, having lost it
to an uncorrectable tag error of its system-level cache, now or before (R344, R356). -/
def execOwnerForward (line : Nat) (hasCopy : Bool) (s : State) : Out :=
  whenPowered s <|
    match (s.dirOf line).owner with
    | some o => whenIt (o = 16 || o = 17) <|
        let d := s.draw
        let s := if hasCopy || s.mem.lost.contains line then s
          else d.1.slcError (o - 16) line (.tag ((Config.freeWord d.2).toNat % 2 ^ 21 * 8))
        (s.answer line o).andThen State.afterAll
    | none => notNow

/-- CLUSTER_INVALIDATION: an invalidation reaches a cluster cache, which drops the line and acknowledges (R349). -/
def execClusterInvalidation (cl : Nat) (line : Nat) (s : State) : Out :=
  whenPowered s <| whenIt (cl < 16) ((s.answer line cl).andThen State.afterAll)

/-- The cluster cache cannot use an index any more (R351): it is disabled, or, when the slice already holds 16 disabled
indices, a record asks for the quarantine of the cluster. -/
def State.ccDisable (s : State) (k line : Nat) : State :=
  let i := cacheSlot line
  let sub := line % 8 * 2 ^ 29 + line / 8 % 16384
  let more := ((s.cluster k).disabled.filter (fun d => d / 16384 == line % 8)).length < 16
  let s := s.log { errRec (s.path (k / 4) (k % 4) 0 0x8 sub) 0x02 (if more then 0 else 2) with syndrome := sub }
  let x := s.cluster k
  if more then (s.setCluster k { x with disabled := x.disabled ++ [i], tags := x.tags.erase i }).bump (rFe (k / 4) 0xC04)
  else s

/-- CLUSTER_CACHE_READ: a plain read looks up its cluster cache slice and the victim cache (R347, R350, R351). A read of a
line that an invalidation has removed waits for every write held for it (R349). -/
def execClusterCacheRead (c : Nat) (tag : Nat) (parity : CcParity) (s : State) : Out :=
  whenPowered s <| withSome (s.rtag c tag) fun t =>
    let k := c / 8
    let line := localPart t.pa / 128
    let x := s.cluster k
    let plain := (s.core c).jobs.any (fun j => j.seq == t.job && !j.kind.vol)
    let miss (s : State) : State := s.modCore c (fun y => { y with reads := y.reads.map (fun r =>
      if r.tag == tag then { r with missed := true } else r) })
    whenIt (t.target == .tiered && t.served.isNone && !t.missed && !t.early && plain
        && !s.lineOpen c tag t.pa .tiered false) <|
      if x.mustWait line then .next s
      else if x.has line && !x.disabled.contains (cacheSlot line) then
        match parity with
        | .good =>
          let s := s.clusterHit k line
          .next ((s.serve c t (s.clusterBytes k c tag t.pa t.len)).after c)
        | p =>
          let s := ((s.setCluster k (x.drop line)).notice line k).bump (rFe (k / 4) 0xC00)
          let s := if p = .badAgain then s.ccDisable k line else s
          .next (miss s)
      else .next (miss s)

/-- HELD_WRITE_ACK: the home's acknowledgement releases a write a slice held (R348). -/
def execHeldWriteAck (cl : Nat) (wid : Nat) (s : State) : Out :=
  whenPowered s <| withSome ((s.cluster cl).held.find? (fun h => h.wid == wid && h.done)) fun h =>
    let s := s.setCluster cl { s.cluster cl with held := (s.cluster cl).held.filter (fun x => x.wid != wid) }
    let s := s.modCore h.core (fun k => { k with writes := k.writes.map (fun w =>
      if w.tag == h.tag && w.stage == .held then { w with stage := .performed } else w) })
    .next s.afterAll

/-- HOST_BISNP_RESPONSE: the host answers a back-invalidation snoop, with the bytes it had modified (R602). -/
def execHostBisnpResponse (line : Nat) (bytes : List (Nat × Byte)) (s : State) : Out :=
  whenPowered s <| whenIt (s.mem.txns.any (fun t => t.req.line == line && t.waits.contains 22)) <|
    let s := if (s.dirOf line).owner == some 22 then s.hostShows line bytes else s
    (s.answer line 22).andThen State.afterAll

/-- BISNP_TIMEOUT: a back-invalidation snoop goes unanswered (R359): a line the host owned is poisoned, the host leaves
the entry, a record names the CXL block, and waiting requests proceed. -/
def execBisnpTimeout (line : Nat) (s : State) : Out :=
  whenPowered s <| whenIt (s.mem.txns.any (fun t => t.req.line == line && t.waits.contains 22)) <|
    let r := s.hostSilent line
    ((r.2.foldl State.log r.1).answer line 22).andThen State.afterAll

end Sys2Proof.Machine
end

