-- ==== Sys2Proof/Machine/Energy.lean ====
section
/-! DEFINITION. Machine/Energy.lean: the energy of a line, apportioned among the operations by their activity (R532, R533). -/

namespace Sys2Proof.Machine

/-- The activity by which a rail's energy is shared, in the numbers of `OpAct.cls` (R532): 0 to 3 engine-cycles and core cycles on
an accelerator die, 11 to 14 bytes moved on four stacks, 15 bytes moved on module DRAM, 16 bytes over the fabric. The other
rails are not apportioned. -/
def railClass (r : Nat) : Option Nat :=
  if r < 8 then some (r % 4) else if 11 ≤ r && r ≤ 16 then some r else none

/-- The energies of rails, in the order the meters give them: all together no more than what is left of the input energy. -/
def railEnergies : Nat → List RailMeas → List (Nat × Nat)
  | _, [] => []
  | left, r :: t => (r.rail, min r.energy left) :: railEnergies (left - min r.energy left) t

/-- The energy of a line, in µJ, that goes by an activity: that of its rails, each with its regulator loss (R532). -/
def measEnergy (m : LineMeas) (cls : Nat) : Nat :=
  ((railEnergies m.energy m.rails).map (fun e => if railClass e.1 = some cls then e.2 else 0)).foldl (· + ·) 0

/-- All the measured activity of a kind in a line. -/
def measUnits (m : LineMeas) (cls : Nat) : Nat :=
  (m.acts.map (fun a => if a.cls = cls then a.units else 0)).foldl (· + ·) 0

/-- What one measured activity takes of its rails' energy: in proportion to all the activity of its kind (R532). -/
def measShare (m : LineMeas) (a : OpAct) : Nat :=
  if a.units = 0 then 0 else measEnergy m a.cls * a.units / measUnits m a.cls

/-- The energy of a line that goes to operations, in the order of the measured activities. -/
def measShares (m : LineMeas) : List (Nat × Nat) := m.acts.map (fun a => (a.uid, measShare m a))

/-- An operation's energy of the line not yet closed: its activity there times the previous line's energy per unit of that
activity (R533); a free value where that line had no such activity (assumption log 149). -/
def State.openEnergy (s : State) (act : List (Nat × Nat)) : State × Nat :=
  act.foldl (fun (r : State × Nat) a =>
    match r.1.power.meas with
    | some m =>
      if a.2 = 0 then r
      else if measUnits m a.1 = 0 then
        let d := r.1.draw
        (d.1, r.2 + (Config.freeWord d.2).toNat)
      else (r.1, r.2 + measEnergy m a.1 * a.2 / measUnits m a.1)
    | none =>
      if a.2 = 0 then r
      else
        let d := r.1.draw
        (d.1, r.2 + (Config.freeWord d.2).toNat)) (s, 0)

end Sys2Proof.Machine
end

