-- ==== Sys2Proof/Machine/Tmma.lean ====
section
/-! DEFINITION. Machine/Tmma.lean: TMMA, TMMA.P, their retirement, and the accumulator form of TST (R54 to R90, R172 to
R175, R183). -/

namespace Sys2Proof.Machine

/-! ### Operand pairs and extents: R56, R57, R89 -/

/-- The format may be a TMMA operand (R91). -/
def Fmt.operand : Fmt → Bool
  | .fp32 | .int32 => false
  | _ => true

/-- The pair has a rate in the table of R89. -/
def pairOk (a b : Fmt) : Bool := a.operand && b.operand && ((a == .int8) == (b == .int8))

/-- K per array cycle (R56). -/
def kPerCycle (a b : Fmt) : Nat :=
  if a == .bf16 || a == .fp16 || b == .bf16 || b == .fp16 then 8
  else if b == .e2m1 then 32 else 16

/-- K of an instruction with repeat field `rpt` (R57, R172). -/
def kTotal (a b : Fmt) (rpt : Nat) : Nat := (rpt + 1) * kPerCycle a b

/-- A repeat count outside the limits of R57. -/
def rptBad (a b : Fmt) (rpt : Nat) : Bool := kPerCycle a b = 8 && rpt % 2 = 0

/-- The formats of both descriptors, when neither is reserved. -/
def pairOf (a b : Td) : Option (Fmt × Fmt) :=
  match a.format, b.format with
  | some x, some y => some (x, y)
  | _, _ => none

/-- The pair is accepted. -/
def pairGood (a b : Td) : Bool :=
  match pairOf a b with
  | some (x, y) => pairOk x y
  | none => false

/-- The engine may be named: present, and in twin mode the lower engine of a whole pair (R84, R88, R175). -/
def State.engineOk (s : State) (c : Nat) (twin : Bool) (e : Nat) : Bool :=
  if twin then e % 2 = 0 && s.enginePresent c e && s.enginePresent c (e + 1) else s.enginePresent c e

/-! ### The arithmetic of one output element: R61, R100 to R105 -/

/-- Element `k` of an operand row as a value. -/
def operandAt (f : Fmt) (row k : Nat) : Fl := f.decode (elemAt f.width row k)

/-- The operand value is NaN. -/
def Fl.isNan : Fl → Bool
  | .nan => true
  | _ => false

/-- The step of the eight elements from `k0` (R100 to R102). -/
def cubeStep (fa fb : Fmt) (ra rb k0 : Nat) (sa sb : Nat) : Fl :=
  let as := (upFrom k0 8).map (operandAt fa ra)
  let bs := (upFrom k0 8).map (operandAt fb rb)
  stepResult ((as.zip bs).map (fun p => p.1.mul p.2)) (scaleExp sa) (scaleExp sb)
    (as.any Fl.isNan || bs.any Fl.isNan)

/-- The integer step of an INT8 pair (R104). -/
def intStep (ra rb k0 : Nat) : Int :=
  (upFrom k0 8).foldl (fun z k => z + signed (elemAt 8 ra k) 8 * signed (elemAt 8 rb k) 8) 0

/-- One output element after the `K / 8` updates of an instruction, in ascending K order (R61, R103, R104). -/
def outElem (fa fb : Fmt) (kk : Nat) (zero : Bool) (acc ra rb : Nat) (sa sb : Nat → Nat) : Nat :=
  (upFrom 0 (kk / 8)).foldl (fun a i =>
    if fa == .int8 then
      unsigned ((if zero && i = 0 then 0 else signed a 32) + intStep ra rb (8 * i)) 32
    else accUpdate (zero && i = 0) a (cubeStep fa fb ra rb (8 * i) (sa i) (sb i))) acc

/-- `kk` elements of a row that begins at byte `off`, as one number. -/
def State.rowBits (s : State) (c : Nat) (f : Fmt) (off kk : Nat) : Nat := ofBytes (s.scrRead c off (kk * f.width / 8))

/-! ### TMMA: R173 -/

/-- What a TMMA checks at issue. -/
def State.tmmaFaults (s : State) (c : Nat) (f : TmmaF) (k : Core) (l : Launch) : IssueFaults :=
  let a := tdOf (k.treg f.ta.toNat)
  let b := tdOf (k.treg f.tb.toNat)
  let koff := (k.sreg f.sk.toNat).toNat
  match pairOf a b with
  | none => { engine := !s.engineOk c l.twin f.eng.toNat, format := true }
  | some (fa, fb) =>
    let kk := kTotal fa fb f.rpt.toNat
    let side (t : Td) (x : Fmt) : Bool :=
      t.badShape || t.elems < koff + kk || koff * x.width % 128 != 0 || (t.scaled && koff % 32 != 0) || 32 < t.rows
    let fit (t : Td) (x : Fmt) : Bool :=
      rowsFit (t.base + koff * x.width / 8) t.stride t.rows (kk * x.width / 8)
        && (!t.scaled || rowsFit (t.sbase + koff / 32) t.sstride t.rows ((kk + 31) / 32))
    { engine := !s.engineOk c l.twin f.eng.toNat
      format := !pairOk fa fb
      shape := rptBad fa fb f.rpt.toNat || side a fa || side b fb
      bounds := !(fit a fa && fit b fb) }

/-- TMMA: issues to its engine's queue (R172, R173). -/
def execTmma (c : Nat) (f : TmmaF) (s : State) : Out :=
  let i : Ins := { h := f.h, illegal := f.h.x || f.rsv != 0, srcS := [f.sk.toNat], reads := [f.ta.toNat, f.tb.toNat]
                   unit := some f.eng.toNat, acc := some (f.eng.toNat, f.acc.toNat, true) }
  s.issue c i (fun k l => s.tmmaFaults c f k l) fun s k _ =>
    s.enqueue c k i f.eng.toNat
      (.tmma f (k.treg f.ta.toNat) (k.treg f.tb.toNat) (k.sreg f.sk.toNat).toNat) id

/-! ### TMMA.P: R78 to R80, R174 -/

/-- Where a problem's rows begin in terms of its descriptor: row `r` and byte `c`, for the scales (R174). The largest
row that fits is taken (assumption log 16). -/
def scalePlace (t : Td) (w off m : Nat) : Option (Nat × Nat) :=
  if off < t.base || t.rows < m then none
  else
    ((upFrom 0 (t.rows - m + 1)).reverse.find? (fun r =>
      r * t.stride ≤ off - t.base && (off - t.base - r * t.stride) % (4 * w) = 0)).map
      (fun r => (r, off - t.base - r * t.stride))

/-- A problem breaks R80 or R174. -/
def probBad (a b : Td) (fa fb : Fmt) (p : Prob) : Bool :=
  8 < p.m || (p.m != 0 &&
    (p.n = 0 || 8 < p.n || p.reserved || p.aOff % 16 != 0 || p.bOff % 16 != 0
      || (a.scaled && (scalePlace a fa.width p.aOff p.m).isNone)
      || (b.scaled && (scalePlace b fb.width p.bOff p.n).isNone)))

/-- The bytes one side of an enabled problem reads lie in the scratchpad (R80, R160). -/
def probFits (t : Td) (f : Fmt) (kk off m : Nat) : Bool :=
  rowsFit off t.stride m (kk * f.width / 8)
    && (match t.scaled, scalePlace t f.width off m with
        | true, some (r, c) => rowsFit (t.sbase + r * t.sstride + c / (4 * f.width)) t.sstride m ((kk + 31) / 32)
        | _, _ => true)

/-- The problem table (R79). -/
def State.probTable (s : State) (c off : Nat) : List Byte := s.scrRead c off 256

/-- What a TMMA.P checks at issue. An odd repeat count in the 0.5x class raises ILLEGAL_SHAPE as for a TMMA (R57; assumption
log 136). -/
def State.tmmapFaults (s : State) (c : Nat) (f : TmmaF) (k : Core) (l : Launch) : IssueFaults :=
  let a := tdOf (k.treg f.ta.toNat)
  let b := tdOf (k.treg f.tb.toNat)
  let off := (k.sreg f.sk.toNat).toNat
  match pairOf a b with
  | none => { engine := !s.engineOk c l.twin f.eng.toNat, format := true }
  | some (fa, fb) =>
    let kk := kTotal fa fb f.rpt.toNat
    let ps := (upFrom 0 16).map (probAt (s.probTable c off))
    let inside := off + 256 ≤ scratchSize
    { engine := !s.engineOk c l.twin f.eng.toNat
      format := !pairOk fa fb
      shape := rptBad fa fb f.rpt.toNat || a.badShape || b.badShape || off % 256 != 0
        || (inside && ps.any (probBad a b fa fb))
      bounds := !inside || ps.any (fun p => p.m != 0 && !(probFits a fa kk p.aOff p.m && probFits b fb kk p.bOff p.n)) }

/-- TMMA.P: issues to its engine's queue with the problem table it read (R174, R79). -/
def execTmmaP (c : Nat) (f : TmmaF) (s : State) : Out :=
  let i : Ins := { h := f.h, illegal := f.h.x || f.rsv != 0 || f.zero, srcS := [f.sk.toNat]
                   reads := [f.ta.toNat, f.tb.toNat]
                   unit := some f.eng.toNat, acc := some (f.eng.toNat, f.acc.toNat, true) }
  s.issue c i (fun k l => s.tmmapFaults c f k l) fun s k _ =>
    let off := (k.sreg f.sk.toNat).toNat
    match s.rowsBad c off 0 1 256 with
    | some o => (s.scratchRecord c o (.tile 3 0 k.launch)).issueFault c { code := excUncorrectable, pc := k.pc.toNat, va := 0, trap := 0 }
    | none =>
      s.enqueue c k i f.eng.toNat
        (.tmmap f (k.treg f.ta.toNat) (k.treg f.tb.toNat) (s.probTable c off)) id

/-! ### Retirement: R61, R64, R86 -/

/-- The oldest begun instruction of engine `e` that is a readout, or is not. -/
def Core.onEngine (k : Core) (e : Nat) (readout : Bool) : Option Job :=
  k.jobs.find? (fun j => j.unit == e && j.begun && (match j.kind with
    | .readout _ _ => readout
    | _ => !readout))

/-- The engines whose tiles an instruction on engine `e` writes (R83). -/
def twinEngines (twin : Bool) (e : Nat) : List Nat := if twin then [e, e + 1] else [e]

/-- Write output elements to the tile on each engine of a pair. -/
def Core.accWrite (k : Core) (es : List Nat) (a : Nat) (out : List (Nat × Nat × Nat)) : Core :=
  es.foldl (fun k e => out.foldl (fun k o => k.accPut e a o.1 o.2.1 (BitVec.ofNat 32 o.2.2)) k) k

/-- The output elements of a TMMA: row, column, value. -/
def State.tmmaOut (s : State) (c : Nat) (f : TmmaF) (a b : Td) (fa fb : Fmt) (koff : Nat) : List (Nat × Nat × Nat) :=
  let k := s.core c
  let kk := kTotal fa fb f.rpt.toNat
  (upFrom 0 a.rows).flatMap (fun i =>
    let ra := s.rowBits c fa (a.base + i * a.stride + koff * fa.width / 8) kk
    (upFrom 0 b.rows).map (fun j =>
      let rb := s.rowBits c fb (b.base + j * b.stride + koff * fb.width / 8) kk
      (i, j, outElem fa fb kk f.zero (k.accAt f.eng.toNat f.acc.toNat i j).toNat ra rb
        (fun t => s.tileScale c a i (koff / 32 + t / 4)) (fun t => s.tileScale c b j (koff / 32 + t / 4)))))

/-- The output elements of one problem of a TMMA.P (R78, R174). -/
def State.probOut (s : State) (c : Nat) (f : TmmaF) (a b : Td) (fa fb : Fmt) (p : Nat) (q : Prob) :
    List (Nat × Nat × Nat) :=
  let k := s.core c
  let kk := kTotal fa fb f.rpt.toNat
  let sc (t : Td) (x : Fmt) (off m i t8 : Nat) : Nat :=
    match t.scaled, scalePlace t x.width off m with
    | true, some (r, cc) => s.tileScale c t (r + i) (cc / (4 * x.width) + t8 / 4)
    | _, _ => 0x7F
  (upFrom 0 q.m).flatMap (fun i =>
    let ra := s.rowBits c fa (q.aOff + i * a.stride) kk
    (upFrom 0 q.n).map (fun j =>
      let rb := s.rowBits c fb (q.bOff + j * b.stride) kk
      let row := 8 * (p / 4) + i
      let col := 8 * (p % 4) + j
      (row, col, outElem fa fb kk q.zero (k.accAt f.eng.toNat f.acc.toNat row col).toNat ra rb
        (sc a fa q.aOff q.m i) (sc b fb q.bOff q.n j))))

/-- An uncorrectable word among the bytes a TMMA reads. -/
def State.tmmaBad (s : State) (c : Nat) (t : Td) (f : Fmt) (koff kk : Nat) : Option Nat :=
  (s.rowsBad c (t.base + koff * f.width / 8) t.stride t.rows (kk * f.width / 8)).or
    (if t.scaled then s.rowsBad c (t.sbase + koff / 32) t.sstride t.rows ((kk + 31) / 32) else none)

/-- An uncorrectable word among the bytes one side of a problem reads. -/
def State.probSideBad (s : State) (c : Nat) (t : Td) (f : Fmt) (kk off m : Nat) : Option Nat :=
  (s.rowsBad c off t.stride m (kk * f.width / 8)).or
    (match t.scaled, scalePlace t f.width off m with
     | true, some (r, cc) =>
       s.rowsBad c (t.sbase + r * t.sstride + cc / (4 * f.width)) t.sstride m ((kk + 31) / 32)
     | _, _ => none)

/-- What an engine job finds when it runs: an uncorrectable word, or its output elements. -/
def State.engineRun (s : State) (c : Nat) (j : Job) : Option Nat × List (Nat × Nat × Nat) :=
  match j.kind with
  | .tmma f da db koff =>
    let a := tdOf da
    let b := tdOf db
    match pairOf a b with
    | none => (none, [])
    | some (fa, fb) =>
      let kk := kTotal fa fb f.rpt.toNat
      ((s.tmmaBad c a fa koff kk).or (s.tmmaBad c b fb koff kk), s.tmmaOut c f a b fa fb koff)
  | .tmmap f da db tbl =>
    let a := tdOf da
    let b := tdOf db
    match pairOf a b with
    | none => (none, [])
    | some (fa, fb) =>
      let kk := kTotal fa fb f.rpt.toNat
      let ps := ((upFrom 0 16).map (fun p => (p, probAt tbl p))).filter (fun p => p.2.m != 0)
      (ps.findSome? (fun p => (s.probSideBad c a fa kk p.2.aOff p.2.m).or (s.probSideBad c b fb kk p.2.bOff p.2.n)),
       ps.flatMap (fun p => s.probOut c f a b fa fb p.1 p.2))
  | _ => (none, [])

/-- The record of a TWIN_MISMATCH (R86). The syndrome holds both words, which this model does not follow apart: a free
value. -/
def State.twinRecord (s : State) (c e a : Nat) (x : TwinFault) (w : Cause) : State :=
  let (s, d) := s.draw
  let sub := x.row.toNat / 8 + x.col.toNat / 8 * 2 ^ 8 + a * 2 ^ 16
  s.logBy w { errRec (s.corePath c (e / 2 * 2) sub) 0x07 2 with
    coord := x.row.toNat + x.col.toNat * 2 ^ 8 + a * 2 ^ 32, syndrome := (Config.freeWord d).toNat }

/-- The launch on core `c` runs in twin mode. -/
def State.twinCore (s : State) (c : Nat) : Bool :=
  match (s.core c).launch with
  | some l => l.twin
  | none => false

/-- TMMA_RETIRE: engine `eng` finishes the last update of its oldest running TMMA or TMMA.P (R64): the sums of R61 go to
the accumulator tile. A twin mismatch leaves the tile undefined and raises TWIN_MISMATCH (R86). -/
def execTmmaRetire (c : Nat) (eng : Nat) (x : Option TwinFault) (s : State) : Out :=
  whenPowered s <| withSome ((s.core c).onEngine eng false) fun j =>
    let twin := s.twinCore c
    let a := match j.kind.accTile with
      | some (_, a, _) => a
      | none => 0
    let es := twinEngines twin eng
    let spill (s : State) : Act :=
      let (s, d) := s.draw
      let s := s.modCore c (fun k => es.foldl (fun k e => k.accSpill e a (d + e)) k)
      .next ((s.finishJob c j false).withFresh (s.fresh + 4) |>.after c)
    match x with
    | some f => whenIt twin (spill ((s.twinRecord c eng a f (s.jobCause c j.kind)).execFault c j excTwin 0))
    | none =>
      match s.engineRun c j with
      | (some off, _) => spill ((s.scratchRecord c off (s.jobCause c j.kind)).execFault c j excUncorrectable 0)
      | (none, out) =>
        if j.tainted then spill s
        else .next (((s.modCore c (fun k => k.accWrite es a out)).finishJob c j false).after c)

/-! ### The accumulator form of TST: R183 -/

/-- TST_ACC: reads an accumulator tile out into TD as 32-bit words (R183, R74, R75). -/
def execTstAcc (c : Nat) (f : TldF) (s : State) : Out :=
  let i : Ins := { h := f.h, illegal := f.h.x || f.rsv != 0 || f.add || f.sc, writes := [f.td.toNat]
                   unit := some f.eng.toNat, acc := some (f.eng.toNat, f.atile.toNat, false) }
  let faults (k : Core) (l : Launch) : IssueFaults :=
    let t := tdOf (k.treg f.td.toNat)
    { engine := !s.engineOk c l.twin f.eng.toNat
      format := t.fmt != 9 && t.fmt != 10
      shape := t.badShape || 32 < t.rows || 32 < t.elems
      bounds := !t.fits }
  s.issue c i faults fun s k _ =>
    s.enqueue c k i f.eng.toNat (.readout f (k.treg f.td.toNat)) id

/-- The rows a readout writes. -/
def Core.readoutRows (k : Core) (f : TldF) (t : Td) : List (List Nat) :=
  (upFrom 0 t.rows).map (fun r => (upFrom 0 t.elems).map (fun j =>
    (k.accAt f.eng.toNat f.atile.toNat r j).toNat))

/-- READOUT_COMPLETE: the oldest running readout of engine `eng` has written its destination (R75, R183). A twin
mismatch leaves the destination undefined and raises TWIN_MISMATCH (R86). -/
def execReadoutComplete (c : Nat) (eng : Nat) (x : Option TwinFault) (s : State) : Out :=
  whenPowered s <| withSome ((s.core c).onEngine eng true) fun j =>
    match j.kind with
    | .readout f d =>
      let t := tdOf d
      match x with
      | some y =>
        whenIt (s.twinCore c) <|
          let s := (s.twinRecord c eng f.atile.toNat y (s.jobCause c j.kind)).execFault c j excTwin 0
          .next (((s.spillRows c t.base t.stride t.rows t.rowBytes).finishJob c j false).after c)
      | none =>
        let s := if j.tainted then s.spillRows c t.base t.stride t.rows t.rowBytes
          else s.putRows c t 0 ((s.core c).readoutRows f t)
        .next ((s.finishJob c j false).after c)
    | _ => notNow

end Sys2Proof.Machine
end

