-- ==== Sys2Proof/Machine/Proof.lean ====
section
/-! DEFINITION. Machine/Proof.lean: what a proof run computes from its seed: the operands of its pattern generator, the
accumulator tiles of its eight passes, and the digests of an engine and of a vector unit (R540). -/

namespace Sys2Proof.Machine

/-- Word `n` of the pattern generator for a seed: mix(S + n × γ) (R540). -/
def patternWord (seed : BitVec 64) (n : Nat) : Nat := (splitMix (seed + BitVec.ofNat 64 n * gamma)).toNat

/-- The byte of element `k` of row `r` of an operand in pass `j`; `x` is 0 for A and 1 for B (R540). -/
def patternByte (seed : BitVec 64) (j x r k : Nat) : Nat :=
  patternWord seed (1 + j * 2 ^ 18 + x * 2 ^ 17 + r * 2 ^ 12 + k / 8) / 2 ^ (8 * (k % 8)) % 256

/-- The operand formats of a pass (R540). -/
def passFormats (j : Nat) : Fmt × Fmt :=
  if j < 6 then (.int8, .int8) else if j = 6 then (.e4m3, .e4m3) else (.e4m3, .e2m1)

/-- An element of an operand from its byte: an E4M3 NaN is 0, and of a byte for a 4-bit element the part that counts is not
stated (assumption log 159). -/
def patternElem (f : Fmt) (b : Nat) : Nat :=
  if f == .e4m3 && (b == 0x7F || b == 0xFF) then 0
  else if f.width = 4 then Config.proofNibble b % 16 else b

/-- A row of an operand as one number, its elements in ascending K order. -/
def patternRow (seed : BitVec 64) (j x r kk : Nat) : Nat :=
  let f := if x = 0 then (passFormats j).1 else (passFormats j).2
  (upFrom 0 kk).foldl (fun a k => a + patternElem f (patternByte seed j x r k) * 2 ^ (k * f.width)) 0

/-- The 32 × 32 elements of an accumulator tile after a pass of R = 256 over `old`, in row-major order (R61, R540). -/
def passTile (seed : BitVec 64) (j : Nat) (zero : Bool) (old : List Nat) : List Nat :=
  let fa := (passFormats j).1
  let fb := (passFormats j).2
  let kk := kTotal fa fb 255
  (upFrom 0 32).flatMap (fun m =>
    let ra := patternRow seed j 0 m kk
    (upFrom 0 32).map (fun n =>
      outElem fa fb kk zero (old.getD (32 * m + n) 0) ra (patternRow seed j 1 n kk) (fun _ => 0x7F) (fun _ => 0x7F)))

/-- Tiles a0, a1 and a2 of every engine after the eight passes: six into a0, the first with ZERO, one each into a1 and a2, which
are taken to begin at zero too (R540; assumption log 159). -/
def proofTiles (seed : BitVec 64) : List Nat :=
  (upFrom 0 6).foldl (fun t j => passTile seed j (j == 0) t) [] ++ passTile seed 6 true [] ++ passTile seed 7 true []

/-- A digest of 32-bit words: from 0, D ← mix(D XOR w) (R540). -/
def digestOf (ws : List Nat) : BitVec 64 := ws.foldl (fun d w => splitMix (d ^^^ BitVec.ofNat 64 w)) 0

/-- The digest of an engine without fault (R540). -/
def proofDigest (seed : BitVec 64) : BitVec 64 := digestOf (proofTiles seed)

/-- An FP32 operand of a multiply-add of the vector unit: a 32-bit half of a word of the generator with x = 2. Which one no rule
says (assumption log 159). -/
def vectorOperand (seed : BitVec 64) (i o : Nat) : BitVec 32 :=
  let p := Config.proofPlace i o
  BitVec.ofNat 32 (patternWord seed (1 + 2 * 2 ^ 17 + p / 2) / 2 ^ (32 * (p % 2)))

/-- The digest of a vector unit without fault: of its 32 fused multiply-adds (R540). -/
def proofVector (seed : BitVec 64) : BitVec 64 :=
  digestOf ((upFrom 0 32).map (fun i =>
    (f32Fma (vectorOperand seed i 0) (vectorOperand seed i 1) (vectorOperand seed i 2)).toNat))

/-- The digests that engines form, by what a fault changes in each (R540). -/
def digestsOf (seed : BitVec 64) (faults : List (BitVec 64)) : List (BitVec 64) := faults.map (proofDigest seed ^^^ ·)

end Sys2Proof.Machine
end

