-- ==== Sys2Proof/Machine/Peel.lean ====
section
/-! DEFINITION. Machine/Peel.lean: the peel engine's commands, moves and charges (R252 to R280). -/

namespace Sys2Proof.Machine

/-! ### The command ring: R269, R271 -/

/-- Status codes of the table "Command status". -/
def stDone : Nat := 1
def stNoop : Nat := 2
def stTicket : Nat := 3
def stPinned : Nat := 4
def stQuota : Nat := 5
def stNoVictim : Nat := 6
def stUnbacked : Nat := 7
def stSlot : Nat := 8
def stBad : Nat := 9

/-- Commands in the ring; 0 when its size is reserved (R279). -/
def State.cmdRing (s : State) : Nat :=
  let n := s.regN (rPeel 0x4038) % 32
  if 6 ≤ n && n ≤ 16 then 2 ^ n else 0

/-- The address of a command. -/
def State.cmdAddr (s : State) (idx : Nat) : Nat := s.regN (rPeel 0x4030) + idx % (max s.cmdRing 1) * 32

/-- The command in its slot of the ring (R269). -/
def State.readCmd (s : State) (idx : Nat) : PeelCmd :=
  let b := s.sysRead (s.cmdAddr idx) 32
  { idx := idx, op := leAt b 0 1, flags := leAt b 1 1, ctx := leAt b 2 2, operand := leAt b 4 4
    start := BitVec.ofNat 64 (leAt b 8 8), phase := 0, status := 0, victim := 0, batch := none
    rsv := leAt b 18 2 != 0 }

/-- Replace a command. -/
def State.setCmd (s : State) (c : PeelCmd) : State :=
  s.withPeel { s.peel with cmds := s.peel.cmds.map (fun x => if x.idx == c.idx then c else x) }

/-- HEAD moves past every command that has completed, in ring order (R271). -/
def State.advanceHead (s : State) : Nat → State
  | 0 => s
  | n + 1 =>
    let head := s.regN (rPeel 0x4040)
    if s.peel.cmds.any (fun c => c.idx == head && c.phase == 3) then
      State.advanceHead
        ((s.withPeel { s.peel with cmds := s.peel.cmds.filter (fun c => c.idx != head) }).setReg (rPeel 0x4040)
          (BitVec.ofNat 64 ((head + 1) % 2 ^ 32))) n
    else s

/-- A command completes (R271): VICTIM when one was evicted, DONE_TIME, STATUS, then HEAD. -/
def State.endCmd (s : State) (c : PeelCmd) (status : Nat) (victim : Option Nat) : State :=
  let a := s.cmdAddr c.idx
  let s := match victim with
    | some v => s.sysWrite (a + 20) (toBytes 4 v)
    | none => s
  let s := s.sysWrite (a + 24) (toBytes 8 s.now.toNat)
  let s := s.sysWrite (a + 16) (toBytes 2 status)
  (s.setCmd { c with phase := 3, status := status }).advanceHead s.peel.cmds.length

/-- The first command that may start next (R269, R270, R273). -/
def State.cmdFirst (s : State) : Option PeelCmd :=
  if !s.peel.quotaReady then none else s.peel.cmds.find? (fun c => c.phase == 0 && c.batch.isNone)

/-- Commands with a reserved opcode complete in their turn (R269 to R271). -/
def State.badCmds (s : State) : Nat → State
  | 0 => s
  | n + 1 =>
    match s.cmdFirst with
    | some c => if c.op = 0 || 9 < c.op then State.badCmds (s.endCmd c stBad none) n else s
    | none => s

/-- What follows when a command has started: reserved ones that come after it complete. -/
def State.cmdsOn (s : State) : State := s.badCmds s.peel.cmds.length

/-- The command a row names: fetched, not started, not held, and next in ring order (R269, R270). -/
def State.cmdNext (s : State) (i op : Nat) : Option PeelCmd :=
  s.cmdFirst.filter (fun c => c.idx == i && c.op == op)

/-- A reserved field of a command that is not zero (R269). -/
def PeelCmd.bad (c : PeelCmd) : Bool := c.flags / 4 != 0 || 2 ^ 12 ≤ c.ctx || c.rsv

/-! ### Charges: R272 to R275 -/

/-- The address of the quota entry of a context. -/
def State.quotaAddr (s : State) (ctx : Nat) : Nat := s.regN (rPeel 0x4048) + ctx * 32

/-- The peel engine reads the quota entry of a context. -/
def State.readQuota (s : State) (ctx : Nat) : State := s.homeRead (s.quotaAddr ctx) 32

/-- Quota of a tier; 0xFFFF_FFFF is no limit. -/
def State.quota (s : State) (ctx t : Nat) : Nat := s.sysNat (s.quotaAddr ctx + 8 * t) 4

/-- Charge of a tier. -/
def State.charge (s : State) (ctx t : Nat) : Nat := s.sysNat (s.quotaAddr ctx + 8 * t + 4) 4

/-- Write a charge. -/
def State.setCharge (s : State) (ctx t v : Nat) : State := s.sysWrite (s.quotaAddr ctx + 8 * t + 4) (toBytes 4 v)

/-- A charge of `n` more fits the quota. -/
def State.fitsQuota (s : State) (ctx t n : Nat) : Bool :=
  s.quota ctx t = 2 ^ 32 - 1 || s.charge ctx t + n ≤ s.quota ctx t

/-- Move one block of a context's charge from tier `a` to tier `b`. -/
def State.moveCharge (s : State) (ctx a b : Nat) : State :=
  let s := s.readQuota ctx
  let s := s.setCharge ctx a (s.charge ctx a - 1)
  s.setCharge ctx b (s.charge ctx b + 1)

/-- R273: the table's C words when DRAMC_QUOTA_BASE first takes a live value. -/
def State.quotaInit (s : State) : State :=
  let blocks (t : Nat) : Nat := if t = 1 then s.peel.h - 16 else if t = 2 then s.peel.d - 16 else 0
  let s := (upFrom 0 4096).foldl (fun s ctx => (upFrom 0 4).foldl (fun s t =>
    s.setCharge ctx t (if ctx = 0 then blocks t else 0)) s) s
  (s.withPeel { s.peel with quotaReady := true }).cmdsOn

/-! ### Moves: R252 to R259 -/

/-- The moves that may run at once (R279); a reserved value leaves the reset value in force (assumption log 21). -/
def State.maxMoves (s : State) : Nat :=
  let n := bitsOf (s.regN (rPeel 0x4008)) 14 10
  if 1 ≤ n && n ≤ 16 then n else 4

/-- One member of a list, the free one where several could be taken (assumption log 57). -/
def pickFree (k : Nat) (l : List Nat) : Nat :=
  match l with
  | [a] => a
  | l => l.getD ((Config.freeWord k).toNat % max 1 l.length) 0

/-- A free move slot, when fewer moves run than may (R279); which one is left open (assumption log 57). -/
def State.freeSlot (s : State) : Option Nat :=
  if s.maxMoves ≤ s.peel.moves.length then none
  else match (upFrom 0 16).filter (fun i => !s.peel.moves.any (fun m => m.slot == i)) with
    | [] => none
    | l => some (pickFree s.fresh l)

/-- A block number of R243: one that the present frames give. -/
def State.isBlock (s : State) (b : Nat) : Bool := b < s.peel.h + s.peel.d

/-- The block whose HBM frame is `f`, when it may be evicted (R259). -/
def State.victimAt (s : State) (f : Nat) : Option Nat :=
  match s.peel.remap.find? (fun e => e.2.tier == 0 && e.2.frame == f && e.2.state == 0 && !e.2.ticket) with
  | some e => some e.1
  | none => if f < s.peel.h - 16 && (s.peel.remap.get? f).isNone then some f else none

/-- Victim selection over at most `n` windows of 64 frames (R259): the block, and the pointer afterwards. -/
def State.pickVictim (s : State) : Nat → Nat → Option Nat × Nat
  | 0, ptr => (none, ptr)
  | n + 1, ptr =>
    let fs := (upFrom ptr 64).map (· % (max s.peel.h 1))
    let best := fs.foldl (fun (a : Option (Nat × Nat × Nat)) f =>
      match s.victimAt f with
      | none => a
      | some b =>
        let c := (s.remap b).count
        match a with
        | none => some (c, f, b)
        | some (c', f', _) => if c < c' || (c = c' && f < f') then some (c, f, b) else a) none
    match best with
    | some (_, _, b) => (some b, (ptr + 64) % (max s.peel.h 1))
    | none => State.pickVictim s n ((ptr + 64) % (max s.peel.h 1))

/-- The vacant frames of a tier that no running move copies to, and that no victim has freed for the promotion that follows it
(R245, R258). -/
def State.freeFrames (s : State) (hbm : Bool) : List Nat :=
  let dest := (s.peel.moves.filter (fun m => m.up == hbm && !m.switched)).map Move.frame
  let kept := if hbm then s.peel.moves.filterMap Move.kept else []
  (if hbm then s.peel.vacantHbm else s.peel.vacantDram).filter (fun f => !dest.contains f && !kept.contains f)

/-- A move begins on every controller of both tiers: those that are gated power up (R250, R331). -/
def State.wakeAll (s : State) : State :=
  if s.power.gated.isEmpty then s else ((upFrom 0 32).filter s.ctlInUse).foldl State.wakeCtl s

/-- Start copying a block: its state, its ticket and slot, the vacant frame it goes to: the one its victim has freed, else one
that is left open (R245, R252, R254, R258; assumption log 57). -/
def State.beginMove (s : State) (slot b : Nat) (up pin victim : Bool) (cmd : Nat) (kept : Option Nat) : State :=
  let r := s.remap b
  let f := kept.getD (pickFree (s.fresh + 1) (s.freeFrames up))
  let s := (s.wakeAll.withFresh (s.fresh + 2)).setRemap b { r with state := if up then 2 else 3, ticket := true, slot := slot }
  s.withPeel { s.peel with moves := s.peel.moves ++
    [{ slot := slot, block := b, up := up, frame := f, pin := pin, switching := false, switched := false, cmd := cmd, victim := victim }] }

/-- A move down: an EVICT, or a PIN to DRAM (R274: the charge moves at the ticket and is never refused). -/
def State.startDown (s : State) (c : PeelCmd) (slot b : Nat) (pin : Bool) : State :=
  let s := s.moveCharge (s.remap b).owner 1 2
  (s.beginMove slot b false pin false c.idx none).setCmd { c with phase := 2 }

/-- A move up: a PROMOTE, or a PIN to HBM (R258, R274). -/
def State.startUp (s : State) (c : PeelCmd) (slot b : Nat) (pin : Bool) : State :=
  let owner := (s.remap b).owner
  let s := s.readQuota owner
  if !s.fitsQuota owner 1 1 then s.endCmd c stQuota none
  else if !(s.freeFrames true).isEmpty then
    ((s.moveCharge owner 2 1).beginMove slot b true pin false c.idx none).setCmd { c with phase := 2 }
  else
    let v := s.pickVictim 16 s.peel.pointer
    let s := s.withPeel { s.peel with pointer := v.2 }
    match v.1 with
    | none => s.endCmd c stNoVictim none
    | some v =>
      let s := s.moveCharge owner 2 1
      let s := s.setRemap b { s.remap b with ticket := true, slot := slot }
      let s := s.moveCharge (s.remap v).owner 1 2
      (s.beginMove slot v false false true c.idx none).setCmd { c with phase := 2, victim := v + 1 }

/-- A command that needs a block's ticket, up or down (R252, R253, R260). With WAIT it waits for a held ticket, unless
another command waits already. `none`: no move slot, or for a move down no DRAM frame, is free yet (assumption log 57). -/
def State.startMove (s : State) (c : PeelCmd) (up pin : Bool) : Option State :=
  let b := c.operand
  if c.bad || !s.isBlock b then some (s.endCmd c stBad none)
  else
    let r := s.remap b
    if r.state = 7 then some (s.endCmd c stUnbacked none)
    else if r.state = 4 && !(pin && (r.tier = 0) == up) then some (s.endCmd c stPinned none)
    else if r.ticket then
      if bitOf c.flags 0 && !s.peel.cmds.any (fun x => x.phase == 1 && x.operand == b && x.op ≤ 3) then
        some (s.setCmd { c with phase := 1 })
      else some (s.endCmd c stTicket none)
    else if (r.tier = 0) == up then
      if pin then some ((s.setRemap b { r with state := 4 }).endCmd c stDone none)
      else some (s.endCmd c stNoop none)
    else match s.freeSlot with
      | none => none
      | some slot =>
        if up then some (s.startUp c slot b pin)
        else if (s.freeFrames false).isEmpty then none else some (s.startDown c slot b pin)

/-- Start a waiting or next command again, by its opcode. -/
def State.restart (s : State) (c : PeelCmd) : State :=
  let r := match c.op with
    | 1 => s.startMove c true false
    | 2 => s.startMove c false false
    | _ => s.startMove c (!bitOf c.flags 1) true
  match r with
  | some s => s
  | none => s.setCmd { c with phase := 0 }

/-- A command by its row: `none` of the shared start means that no move slot is free yet. -/
def State.moveCmd (s : State) (i op : Nat) (go : State → PeelCmd → Option State) : Out :=
  whenPowered s <| withSome (s.cmdNext i op) fun c => withSome (go s c) fun s => .next s.cmdsOn

/-- PROMOTE: moves a block from DRAM to HBM (R252, R258). -/
def execPromote (i : Nat) (s : State) : Out := s.moveCmd i 1 (fun s c => s.startMove c true false)

/-- EVICT: moves a block from HBM to DRAM (R252). -/
def execEvict (i : Nat) (s : State) : Out := s.moveCmd i 2 (fun s c => s.startMove c false false)

/-- PIN: pins a block in the tier of its flag, moving it first if it must (R261). -/
def execPin (i : Nat) (s : State) : Out := s.moveCmd i 3 (fun s c => s.startMove c (!bitOf c.flags 1) true)

/-- UNPIN: returns a pinned block to its resident state (R261). -/
def execUnpin (i : Nat) (s : State) : Out :=
  s.moveCmd i 4 fun s c =>
    let r := s.remap c.operand
    some (if c.bad || !s.isBlock c.operand then s.endCmd c stBad none
      else if r.state = 7 then s.endCmd c stUnbacked none
      else if r.state = 4 then (s.setRemap c.operand { r with state := r.tier }).endCmd c stDone none
      else s.endCmd c stNoop none)

/-- The tier a block is charged to: the destination once a move holds its ticket (R274). -/
def State.chargedTier (s : State) (b : Nat) : Nat :=
  let r := s.remap b
  if r.ticket && !s.peel.moves.any (fun m => m.block == b && m.switched) then 2 - r.tier else 1 + r.tier

/-- SET_OWNER: changes a block's owner tag and the charges (R274). -/
def execSetOwner (i : Nat) (s : State) : Out :=
  s.moveCmd i 5 fun s c =>
    let b := c.operand
    let r := s.remap b
    let t := s.chargedTier b
    let s := (s.readQuota r.owner).readQuota c.ctx
    some (if c.bad || !s.isBlock b then s.endCmd c stBad none
      else if r.state = 7 then s.endCmd c stUnbacked none
      else if r.owner != c.ctx && !s.fitsQuota c.ctx t 1 then s.endCmd c stQuota none
      else
        let s := s.setCharge r.owner t (s.charge r.owner t - 1)
        let s := s.setCharge c.ctx t (s.charge c.ctx t + 1)
        (s.setRemap b { s.remap b with owner := c.ctx }).endCmd c stDone none)

/-- Index `x` is among the `n` that follow index `c`: the indices run free modulo 2^32 (R269, R270). -/
def isBatched (c n x : Nat) : Bool :=
  let d := (x + 2 ^ 32 - c) % 2 ^ 32
  0 < d && d ≤ n

/-- BATCH: holds the following commands until START, or starts them at once when START lies in the past (R270). -/
def execBatch (i : Nat) (s : State) : Out :=
  s.moveCmd i 6 fun s c =>
    some (if c.bad || c.operand = 0 || 256 < c.operand then s.endCmd c stBad none
      else if s.reached (strokeOf c.start) then s.endCmd c stDone none
      else
        let s := s.withPeel { s.peel with cmds := s.peel.cmds.map (fun x =>
          if isBatched c.idx c.operand x.idx && x.phase == 0 then { x with batch := some c.idx } else x) }
        s.setCmd { c with phase := 1 })

/-- BATCH_START: at the START stroke of BATCH `i` the commands it holds may start, and it completes (R270). -/
def execBatchStart (i : Nat) (s : State) : Out :=
  whenPowered s <| withSome (s.peel.cmds.find? (fun c => c.idx == i && c.op == 6 && c.phase == 1)) fun c =>
    whenIt (s.reached (strokeOf c.start) && s.dueFirst s.eventLines (lineOf c.start)) <|
      let s := s.withPeel { s.peel with cmds := s.peel.cmds.map (fun x =>
        if x.batch == some i then { x with batch := none } else x) }
      .next (s.endCmd c stDone none).cmdsOn

/-- Core, first slot and count of T0_ALLOC and T0_FREE, when they name slots of a present core (R269). -/
def State.t0Range (s : State) (c : PeelCmd) : Option (Nat × Nat × Nat) :=
  let core := bitsOf c.operand 6 0
  let first := bitsOf c.operand 12 7
  let n := bitsOf c.operand 19 13
  if c.bad || c.operand / 2 ^ 20 != 0 || 64 < first + n || !s.corePresent core then none else some (core, first, n)

/-- T0_ALLOC: gives a run of free scratchpad slots to a context (R276). -/
def execT0Alloc (i : Nat) (s : State) : Out :=
  s.moveCmd i 7 fun s c =>
    some (match s.t0Range c with
      | none => s.endCmd c stBad none
      | some (core, first, n) =>
        let keys := (upFrom first n).map (fun x => core * 64 + x)
        if keys.any (fun k => (s.peel.t0.get? k).isSome) then s.endCmd c stSlot none
        else
        let s := s.readQuota c.ctx
        if !s.fitsQuota c.ctx 0 n then s.endCmd c stQuota none
        else
          let s := s.setCharge c.ctx 0 (s.charge c.ctx 0 + n)
          (s.withPeel { s.peel with t0 := keys.foldl (fun t k => t.put k c.ctx) s.peel.t0 }).endCmd c stDone none)

/-- T0_FREE: returns scratchpad slots the context holds (R276). -/
def execT0Free (i : Nat) (s : State) : Out :=
  s.moveCmd i 8 fun s c =>
    some (match s.t0Range c with
      | none => s.endCmd c stBad none
      | some (core, first, n) =>
        let keys := (upFrom first n).map (fun x => core * 64 + x)
        if keys.any (fun k => s.peel.t0.get? k != some c.ctx) then s.endCmd c stSlot none
        else
          let s := s.readQuota c.ctx
          let s := s.setCharge c.ctx 0 (s.charge c.ctx 0 - n)
          (s.withPeel { s.peel with t0 := keys.foldl (fun t k => t.erase k) s.peel.t0 }).endCmd c stDone none)

/-- T3_CHARGE: changes a context's T3 charge by a signed number of blocks (R274). -/
def execT3Charge (i : Nat) (s : State) : Out :=
  s.moveCmd i 9 fun s c =>
    let d := signed c.operand 32
    let s := s.readQuota c.ctx
    let z : Int := (s.charge c.ctx 3 : Int) + d
    some (if c.bad || z < 0 then s.endCmd c stBad none
      else if 0 < d && !s.fitsQuota c.ctx 3 d.toNat then s.endCmd c stQuota none
      else (s.setCharge c.ctx 3 z.toNat).endCmd c stDone none)

/-- What the check bits found as the copy of a move read its block (R254, R316). A sector that has been written whole, in the
destination frame too, since the copy read it is not poisoned. -/
def State.copyEcc (s : State) (m : Move) (e : Ecc) : State :=
  let s := s.noteFlaws e
  s.findFlaws (fun f => blockOf (f.sector * 32) == m.block) (fun s f =>
    let n := (s.homeOf (f.sector * 32)).1
    if f.hard && m.mirrored.contains f.sector then s.rowFailed n f.row.toNat (f.sector * 32) else s.eccFind n f)
    s.mem.flaws.length

/-- The lines of the block of a move that have a holder, or may get one of a request that was accepted before the switch. -/
def State.switchLines (s : State) (b : Nat) : List Nat :=
  (((s.mem.dir.map Prod.fst) ++ s.mem.txns.map (fun t => t.req.line) ++ s.mem.waitq.map HomeReq.line).filter
    (fun l => blockOf (l * 128) == b)).eraseDups

/-- MOVE_SWITCH: the copy of the move in a slot has ended (R254). From now on the homes hold new requests to the block; each
line that has a holder is taken back from all its holders, the CXL host among them, after the requests to it that had been
accepted (R255, R602). -/
def execMoveSwitch (m : MoveCopied) (s : State) : Out :=
  let e := m.e
  let slot := m.slot
  whenPowered s <| withSome (s.peel.moves.find? (fun x => x.slot == slot)) fun m =>
    whenIt (!m.switching) <|
      let s := s.copyEcc m e
      let s := s.withPeel { s.peel with moves := s.peel.moves.map (fun x =>
        if x.slot == slot then { x with switching := true } else x) }
      .next (s.withMem { s.mem with waitq := s.mem.waitq ++ (s.switchLines m.block).map (fun l =>
        { line := l, kind := .clear, who := .peel, e := [] }) }).drainAll

/-- MOVE_SWITCH_COMPLETE: requests that were accepted have finished and no copy is left: the homes take the new tier and frame
and the held requests go on, the source frame is vacant and the ticket free; a promotion whose victim has moved goes on; a
command that waited for the ticket takes it (R253, R255, R256, R258). -/
def execMoveSwitchComplete (slot : Nat) (s : State) : Out :=
  whenPowered s <| withSome (s.peel.moves.find? (fun m => m.slot == slot)) fun m =>
    whenIt (m.switching && (m.switched || s.switchReady m)) <|
      let s := if m.switched then s else s.takeFrame m
      let kept := (s.peel.moves.find? (fun x => x.slot == slot)).bind Move.kept
      let s := s.withPeel { s.peel with moves := s.peel.moves.filter (fun x => x.slot != slot) }
      let s := s.setRemap m.block { s.remap m.block with ticket := false, slot := 0 }
      let s := match s.peel.cmds.find? (fun c => c.idx == m.cmd) with
        | none => s
        | some c =>
          if m.victim then (s.beginMove slot c.operand true (c.op = 3) false c.idx kept)
          else s.endCmd c stDone (if c.victim = 0 then none else some (c.victim - 1))
      let s := match s.peel.cmds.find? (fun c => c.phase == 1 && c.op ≤ 3 && c.operand == m.block) with
        | none => s
        | some c => s.restart c
      .next s.cmdsOn.afterAll

/-- DRAMC_BLOCK_QUERY: names the block DRAMC_BLOCK_ENTRY shows (R280). -/
def execDramcBlockQuery (v : BitVec 32) (s : State) : Out :=
  whenPowered s <| .next (s.withPeel { s.peel with query := v.toNat % 2 ^ 21 })

/-- The peel engine fetches the commands Kelza has written up to TAIL (R269), when it is enabled and the ring's size is
one of R279's; those a pending BATCH covers are held (R270). -/
def State.fetchCmds (s : State) : Nat → State
  | 0 => s
  | n + 1 =>
    let tail := s.regN (rPeel 0x403C)
    if s.peel.fetched = tail || s.cmdRing = 0 || !bitOf (s.regN (rPeel 0x4008)) 31 then s
    else
      let s := s.homeRead (s.cmdAddr s.peel.fetched) 32
      let c := s.readCmd s.peel.fetched
      let hold := s.peel.cmds.find? (fun b => b.op == 6 && b.phase == 1 && isBatched b.idx b.operand c.idx)
      let c := { c with batch := hold.map PeelCmd.idx }
      let s := s.withPeel { s.peel with cmds := s.peel.cmds ++ [c], fetched := (s.peel.fetched + 1) % 2 ^ 32 }
      State.fetchCmds s n

/-- CMD_RING_TAIL_WRITE: TAIL advances and the peel engine fetches the new commands (R269). -/
def execCmdRingTailWrite (v : BitVec 32) (s : State) : Out :=
  whenPowered s <|
    let s := s.setReg (rPeel 0x403C) (v.setWidth 64)
    .next (s.fetchCmds s.cmdRing).cmdsOn

end Sys2Proof.Machine
end

