-- ==== Sys2Proof/Machine/MemCtl.lean ====
section
/-! DEFINITION. Machine/MemCtl.lean: the commands and events of the memory controllers: patrol scrub, remap requests,
temperature, margining, directory queries (R321 to R336, R366). -/

namespace Sys2Proof.Machine

/-- The sub-unit of the `i`th row of controller `n`, in the order scrub visits them (assumption log 22). -/
def rowSub (n i : Nat) : Nat := if n < 16 then i * 2 ^ 7 else 2 ^ 31 + (n - 16) * 2 ^ 27 + i * 2

/-- The row SCRUB_POS names (R321). -/
def State.scrubRow (s : State) (n : Nat) : Nat := rowSub n (s.ctl n).scrub

/-- One sector patrol scrub finds in error (R316, R317, R321): `place` is its physical sector number. A sector of a
vacant frame or a spare has no address, and so no poison that could be seen. -/
def State.scrubHit (s : State) (n row : Nat) (e : EccHit) : State :=
  let mine := s.inTiered (e.place * 32 + s.node * 2 ^ 49) 32 && (s.homeOf (e.place * 32)).1 == n
  if !e.hard then s.correctedRow n row
  else if mine then s.uncorrectable n row e.place
  else s.rowFailed n row 0

/-- PATROL_SCRUB_VISIT: patrol scrub reads the row SCRUB_POS names and goes on to the next (R321). -/
def execPatrolScrubVisit (ctl : Nat) (errs : List EccHit) (s : State) : Out :=
  whenPowered s <| whenIt (s.ctlPresent ctl && bitOf (s.regN (rMc ctl 0x0)) 31 && !s.offline ctl) <|
    let row := s.scrubRow ctl
    let s := errs.foldl (fun s e => s.scrubHit ctl row e) s
    let s := s.findFlaws (fun f => f.row.toNat == row && (s.homeOf (f.sector * 32)).1 == ctl) (fun s f => s.eccFind ctl f)
      s.mem.flaws.length
    .next (s.setCtl ctl { s.ctl ctl with scrub := ((s.ctl ctl).scrub + 1) % rowCount ctl })

/-- REMAP_REQ: software names a row to remap; one outside the memory is refused (R322). The copy of the row finds the errors in
its sectors (R323). -/
def execRemapReq (ctl : Nat) (v : RowCopied) (s : State) : Out :=
  whenPowered s <| whenIt (s.ctlPresent ctl) <|
    if rowValid ctl v.row.toNat then .next ((s.noteFlaws v.e).remapRow ctl v.row.toNat 2)
    else .next (s.setReg (rMc ctl 0x18) (BitVec.ofNat 64 (3 * 2 ^ 62 + 2 * 2 ^ 58 + v.row.toNat)))

/-! ### Temperature: R330 -/

/-- The band of a temperature, and the lower bound of a band (R330). -/
def tempBand (t : Nat) : Nat := if t < 85 then 0 else if t < 95 then 1 else if t < 105 then 2 else 3

/-- See `tempBand`. -/
def bandLow (b : Nat) : Nat := 75 + 10 * b

/-- The band a controller runs in: a band is left downwards 3 °C below its lower bound. -/
def nextBand (b t : Nat) : Nat := if b ≤ tempBand t then tempBand t else if t + 3 ≤ bandLow b then tempBand t else b

/-- What a controller's reading gives the die throttle: a stack is part of its controller's accelerator die (R530), and a package
at 105 °C or more enters the throttle of its processor die (R330). -/
def State.ctlHeat (s : State) (n t : Nat) : State :=
  if n < 16 then
    let x := s.diePwr (n / 4)
    (s.withPower { s.power with temps := s.power.temps.put (16 + n) t }).setDiePwr (n / 4)
      { x with hot := x.hot || decide (105 ≤ t), warm := x.warm || decide (100 ≤ t) }
  else
    let d := 4 + (n - 16) / 8
    if 105 ≤ t then s.setDiePwr d { s.diePwr d with hot := true, warm := true } else s

/-- HBM_TEMP_READ: a controller reads the temperature of its stack or package (R330). -/
def execHbmTempRead (ctl : Nat) (temp : Nat) (s : State) : Out :=
  whenPowered s <| whenIt (s.ctlPresent ctl && temp < 256) <|
    let k := s.ctl ctl
    let b := nextBand k.mode temp
    let s := s.setCtl ctl { k with temp := temp, mode := b }
    let s := s.setRegBits (rMc ctl 0x4) 31 24 temp
    .next ((s.setRegBits (rMc ctl 0x4) 23 22 (min b 2)).ctlHeat ctl temp)

/-! ### Margining: R332 to R334 -/

/-- The MARGIN registers accept writes (R332, R640). -/
def State.marginOpen (s : State) : Bool :=
  s.boot.straps.getLsbD 3 && bitOf (s.regN (rHub 0x420)) 31 && bitOf (s.regN (rHub 0x420)) 0

/-- The controllers a margin run needs offline (R333): its own; of a voltage run, its rail's. -/
def marginNeeds (ctl : Nat) (volt : Bool) : List Nat :=
  if !volt then [ctl] else if ctl < 16 then upFrom (ctl / 4 * 4) 4 else upFrom 16 16

/-- MARGIN_START: a write of MARGIN_CTL; with START it begins a run, or is turned away with ABORTED (R333). -/
def execMarginStart (ctl : Nat) (v : BitVec 32) (s : State) : Out :=
  whenPowered s <| whenIt (s.ctlPresent ctl) <|
    if !s.marginOpen || (s.ctl ctl).margin then .next s
    else
      let keep := BitVec.ofNat 64 (v.toNat &&& (if ctl < 16 then 0x7E00FF00 else 0x4600FF00))
      let s := s.setReg (rMc ctl 0x80) keep
      if !bitOf v.toNat 31 then .next s
      else if (marginNeeds ctl (bitOf v.toNat 30)).all s.offline then
        .next ((s.setCtl ctl { s.ctl ctl with margin := true }).setReg (rMc ctl 0x84) 0 |>.setRegBit (rMc ctl 0x80) 31 true)
      else .next (s.setReg (rMc ctl 0x84) (BitVec.ofNat 64 (2 ^ 29)))

/-- The channel a margin run works on: CHAN of MARGIN_CTL (R336). -/
def State.marginChan (s : State) (ctl : Nat) : Nat :=
  let v := s.regN (rMc ctl 0x80)
  if ctl < 16 then bitsOf v 29 25 else bitsOf v 26 25

/-- A channel of a controller, as addresses lie on it now. -/
def State.channel (s : State) (ctl chan : Nat) : Channel :=
  { ctl := ctl, chan := chan, hs := s.pop.hs, dram := s.pop.dram, remap := s.peel.remap, h := s.peel.h, d := s.peel.d }

/-- A margin run destroys the rows it uses, of the selected channel (R334); which rows of it they are the spec does not say, so
that where the controller serves frames every byte of that channel that no cache holds modified is undefined (assumption log
132). -/
def State.marginDestroys (s : State) (ctl : Nat) : State :=
  if s.ctlInUse ctl then
    let r := s.draw
    r.1.withMem (r.1.mem.forgetIn { first := 0, len := s.tieredEnd, draw := some r.2, chan := some (s.channel ctl (s.marginChan ctl)) })
  else s

/-- MARGIN_RUN_DONE: a run ends with its count of bits in error (R334). -/
def execMarginRunDone (ctl : Nat) (errors : Nat) (s : State) : Out :=
  whenPowered s <| whenIt (s.ctlPresent ctl && (s.ctl ctl).margin) <|
    let s := (s.setCtl ctl { s.ctl ctl with margin := false }).marginDestroys ctl
    let s := s.setRegBit (rMc ctl 0x80) 31 false
    .next (s.setReg (rMc ctl 0x84)
      (BitVec.ofNat 64 (2 ^ 31 + (if errors = 0 then 2 ^ 30 else 0) + min errors 0xFFFF)))

/-! ### Directory query: R366 -/

/-- HBMC_DIR_QUERY: names the line HBMC_DIR_ENTRY shows (R366). -/
def execHbmcDirQuery (ctl : Nat) (v : BitVec 64) (s : State) : Out :=
  whenPowered s <| whenIt (s.ctlPresent ctl) <|
    .next (s.setCtl ctl { s.ctl ctl with dirQuery := v.toNat % 2 ^ 56 / 128 })

/-- HBMC_DIR_ENTRY (R366): the state of the queried line at its home. -/
def State.dirEntryView (s : State) (ctl : Nat) : BitVec 64 :=
  let pa := (s.ctl ctl).dirQuery * 128
  let line := localPart pa / 128
  if nodePart pa != s.node || (s.homeOf pa).1 != ctl then BitVec.ofNat 64 (2 ^ 61)
  else
    let e := s.dirOf line
    let busy := s.mem.txns.any (fun t => t.req.line == line)
    let state := if busy then 3 else if e.owner.isSome then 2 else if e.sharers != 0 then 1 else 0
    BitVec.ofNat 64 (state * 2 ^ 62 + e.owner.getD 0 * 2 ^ 54 + (if state = 1 then e.sharers.toNat else 0))

end Sys2Proof.Machine
end

