-- ==== Sys2Proof/Machine/Service.lean ====
section
/-! DEFINITION. Machine/Service.lean: what ends operations from outside: the end of one operation, the removal of a
context's work (R493), its reset (R492 to R500), core reset (R153), OUT_OF_SERVICE (R501, R550), and the front ends'
writes, interrupts and recipe versions that completions share (R461, R473, R484 to R486). -/

namespace Sys2Proof.Machine

/-! ### Writes and interrupts of a front end: R234, R235, R461, R486 -/

/-- A front end's write is discarded (R234, R235): the record, the drop registers, the operation's status. -/
def State.feDrop (s : State) (d : Nat) (uid : Option Nat) (ctx pa : Nat) : State :=
  let r := { errRec (s.fePath d) 0x0A 2 with syndrome := pa }
  let s := match uid with
    | some u =>
      (s.logBy (.descriptor (((s.op? u).map Op.opcode).getD 0) ctx uid) r).modOp u (fun o => { o with devTimeout := true })
    | none => s.logBy (.descriptor 0 ctx none) r
  (s.bump (rFe d 0xA00)).setReg (rFe d 0xA08) (BitVec.ofNat 64 (ctx % 4096 * 2 ^ 48 + pa % 2 ^ 56 / 256))

/-- A write a front end is to make. -/
def feFor (queue uid : Option Nat) (role : FeRole) (ctx pa : Nat) : FeWrite :=
  { tag := 0, queue := queue, uid := uid, role := role, ctx := ctx, pa := pa, target := .tiered, sent := 0, bytes := [] }

/-- A write of a front end leaves for the host or another node and waits for its acknowledgement (R203), unless its target is
known lost (R235). -/
def State.feSend (s : State) (d : Nat) (w : FeWrite) (t : Target) (info : List Nat) (bs : List Byte) : State :=
  if s.targetLost t then s.feDrop d w.uid w.ctx w.pa
  else
    let f := s.fe d
    (s.setFe d { f with nextTag := f.nextTag + 1
                        writes := f.writes ++ [{ w with tag := f.nextTag, target := t, sent := s.strokeNow }] }).sendOut t w.pa
      info bs

/-- A write of a front end to the MMIO range waits for its acknowledgement, with which it is performed (R203, R231). -/
def State.feHold (s : State) (d : Nat) (w : FeWrite) (bs : List Byte) : State :=
  let f := s.fe d
  s.setFe d { f with nextTag := f.nextTag + 1
                     writes := f.writes ++ [{ w with tag := f.nextTag, target := .mmio, sent := s.strokeNow, bytes := bs }] }

/-- A write of SYSTEM scope by a front end: performed in module memory at once; one to a register, to the host or to another
node leaves. -/
def State.feWrite (s : State) (d : Nat) (w : FeWrite) (bs : List Byte) : State :=
  match s.target w.pa with
  | some .tiered => s.sysWrite w.pa bs
  | some (.window c) => s.windowStore c (localPart w.pa - windowBase c) bs
  | some .host => s.feSend d w .host [1] bs
  | some .hostDevice => s.feSend d w .hostDevice [1] bs
  | some (.remote n) => s.feSend d w (.remote n) [1] bs
  | some .mmio => s.feHold d w bs
  | none => s

/-- A write of an operation has still to be performed (R478). -/
def State.feOpen (s : State) (o : Op) : Bool := (s.fe o.die).writes.any (fun w => w.uid == some o.uid)

/-- The write with a tag. -/
def Fe.write? (f : Fe) (tag : Nat) : Option FeWrite := f.writes.find? (fun w => w.tag == tag)

/-- A write waits no more. -/
def State.feFree (s : State) (d tag : Nat) : State :=
  s.setFe d { s.fe d with writes := (s.fe d).writes.filter (fun w => w.tag != tag) }

/-- Two targets lie in one direction of R461: across CXL, or at one node. -/
def sameWay (a b : Target) : Bool :=
  match a, b with
  | .host, .hostDevice | .hostDevice, .host => true
  | a, b => a == b

/-- The write is the oldest of its queue in its direction: those before it are performed first (R461). -/
def Fe.oldest (f : Fe) (w : FeWrite) : Bool :=
  w.queue.isNone || !f.writes.any (fun x => x.tag < w.tag && x.queue == w.queue && sameWay x.target w.target)

/-- A vector of the host's MSI-X table is raised (R486, R614); MSIX_SEND carries it out. -/
def State.msixRaise (s : State) (v : Nat) : State := s.withCxl { s.cxl with raised := s.cxl.raised ++ [v] }

/-- A queue raises its interrupt at its target; one in HOST_LOST raises nothing (R486). -/
def State.queueIntr (s : State) (x : Queue) : State :=
  if !x.cfg.intrEn || x.state == .hostLost then s
  else if x.cfg.owner = 2 then s.msixRaise (x.cfg.intr % 2 ^ 11)
  else s.msiTarget x.cfg.intr

/-- A completion raises the queue's interrupt, at most once in a hold-off (R486). -/
def State.completionIntr (s : State) (q : Nat) (x : Queue) : State :=
  let h := s.regN (rFe x.die 0xD04) % 2 ^ 16
  let held := match x.holdUntil with
    | some u => !s.reached u
    | none => false
  if h = 0 then s.queueIntr x
  else if held then s.setQueue q { x with holdPend := true }
  else (s.setQueue q { x with holdUntil := some (s.strokeNow + h), holdPend := false }).queueIntr x

/-- The queue leaves RUNNING for PARKED (R436, R439, R502): cause 1 DOORBELL_AHEAD, 2 BAD_TAIL. -/
def State.park (s : State) (q cause : Nat) : State :=
  match s.queue? q with
  | some x =>
    if x.state == .running then
      let x := { x with state := .parked, cause := cause }
      (s.setQueue q x).queueIntr x
    else s
  | none => s

/-! ### The end of an invalidation: R388, R393, R396 -/

/-- The address of the entry at the head of the ring of die `d`. -/
def State.ringEntry (s : State) (d : Nat) : Nat :=
  s.regN (rAtu d 0x10) + s.regN (rAtu d 0x20) % 2 ^ (s.regN (rAtu d 0x18) % 16) * 32

/-- The entry at the head completes (R393, R396): DONE_TIME, STATUS, HEAD, then the interrupt. -/
def State.ringDone (s : State) (d status : Nat) : State :=
  let a := s.ringEntry d
  let s := (s.sysWrite (a + 16) (toBytes 8 s.now.toNat)).sysWrite (a + 24) (toBytes 2 status)
  let s := s.setReg (rAtu d 0x20) (BitVec.ofNat 64 ((s.regN (rAtu d 0x20) + 1) % 2 ^ 32))
  let s := s.setFe d { s.fe d with ringBusy := none }
  if bitOf (s.regN (rAtu d 0x8)) 30 then s.msiTarget (s.regN (rAtu d 0x38)) else s

/-- An invalidation that every ATU has acknowledged is complete (R388): its ring entry, or its operation, ends. -/
def State.invalDone (s : State) (i : Inval) : State :=
  let s := s.withXlat { s.xlat with invals := s.xlat.invals.filter (fun x => x.id != i.id) }
  match i.uid with
  | some u => s.modOp u (fun o => if o.phase == .running then { o with phase := .ended } else o)
  | none => if (s.fe i.die).ringBusy == some i.id then s.ringDone i.die 1 else s

/-- ATUs that have left service or power hold no entry any more and finish no access: no invalidation waits for them (R388). -/
def State.atusGone (s : State) (gone : Nat → Bool) : State :=
  let s := s.withXlat { s.xlat with invals := s.xlat.invals.map (fun i => { i with waits := i.waits.filter (fun u => !gone u)
                                                                                   deps := i.deps.filter (fun d => !gone d.1) }) }
  (s.xlat.invals.filter (fun i => i.waits.isEmpty)).foldl State.invalDone s

/-! ### The end of an operation -/

/-- End an operation from outside: its launches are stopped on every core, as for an exception (R198, R490); one that
has nothing on a core ends at once. -/
def State.endOp (s : State) (uid : Nat) : State :=
  match s.op? uid with
  | none => s
  | some o =>
    match o.phase with
    | .ended | .held | .written => s
    | .waiting | .aborted => s.modOp uid (fun o => { o with phase := .ended })
    | .running =>
      let s := s.modOp uid (fun o => { o with stopping := true, stopAt := some s.strokeNow })
      let nodes := (0 :: (o.nodeCores.map Prod.snd ++ o.parts.map Part.node)).eraseDups
      (nodes.foldl (fun s n => s.stopLaunch uid n) s).sweep.opCheck uid

/-! ### Recipe versions: R467, R473 -/

/-- The recipe slot `i` of die `d`. -/
def State.rslot (s : State) (d i : Nat) : RSlot := (s.fe d).recipes.getD (fun _ => RSlot.init) i

/-- Replace a recipe slot. -/
def State.setRslot (s : State) (d i : Nat) (r : RSlot) : State :=
  s.setFe d { s.fe d with recipes := (s.fe d).recipes.setD (fun _ => RSlot.init) i r }

/-- Write 1 to a version's FREED word, translated by the values of the slot's context that were read at its installation
(R373); a write that faults is discarded and logged. -/
def State.writeFreed (s : State) (d ctx : Nat) (v : RVersion) : State :=
  match s.feTranslate d 0 ctx v.asid v.root (v.va + 4) .store with
  | (s, .ok pa _) => s.feWrite d (feFor none none .data ctx pa) (toBytes 4 1)
  | (s, _) =>
    s.log { errRec (s.fePath d) 0x0F 2 with
      opKind := 2, ctx := some ctx, syndrome := (Config.syndrome 0x0F [0, v.va + 4]).toNat }

/-- A version is live while it is current or a LAUNCH_RECIPE that took it is in flight (R467). -/
def RSlot.isLive (r : RSlot) (v : RVersion) : Bool := r.current == some v.num || v.runs != 0

/-- The live versions of a slot. -/
def RSlot.alive (r : RSlot) : List RVersion := r.live.filter r.isLive

/-- A version that nothing holds: it is not live, and no RECIPE_PATCH is installing it (R473). -/
def RSlot.isDead (r : RSlot) (v : RVersion) : Bool := !r.isLive v && v.arriving.isNone

/-- The number of the version that follows one (R469). -/
def nextVersion (v : Nat) : Nat := if v = 0xFFFFFFFF then 1 else v + 1

/-- Free every version of a slot that is not current and has no run in flight; the slot of a REMOVING recipe becomes
FREE with its last version (R470, R473). -/
def State.freeVersions (s : State) (d i : Nat) : State :=
  let r := s.rslot d i
  let dead := r.live.filter r.isDead
  let live := r.live.filter (fun v => !r.isDead v)
  let s := s.setRslot d i (if (r.state = 2 || r.current.isNone) && live.isEmpty then RSlot.init else { r with live := live })
  dead.foldl (fun s v => s.writeFreed d r.ctx v) s

/-- A version as an operation leaves it that is no longer in flight: its RECIPE_PATCH, or a LAUNCH_RECIPE that took it. -/
def RVersion.released (x : RVersion) (uid v : Nat) (patch : Bool) : RVersion :=
  if patch then if x.arriving == some uid then { x with arriving := none } else x
  else if x.arriving.isNone && x.num == v then { x with runs := x.runs - 1 } else x

/-- An operation that took or installed a version is no longer in flight. -/
def State.endRun (s : State) (o : Op) : State :=
  match o.recipe with
  | none => s
  | some (i, v) =>
    let r := s.rslot o.die i
    (s.setRslot o.die i { r with live := r.live.map (fun x => x.released o.uid v (o.opcode == 8)) }).freeVersions o.die i

/-- An operation leaves those in flight; its recipe version loses a run. -/
def State.opGone (s : State) (o : Op) : State := (s.dropOp o.uid).endRun o

/-! ### Memory a reset context could write: R239 -/

/-- The frames of writable leaves under a table, with their sizes: what a context's translations reach (R239). -/
def State.writableFrom (s : State) : Nat → Nat → List (Nat × Nat)
  | 0, _ => []
  | n + 1, ppn =>
    if !s.inTiered (ppn * 4096) 4096 then []
    else (upFrom 0 512).flatMap (fun i =>
      let pte := s.sysNat (ppn * 4096 + i * 8) 8
      if !bitOf pte 0 then []
      else if pte / 2 % 8 = 0 then State.writableFrom s n (pte / 2 ^ 10 % 2 ^ 44)
      else match leafOf 0 0 pte n with
        | some l => if l.r && l.w && l.d && bitOf pte 4 && bitOf pte 6 then [(l.ppn * 4096, l.pages * 4096)] else []
        | none => [])

/-- The ranges of module memory a context could write: its T0 slots, and its translations' by the table of any die of the
module (R239; assumption log 81). -/
def State.writable (s : State) (ctx : Nat) : List (Nat × Nat) :=
  let roots := (((upFrom 0 4).filter s.adPresent).filterMap (fun d => (s.ctxGood d ctx).map Prod.snd)).eraseDups
  let tables := roots.flatMap (s.writableFrom 5)
  let slots := (s.peel.t0.filter (fun _ x => x == ctx)).map
    (fun e => (windowBase (e.1 / 64) + e.1 % 64 * 0x10000, 0x10000))
  (tables.filter (fun r => match s.target r.1 with
    | some .tiered | some (.window _) => true
    | _ => false)).map (fun r => (localPart r.1, r.2)) ++ slots

/-- The contents of every byte the context could write become undefined (R239). -/
def State.undefine (s : State) (ctx : Nat) : State :=
  (s.writable ctx).foldl (fun s r =>
    let (s, k) := s.draw
    let m := s.mem.forget r.1 r.2 (some k)
    s.withMem { m with dirty := m.dirty.filter (fun a _ => a < r.1 || r.1 + r.2 ≤ a) }) s

/-! ### Removing a context's work: R239, R493 -/

/-- What becomes of a core's request at its home: an atomic the home has accepted is performed, any other is void. -/
def State.voidKind (s : State) (c : Nat) (k : HomeKind) : HomeKind :=
  match k with
  | .coreTag c' tag =>
    if c' = c then
      match s.wtag c tag with
      | some w => match w.op with
        | .atom op f v cmp => .atomic w.pa op f v cmp
        | _ => .naRead w.pa 0
      | none => k
    else k
  | k => k

/-- Change every request at the homes. -/
def State.mapReqs (s : State) (f : HomeReq → HomeReq) : State :=
  s.withMem { s.mem with txns := s.mem.txns.map (fun t => { t with req := f t.req }), waitq := s.mem.waitq.map f }

/-- Discard the writes of core `c` not yet performed, in its store buffer and in the cluster cache (R239). -/
def State.discardWrites (s : State) (c : Nat) : State :=
  let s := s.mapReqs (fun r => { r with kind := s.voidKind c r.kind })
  let k := c / 8
  let mine := (s.cluster k).held.filter (fun h => h.core == c && !h.done)
  let s := s.mapReqs (fun r => match r.kind with
    | .writeThrough w => if r.who == .cluster k && mine.any (fun h => h.wid == w) then { r with kind := .naRead 0 0 } else r
    | _ => r)
  let x := s.cluster k
  (s.setCluster k { x with held := x.held.filter (fun h => !(h.core == c && !h.done)) }).modCore c (fun k =>
    { k with writes := [] })

/-- Remove the running launch of a core: its instructions and unperformed writes go, replies still to come are dropped
at their arrival (R493). -/
def State.removeRunning (s : State) (c : Nat) : State :=
  (s.discardWrites c).modCore c (fun k =>
    { k.idle with reads := k.reads.map (fun t => { t with dead := true }) })

/-- Remove every launch, staged launch, share, node and dispatch of a context (R493, steps 2 to 4). -/
def State.removeWork (s : State) (ctx : Nat) : State :=
  let running := (s.cores.filter (fun _ k => (k.launch.map Launch.ctx) == some ctx)).map Prod.fst
  let s := running.foldl State.removeRunning s
  let s := s.withCores (s.cores.mapVals (fun k =>
    { k with staged := k.staged.filter (fun g => g.launch.ctx != ctx) }))
  let mine := (s.work.ops.filter (fun o => o.ctx == ctx)).map Op.uid
  s.withWork { s.work with
    ops := s.work.ops.map (fun o => if o.ctx == ctx then
      { o with cores := [], waitSlot := [], parts := [], nodeCores := [] } else o)
    fes := s.work.fes.mapVals (fun f => { f with
      shares := f.shares.filter (fun h => !mine.contains h.uid)
      handles := f.handles.filter (fun h => h.1 != ctx)
      writes := f.writes.filter (fun w => !(w.ctx == ctx && w.role == .data)) }) }

/-! ### OUT_OF_SERVICE: R501, R550, R694 -/

/-- The module goes OUT_OF_SERVICE, with the syndrome of its MODULE record (R694). -/
def State.outOfService (s : State) (syn : Nat) : State :=
  if s.work.oos then s
  else
    let s := (s.withWork { s.work with oos := true }).setReg (rRas 0x118) 1
    let s := s.work.ops.foldl (fun s o =>
      (s.modOp o.uid (fun o => { o with removed := some 0x306 })).endOp o.uid) s
    (s.log { errRec (s.path 0 0 0 0xF 0) 0x10 3 with syndrome := syn }).alert 3

/-- Log a record of severity FATAL: it takes the module out of service (R550). -/
def State.logFatal (s : State) (r : ErrRec) : State :=
  let i := s.ras.logIndex
  (s.log { r with sev := 3 }).outOfService (2 + r.cls * 2 ^ 8 + i * 2 ^ 32)

/-! ### Context reset: R492 to R500 -/

/-- Count a context reset; at LIMIT the module goes OUT_OF_SERVICE (R500, R501). -/
def State.countReset (s : State) : State :=
  let n := s.work.escCount + 1
  let s := (s.withWork { s.work with escCount := n }).setReg (rRas 0x114) (BitVec.ofNat 64 (min n 127))
  let lim := s.regN (rRas 0x110) % 128
  if (if lim = 0 || 64 < lim then 64 else lim) ≤ n then s.outOfService (1 + n * 2 ^ 8) else s

/-- Steps 1 to 6 of R493 for a context; an operation that has no other ending completes with CONTEXT_RESET, `hung` ones
with HUNG. A reset of a context that is being reset joins that one. -/
def State.resetContext (s : State) (ctx : Nat) (counted : Bool) : State :=
  if s.work.resetting.contains ctx then s
  else
    let s := s.withWork { s.work with gens := s.work.gens.setD (fun _ => 0) ctx ((s.gen ctx + 1) % 256) }
    let s := (s.removeWork ctx).undefine ctx
    let s := s.withWork { s.work with ops := s.work.ops.map (fun o =>
      if o.ctx == ctx then
        { o with phase := if o.phase == .held || o.phase == .written then o.phase else .ended
                 removed := if o.removed.isSome then o.removed else some (if o.hung then 0x305 else 0x304) }
      else o) }
    let open_ := s.work.ops.any (fun o => o.ctx == ctx)
    let s := if open_ then s.withWork { s.work with resetting := s.work.resetting ++ [ctx] } else s
    if counted then s.countReset else s

/-- A reset is complete when every operation it removed has its completion (R493). -/
def State.resetCheck (s : State) : State :=
  let done := s.work.resetting.filter (fun c => !s.work.ops.any (fun o => o.ctx == c))
  if done.isEmpty then s
  else
    let s := s.withWork { s.work with resetting := s.work.resetting.filter (fun c => !done.contains c) }
    match s.work.reqCtx with
    | some c => if done.contains c then s.setRegBit (rRas 0x104) 31 false else s
    | none => s

/-! ### Core reset: R153 -/

/-- The effects of a core reset: registers and units are cleared, the instruction buffer and the core's TLB are invalidated,
and the staged launches go back to be placed again, on this core or on another. -/
def State.resetCore (s : State) (c : Nat) : State :=
  let k := s.core c
  let s := s.setCore c { Core.init with nextSeq := k.nextSeq, nextTag := k.nextTag, reads := k.reads, accDraw := s.fresh }
  let s := s.draw.1
  let s := s.withXlat { s.xlat with l1 := s.xlat.l1.erase c }
  k.staged.foldl (fun s g => s.placeAgain c g) s

/-- A core reset that a hang or verdict forces: writes it cannot drain are discarded first (R496). -/
def State.forceReset (s : State) (c : Nat) : State := (s.removeRunning c).resetCore c

end Sys2Proof.Machine
end

