-- ==== Sys2Proof/Machine/Hang.lean ====
section
/-! DEFINITION. Machine/Hang.lean: hangs and suspect replay (R491, R495 to R497). -/

namespace Sys2Proof.Machine

/-- The suspects of a hang of core `c`, in ascending context id: contexts with a launch running or staged on it, or a
request outstanding at its window port (R496, step 1). -/
def State.suspects (s : State) (c : Nat) : List Nat :=
  let k := s.core c
  let here := (k.launch.map Launch.ctx).toList ++ k.staged.map (fun g => g.launch.ctx)
  let port (x : Core) : Bool := x.reads.any (fun t => t.target == .window c && !t.dead)
    || x.writes.any (fun w => w.target == .window c)
  let there := (s.cores.filter (fun _ x => port x)).filterMap (fun e => e.2.launch.map Launch.ctx)
  (here ++ there).foldl (fun l x => insertUp x l) []

/-- An operation as its replay begins again: what it had done counts no more, but its energy and the time at which it began to
run (R479, R496, R533). -/
def Op.rewind (o : Op) : Op :=
  { o with phase := .aborted, excOrTimeout := none, poison := false, devTimeout := false
           stopping := false, stopAt := none, age := 0, nodesStarted := [], nodesDone := [], nodeCores := []
           cores := [], waitSlot := [], parts := [], decided := false, signalled := false, asked := none, expired := false }

/-- Abort every operation of a context in flight (R496, step 2; assumption log 146); `hangs` says which of them have hung. -/
def State.abortCtx (s : State) (ctx : Nat) (hangs : Op → Bool) : State :=
  let mark := (s.work.ops.filter hangs).map Op.uid
  let s := s.removeWork ctx
  let mine := (s.work.ops.filter (fun o => o.ctx == ctx)).map Op.uid
  s.withWork { s.work with
    ops := s.work.ops.map (fun o => if o.ctx == ctx && o.phase != .written then
      { o.rewind with hung := o.hung || mark.contains o.uid } else o)
    queues := s.work.queues.mapVals (fun q => { q with heldCq := q.heldCq.filter (fun u => !mine.contains u) }) }

/-- Replace the procedure of a die. -/
def State.setHang (s : State) (d : Nat) (h : Option Hang) : State := s.setFe d { s.fe d with hang := h }

/-- Begin the replay of a suspect: its aborted operations start again with their placement; in the second replay of
R496 they are placed anew. -/
def State.replay (s : State) (ctx : Nat) (second : Bool) : State :=
  s.withWork { s.work with ops := s.work.ops.map (fun o =>
    if o.ctx == ctx && o.phase == .aborted then
      { o with phase := if o.check.isSome then .ended else .waiting, replayed := true
               placed := if second then [] else o.placed, nodePlaced := if second then [] else o.nodePlaced
               plan := if second then [] else o.plan, hung := false }
    else o) }

/-- Operations of a context that a replay still waits for. -/
def State.replaying (s : State) (ctx : Nat) : Bool :=
  s.work.ops.any (fun o => o.ctx == ctx && (o.phase == .waiting || o.phase == .running))

/-- The record of a hang (class 0x0B): its suspects, and those of them that hung in the replay, by which its verdict goes. -/
def State.hangRecord (s : State) (h : Hang) : State :=
  s.log { errRec (s.corePath h.core 0xC 0) 0x0B 2 with
    syndrome := (Config.syndrome 0x0B (h.suspects.length :: h.suspects ++ h.hung)).toNat }

/-- A hang procedure is in progress on some die. -/
def State.anyHang (s : State) : Bool := (upFrom 0 4).any (fun d => (s.fe d).hang.isSome)

/-- The next hang that waits starts its procedure, when none is in progress (R497): rollback and core reset (R496). The second
part is the die that it is on. -/
def State.beginHang (s : State) : State × Option Nat :=
  if s.anyHang then (s, none)
  else match s.work.hangs with
    | [] => (s, none)
    | c :: rest =>
      let s := s.withWork { s.work with hangs := rest }
      let sus := s.suspects c
      let s := (sus.foldl (fun s x => s.abortCtx x (fun _ => false)) s).forceReset c
      (s.setHang (c / 32) (some { core := c, suspects := sus, toReplay := sus, current := none, hung := []
                                  second := false, lines := 0 }), some (c / 32))

/-- Take the suspects in turn, then carry out the verdict (R496, steps 4 and 5); a hang that waits starts afterwards. -/
def State.hangNext (s : State) (d : Nat) : Nat → State
  | 0 => s
  | n + 1 =>
    match (s.fe d).hang with
    | none => match s.beginHang with
      | (s, some e) => State.hangNext s e n
      | (s, none) => s
    | some h =>
      match h.current with
      | some ctx =>
        if s.replaying ctx then s else State.hangNext (s.setHang d (some { h with current := none })) d n
      | none =>
        match h.toReplay with
        | ctx :: rest =>
          State.hangNext ((s.replay ctx h.second).setHang d
            (some { h with current := some ctx, toReplay := rest, lines := 0 })) d n
        | [] =>
          let finish (s : State) : State := (s.hangRecord h).setHang d none
          if h.second then State.hangNext (finish s) d n
          else match h.hung with
            | [] => State.hangNext (finish (s.bump (rFe d 0xD0C))) d n
            | [ctx] => State.hangNext (finish (s.resetContext ctx true)) d n
            | many =>
              let s := s.suspectCore h.core 0 false
              let s := s.withRas { s.ras with waits := s.ras.waits ++
                [{ path := s.corePath h.core 0xC 0, op := 3, seq := 0 }] }
              State.hangNext (s.setHang d (some { h with second := true, toReplay := many, hung := [] })) d n

/-- Steps a procedure may take at once. -/
def hangFuel : Nat := 10000

/-- A core hangs (R495, R496): counted, and its procedure starts, or waits for the one in progress (R497). -/
def State.startHang (s : State) (c : Nat) : State :=
  let d := c / 32
  let s := s.bump (rFe d 0xD08)
  (s.withWork { s.work with hangs := s.work.hangs ++ [c] }).hangNext d hangFuel

/-- The suspect being replayed hangs the core again or times out, by the operations `hangs` picks: its operations end, the core is
reset, and the next suspect follows; in the second replay they complete with HUNG (R496). -/
def State.replayHung (s : State) (d : Nat) (hangs : Op → Bool) : State :=
  match (s.fe d).hang with
  | none => s
  | some h =>
    match h.current with
    | none => s
    | some ctx =>
      let s := s.abortCtx ctx hangs
      let s := if h.second then s.withWork { s.work with ops := s.work.ops.map (fun o =>
          if o.ctx == ctx && o.phase == .aborted then { o with phase := .ended, removed := some 0x305 } else o) } else s
      let s := s.forceReset h.core
      (s.setHang d (some { h with current := none, hung := h.hung ++ [ctx] })).hangNext d hangFuel

/-- A context reset from outside the procedure: the context leaves the suspects (R497). -/
def State.leaveHangs (s : State) (ctx : Nat) : State :=
  (upFrom 0 4).foldl (fun s d =>
    match (s.fe d).hang with
    | none => s
    | some h =>
      if h.suspects.contains ctx then
        (s.setHang d (some { h with
          suspects := h.suspects.filter (· != ctx), toReplay := h.toReplay.filter (· != ctx)
          hung := h.hung.filter (· != ctx)
          current := if h.current == some ctx then none else h.current })).hangNext d hangFuel
      else s) s

/-- A context reset that no hang procedure started (R492, R497). -/
def State.resetOutside (s : State) (ctx : Nat) (counted : Bool) : State := (s.resetContext ctx counted).leaveHangs ctx

/-- The hang of a core has been counted, and its procedure waits for the one in progress (R497). -/
def State.hangWaits (s : State) (c : Nat) : Bool := s.work.hangs.contains c

/-- The context is a suspect that a hang procedure is replaying (R496). -/
def State.inReplay (s : State) (ctx : Nat) : Bool :=
  (upFrom 0 4).any (fun d => match (s.fe d).hang with
    | some h => h.current == some ctx
    | none => false)

/-- The core is under a hang procedure. -/
def State.underHang (s : State) (c : Nat) : Bool :=
  match (s.fe (c / 32)).hang with
  | some h => h.core == c
  | none => s.hangWaits c

end Sys2Proof.Machine
end

