-- ==== Sys2Proof/Machine/Queues.lean ====
section
/-! DEFINITION. Machine/Queues.lean: queues: their contexts and commands (R427 to R432), doorbells and ring reads (R433 to
R439), completion entries, fallback words and interrupts (R478 to R489), timeouts (R490, R491), the events of hang
procedures (R495, R496), context resets by register (R492), and the queries of the FE block (R476, R477). -/

namespace Sys2Proof.Machine

/-! ### Queue contexts: R427, R428, R432 -/

/-- The fields of a queue context (R427). -/
def qctxOf (b : List Byte) : QCtx :=
  { sqBase := leAt b 0 8, sqLog := leAt b 8 1, cqLog := leAt b 9 1, owner := bitsOf (leAt b 10 1) 4 2
    priority := leAt b 10 1 % 4, intrEn := bitOf (leAt b 11 1) 1, priv := bitOf (leAt b 11 1) 0
    context := leAt b 12 2 % 4096, maxInflight := leAt b 14 2, cqBase := leAt b 16 8, dbAddr := leAt b 24 8
    fallback := leAt b 32 8, sigAddr := leAt b 40 8, dbGen := leAt b 48 4, timeout := leAt b 52 2
    intr := leAt b 56 4 }

/-- A reserved field of a queue context outside its addresses is not zero (R427). -/
def qctxRsv (b : List Byte) : Bool :=
  leAt b 10 1 / 32 != 0 || leAt b 11 1 / 4 != 0 || leAt b 12 2 / 4096 != 0 || leAt b 54 2 != 0
    || (b.drop 60).any (· != 0)

/-- The range lies in one cacheable host window (R428). -/
def State.inHostWindow (s : State) (a n : Nat) : Bool :=
  nodePart a == s.node && s.target a == some .host && s.target (a + n - 1) == some .host
    && (s.hostWindow (localPart a)).map Prod.fst == (s.hostWindow (localPart a + n - 1)).map Prod.fst

/-- The checks of CREATE on the fields of a context (R428, R432), those of INTR also without INTR_EN (assumption log 23). -/
def State.qctxOk (s : State) (c : QCtx) : Bool :=
  let area (a n : Nat) : Bool :=
    a < 2 ^ 56 && (if c.owner = 2 then s.inHostWindow a n else s.inTiered a n)
  let intrOk := if c.owner = 2 then c.intr < 2 ^ 11
    else c.intr < 2 ^ 21 && !bitOf c.intr 13 && bitsOf c.intr 20 14 < 96 && bitsOf c.intr 12 9 ≤ 8 && 1 ≤ c.intr % 2 ^ 9
  4 ≤ c.sqLog && c.sqLog ≤ 16 && (c.cqLog = 0 || (4 ≤ c.cqLog && c.cqLog ≤ 16)) && c.owner ≤ 3
    && 1 ≤ c.maxInflight && c.maxInflight ≤ 1024
    && c.sqBase % 64 = 0 && area c.sqBase (64 * 2 ^ c.sqLog)
    && (if c.cqLog = 0 then c.cqBase = 0 else c.cqBase % 32 = 0 && area c.cqBase (32 * 2 ^ c.cqLog))
    && c.dbAddr % 128 = 0 && area c.dbAddr 128
    && c.fallback % 8 = 0 && area c.fallback 8
    && (c.sigAddr = 0 || (c.sigAddr % 4 = 0 && area c.sigAddr 4))
    && intrOk

/-- The bytes of queue `q`'s context, read by die `d`; none when the table lies outside the tiered range. -/
def State.qctxBytes (s : State) (d q : Nat) : State × Option (List Byte) :=
  let a := s.regN (rFe d 0x0) % 2 ^ 56 + q * 128
  if !s.inTiered a 128 then (s, none)
  else
    let s := s.homeRead a 128
    (s, some (s.sysRead a 128))

/-- The context of queue `q` read and checked by die `d`, as CREATE does; a table outside the tiered range fails. -/
def State.readQctx (s : State) (d q : Nat) : State × Option QCtx :=
  match s.qctxBytes d q with
  | (s, none) => (s, none)
  | (s, some b) =>
    let c := qctxOf b
    (s, if qctxRsv b || !s.qctxOk c then none else some c)

/-! ### Doorbells: R433 to R436 -/

/-- Operations of a queue in flight. -/
def State.queueOps (s : State) (q : Nat) : List Op := s.work.ops.filter (fun o => o.queue == q)

/-- A doorbell read that is not used: poisoned, or of a line of another generation (R436, R609). -/
def State.staleDoorbell (s : State) (q : Nat) (x : Queue) : State :=
  (s.setQueue q { x with dbStale := false }).bump (rFe x.die 0x34)

/-- The answer to a read of `n` bytes has come from the host poisoned: each 64 B half it covers counts (R609, R617). -/
def State.poisonIn (s : State) (a n : Nat) : State := s.bumpBy (rCxl 0x24) (ceilDiv (a % 64 + n) 64)

/-- What a doorbell read tells a queue (R436, R481): its tail, or that it must park, and CQ_HEAD. A tail that stands still or
falls back by at most 2^SQ_LOG has not moved (assumption log 75). -/
def State.takeDoorbell (s : State) (q : Nat) (x : Queue) (b : List Byte) : State :=
  let x := { x with dbStale := false }
  if leAt b 4 4 ≠ x.cfg.dbGen then s.staleDoorbell q x
  else
    let m := 2 ^ 32
    let h := leAt b 8 4
    let ahead := (h + m - x.cqHead % m) % m
    let x := if ahead ≤ (x.cqCount + m - x.cqHead % m) % m then { x with cqHead := h } else x
    let tail := leAt b 0 4
    let back := (x.tail + m - tail % m) % m
    if back ≤ 2 ^ x.cfg.sqLog then s.setQueue q x
    else if 2 ^ x.cfg.sqLog < (tail + m - x.head % m) % m then (s.setQueue q x).park q 2
    else s.setQueue q { x with tail := tail }

/-- The front end takes a shared copy of a doorbell line in the tiered range (R435). -/
def State.shareDoorbell (s : State) (d a : Nat) : State := s.shareNow (localPart a / 128) (18 + d)

/-! ### Reading the ring: R437 to R439 -/

/-- The PHASE expected at the head (R437). -/
def Queue.phase (x : Queue) : Bool := x.head / 2 ^ x.cfg.sqLog % 2 == 0

/-- The address of the slot at the head. -/
def Queue.slot (x : Queue) : Nat := x.cfg.sqBase + x.head % 2 ^ x.cfg.sqLog * 64

/-- Slots between head and tail. -/
def Queue.waiting (x : Queue) : Nat := (x.tail + 2 ^ 32 - x.head % 2 ^ 32) % 2 ^ 32

/-- The first slot of the descriptor at the head, read with the expected PHASE, begins an extended one (R438). -/
def Queue.extended (x : Queue) (b : List Byte) : Bool := bitOf (leAt b 1 1) 4 && x.head % 4 = 0

/-- The bytes that a read of the descriptor at the head brings, whose first slot is `b`: an extended one is read whole once its
four slots have been published (R438). -/
def Queue.length (x : Queue) (b : List Byte) : Nat :=
  if bitOf (leAt b 1 1) 0 == x.phase && x.extended b && 4 ≤ x.waiting then 256 else 64

/-- One read of the slot at the head returned `b` (R438, R439): the descriptor is there, or the read has to be made
again. An extended one is read only when its four slots have been published. -/
def Queue.sees (x : Queue) (b : List Byte) : Queue :=
  if bitOf (leAt b 1 1) 0 != x.phase then { x with rereads := x.rereads + 1 }
  else if x.extended b && x.waiting < 4 then x
  else { x with ready := true, desc := b.take (x.length b), poison := false }

/-- One read of the slot at the head returned poisoned data: its descriptor is taken, to be completed with
MEMORY_POISON (R609). -/
def Queue.seesPoison (x : Queue) (b : List Byte) (n : Nat) : Queue := { x with ready := true, desc := b.take n, poison := true }

/-- A read of the slot at the head of a ring in module memory (R318, R439). -/
def State.seesLocal (s : State) (x : Queue) : State × Queue :=
  let s := s.homeRead x.slot 64
  if s.anyPoison x.slot 64 then (s, x.seesPoison (s.sysRead x.slot 64) 64)
  else
    let n := x.length (s.sysRead x.slot 64)
    let s := if n = 64 then s else s.homeRead (x.slot + 64) (n - 64)
    let b := s.sysRead x.slot n
    (s, if s.anyPoison x.slot n then x.seesPoison b n else x.sees b)

/-- The module itself holds the ring of a queue: its owner is not the CXL host. -/
def Queue.isLocal (x : Queue) : Bool := x.cfg.owner != 2

/-- The first read of the slot at the head of a ring in module memory (R439). -/
def State.fetchHead (s : State) (q : Nat) : State :=
  match s.queue? q with
  | some x =>
    if x.state == .running && x.isLocal && !x.ready && x.rereads = 0 && x.waiting != 0 then
      let r := s.seesLocal x
      r.1.setQueue q r.2
    else s
  | none => s

/-- The head moves on by `n` slots; the next descriptor is read (R440). -/
def State.advanceQueue (s : State) (q n : Nat) : State :=
  match s.queue? q with
  | some x =>
    (s.setQueue q { x with head := (x.head + n) % 2 ^ 32, ready := false, rereads := 0, desc := [], poison := false }).fetchHead q
  | none => s

/-! ### Completion entries: R480 to R486 -/

/-- The status an operation completes with, by the order of R483; a failed check is among the exceptions
(assumption log 24). -/
def Op.status (o : Op) : Nat :=
  match o.removed, o.check, o.excOrTimeout with
  | some r, _, _ => r
  | none, some k, _ => k
  | none, none, some e => e
  | none, none, none => if o.poison then 0x302 else if o.devTimeout then 0x301 else if o.replayed then 1 else 0

/-- The bytes of a completion entry, at position `c` of queue `q`'s ring (R480). -/
def Op.entry (o : Op) (q c cqLog : Nat) : List Byte :=
  toBytes 4 o.seq ++ toBytes 2 o.status ++ toBytes 2 (q + (if c / 2 ^ cqLog % 2 = 0 then 2 ^ 15 else 0))
    ++ toBytes 8 (o.start.getD o.accepted).toNat ++ toBytes 8 (o.fin.getD o.accepted).toNat
    ++ toBytes 4 (min (o.energy + o.openEnergy) (2 ^ 32 - 1)) ++ toBytes 2 o.subst
    ++ toBytes 2 (match o.errIndex with
      | some i => i
      | none => 0xFFFF)

/-- The fallback word for an operation (R485). -/
def Op.fallbackWord (o : Op) (count : Nat) : Nat := count % 2 ^ 16 * 2 ^ 48 + o.status * 2 ^ 32 + o.seq

/-- What follows the end of an operation: replays and resets that waited for it go on (R493, R496). -/
def State.afterOp (s : State) (o : Op) : State :=
  (upFrom 0 4).foldl (fun s d => s.hangNext d hangFuel) (s.opGone o).resetCheck

/-- A RECIPE_PATCH completes: its version becomes current, with the number that follows that of the last one, unless a reset
has ended the patch or the slot is no longer INSTALLED (R469; assumption log 76). -/
def State.installed (s : State) (o : Op) : State :=
  match o.recipe with
  | some (i, _) =>
    let r := s.rslot o.die i
    let v := nextVersion r.last
    if o.opcode = 0x08 && o.removed.isNone && r.state = 1 then
      s.setRslot o.die i { r with
        current := some v, last := v
        live := r.live.map (fun x => if x.arriving == some o.uid then { x with num := v } else x) }
    else s
  | none => s

/-- The completion ring of a queue has space for its next entry (R481). -/
def Queue.space (x : Queue) : Bool := (x.cqCount + 2 ^ 32 - x.cqHead % 2 ^ 32) % 2 ^ 32 < 2 ^ x.cfg.cqLog

/-- The queue may write completion entries: it is not in COMPLETION_FAULT, or is being re-armed (R487, R489). -/
def Queue.mayWrite (x : Queue) : Bool := x.state != .completionFault || x.rearm

/-- The completion entry of an operation, or the fallback word that stands for one, is performed: it counts, the queue's
interrupt follows, and the operation has completed (R478, R484). A re-arm ends with the last held entry (R489). -/
def State.entryDone (s : State) (o : Op) : State :=
  match s.queue? o.queue with
  | none => s.afterOp o
  | some x =>
    let back := x.rearm && x.heldCq.isEmpty
    let x := { x with cqCount := if x.cfg.cqLog = 0 then x.cqCount else (x.cqCount + 1) % 2 ^ 32
                      fbCount := (x.fbCount + 1) % 2 ^ 16
                      state := if back then x.left else x.state, rearm := x.rearm && !back }
    (((s.setQueue o.queue x).completionIntr o.queue x).installed o).afterOp o

/-- The front end writes what tells of an operation's end: at once performed in module memory, else it has left (R478). -/
def State.tell (s : State) (o : Op) (x : Queue) (pa : Nat) (bs : List Byte) : State :=
  let s := (s.modOp o.uid (fun o => { o with phase := .written })).feWrite x.die
    (feFor (some o.queue) (some o.uid) .entry o.ctx pa) bs
  if s.feOpen o then s else s.entryDone o

/-- An entry of queue `q` has left and is not performed. -/
def State.entryOpen (s : State) (q : Nat) : Bool := s.work.ops.any (fun o => o.queue == q && o.phase == .written)

/-- The error record whose index an operation's entry carries is not written yet: the entry waits for it (R553). -/
def State.recordWaits (s : State) (uid : Nat) : Bool :=
  match (s.op? uid).bind Op.errIndex with
  | some i => s.ras.waiting.any (fun e => e.index == i)
  | none => false

/-- Write the completion entry of the oldest held operation (R480, R484). -/
def State.writeEntry (s : State) (q : Nat) : State :=
  match s.queue? q with
  | none => s
  | some x =>
    match x.heldCq with
    | [] => s
    | u :: rest =>
      let s := s.setQueue q { x with heldCq := rest }
      match s.op? u with
      | none => s
      | some o => s.tell o x (x.cfg.cqBase + x.cqCount % 2 ^ x.cfg.cqLog * 32) (o.entry q x.cqCount x.cfg.cqLog)

/-- Write every held entry of a ring in module memory that has space (R481). -/
def State.flushCq (s : State) (q : Nat) : Nat → State
  | 0 => s
  | n + 1 =>
    match s.queue? q with
    | some x =>
      if x.isLocal && x.mayWrite && x.space && !x.heldCq.isEmpty && !(x.heldCq.head?.any s.recordWaits) then
        State.flushCq (s.writeEntry q) q n
      else s
    | none => s

/-- What follows a doorbell read: the slot at the head may be read, and held entries may have space. -/
def State.afterDoorbell (s : State) (q : Nat) : State := (s.fetchHead q).flushCq q 1024

/-- Re-read a doorbell line in module memory. -/
def State.readDoorbell (s : State) (q : Nat) (x : Queue) : State :=
  let s := s.shareDoorbell x.die x.cfg.dbAddr
  if s.anyPoison x.cfg.dbAddr 12 then s.staleDoorbell q x
  else (s.takeDoorbell q x (s.sysRead x.cfg.dbAddr 12)).afterDoorbell q

/-- The front end takes a shared copy of a doorbell line in a host window (R435, R606). -/
def State.watchHost (s : State) (x : Queue) : State := s.trackHold (localPart x.cfg.dbAddr / 128) (18 + x.die) false

/-- The host's answer to a doorbell read (R435, R609); none when it is no answer to a read. -/
def State.hostDoorbell (s : State) (q : Nat) (x : Queue) (r : Reply) : Option State :=
  match r with
  | .data b => if 12 ≤ b.length then some (((s.watchHost x).takeDoorbell q x (s.underDirty x.cfg.dbAddr b)).afterDoorbell q) else none
  | .poisoned _ => some (((s.watchHost x).poisonIn x.cfg.dbAddr 12).staleDoorbell q x)
  | _ => none

/-- A doorbell is to be re-read: at once in module memory, by its event across CXL. -/
def State.refreshDoorbell (s : State) (q : Nat) (x : Queue) : State :=
  if x.isLocal then s.readDoorbell q x else s.setQueue q { x with dbStale := true }

/-! ### Queue commands: R431, R489, R503 -/

/-- The result of a queue command (R431): 0 OK, 1 BAD_STATE, 2 BAD_QCONTEXT, 3 QUEUE_ELSEWHERE, 4 IN_FLIGHT. -/
def State.qctlDone (s : State) (d q res : Nat) : State :=
  s.setReg (rFe d 0x14) (BitVec.ofNat 64 (2 ^ 30 + res * 2 ^ 20 + q))

/-- A queue command to a front end of this part, for a queue that exists there or not. -/
def State.queueCommand (s : State) (d q : Nat) (bound : Queue → State) (free : State) : Out :=
  whenPowered s <| whenIt (s.adPresent d && q < 1024) <|
    match s.queue? q with
    | none => .next free
    | some x => if x.die ≠ d then .next (s.qctlDone d q 3) else .next (bound x)

/-- A queue as CREATE leaves it (R431, R517). -/
def newQueue (d pref : Nat) (c : QCtx) : Queue :=
  { die := d, state := .disabled, cfg := c, head := 0, tail := 0, cause := 0, dbStale := !(c.owner != 2), rereads := 0
    ready := false, desc := [], poison := false, cqCount := 0, cqHead := 0, fbCount := 0, heldCq := [], left := .disabled
    rearm := false, holdUntil := none, holdPend := false, prefs := [pref, pref, pref, pref] }

/-- CREATE: binds the queue to the die, after reading and checking its context (R431, R432). -/
def execCreate (die : Nat) (q : Nat) (s : State) : Out :=
  s.queueCommand die q (fun _ => s.qctlDone die q 1)
    (match s.readQctx die q with
      | (s, none) => s.qctlDone die q 2
      | (s, some c) =>
        let x := newQueue die (bitsOf (s.regN (rPwr 0x10)) 7 4) c
        let s := if x.isLocal then s.shareDoorbell die c.dbAddr else s
        (s.setQueue q x).qctlDone die q 0)

/-- ENABLE: DISABLED becomes RUNNING, and the doorbell line is re-read (R431). -/
def execEnable (die : Nat) (q : Nat) (s : State) : Out :=
  s.queueCommand die q (fun x =>
    if x.state == .disabled then
      let x := { x with state := .running, rereads := 0 }
      ((s.setQueue q x).refreshDoorbell q x).qctlDone die q 0
    else s.qctlDone die q 1) (s.qctlDone die q 3)

/-- DISABLE: RUNNING or PARKED becomes DISABLED; the head is kept (R431). -/
def execDisable (die : Nat) (q : Nat) (s : State) : Out :=
  s.queueCommand die q (fun x =>
    if x.state == .running || x.state == .parked then
      (s.setQueue q { x with state := .disabled, cause := 0 }).qctlDone die q 0
    else s.qctlDone die q 1) (s.qctlDone die q 3)

/-- DESTROY: a DISABLED or STOPPED queue with nothing in flight becomes FREE (R431). -/
def execDestroy (die : Nat) (q : Nat) (s : State) : Out :=
  s.queueCommand die q (fun x =>
    if x.state == .disabled || x.state == .stopped then
      if (s.queueOps q).isEmpty then
        let line := localPart x.cfg.dbAddr / 128
        let s := if x.isLocal then s.notice line (18 + die) else s.hostLeave line (18 + die)
        (s.freeQueue q).qctlDone die q 0
      else s.qctlDone die q 4
    else s.qctlDone die q 1) (s.qctlDone die q 3)

/-- RESUME: from PARKED (R431), COMPLETION_FAULT (R489), HOST_LOST or STOPPED (R503). -/
def execResume (die : Nat) (q : Nat) (s : State) : Out :=
  s.queueCommand die q (fun x =>
    match x.state with
    | .parked =>
      let x := { x with state := .running, cause := 0, ready := false, rereads := 0, desc := [], poison := false }
      ((s.setQueue q x).refreshDoorbell q x).qctlDone die q 0
    | .completionFault =>
      match s.qctxBytes die q with
      | (s, none) => s.qctlDone die q 2
      | (s, some b) =>
        let c := { x.cfg with cqBase := leAt b 16 8, fallback := leAt b 32 8, intr := leAt b 56 4 }
        if s.qctxOk c then ((s.setQueue q { x with cfg := c, rearm := true }).flushCq q 1024).qctlDone die q 0
        else s.qctlDone die q 2
    | .hostLost | .stopped =>
      if !(s.queueOps q).isEmpty then s.qctlDone die q 4
      else match s.readQctx die q with
        | (s, none) => s.qctlDone die q 2
        | (s, some c) =>
          (s.setQueue q { newQueue die 0 c with prefs := x.prefs }).qctlDone die q 0
    | _ => s.qctlDone die q 1) (s.qctlDone die q 3)

/-! ### Events of doorbells and rings -/

/-- DOORBELL_REREAD: the front end re-reads a doorbell line it has lost (R435); `host` is the answer for a host's line. -/
def execDoorbellReread (die : Nat) (q : Nat) (host : Option Reply) (s : State) : Out :=
  whenPowered s <| withSome (s.queue? q) fun x =>
    whenIt (x.die == die && x.dbStale) <|
      if x.isLocal then .next (s.readDoorbell q x)
      else whenIt s.cxl.session <| withSome (host.bind (s.hostDoorbell q x)) fun s => .next s

/-- DOORBELL_PERIODIC_READ: a front end re-reads every line it watches, once per line (R435); `host` gives the
answers for host lines, by queue. -/
def execDoorbellPeriodicRead (die : Nat) (host : List (Nat × Reply)) (s : State) : Out :=
  whenPowered s <| whenIt (s.adPresent die) <|
    .next ((s.work.queues.filter (fun _ x => x.die == die)).foldl (fun s e =>
      match s.queue? e.1 with
      | none => s
      | some x =>
        if x.isLocal then s.readDoorbell e.1 x
        else match host.find? (fun h => h.1 == e.1) with
          | some h => if s.cxl.session then (s.hostDoorbell e.1 x h.2).getD s else s
          | none => s) s)

/-- DESCRIPTOR_REREAD: the slot at the head is read, or read again; after the first read and 64 more without the
expected PHASE the queue parks (R439). -/
def execDescriptorReread (die : Nat) (q : Nat) (host : Option Reply) (s : State) : Out :=
  whenPowered s <| withSome (s.queue? q) fun x =>
    whenIt (x.die == die && x.state == .running && !x.ready && x.waiting != 0) <|
      let go (s : State) (x : Queue) : Act :=
        let s := s.setQueue q x
        if 65 ≤ x.rereads then .next ((s.bump (rFe die 0x30)).park q 1) else .next s
      if x.isLocal then
        let r := s.seesLocal x
        go r.1 r.2
      else whenIt s.cxl.session <|
        match host with
        | some (.data b) => whenIt (64 ≤ b.length && x.length (s.underDirty x.slot b) ≤ b.length) (go s (x.sees (s.underDirty x.slot b)))
        | some (.poisoned b) => whenIt (64 ≤ b.length) (go (s.poisonIn x.slot b.length) (x.seesPoison b 64))
        | _ => notNow

/-! ### Completion: R478 to R489 -/

/-- The signal word of an operation whose other writes are performed is written (R463, R484). -/
def State.signalWord (s : State) (o : Op) (x : Queue) : State :=
  if bitOf o.flags 3 && x.cfg.sigAddr != 0 && !o.signalled then
    (s.modOp o.uid (fun o => { o with signalled := true })).feWrite x.die
      (feFor (some o.queue) (some o.uid) .data o.ctx x.cfg.sigAddr) (toBytes 4 o.seq)
  else s

/-- All writes of an operation and its signal word have been performed: END, and the energy of the line not yet closed
(R479, R533). -/
def State.reportOp (s : State) (o : Op) (act : List (Nat × Nat)) : State :=
  let e := s.openEnergy act
  e.1.modOp o.uid (fun o => { o with fin := some s.now, openEnergy := e.2 })

/-- The entry of an operation may be written now: it is the oldest held one of its queue, the one before it is performed (R461),
and so is the record it names (R553). -/
def State.turn (s : State) (x : Queue) (q uid : Nat) : Bool :=
  x.mayWrite && x.space && !s.entryOpen q && x.heldCq.head? == some uid && !s.recordWaits uid

/-- Put an operation whose work has ended last among the held entries of its queue. -/
def State.holdEntry (s : State) (o : Op) (act : List (Nat × Nat)) (q : Nat) (x : Queue) : State :=
  ((s.reportOp o act).modOp o.uid (fun o => { o with phase := .held })).setQueue q
    { x with heldCq := x.heldCq ++ [o.uid] }

/-- What tells of the end of an operation all of whose writes are performed: the fallback word, or its entry, held until it may
be written (R481, R484, R485). -/
def State.endEntry (s : State) (o : Op) (act : List (Nat × Nat)) (x : Queue) : State :=
  if x.cfg.cqLog = 0 then
    let s := s.reportOp o act
    let o := (s.op? o.uid).getD o
    s.tell o x x.cfg.fallback (toBytes 8 (o.fallbackWord (x.fbCount + 1)))
  else
    let s := s.holdEntry o act o.queue x
    if x.isLocal then s.flushCq o.queue 1024
    else match s.queue? o.queue with
      | some x => if s.turn x o.queue o.uid then s.writeEntry o.queue else s
      | none => s

/-- OPERATION_COMPLETE: signal word, then completion entry or fallback word, then interrupt, each once the one before it is
performed (R484). Without space the entry is held (R481). `act` is the operation's activity in the line not yet
closed, by the kinds of R532 (R533). -/
def execOperationComplete (uid : Nat) (act : List (Nat × Nat)) (s : State) : Out :=
  whenPowered s <| withSome (s.op? uid) fun o => withSome (s.queue? o.queue) fun x =>
    match o.phase with
    | .ended => whenIt (!s.feOpen o && (x.cfg.cqLog != 0 || !s.entryOpen o.queue)) <|
        let s := s.signalWord o x
        if s.feOpen o then .next s
        else .next (s.endEntry ((s.op? uid).getD o) act ((s.queue? o.queue).getD x))
    | .held => whenIt (s.turn x o.queue uid) (.next (s.writeEntry o.queue))
    | _ => notNow

/-- The fallback word of a failed entry of queue `q` could not be written at its address either: a record names the front end,
with both (R488). -/
def State.fallbackFailed (s : State) (d ctx q pa : Nat) : State :=
  s.log { errRec (s.fePath d) 0x0F 2 with
    opKind := 2, ctx := some ctx, syndrome := (Config.syndrome 0x0F [q, pa]).toNat }

/-- The write of an operation's completion entry has failed (R487): the fallback word, the interrupt, and the queue in
COMPLETION_FAULT with the entry kept. -/
def State.entryFailed (s : State) (o : Op) (x : Queue) (fallbackFails : Bool) : State :=
  let s := s.modOp o.uid (fun o => { o with phase := .held })
  let s := if fallbackFails then s.fallbackFailed x.die o.ctx o.queue x.cfg.fallback
    else s.feWrite x.die (feFor (some o.queue) none .fallback o.ctx x.cfg.fallback) (toBytes 8 (o.fallbackWord (x.fbCount + 1)))
  ((s.queueIntr x).bump (rFe x.die 0xD10)).setQueue o.queue { x with
    state := .completionFault, rearm := false, heldCq := o.uid :: x.heldCq
    left := if x.state == .completionFault then x.left else x.state }

/-- COMPLETION_WRITE_FAIL: the write of a completion entry to the host fails: with an error, or at the device timeout
(R487, R488). -/
def execCompletionWriteFail (uid : Nat) (cause : WriteFail) (s : State) : Out :=
  whenPowered s <| withSome (s.op? uid) fun o => withSome (s.queue? o.queue) fun x =>
    withSome ((s.fe x.die).writes.find? (fun w => w.uid == some uid && w.role == .entry)) fun w =>
      whenIt (x.cfg.cqLog != 0 && o.phase == .written && cause.timedOut == s.timedOut w.target w.sent
          && (cause.timedOut || s.cxl.link != .retrain)) <|
        let s := s.feFree x.die w.tag
        let s := if cause.timedOut then s.feDrop x.die none o.ctx w.pa else s
        .next (s.entryFailed o x cause.fallbackFails)

/-- The acknowledgement of a front end's write (R203, R461): a completion entry is then performed (assumption log 142). -/
def State.feAck (s : State) (d : Nat) (w : FeWrite) : State :=
  let s := s.feFree d w.tag
  match w.role, w.uid.bind s.op? with
  | .entry, some o => if o.phase == .written then s.entryDone o else s
  | _, _ => s

/-- A front end's write is discarded at the device timeout or because its target is lost (R234, R235). The failure of a
completion entry has a row of its own. -/
def State.feLate (s : State) (d : Nat) (w : FeWrite) : Act :=
  let open_ := (w.uid.bind s.op?).filter (fun o => w.role == .entry && o.phase == .written)
  let s' := (s.feFree d w.tag).feDrop d w.uid w.ctx w.pa
  match open_ with
  | some o => whenIt (((s.queue? o.queue).map (fun x => x.cfg.cqLog)).getD 0 = 0) (.next (s'.entryDone o))
  | none => .next (if w.role == .fallback then s'.fallbackFailed d w.ctx (w.queue.getD 0) w.pa else s')

/-- INTR_HOLDOFF_EXPIRY: the hold-off of a queue ends; completions within it raise one interrupt (R486). -/
def execIntrHoldoffExpiry (q : Nat) (s : State) : Out :=
  whenPowered s <| withSome (s.queue? q) fun x =>
    match x.holdUntil with
    | none => notNow
    | some u =>
      whenIt (s.reached u) <|
        if x.holdPend then
          let h := s.regN (rFe x.die 0xD04) % 2 ^ 16
          .next ((s.setQueue q { x with holdUntil := if h = 0 then none else some (s.strokeNow + h)
                                        holdPend := false }).queueIntr x)
        else .next (s.setQueue q { x with holdUntil := none })

/-! ### Timeouts and hangs: R475, R490, R491, R495, R496 -/

/-- The exception that a core of an operation has raised, and has not yet reported to the front end (R199). -/
def State.raised (s : State) (uid : Nat) : Option Nat :=
  (s.cores.findSome? (fun e => match e.2.launch with
    | some l => if l.uid == uid then e.2.exc else none
    | none => none)).map (fun x => 0x100 + x.code)

/-- The timeout of an operation can expire: its work has not ended, or what it has issued is not all performed (R475, R490); one
that is being replayed has the time limit of its replay (R496). -/
def State.timeable (s : State) (o : Op) : Bool :=
  !o.expired && !(o.replayed && s.inReplay o.ctx)
    && (o.phase == .waiting || o.phase == .running || (o.phase == .ended && s.feOpen o && !o.signalled))

/-- The line in which the timeout of an operation expires, of those that have begun (R475). -/
def State.timeoutLine (s : State) (o : Op) (n : Nat) : Nat := (s.ruling.line + 2 ^ 48 - (o.age - n) % 2 ^ 48) % 2 ^ 48

/-- The lines of the timeouts that have expired and have not been taken. -/
def State.timeoutLines (s : State) : List Nat :=
  (s.work.ops.filter s.timeable).filterMap (fun o => match s.queue? o.queue with
    | some x => if x.cfg.timeout != 0 && x.cfg.timeout ≤ o.age then some (s.timeoutLine o x.cfg.timeout) else none
    | none => none)

/-- QUEUE_TIMEOUT: TIMEOUT line boundaries have passed since an operation's acceptance (R475, R490); those of lines that a
re-alignment skipped come in the order of their lines (R44). An exception that one of its cores had already raised comes before
the timeout (R483). -/
def execQueueTimeout (uid : Nat) (s : State) : Out :=
  whenPowered s <| withSome (s.op? uid) fun o => withSome (s.queue? o.queue) fun x =>
    let n := x.cfg.timeout
    whenIt (n != 0 && n ≤ o.age && s.timeable o && s.dueFirst s.timeoutLines (s.timeoutLine o n)) <|
      let first := (o.excOrTimeout.orElse (fun _ => s.raised uid)).getD 0x303
      let s := s.modOp uid (fun o => { o with excOrTimeout := some first, expired := true })
      if o.phase == .ended || (o.opcode = 0x09 && o.phase == .running) then .next s else .next (s.endOp uid)

/-- The operation has a launch running on the core. -/
def State.runsOn (s : State) (c : Nat) (o : Op) : Bool := ((s.core c).launch.map Launch.uid) == some o.uid

/-- A core hangs, in a replay again or for the first time (R495, R496). -/
def State.coreHung (s : State) (c : Nat) : State :=
  if s.underHang c then s.replayHung (c / 32) (s.runsOn c) else s.startHang c

/-- CORE_STOP_TIMEOUT: a core that a timeout is stopping has not stopped within 64 strokes: it is hung (R491). -/
def execCoreStopTimeout (c : Nat) (s : State) : Out :=
  whenPowered s <| withSome (s.core c).launch fun l => withSome (s.op? l.uid) fun o =>
    match o.stopAt with
    | none => notNow
    | some t =>
      whenIt ((s.core c).block == .draining && o.expired && s.reached (t + 64) && !s.hangWaits c) <|
        .next (s.coreHung c)

/-- Lines without progress that declare a hang; the reserved value leaves the reset value (assumption log 21). -/
def State.noProgLines (s : State) (d : Nat) : Nat :=
  let n := s.regN (rFe d 0xD00) % 256
  if n = 0 then 16 else n

/-- Lines after which a replayed operation times out; see `State.noProgLines`. -/
def State.replayLines (s : State) (d : Nat) : Nat :=
  let n := bitsOf (s.regN (rFe d 0xD00)) 15 8
  if n = 0 then 8 else n

/-- A core waits only in WAITV, on its condition, or at a barrier (R495). -/
def Core.onlyWaits (k : Core) : Bool :=
  k.jobs.isEmpty && (match k.block with
    | .waitv _ _ _ _ _ | .bar _ _ _ => true
    | _ => false)

/-- Operations of a replay that have taken the lines R496 gives them. -/
def State.overReplay (s : State) (die : Nat) (h : Hang) (ctx : Nat) (o : Op) : Bool :=
  let n := s.replayLines die
  let limit := match s.queue? o.queue with
    | some x => if x.cfg.timeout = 0 then n else min n x.cfg.timeout
    | none => n
  o.ctx == ctx && (o.phase == .waiting || o.phase == .running) && limit ≤ h.lines

/-- HANG_DETECT: a core has made no progress for the lines of FE_HANG_CTL (R495, R496). -/
def execHangDetect (c : Nat) (s : State) : Out :=
  whenPowered s <|
    let k := s.core c
    whenIt (s.corePresent c && k.launch.isSome && s.noProgLines (c / 32) ≤ k.still && !k.onlyWaits
        && k.block != .stopped && !s.hangWaits c) <| .next (s.coreHung c)

/-- REPLAY_TIMEOUT: a replayed operation has taken its lines (R496). -/
def execReplayTimeout (die : Nat) (s : State) : Out :=
  whenPowered s <| withSome (s.fe die).hang fun h => withSome h.current fun ctx =>
    whenIt (s.work.ops.any (s.overReplay die h ctx)) (.next (s.replayHung die (s.overReplay die h ctx)))

/-! ### Context reset by register: R492, R505, R506 -/

/-- CONTEXT_RESET: a write of RAS_CTX_RESET; refused while one is in progress (R492, R493). -/
def execContextReset (v : BitVec 32) (s : State) : Out :=
  whenHub s <|
    let ctx := v.toNat % 4096
    if bitOf (s.regN (rRas 0x104)) 31 then .next (s.setRegBit (rRas 0x104) 30 true)
    else
      let s := s.resetOutside ctx true
      let busy := s.work.resetting.contains ctx
      let keep := if bitOf (s.regN (rRas 0x104)) 30 then 2 ^ 30 else 0
      .next ((s.withWork { s.work with reqCtx := some ctx }).setReg (rRas 0x104)
        (BitVec.ofNat 64 ((if busy then 2 ^ 31 else 0) + keep + s.gen ctx * 2 ^ 12 + ctx)))

/-- RAS_CTX_QUERY: names the context that RAS_CTX_GEN shows (R505, R506). -/
def execRasCtxQuery (v : BitVec 32) (s : State) : Out :=
  whenHub s <| .next (s.withWork { s.work with ctxQuery := v.toNat % 4096 })

/-- RAS_CTX_GEN (R505). -/
def State.ctxGenView (s : State) : Nat :=
  b2n (s.work.resetting.contains s.work.ctxQuery) * 256 + s.gen s.work.ctxQuery

/-! ### Queries of the FE block: R449, R476, R477 -/

/-- FE_HINV: drops the cached handle entries of a context (R449). -/
def execFeHinv (die : Nat) (v : BitVec 32) (s : State) : Out :=
  whenPowered s <| whenIt (s.adPresent die) <|
    let f := s.fe die
    .next (s.setFe die { f with handles := f.handles.filter (fun h => h.1 != v.toNat % 4096) })

/-- FE_QQUERY: names the queue that FE_QSTATE shows (R476). -/
def execFeQquery (die : Nat) (v : BitVec 32) (s : State) : Out :=
  whenPowered s <| whenIt (s.adPresent die) <|
    .next (s.setFe die { s.fe die with qquery := v.toNat % 1024 })

/-- FE_RECIPE_QUERY: names the recipe slot that FE_RECIPE_ENTRY shows (R476). -/
def execFeRecipeQuery (die : Nat) (v : BitVec 32) (s : State) : Out :=
  whenPowered s <| whenIt (s.adPresent die) <|
    .next (s.setFe die { s.fe die with rquery := v.toNat % 256 })

/-- The code of a queue state (R430). -/
def QState.code : QState → Nat
  | .free => 0 | .disabled => 1 | .running => 2 | .parked => 3 | .completionFault => 4 | .hostLost => 5 | .stopped => 6

/-- FE_QSTATE of die `d` (R476). -/
def State.qstateView (s : State) (d : Nat) : Nat :=
  match s.queue? (s.fe d).qquery with
  | none => 2 ^ 59
  | some x =>
    if x.die ≠ d then 2 ^ 59
    else x.state.code * 2 ^ 61 + b2n x.phase * 2 ^ 60 + x.cause * 2 ^ 56 + x.head % 2 ^ 16 * 2 ^ 32
      + (s.queueOps (s.fe d).qquery).length

/-- FE_RECIPE_ENTRY of die `d` (R476). -/
def State.recipeView (s : State) (d : Nat) : Nat :=
  let r := s.rslot d (s.fe d).rquery
  r.state * 2 ^ 62 + r.ctx * 2 ^ 50 + r.alive.length * 2 ^ 47
    + (r.live.map RVersion.runs).foldl (· + ·) 0 * 2 ^ 32 + r.current.getD 0

/-- FE_HANG_STAT of die `d` (R504). -/
def State.hangView (s : State) (d : Nat) : Nat :=
  match (s.fe d).hang with
  | none => 0
  | some h => 2 ^ 31 + min h.suspects.length 255 * 2 ^ 16 + h.core % 128

end Sys2Proof.Machine
end

