-- ==== Sys2Proof/Machine/Units.lean ====
section
/-! DEFINITION. Machine/Units.lean: unit paths as they are received (R13 to R15), unit states and commands (R545 to R551,
R556 to R558), quarantine, core reset, and proof runs (R540 to R544). -/

namespace Sys2Proof.Machine

/-! ### Unit paths: R13 to R15 -/

/-- What a valid unit path of this part names. -/
inductive UnitKind where
  | engine (c e : Nat)
  /-- Vector unit, stream unit, sequencer or ATU of a core: unit codes 4 to 7. -/
  | coreUnit (c u : Nat)
  | core (c : Nat)
  | clusterCache (k : Nat)
  | cluster (k : Nat)
  | frontEnd (d : Nat)
  | hart (h : Nat)
  | complex (x : Nat)
  | region (r : Nat)
  | slc (i : Nat)
  | hubUnit (u : Nat)
  | die (code : Nat)
  | oe (k : Nat)
  | stack (n : Nat)
  /-- A memory controller, 0 to 15 of the stacks and 16 to 31 of the packages (sub-unit CTRL). -/
  | controller (n : Nat)
  /-- A part of a die or engine below the units that have a state: a row, a lane, a link. -/
  | part (code : Nat)
  | node
  deriving DecidableEq, Repr

/-- The unit a path of an accelerator die names; a sub-unit that follows the layout of R86, R124, R351 or R574 names a part
of the die. -/
def adUnit (d cl core unit sub : Nat) : Option UnitKind :=
  let c := d * 32 + cl * 8 + core
  if 4 ≤ cl then none
  else if unit = 0xE then
    if cl ≠ 0 || core ≠ 0 then none
    else if sub = 0 then some (.die d)
    else if bitsOf sub 31 30 = 1 && sub % 2 ^ 17 = 0 && bitsOf sub 23 17 ≤ 67 then some (.part d) else none
  else if unit = 0xF then if cl = 0 && core = 0 && sub = 0 then some .node else none
  else if unit < 4 && sub ≠ 0 then if sub < 2 ^ 19 then some (.part d) else none
  else if unit = 6 && sub ≠ 0 then if sub % 2 ^ 17 = 0 then some (.part d) else none
  else if unit = 8 && sub ≠ 0 then if core = 0 && bitsOf sub 28 14 = 0 then some (.part d) else none
  else if sub ≠ 0 then none
  else if unit < 4 then some (.engine c unit)
  else if unit < 8 then some (.coreUnit c unit)
  else if unit = 8 then if core = 0 then some (.clusterCache (d * 4 + cl)) else none
  else if unit = 9 then if cl = 0 && core = 0 then some (.frontEnd d) else none
  else if unit = 0xC then some (.core c)
  else if unit = 0xD then if core = 0 then some (.cluster (d * 4 + cl)) else none
  else none

/-- The unit a path of a processor die names; a DRAM sub-unit names a package this die hosts (R315). -/
def pdUnit (p rg cx unit sub : Nat) : Option UnitKind :=
  if unit = 0xE then
    if rg ≠ 0 || cx ≠ 0 then none
    else if sub = 0 then some (.die (4 + p))
    else if bitOf sub 31 then
      if bitsOf sub 30 27 / 8 ≠ p then none
      else if bitOf sub 0 then if sub / 2 % 2 ^ 22 = 0 then some (.controller (16 + bitsOf sub 30 27)) else none
      else some (.part (4 + p))
    else if bitOf sub 30 && sub % 2 ^ 17 = 0 && bitsOf sub 23 17 ≤ 67 then some (.part (4 + p)) else none
  else if unit = 0xF then if rg = 0 && cx = 0 && sub = 0 then some .node else none
  else if sub ≠ 0 || 2 ≤ rg then none
  else if unit = 9 then if rg = 0 then some (.slc (p * 8 + cx)) else none
  else if 3 ≤ cx then none
  else if unit < 8 then some (.hart (p * 48 + rg * 24 + cx * 8 + unit))
  else if unit = 8 || unit = 0xC then some (.complex (p * 6 + rg * 3 + cx))
  else if unit = 0xD then if cx = 0 then some (.region (p * 2 + rg)) else none
  else none

/-- The unit a received path names, or none where R15 says that it names no unit. -/
def State.unitOf (s : State) (p : BitVec 64) : Option UnitKind :=
  let n := p.toNat
  let die := bitsOf n 56 52
  let cl := bitsOf n 51 49
  let core := bitsOf n 48 46
  let unit := bitsOf n 45 42
  let sub := n % 2 ^ 32
  if bitsOf n 41 32 ≠ 0 || bitsOf n 63 57 ≠ s.node then none
  else if die < 4 then adUnit die cl core unit sub
  else if die < 6 then pdUnit (die - 4) cl core unit sub
  else if cl ≠ 0 || core ≠ 0 || die = 7 then none
  else if unit = 0xF then if sub = 0 then some .node else none
  else if die = 6 then
    if unit < 4 then if sub = 0 then some (.hubUnit unit) else if unit = 0 && sub = 1 then some (.part 6) else none
    else if unit ≠ 0xE then none
    else if sub = 0 then some (.die 6)
    else if bitsOf sub 31 30 = 1 && sub % 2 ^ 17 = 0 && bitsOf sub 23 17 ≤ 67 then some (.part 6) else none
  else if unit ≠ 0xE then none
  else if die < 16 then
    if sub = 0 then some (.oe (die - 8))
    else if sub / 2 % 2 ^ 25 = 0 then some (.part die) else none
  else
    if sub = 0 then some (.stack (die - 16))
    else if bitOf sub 0 then if sub / 2 % 2 ^ 25 = 0 then some (.controller (die - 16)) else none
    else if sub / 2 % 64 = 0 then some (.part die) else none

/-! ### The state of a unit: R545, R556 -/

/-- The die of a code is present. -/
def State.diePresent (s : State) (code : Nat) : Bool :=
  if code < 4 then s.adPresent code
  else if code < 6 then s.pdPresent (code - 4)
  else if code < 8 then true
  else if code < 16 then s.pop.oe.getLsbD (code - 8)
  else s.pop.hs.getLsbD (code - 16)

/-- The worst of a unit's own state and those of what holds it. -/
def worst (l : List Nat) : Nat := l.foldl max 0

/-- The state code of a unit, with the key under which it is recorded. SUSPECT is a state of accelerator cores only (R545). -/
def State.unitState (s : State) (u : UnitKind) : Nat × Nat :=
  let ofDie (code key : Nat) : Nat := if s.diePresent code || s.unitRec key == 2 then s.unitRec key else 3
  match u with
  | .engine c e =>
    let k := engineDomain c e
    (if 2 ≤ s.coreState c then s.coreState c else s.unitRec k, k)
  | .coreUnit c _ => (if 2 ≤ s.coreState c then s.coreState c else 0, coreKey c)
  | .core c => (s.coreState c, coreKey c)
  | .clusterCache k | .cluster k => (ofDie (k / 4) (clusterKey k), clusterKey k)
  | .frontEnd d => (ofDie d (keyOf d 0 0 0x9), keyOf d 0 0 0x9)
  | .hart h =>
    (if s.pdPresent (h / 48) then worst [s.unitRec (complexKey h), s.unitRec (hartKey h)] else 3, hartKey h)
  | .complex x => (ofDie (4 + x / 6) (complexKey (x * 8)), complexKey (x * 8))
  | .region r => (ofDie (4 + r / 2) (keyOf (4 + r / 2) (r % 2) 0 0xD), keyOf (4 + r / 2) (r % 2) 0 0xD)
  | .slc i => (ofDie (4 + i / 8) (keyOf (4 + i / 8) 0 (i % 8) 0x9), keyOf (4 + i / 8) 0 (i % 8) 0x9)
  | .hubUnit u => (0, keyOf 6 0 0 u)
  | .die code => (ofDie code (keyOf code 0 0 0xE), keyOf code 0 0 0xE)
  | .oe k => (ofDie (8 + k) (keyOf (8 + k) 0 0 0xE), keyOf (8 + k) 0 0 0xE)
  | .stack n => (ofDie (16 + n) (keyOf (16 + n) 0 0 0xE), keyOf (16 + n) 0 0 0xE)
  | .controller n =>
    if n < 16 then (ofDie (16 + n) (keyOf (16 + n) 0 0 0xE), keyOf (16 + n) 0 0 0xE)
    else
      let key := keyOf (4 + (n - 16) / 8) 0 0 0xE + 2 ^ 31 + (n - 16) * 2 ^ 27
      (if s.ctlPresent n || s.unitRec key == 2 then s.unitRec key else 3, key)
  | .part code => (ofDie code (keyOf code 0 0 0xE), keyOf code 0 0 0xE)
  | .node => (0, keyOf 0 0 0 0xF)

/-- The state code a path shows: 3 where it names no unit (R545, R672). -/
def State.pathState (s : State) (p : BitVec 64) : Nat :=
  match s.unitOf p with
  | some u => (s.unitState u).1
  | none => 3

/-- RAS_UNIT_STATE of the queried unit (R560). -/
def State.unitStateView (s : State) : Nat :=
  let p := s.ras.unitQuery
  let line := match s.unitOf p with
    | some u => match s.ras.units.get? (s.unitState u).2 with
      | some e => e.2
      | none => 0
    | none => 0
  let pend := match s.ras.cmd with
    | some c => c.path == p
    | none => false
  s.pathState p * 2 ^ 62 + b2n pend * 2 ^ 61 + line % 2 ^ 48

/-- RAS_UNIT_QUERY: names the unit that RAS_UNIT_STATE shows (R560). -/
def execRasUnitQuery (v : BitVec 64) (s : State) : Out :=
  whenHub s <| .next (s.withRas { s.ras with unitQuery := v })

/-- RAS_PROOF_QUERY: names the core that RAS_PROOF_LAST shows (R560). -/
def execRasProofQuery (v : BitVec 32) (s : State) : Out :=
  whenHub s <| .next (s.withRas { s.ras with proofQuery := v.toNat % 128 })

/-! ### Quarantine: R548 to R551, R673 -/

/-- A change of unit state after boot clears capability bits: HUB_CAP_GEN rises by one (R673). -/
def State.capChange (s : State) : State :=
  if s.boot.phase ≠ 2 then s
  else s.setReg (rHub 0x100) (BitVec.ofNat 64 ((s.regN (rHub 0x100) + 1) % 2 ^ 32))

/-- The cores a quarantine of a unit removes or names (R548). -/
def UnitKind.cores : UnitKind → List Nat
  | .engine c _ | .coreUnit c _ | .core c => [c]
  | .clusterCache k | .cluster k => upFrom (k * 8) 8
  | _ => []

/-- A core runs no launch, nor a proof run. -/
def State.coreIdle (s : State) (c : Nat) : Bool :=
  (s.core c).launch.isNone && !s.ras.runs.any (fun r => r.started && (r.a == c || r.b == some c))

/-- A quarantine may apply: R548, column "Applies at". A core's requests have all been answered (R241). -/
def State.mayQuarantine (s : State) (u : UnitKind) : Bool :=
  match u with
  | .engine c _ | .coreUnit c _ | .core c => s.coreIdle c
  | .clusterCache k | .cluster k => (upFrom (k * 8) 8).all s.coreIdle
  | .hart h => s.power.gated.contains (hartKey h)
  | .complex x => (upFrom (x * 8) 8).all (fun h => s.power.gated.contains (hartKey h))
  | .slc _ | .oe _ => true
  | _ => false

/-- A cluster that is quarantined is reset (R146, R548): its caches, its translations and its cores' slots are gone, and
no directory lists it. -/
def State.resetCluster (s : State) (k : Nat) : State :=
  let s := s.answersFor k (fun _ => true)
  let s := s.withMem { s.mem with clusters := s.mem.clusters.erase k }
  let s := (s.mem.dir.map Prod.fst).foldl (fun s l => s.notice l k) s
  let s := s.withXlat { s.xlat with l2 := s.xlat.l2.erase k, walkCache := s.xlat.walkCache.erase k }
  (upFrom (k * 8) 8).foldl State.resetCore s

/-- Carry out a quarantine (R548): the units take QUARANTINED and their capability bits clear, in one change. A die that
loses its last cluster takes the module out of service (R384, R550). -/
def State.applyQuarantine (s : State) (u : UnitKind) (seq : Nat) (intent : Bool) : State :=
  let set (s : State) (key : Nat) : State := (s.setUnit key 2 seq intent).capChange
  match u with
  | .engine c e => set s (engineDomain c e)
  | .coreUnit c _ | .core c => (set s (coreKey c)).atusGone (· == c)
  | .clusterCache k | .cluster k =>
    let s := ((set s (clusterKey k)).resetCluster k).atusGone (fun u => u < 128 && u / 8 == k)
    if (upFrom (k / 4 * 4) 4).any s.clusterPresent then s
    else s.logFatal (errRec (s.path (k / 4) 0 0 0xE 0) 0x0C 3)
  | .hart h => set s (hartKey h)
  | .complex x => set s (complexKey (x * 8))
  | .slc i =>
    set (s.slcGate (i / 8) (i % 8)) (slcDomain (i / 8) (i % 8))
  | .oe k =>
    let s := s.withLinks { s.links with ports := s.links.ports.filter (fun p _ => p / 4 != k) }
    set s (keyOf (8 + k) 0 0 0xE)
  | _ => s

/-! ### Unit commands: R557, R558 -/

/-- A command ends: RAS_UNIT_CMD_STAT reports it, and RAS_UNIT_CMD_ACK holds the line of an acknowledgement (R557, R558);
one asked for over the hatch is answered with RESULT and the ACK line (table "Vendor commands").
Results: 0 OK, 1 REFUSED, 2 BUSY, 3 NO_UNIT, 4 STATE. -/
def State.cmdDone (s : State) (seq res : Nat) : State :=
  let s := s.setReg (rRas 0x3C)
    (BitVec.ofNat 64 (b2n s.ras.cmd.isSome * 2 ^ 31 + 2 ^ 30 + res * 2 ^ 24 + seq * 2 ^ 16))
  let s := if res = 0 then s.setReg (rRas 0x40) (BitVec.ofNat 64 (s.ruling.line % 2 ^ 48)) else s
  if s.hatch.asks.contains seq then
    (s.withHatch { s.hatch with asks := s.hatch.asks.filter (· != seq) }).mgmt [0x7E, 0x02, res, s.regN (rRas 0x40)] []
  else s

/-- A command waits for its acknowledgement: PENDING is 1 (R548, R558). -/
def State.cmdWait (s : State) (c : UnitCmd) : State :=
  (s.withRas { s.ras with cmd := some c }).setRegBit (rRas 0x3C) 31 true

/-- SUSPECT and RELEASE act on the core of the unit they name (R558). -/
def UnitKind.itsCore : UnitKind → Option Nat
  | .engine c _ | .coreUnit c _ | .core c => some c
  | _ => none

/-- The unit can be quarantined (R548). -/
def UnitKind.quarantinable : UnitKind → Bool
  | .engine _ _ | .coreUnit _ _ | .core _ | .clusterCache _ | .cluster _ | .hart _ | .complex _ | .slc _ | .oe _ => true
  | _ => false

/-- A unit command with a SEQ that has not been used acts on the unit's state (R557, R558): 1 SUSPECT, 2 RELEASE,
3 QUARANTINE, 4 CORE_RESET, the reserved 5 to 7 REFUSED; NO_UNIT comes before every other result. -/
def State.unitCommand (s : State) (p : BitVec 64) (op seq : Nat) : State :=
  if seq = s.ras.lastSeq then s
  else
    let s := s.withRas { s.ras with lastSeq := seq }
    if s.ras.cmd.isSome then s.cmdDone seq 2
    else match s.unitOf p with
      | none => s.cmdDone seq 3
      | some u =>
        let st := (s.unitState u).1
        if st = 3 then s.cmdDone seq 3
        else match op with
          | 1 => match u.itsCore with
            | none => s.cmdDone seq 1
            | some c => if st = 2 then s.cmdDone seq 4 else (s.suspectCore c seq true).cmdDone seq 0
          | 2 => match u.itsCore with
            | none => s.cmdDone seq 1
            | some c =>
              if st = 2 then s.cmdDone seq 4
              else ((if s.coreState c = 1 then s.setUnit (coreKey c) 0 seq true else s).fillSlots c).cmdDone seq 0
          | 3 =>
            if !u.quarantinable then s.cmdDone seq 1
            else if st = 2 then s.cmdDone seq 0
            else match u with
              | .slc _ | .oe _ => (s.applyQuarantine u seq true).cmdDone seq 0
              | _ => (u.cores.foldl (fun s c => s.suspectCore c seq true) s).cmdWait { path := p, op := 3, seq := seq }
          | 4 => match u with
            | .core _ => if st = 2 then s.cmdDone seq 4 else s.cmdWait { path := p, op := 4, seq := seq }
            | _ => s.cmdDone seq 1
          | 0 => s.cmdDone seq 0
          | _ => s.cmdDone seq 1

/-- SUSPECT, as its commit issues it (R558). -/
def execSuspect (path : BitVec 64) (seq : BitVec 8) (s : State) : Out :=
  whenHub s <| .next (s.unitCommand path 1 seq.toNat)

/-- RELEASE, as its commit issues it (R558). -/
def execRelease (path : BitVec 64) (seq : BitVec 8) (s : State) : Out :=
  whenHub s <| .next (s.unitCommand path 2 seq.toNat)

/-- QUARANTINE, as its commit issues it (R548, R558). -/
def execQuarantine (path : BitVec 64) (seq : BitVec 8) (s : State) : Out :=
  whenHub s <| .next (s.unitCommand path 3 seq.toNat)

/-- CORE_RESET, as its commit issues it (R153, R558). -/
def execCoreReset (path : BitVec 64) (seq : BitVec 8) (s : State) : Out :=
  whenHub s <| .next (s.unitCommand path 4 seq.toNat)

/-- CORE_RESET_EXECUTE: a requested core reset acts, once the core runs no launch and its tags are free (R153). -/
def execCoreResetExecute (c : Nat) (s : State) : Out :=
  whenPowered s <| withSome s.ras.cmd fun m =>
    let k := s.core c
    whenIt (m.op == 4 && s.unitOf m.path == some (.core c) && k.launch.isNone && k.reads.isEmpty && k.writes.isEmpty && s.drained c) <|
      .next (((s.resetCore c).withRas { s.ras with cmd := none }).cmdDone m.seq 0)

/-- QUARANTINE_APPLY: at a line boundary, a quarantine whose condition holds applies: one a verdict of R496 started,
else the pending command's (R548). -/
def execQuarantineApply (s : State) : Out :=
  whenHub s <|
    let ready (m : UnitCmd) : Bool := m.op == 3 && (match s.unitOf m.path with
      | some u => s.mayQuarantine u
      | none => false)
    let go (s : State) (m : UnitCmd) (intent : Bool) : State :=
      match s.unitOf m.path with
      | some u => s.applyQuarantine u m.seq intent
      | none => s
    whenIt (s.ruling.stroke == 0) <|
      match s.ras.waits.find? ready with
      | some m => .next (go (s.withRas { s.ras with waits := s.ras.waits.erase m }) m false)
      | none => withSome s.ras.cmd fun m =>
          whenIt (ready m) (.next ((go (s.withRas { s.ras with cmd := none }) m true).cmdDone m.seq 0))

/-! ### Proof runs: R540 to R544 -/

/-- A run names a core. -/
def ProofRun.names (r : ProofRun) (c : Nat) : Bool := r.a == c || r.b == some c

/-- The runs by id. -/
def State.run? (s : State) (i : Nat) : Option ProofRun := s.ras.runs.find? (fun r => r.id == i)

/-- Insert a run in the order of the times (R542). -/
def insertRun (r : ProofRun) : List ProofRun → List ProofRun
  | [] => [r]
  | x :: t => if strokeOf r.whenAt < strokeOf x.whenAt then r :: x :: t else x :: insertRun r t

/-- PROOF_SUBMIT: a write of RAS_PROOF_CORES submits a run with the seed and time last written; REJECTED where 64 runs
are held or the cores are equal or absent (R542, R560). -/
def execProofSubmit (v : BitVec 32) (s : State) : Out :=
  whenHub s <|
    let a := v.toNat % 128
    let b := bitsOf v.toNat 14 8
    let b? := if bitOf v.toNat 15 then none else some b
    let bad := 64 ≤ s.ras.runs.length || !s.corePresent a || (b?.isSome && (a == b || !s.corePresent b))
    if bad then .next (s.setRegBit (rRas 0x214) 31 true)
    else
      let r : ProofRun := { id := s.ras.nextRun, seed := s.reg (rRas 0x200), whenAt := s.reg (rRas 0x208), a := a
                            b := b?, due := false, started := false }
      .next (s.withRas { s.ras with runs := insertRun r s.ras.runs, nextRun := s.ras.nextRun + 1 })

/-- PROOF_RUN_DUE: the stroke of a run's WHEN has come: its cores take no further staged launch (R542). -/
def execProofRunDue (i : Nat) (s : State) : Out :=
  whenPowered s <| withSome (s.run? i) fun r =>
    whenIt (!r.due && s.reached (strokeOf r.whenAt) && s.dueFirst s.eventLines (lineOf r.whenAt)) <|
      .next (s.withRas { s.ras with runs := s.ras.runs.map (fun x => if x.id == i then { x with due := true } else x) })

/-- The cores of a run. -/
def ProofRun.cores (r : ProofRun) : List Nat := r.a :: r.b.toList

/-- A run that comes before another and shares a core with it (R542). -/
def ProofRun.blocks (x r : ProofRun) : Bool := x.due && x.id != r.id && r.cores.any x.names

/-- The runs before a run in the order of the times. -/
def runsBefore (i : Nat) : List ProofRun → List ProofRun
  | [] => []
  | x :: t => if x.id == i then [] else x :: runsBefore i t

/-- RAS_PROOF_WAIT in strokes; the value 0 is reserved (assumption log 21). -/
def State.proofWait (s : State) : Nat :=
  let n := s.regN (rRas 0x218) % 2 ^ 16
  if n = 0 then 0x100 else n

/-- PROOF_START: every earlier run has started, both cores run nothing and no run holds them, and the run is not past its wait: it
starts, waking their domains (R541, R542). -/
def execProofStart (i : Nat) (s : State) : Out :=
  whenPowered s <| withSome (s.run? i) fun r =>
    let free (c : Nat) : Bool := s.corePresent c && (s.core c).launch.isNone && !s.underHang c
    whenIt (r.due && !r.started && r.cores.all free && (runsBefore i s.ras.runs).all ProofRun.started
        && !s.ras.runs.any (fun x => x.started && x.blocks r) && !s.reached (strokeOf r.whenAt + s.proofWait)) <|
      let s := r.cores.foldl State.wakeForLaunch s
      let go (x : ProofRun) : ProofRun := if x.id == i then { x with started := true } else x
      .next (s.withRas { s.ras with runs := s.ras.runs.map go })

/-- The first engine digest that differs from two others which agree (R541). -/
def oddEngine (ds : List (BitVec 64)) : Option Nat :=
  (upFrom 0 ds.length).find? (fun e =>
    (upFrom 0 ds.length).any (fun i => (upFrom 0 ds.length).any (fun j =>
      i < j && i != e && j != e && ds[i]? == ds[j]? && ds[i]? != ds[e]?)))

/-- All digests of a core agree. -/
def agree (ds : List (BitVec 64)) : Bool := ds.all (fun d => ds.head? == some d)

/-- The outcomes of a run that has ended (R541). -/
inductive ProofOutcome where
  | pass
  | engine (core engine : Nat)
  | core (c : Nat)
  | diverge
  deriving DecidableEq, Repr

/-- The engines of a core that take part, in order. -/
def State.enginesOf (s : State) (c : Nat) : List Nat := (upFrom 0 4).filter (s.enginePresent c)

/-- The outcome within one core, if it disagrees with itself. -/
def State.coreOutcome (s : State) (c : Nat) (ds : List (BitVec 64)) : Option ProofOutcome :=
  if agree ds then none
  else match oddEngine ds with
    | some e => some (.engine c ((s.enginesOf c).getD e 0))
    | none => some (.core c)

/-- The outcome of a run from digests (R541): the first of the table that holds, core A before core B. -/
def State.outcomeOf (s : State) (r : ProofRun) (d : ProofDigests) : ProofOutcome :=
  match s.coreOutcome r.a d.a with
  | some o => o
  | none =>
    match r.b with
    | none => .pass
    | some b =>
      match s.coreOutcome b d.b with
      | some o => o
      | none => if d.a.head? == d.b.head? && d.aVec == d.bVec then .pass else .diverge

/-- The digests of a run with what faults change in them (R540). -/
def formedDigests (seed : BitVec 64) (d : ProofDigests) : ProofDigests :=
  { a := digestsOf seed d.a, aVec := proofVector seed ^^^ d.aVec, b := digestsOf seed d.b, bVec := proofVector seed ^^^ d.bVec }

/-- The outcome of a run, with what faults change in its digests (R541). -/
def State.proofOutcome (s : State) (r : ProofRun) (d : ProofDigests) : ProofOutcome := s.outcomeOf r (formedDigests r.seed d)

/-- The number of an outcome in the order of the table "Proof outcomes". -/
def ProofOutcome.number : ProofOutcome → Nat
  | .pass => 0 | .engine _ _ => 1 | .core _ => 2 | .diverge => 3

/-- The PROOF_MISMATCH record of a run: its syndrome holds the seed, the outcome, the time of the last PASS of the core that UNIT
names, and the path of its partner (R541, R552). -/
def State.proofRecord (s : State) (r : ProofRun) (o : ProofOutcome) (c : Nat) (unit : BitVec 64) : State :=
  let partner := (r.cores.filter (· != c)).map (fun p => (s.corePath p 0xC 0).toNat)
  s.log { errRec unit 0x08 2 with
    syndrome := (Config.syndrome 0x08 ([r.seed.toNat, o.number, (s.ras.lastPass.getD (fun _ => 0) c).toNat] ++ partner)).toNat }

/-- PROOF_END: the digests are compared and the outcome's effects apply (R541). -/
def execProofEnd (i : Nat) (d : ProofDigests) (s : State) : Out :=
  whenPowered s <| withSome (s.run? i) fun r =>
    let fits := d.a.length == (s.enginesOf r.a).length && (match r.b with
      | some b => d.b.length == (s.enginesOf b).length
      | none => true)
    whenIt (r.started && fits) <|
      let o := s.proofOutcome r d
      let s := s.withRas { s.ras with runs := s.ras.runs.filter (fun x => x.id != i) }
      match o with
      | .pass =>
        .next (s.withRas { s.ras with
          lastPass := r.cores.foldl (fun t c => t.put c s.now) s.ras.lastPass
          overdue := s.ras.overdue.filter (fun c => !r.cores.contains c) })
      | .engine c e => .next ((s.suspectCore c 0 false).proofRecord r o c (s.corePath c e 0))
      | .core c => .next ((s.suspectCore c 0 false).proofRecord r o c (s.corePath c 0xC 0))
      | .diverge =>
        .next ((r.cores.foldl (fun s c => s.suspectCore c 0 false) s).proofRecord r o r.a (s.corePath r.a 0xC 0))

/-- PROOF_SKIP: a run that has not started in time, or one of whose cores is gone, is not run (R541). -/
def execProofSkip (i : Nat) (s : State) : Out :=
  whenPowered s <| withSome (s.run? i) fun r =>
    whenIt (!r.started && (s.reached (strokeOf r.whenAt + s.proofWait) || r.cores.any (fun c => !s.corePresent c))) <|
      let s := s.withRas { s.ras with runs := s.ras.runs.filter (fun x => x.id != i) }
      .next (s.setRegBits (rRas 0x214) 15 0 (satInc 16 (s.regN (rRas 0x214) % 2 ^ 16)))

/-- RAS_PROOF_STAT (R560): the runs held beside the flags and the count. -/
def State.proofStatView (s : State) : Nat :=
  s.regN (rRas 0x214) + s.ras.runs.length * 2 ^ 16

/-- RAS_PROOF_LAST of the queried core (R560). -/
def State.proofLastView (s : State) : Word := s.ras.lastPass.getD (fun _ => 0) s.ras.proofQuery

/-- Plate boundary: cores with no PASS within the interval (R544). `plate` is the plate's number. -/
def State.proofOverdue (s : State) : State :=
  let n := s.regN (rRas 0x21C) % 2 ^ 16
  if n = 0 then s
  else ((upFrom 0 128).filter s.corePresent).foldl (fun s c =>
    let last := s.ras.lastPass.getD (fun _ => 0) c
    let age := (s.ruling.line + 2 ^ 48 - last.toNat / 2 ^ 16) % 2 ^ 48
    if s.ras.overdue.contains c || age ≤ n * 4096 then s
    else
      let s := s.withRas { s.ras with overdue := insertUp c s.ras.overdue }
      (s.log { errRec (s.corePath c 0xC 0) 0x09 0 with syndrome := last.toNat }).setRegBit (rRas 0x214) 30 true) s

end Sys2Proof.Machine
end

