-- ==== Sys2Proof/Machine/Power.lean ====
section
/-! DEFINITION. Machine/Power.lean: operating points, limiters, ceilings, the energy credit, domains and temperatures
(chapter 15). -/

namespace Sys2Proof.Machine

/-! ### Dies -/

/-- The array clock of an operating point in MHz (R512). -/
def pointClock (p : Nat) : Nat :=
  [150, 200, 240, 280, 320, 360, 400, 440, 480, 510, 540, 570, 600, 640, 680, 720].getD p 720

/-- The dies a limiter's action names; 17 is the input (R507, R510, R524). -/
def railDies (r : Nat) : List Nat :=
  if r < 4 then [r] else if r < 8 then [r - 4] else if r < 10 then [4 + (r - 8)]
  else if r = 10 || r = 16 then [] else if r < 15 then [r - 11] else [0, 1, 2, 3]

/-- The die code that the record of a rail names (R511). -/
def railDie (r : Nat) : Nat :=
  match railDies r with
  | [d] => d
  | _ => 6

/-- The limiter's action is a ratio; those of VDD_HUB and VDD_OE only log a record (R507). -/
def railActs (r : Nat) : Bool := !(railDies r).isEmpty

/-- The limit of a rail in 1/16 A (R507); of the input, 17, the effective ceiling of the current line (R524). -/
def State.railLimit (s : State) (r : Nat) : Nat :=
  if r = 17 then s.power.ceilNow
  else 16 * (if r < 4 then 320 else if r < 8 then 110 else if r < 10 then 140 else if r = 10 then 60 else if r < 15 then 160
    else if r = 15 then 80 else 130)

/-- A POWER record of a rail (R511): its die's path with the rail index in the sub-unit. R511 puts it there, where R14 names no
layout of code 0xE for an AD, a PD or the HD and R15 asks for zero: the model follows R511 (assumption log 82). -/
def State.railRecord (s : State) (r : Nat) : State :=
  s.log { errRec (s.path (railDie r) 0 0 0xE r) 0x0E 2 with syndrome := r }

/-- A limiter acts in this line (R510). -/
def State.markActed (s : State) (r : Nat) : State :=
  (railDies r).foldl (fun s d => s.setDiePwr d { s.diePwr d with acted := true }) s

/-- A limiter begins with ratio 2 (R508). -/
def State.limiterStart (s : State) (r : Nat) : State :=
  (s.withPower { s.power with limiter := s.power.limiter.put r 2 }).markActed r

/-- RAIL_EXCESS: a limiter detects a current above its limit (R507). -/
def execRailExcess (x : RailAmps) (s : State) : Out :=
  whenHub s <| whenIt (x.rail ≤ 16 && s.railLimit x.rail < x.amps) <|
    if !railActs x.rail then .next (s.railRecord x.rail)
    else whenIt (s.power.limiter.get? x.rail).isNone (.next (s.limiterStart x.rail))

/-- One µs of a limiter that acts, at a current of `amps`: its ratio rises to 6 while the excess persists, falls below 95 % of
the limit, and stands between the two; at 6 with every die at its lowest point the excess is OVER_LIMIT, once, which 7 marks
(R508, R511). -/
def State.limiterStep (s : State) (r k amps : Nat) : State :=
  let s := s.markActed r
  let limit := s.railLimit r
  if limit < amps then
    if k < 6 then s.withPower { s.power with limiter := s.power.limiter.put r (k + 1) }
    else if k = 6 && r ≤ 16 && (railDies r).all (fun d => (s.diePwr d).point == 0) then
      ((s.withPower { s.power with limiter := s.power.limiter.put r 7 }).setRegBit (rPwr 0x14) 31 true).railRecord r
    else s
  else if amps * 100 < limit * 95 then
    if k ≤ 1 then s.withPower { s.power with limiter := s.power.limiter.erase r }
    else s.withPower { s.power with limiter := s.power.limiter.put r (min k 6 - 1) }
  else s

/-- LIMITER_RATIO_STEP: each µs a limiter that acts raises or lowers its ratio by the current it sees (R508). -/
def execLimiterRatioStep (rail amps : Nat) (s : State) : Out :=
  whenPowered s <| withSome (s.power.limiter.get? rail) fun k => .next (s.limiterStep rail k amps)

/-- INPUT_EXCESS: the input limiter compares the input current, in 1/16 A, with the effective ceiling of the current line
(R524). -/
def execInputExcess (amps : Nat) (s : State) : Out :=
  whenHub s <|
    match s.power.limiter.get? 17 with
    | none => whenIt (s.railLimit 17 < amps) (.next (s.limiterStart 17))
    | some k => .next (s.limiterStep 17 k amps)

/-! ### Ceilings and credit: R520 to R527 -/

/-- The least a ceiling acts as, in 1/16 A (R521). -/
def State.ceilFloor (s : State) : Nat := if s.pop.variant = .nwa1220 then 120 else 200

/-- The floor ceiling exceeds the burst ceiling (R521). -/
def State.ceilOrder (s : State) : Bool := s.regN (rPwr 0x4) % 4096 < s.regN (rPwr 0x0) % 4096

/-- The burst ceiling and the floor ceiling as they act (R521). -/
def State.burstCeil (s : State) : Nat := max s.ceilFloor (s.regN (rPwr 0x4) % 4096)

/-- See `State.burstCeil`. -/
def State.floorCeil (s : State) : Nat :=
  if s.ceilOrder then s.burstCeil else max s.ceilFloor (s.regN (rPwr 0x0) % 4096)

/-- The bounds of PWR_CAP in watts (R525). -/
def State.capBounds (s : State) : Nat × Nat := if s.pop.variant = .nwa1220 then (300, 800) else (500, 1500)

/-- PWR_CAP lies outside its bounds (R525). -/
def State.capOut (s : State) : Bool :=
  let w := s.regN (rPwr 0x8) % 2 ^ 11
  w < s.capBounds.1 || s.capBounds.2 < w

/-- The sustained cap P in watts (R525). -/
def State.sustainedCap (s : State) : Nat :=
  let own := min s.capBounds.2 (max s.capBounds.1 (s.regN (rPwr 0x8) % 2 ^ 11))
  match s.power.rackCap with
  | some (w, line) =>
    if bitOf (s.regN (rPwr 0x10)) 30 && w != 0 && (s.ruling.line + 2 ^ 48 - line) % 2 ^ 48 ≤ 4096 then min own w else own
  | none => own

/-- The pitch in ns, by its code (R17); reserved codes are never stored (R18). -/
def pitchNs (code : Nat) : Nat := [5120, 10240, 20480, 40960, 81920].getD code 20480

/-- The line time in ns: that of the pitch, or 20.48 µs in UNRULED (R17, R48). -/
def State.lineNs (s : State) : Nat := if s.ruling.state = .unruled then 20480 else pitchNs (s.regN rRuleCtl % 8)

/-- The ceiling of credit in nJ (R526); DEPTH 0 is reserved (assumption log 21). -/
def State.creditMax (s : State) : Int :=
  let n := s.regN (rPwr 0xC) % 2 ^ 16
  (s.sustainedCap * (if n = 0 then 0x1000 else n) * s.lineNs : Nat)

/-- The cap current in 1/16 A: P divided by the measured input voltage (R527). -/
def State.capCurrent (s : State) : Nat :=
  match s.power.meas with
  | some m => s.sustainedCap * 16000 / max m.mv 1
  | none => 4095

/-- The module is granted the burst ceiling for the next line (R45, R48, R520). -/
def State.burstGranted (s : State) : Bool :=
  match s.ruling.state with
  | .unruled => true
  | .acquiring | .lost | .slew => false
  | _ => !s.ruling.ckLost && s.power.grant == some true

/-- The ceiling of the next line is the burst ceiling, which the cap current does not lower (R520, R527, R536). -/
def State.burstLine (s : State) : Bool :=
  s.burstGranted && !(decide (s.power.credit ≤ 0) && decide (s.capCurrent < s.burstCeil))

/-- The effective ceiling of the next line in 1/16 A (R520, R527). -/
def State.nextCeiling (s : State) : Nat :=
  let c := if s.burstGranted then s.burstCeil else s.floorCeil
  if s.power.credit ≤ 0 then min c s.capCurrent else c

/-! ### The decision: R513 to R519, R530 -/

/-- The operations with work running or staged on an accelerator die (R517). -/
def State.worksOn (s : State) (d : Nat) : List Nat :=
  (s.cores.filter (fun c _ => c / 32 == d)).flatMap (fun e =>
    (e.2.launch.toList ++ e.2.staged.map Staged.launch).map Launch.uid)

/-- The preference of an accelerator die for the next line (R517). -/
def State.preference (s : State) (d : Nat) : Nat :=
  let on := s.worksOn d
  let prefs := (s.work.ops.filter (fun o => on.contains o.uid)).filterMap (fun o =>
    (s.queue? o.queue).map (fun x => x.prefs.getD d 0))
  match prefs with
  | [] => s.regN (rPwr 0x10) % 16
  | p :: t => t.foldl max p

/-- The hottest sensor of a die, with what R530 counts as part of it. -/
def State.hottest (s : State) (d : Nat) : Nat :=
  let t (code : Nat) : Nat := s.power.temps.getD (fun _ => 0) code
  let own := max (t d) (t 6)
  if d < 4 then
    ((upFrom (16 + 4 * d) 4) ++ [8 + 2 * d, 9 + 2 * d]).foldl (fun a x => max a (t x)) own
  else own

/-- The thermal limit and the limiter limit of a die at stroke 14 (R510, R530); a limit above the die's highest point, or
clock step, acts as that one (assumption log 141). -/
def DiePwr.limits (x : DiePwr) (top : Nat) (acting : Bool) : DiePwr :=
  let t := if x.hot then min x.tlimit top - 1 else if 16 ≤ x.cool then max x.tlimit (min top (x.tlimit + 1)) else x.tlimit
  let l := if acting then min x.llimit top - 1 else if 16 ≤ x.quiet then max x.llimit (min top (x.llimit + 1)) else x.llimit
  { x with tlimit := t, llimit := l, cool := if 16 ≤ x.cool then 0 else x.cool, quiet := if 16 ≤ x.quiet then 0 else x.quiet }

/-- The end of a line for a die: a whole line below 100 °C, or without its limiters, counts, and the readings of the next line
begin anew (R510, R530). -/
def DiePwr.endLine (x : DiePwr) (acting : Bool) : DiePwr :=
  { x with cool := if x.warm then 0 else x.cool + 1, quiet := if acting || x.acted then 0 else x.quiet + 1
           hot := false, warm := false, acted := false }

/-- A limiter that names a die acts. -/
def State.dieLimited (s : State) (d : Nat) : Bool := s.power.limiter.any (fun e => (railDies e.1).contains d)

/-- Boost is allowed on a die in the next line (R518). -/
def State.boostOk (s : State) (d : Nat) : Bool :=
  bitOf (s.regN (rPwr 0x10)) 31 && (s.burstGranted || s.ruling.state == .unruled) && s.hottest d < 95

/-- Items 2 to 5 of R518 for a die. -/
def State.dieCaps (s : State) (d : Nat) : List Nat :=
  let x := s.diePwr d
  [s.regN (rPwr (0x100 + d * 0x10)) % 16, if s.boostOk d then 15 else 12, x.tlimit, x.llimit]

/-- The predicted input current at a choice of points is at most 95 % of a ceiling (R519): both sides are multiplied by
the denominators of the dies' scales. -/
def State.fits (s : State) (ceil : Nat) (pts : List Nat) : Bool :=
  match s.power.meas with
  | none => true
  | some m =>
    let scale (p : Nat) : Nat := pointClock p * pointVolt p * pointVolt p
    let den (d : Nat) : Nat := scale (s.diePwr d).point
    let all := den 0 * den 1 * den 2 * den 3
    let sum := (m.rails.map (fun r =>
      let w := bitsOf (s.regN (rPwr (0x200 + r.rail * 4))) 31 16 * r.amps
      if r.rail < 8 then w * scale (pts.getD (r.rail % 4) 0) * (all / den (r.rail % 4)) else w * all)).foldl (· + ·) 0
    sum * 10000 ≤ 95 * 92 * ceil * m.mv * all

/-- The die at the highest point, the lowest number first among equals. -/
def highestDie (pts : List Nat) : Nat :=
  (upFrom 0 pts.length).foldl (fun a d => if pts.getD a 0 < pts.getD d 0 then d else a) 0

/-- The governor (R519): lowers one die by one point at a time until the prediction fits. -/
def State.govern (s : State) (ceil : Nat) : Nat → List Nat → List Nat
  | 0, pts => pts
  | n + 1, pts =>
    if s.fits ceil pts || pts.all (· == 0) then pts
    else
      let d := highestDie pts
      State.govern s ceil n (pts.set d (pts.getD d 0 - 1))

/-- A die takes its point for the next line: a lower one at once, a higher one when its voltage has settled (R514). -/
def DiePwr.take (x : DiePwr) (p pref hold : Nat) : DiePwr :=
  { x with point := min x.point p, settling := if x.point < p then some p else none
           nextPref := pref, nextHold := hold }

/-- The HOLD bits of a die (R518): the items 2 to 6 below its preference, and that the cap current bound item 6. -/
def holdBits (pref : Nat) (caps : List Nat) (gov : Nat) (capped : Bool) : Nat :=
  ((caps.zip (upFrom 0 4)).map (fun p => if p.1 < pref then 2 ^ p.2 else 0)).foldl (· + ·) 0
    + (if gov < pref && gov < (caps.foldl min pref) then 2 ^ 4 + (if capped then 2 ^ 5 else 0) else 0)

/-- The clock step of a processor die (R513). -/
def State.pdStep (s : State) (p : Nat) : Nat :=
  let ctl := s.regN (rPwr (0x180 + p * 0x10))
  let x := s.diePwr (4 + p)
  min (min (min 8 (bitsOf ctl 7 4)) (min 8 (ctl % 16))) (min x.tlimit x.llimit)

/-- Some die would run below its preference for the floor ceiling alone: that ceiling, and neither another item of R518 nor the
cap current, holds it (R522; assumption log 148). -/
def State.burstHelps (s : State) (prefs start : List Nat) : Bool :=
  let floor := s.govern s.floorCeil 64 start
  !(decide (s.power.credit ≤ 0) && s.capCurrent < s.floorCeil) && (upFrom 0 4).any (fun d => s.adPresent d &&
    floor.getD d 0 < prefs.getD d 0 && prefs.getD d 0 ≤ start.getD d 0)

/-- What holds the clock step of a processor die below its preference, in the bits of a die's HOLD: MAX, its thermal limit,
its limiter limit (R513, R536). -/
def State.pdHold (s : State) (p pref : Nat) : Nat :=
  let x := s.diePwr (4 + p)
  holdBits pref [min 8 (s.regN (rPwr (0x180 + p * 0x10)) % 16), pref, x.tlimit, x.llimit] pref false

/-- POINT_DECISION: at stroke 14 the module decides each die's point for the next line (R514 to R519). -/
def execPointDecision (s : State) : Out :=
  whenPowered s <| whenIt (s.ruling.stroke == 14 && !s.power.decided) <|
    let s := (upFrom 0 6).foldl (fun s d => s.setDiePwr d ((s.diePwr d).limits (if d < 4 then 15 else 8) (s.dieLimited d))) s
    let prefs := (upFrom 0 4).map s.preference
    let caps := (upFrom 0 4).map s.dieCaps
    let start := (upFrom 0 4).map (fun d =>
      if s.adPresent d then (caps.getD d []).foldl min (prefs.getD d 0) else 0)
    let out := decide (s.power.credit ≤ 0)
    let ceil := s.nextCeiling
    let gov := s.govern ceil 64 start
    let capped := out && ceil < (if s.burstGranted then s.burstCeil else s.floorCeil)
    let wanted := s.burstHelps prefs start
    let burst := s.burstLine
    let s := ((upFrom 0 4).filter s.adPresent).foldl (fun s d =>
      s.setDiePwr d ((s.diePwr d).take (gov.getD d 0) (prefs.getD d 0)
        (holdBits (prefs.getD d 0) (caps.getD d []) (gov.getD d 0) capped))) s
    let s := ((upFrom 0 2).filter s.pdPresent).foldl (fun s p =>
      let pref := min 8 (bitsOf (s.regN (rPwr (0x180 + p * 0x10))) 7 4)
      s.setDiePwr (4 + p) ((s.diePwr (4 + p)).take (s.pdStep p) pref (s.pdHold p pref))) s
    .next (s.withPower { s.power with ceilNext := ceil, burstNext := burst, wanted := wanted, decided := true
                                      creditOut := out })

/-- VOLTAGE_SETTLED: the raised voltage has settled and the die switches to the higher clock (R514); a trim that now needs more
than 760 mV is clamped (R516). -/
def execVoltageSettled (die : Nat) (s : State) : Out :=
  whenPowered s <| withSome (s.diePwr die).settling fun p =>
    whenIt (!s.power.decided) (.next (s.setDiePwr die { s.diePwr die with point := p, settling := none }).trimCheck)

/-- The ceiling of the next line, as its line begins: by the grant received in this line and the tracker's state at its end
(R45, R520). -/
def State.settleCeiling (s : State) : State :=
  s.withPower { s.power with ceilNext := s.nextCeiling, burstNext := s.burstLine }

/-- The start of a line for power: the decision takes effect, and the lines in which a die runs below its preference are counted
(R518); a die whose rail the trip holds off does not run. -/
def State.powerLine (s : State) : State :=
  let s := (upFrom 0 6).foldl (fun s d =>
    let x := (s.diePwr d).endLine (s.dieLimited d)
    let s := s.setDiePwr d { x with pref := x.nextPref, hold := x.nextHold }
    if d < 4 && s.adPresent d && !s.power.tripped && x.settling.getD x.point < x.nextPref then s.bump (rPwr (0x108 + d * 0x10))
    else s) s
  (s.withPower { s.power with ceilNow := s.power.ceilNext, burstNow := s.power.burstNext, decided := false
                              grant := none }).trimCheck

/-- Closing a line (R526, R532, R533): meters, the rails' voltages (R512, R513), energy by operation, residual, and the credit.
The share of an operation that has completed in the line is apportioned too, and that of one that was aborted is residual. -/
def State.closeLine (s : State) (m : LineMeas) : State :=
  let s := s.withPower { s.power with meas := some m }
  let s := s.setReg (rPwr 0x18) (BitVec.ofNat 64 (m.mv % 2 ^ 16 * 2 ^ 16 + min m.input 4095))
  let s := m.rails.foldl (fun s r =>
    if r.rail ≤ 16 then s.setReg (rPwr (0x200 + r.rail * 4)) (BitVec.ofNat 64 (s.railVolt r.rail * 2 ^ 16 + r.amps % 2 ^ 16))
    else s) s
  let mine := (measShares m).filter (fun e => e.1 < s.work.nextUid && !s.power.aborted.contains e.1)
  let s := s.withWork { s.work with ops := s.work.ops.map (fun o => { o with openEnergy := 0 }) }
  let s := mine.foldl (fun s e => s.modOp e.1 (fun o => { o with energy := o.energy + e.2 })) s
  let shared := (mine.map Prod.snd).foldl (· + ·) 0
  let s := s.setReg (rPwr 0x20) (s.reg (rPwr 0x20) + BitVec.ofNat 64 m.energy)
  let s := s.setReg (rPwr 0x28) (s.reg (rPwr 0x28) + BitVec.ofNat 64 (m.energy - shared))
  let gain : Int := (s.sustainedCap * s.lineNs : Nat)
  let c := min s.creditMax (min s.power.credit s.creditMax + gain - (m.energy * 1000 : Nat))
  let s := if s.capOut then s.setRegBit (rPwr 0x14) 29 true else s
  s.withPower { s.power with credit := c, aborted := [] }

/-! ### Views of the PWR block: R536 -/

/-- PWR_STAT (R536). -/
def State.pwrStatView (s : State) : Nat :=
  let r := s.regN (rPwr 0x14)
  (r - r % 2 ^ 31 % 2 ^ 28 - b2n (bitOf r 30) * 2 ^ 30) + b2n s.ceilOrder * 2 ^ 30 + b2n s.power.creditOut * 2 ^ 27
    + b2n s.power.burstNow * 2 ^ 26 + b2n (s.power.limiter.get? 17).isSome * 2 ^ 25

/-- PWR_ADn_STAT and PWR_PDp_STAT (R536), with the hottest of the sensors that count as the die's (R530); zero for an absent
die. -/
def State.dieStatView (s : State) (d : Nat) : Nat :=
  if !s.diePresent d then 0
  else
    let x := s.diePwr d
    x.point * 2 ^ 28 + x.pref * 2 ^ 24 + x.tlimit * 2 ^ 20 + s.hottest d % 256 * 2 ^ 8 + x.hold

/-- PWR_CREDIT: C in mJ, signed (R536). -/
def State.creditView (s : State) : Nat := unsigned (min s.creditMax s.power.credit / 1000000) 32

/-! ### Domains: R529 -/

/-- The domain a path names, as its key in the list of gated domains. -/
def UnitKind.domain : UnitKind → Option Nat
  | .engine c e => some (engineDomain c e)
  | .coreUnit c u => if u = 6 then some (coreDomain c) else none
  | .clusterCache k => some (keyOf (k / 4) (k % 4) 0 0x8)
  | .frontEnd d => some (keyOf d 0 0 0x9)
  | .hart h => some (hartKey h)
  | .complex x => some (complexKey (x * 8))
  | .slc i => some (keyOf (4 + i / 8) 0 (i % 8) 0x9)
  | .controller n => some (ctlDomain n)
  | .oe k => some (keyOf (8 + k) 0 0 0xE)
  | .hubUnit u => some (keyOf 6 0 0 u)
  | _ => none

/-- A present domain and its key; a complex is named by unit code 8 (R529). -/
def State.domainOf (s : State) (p : BitVec 64) : Option (UnitKind × Nat) :=
  match s.unitOf p with
  | some u =>
    if (s.unitState u).1 = 3 || bitsOf p.toNat 45 42 = 0xC then none else (u.domain).map (fun k => (u, k))
  | none => none

/-- The domain is gated. -/
def State.isGated (s : State) (k : Nat) : Bool := s.power.gated.contains k

/-- A port of an optical engine is up (R575). -/
def State.oePorts (s : State) (k : Nat) : Bool := s.links.ports.any (fun e => e.1 / 4 == k && e.2.up)

/-- Gating is refused (R529); `wfi` says that the hart of a processor core is in WFI. -/
def State.gateRefused (s : State) (u : UnitKind) (wfi : Bool) : Bool :=
  match u with
  | .engine c _ => (s.core c).launch.isSome
  | .coreUnit c _ => (s.core c).launch.isSome || s.peel.t0.any (fun e => e.1 / 64 == c)
  | .clusterCache k => (upFrom (k * 8) 8).any (fun c => s.corePresent c && !s.coreGated c)
  | .frontEnd d => s.work.queues.any (fun e => e.2.die == d)
      || (upFrom (d * 32) 32).any (fun c => s.corePresent c && !s.coreGated c)
  | .hart _ => !wfi
  | .complex x => (upFrom (x * 8) 8).any (fun h => s.hartPresent h && !s.isGated (hartKey h))
  | .oe k => s.oePorts k
  | .hubUnit n => n != 3
  | _ => false

/-- What gating waits for holds (R241, R257, R331, R529). -/
def State.gateReady (s : State) (u : UnitKind) : Bool :=
  match u with
  | .coreUnit c _ => s.drained c && (s.core c).reads.isEmpty
  | .clusterCache k => (s.cluster k).held.isEmpty
  | .frontEnd d => (s.fe d).writes.isEmpty
  | .hart h => (s.hart h).stores.isEmpty
  | .controller n => !s.mem.txns.any (fun t => (s.homeOf (t.req.line * 128)).1 == n)
      && !s.mem.waitq.any (fun r => (s.homeOf (r.line * 128)).1 == n) && (s.peel.moves.isEmpty || !s.ctlInUse n)
  | _ => true

/-- A domain is gated: a cluster cache loses every line and its translations (R352, R385), a core and a front end lose their L1
TLB (R385), a slice of a system-level cache leaves in order (R358), and a complex's L2 block gives its lines up. -/
def State.gate (s : State) (u : UnitKind) (k : Nat) : State :=
  let s := s.withPower { s.power with gated := insertUp k (s.power.gated), gating := s.power.gating.filter (· != k) }
  match u with
  | .clusterCache c =>
    let s := s.answersFor c (fun _ => true)
    let s := s.setCluster c { s.cluster c with tags := [], victims := [], gone := [] }
    s.withXlat { s.xlat with l2 := s.xlat.l2.erase c, walkCache := s.xlat.walkCache.erase c }
  | .coreUnit c _ => (s.withXlat { s.xlat with l1 := s.xlat.l1.erase c }).atusGone (· == c)
  | .frontEnd d => (s.withXlat { s.xlat with l1 := s.xlat.l1.erase (128 + d) }).atusGone (· == 128 + d)
  | .slc i => s.slcGate (i / 8) (i % 8)
  | .complex x => s.complexGate x
  | _ => s

/-- A domain powers up: a core's scratchpad is cleared (R130); a hart's complex wakes with it. -/
def State.ungate (s : State) (u : UnitKind) (k : Nat) : State :=
  match u with
  | .coreUnit c _ => s.wakeCore c
  | .hart h => s.withPower { s.power with gated := s.power.gated.filter (fun x => x != k && x != complexKey h) }
  | _ => s.withPower { s.power with gated := s.power.gated.filter (· != k) }

/-- PWR_DOMAIN_STAT after a command that has ended: 0 OK, 1 REFUSED, 2 NO_DOMAIN (R536). -/
def State.domainDone (s : State) (res : Nat) (gated : Bool) : State :=
  s.setReg (rPwr 0x50C) (BitVec.ofNat 64 (2 ^ 30 + res * 2 ^ 24 + b2n gated))

/-- A command of PWR_DOMAIN_CTL: ignored while one is executing; NO_DOMAIN where the path names no domain. -/
def State.domainCommand (s : State) (p : BitVec 64) (f : UnitKind → Nat → State) : Out :=
  whenHub s <|
    if bitOf (s.regN (rPwr 0x50C)) 31 then .next s
    else match s.domainOf p with
      | none => .next (s.domainDone 2 false)
      | some (u, k) => .next (f u k)

/-- GATE: gates a named domain, or waits for what it holds to be performed (R241, R529). -/
def execGate (path : BitVec 64) (wfi : Bool) (s : State) : Out :=
  s.domainCommand path fun u k =>
    if s.isGated k then s.domainDone 0 true
    else if s.gateRefused u wfi then s.domainDone 1 false
    else if s.gateReady u then (s.gate u k).domainDone 0 true
    else (s.withPower { s.power with gating := [k] }).setRegBit (rPwr 0x50C) 31 true

/-- UNGATE: ungates a named domain (R529). -/
def execUngate (path : BitVec 64) (s : State) : Out :=
  s.domainCommand path fun u k => (s.ungate u k).domainDone 0 false

/-- QUERY: reports whether a named domain is gated (R529). -/
def execQuery (path : BitVec 64) (s : State) : Out :=
  s.domainCommand path fun _ k => s.domainDone 0 (s.isGated k)

/-- GATING_COMPLETE: what the domain held is performed or discarded, and it is gated (R241). The conditions under which R529
refuses a request are those of its acceptance: a launch or a T0 allocation that has come to the core since does not stop it
(assumption log 154). -/
def execGatingComplete (path : BitVec 64) (s : State) : Out :=
  whenPowered s <| withSome (s.domainOf path) fun d =>
    whenIt (s.power.gating.contains d.2 && s.gateReady d.1) (.next ((s.gate d.1 d.2).domainDone 0 true))

/-- A domain's wake event has come (R529). -/
def State.wakeDue (s : State) (u : UnitKind) : Bool :=
  match u with
  | .engine c _ | .coreUnit c _ => !(s.core c).staged.isEmpty
  | .hart h => (upFrom (h * 9) 9).any (fun f => s.pds.files.getD (fun _ => 0) f != 0)
  | .complex x => (upFrom (x * 8) 8).any (fun h => s.hartPresent h && !s.isGated (hartKey h))
  | .controller n => s.mem.txns.any (fun t => (s.homeOf (t.req.line * 128)).1 == n)
  | _ => false

/-- DOMAIN_WAKE: a gated domain wakes on its listed event without a command (R529). -/
def execDomainWake (path : BitVec 64) (s : State) : Out :=
  whenPowered s <| withSome (s.domainOf path) fun d =>
    whenIt (s.isGated d.2 && s.wakeDue d.1) (.next (s.ungate d.1 d.2))

/-! ### Temperature: R530 -/

/-- SENSOR_READ: the dies and stacks read their hottest sensors, by die code (R530). -/
def execSensorRead (temps : List (Nat × Nat)) (s : State) : Out :=
  whenHub s <| whenIt (temps.all (fun t => t.1 < 32 && s.diePresent t.1)) <|
    let s := temps.foldl (fun s t =>
      s.withPower { s.power with temps := s.power.temps.put t.1 t.2 }) s
    .next ((upFrom 0 6).foldl (fun s d =>
      let x := s.diePwr d
      let h := s.hottest d
      s.setDiePwr d { x with hot := x.hot || decide (105 ≤ h), warm := x.warm || decide (100 ≤ h) }) s)

end Sys2Proof.Machine
end

