-- ==== Sys2Proof/Machine/Ruling.lean ====
section
/-! DEFINITION. Machine/Ruling.lean: the ruling tracker, its marks and frames, the hatch clock, the pitch, and the arming
of commits (chapter 01; R646, R647, R651). -/

namespace Sys2Proof.Machine

/-! ### RULE_STAT and its interrupt: R24, R53 -/

/-- The code of a tracker state (R24). -/
def Tracker.code : Tracker → Nat
  | .acquiring => 0 | .locked => 1 | .flywheel => 2 | .lost => 3 | .slew => 4 | .unruled => 5

/-- RULE_STAT: the state, the two current conditions, and the flags that software clears. -/
def State.ruleStat (s : State) : Nat :=
  s.ruling.state.code * 2 ^ 28 + (s.regN rRuleStat &&& 0xFA) + b2n s.ruling.ckLost * 4
    + b2n (s.ruling.state == .lost)

/-- Change the tracker in one fabric cycle: the enabled bits of RULE_STAT that rise together raise one MSI (R53). -/
def State.rule (s : State) (f : State → State) : State :=
  let s' := f s
  let rose := (upFrom 0 8).any (fun i => bitOf s'.ruleStat i && !bitOf s.ruleStat i && bitOf (s.regN rRuleIntrEn) i)
  if rose then s'.msiTarget (s'.regN rRuleIntrTgt) else s'

/-- Set a flag of RULE_STAT. -/
def State.ruleFlag (s : State) (bit : Nat) : State := s.setRegBit rRuleStat bit true

/-- A TIME record (class 0x0D) naming a unit, with RULE_STAT as its syndrome. -/
def State.timeRecord (s : State) (unit : BitVec 64) : State := s.log { errRec unit 0x0D 0 with syndrome := s.ruleStat }

/-- Entry into LOST (R42, R692): the phase is dropped; a candidate that has been seen stays. -/
def State.enterLost (s : State) : State :=
  let s := s.rule (fun s => (s.withRuling { s.ruling with
    state := .lost, predicted := none, good := 0, missed := 0, fullSeen := none, jump := 0, slewLeft := 0
    slewSkip := false }).ruleFlag 1)
  (((s.setReg rRuleLoss s.now).alert 0)).timeRecord s.hubPath

/-! ### The hatch bus and its packets: R47, R647, R648, R653, R654 -/

/-- HTCH_CK cycles of a stroke: those of the pitch when the marks frame the bus, else 32 (R648; table "Divisions at each
pitch"). -/
def State.strokeCycles (s : State) : Nat :=
  if s.hatch.framing = .marks then 8 * 2 ^ (s.regN rRuleCtl % 8) else 32

/-- The bus carries traffic: framing has begun, and the hatch clock runs and has done so since the line began (R47). -/
def State.busOpen (s : State) : Bool := s.hatch.framing != .none && !s.ruling.ckLost && s.hatch.usable

/-- The packet of a message that chunks have begun is discarded: the message can no longer be put together, and goes on with
its next packet, if it has one (R653, R654). -/
def OutMsg.discard (m : OutMsg) : Option OutMsg :=
  if m.sent % m.packet = 0 then some m
  else
    let next := (m.sent / m.packet + 1) * m.packet
    if next < Config.messageBytes m.args m.bytes then some { m with sent := next, spoilt := true } else none

/-- A packet in progress is discarded in either direction (R47, R647). -/
def Hatch.discard (h : Hatch) : Hatch :=
  { h with part := none, skip := true, tx := (h.tx.take 1).filterMap OutMsg.discard ++ h.tx.drop 1 }

/-- The payload of a message that one chunk more has carried: LEN is at most n − 3, and a packet starts no earlier than the chunk
after the one in which the last one ended (R653, R654). -/
def OutMsg.next (m : OutMsg) (n : Nat) : Nat :=
  min (min (m.sent + (n - 3)) ((m.sent / m.packet + 1) * m.packet)) (Config.messageBytes m.args m.bytes)

/-- The module sends a chunk: payload of the first message, which the tray has whole when its last packet has ended (R653, R654). -/
def State.sendChunk (s : State) : State :=
  match s.hatch.tx with
  | [] => s
  | m :: t =>
    if m.next s.strokeCycles < Config.messageBytes m.args m.bytes then
      s.withHatch { s.hatch with tx := { m with sent := m.next s.strokeCycles } :: t }
    else
      let s := s.withHatch { s.hatch with tx := t }
      if m.spoilt then s else s.emit { kind := .mgmt, args := m.args, bytes := m.bytes }

/-- The chunks that the module sends in a line: strokes 5, 7, 9, 11, 13 and, without scan, 15 (R650; taken together as the line
ends, assumption log 111). -/
def State.sendChunks (s : State) : State :=
  if s.busOpen then (upFrom 0 (if s.hatch.scan then 5 else 6)).foldl (fun (s : State) _ => s.sendChunk) s else s

/-- With nothing to send, the module's chunks are idle (R653). -/
theorem State.sendChunks_idle (s : State) (h : s.hatch.tx = []) : s.sendChunks = s := by
  have hc : s.sendChunk = s := by simp [State.sendChunk, h]
  have : ∀ l : List Nat, l.foldl (fun (s : State) _ => s.sendChunk) s = s := by
    intro l; induction l with
    | nil => rfl
    | cons a t ih => simp [hc, ih]
  unfold State.sendChunks; split <;> simp [this]

/-! ### Marks: R23, R24, R692 -/

/-- The configured pitch in ns. -/
def State.pitch (s : State) : Nat := pitchNs (s.regN rRuleCtl % 8)

/-- The distance of two times. -/
def apart (a b : Nat) : Nat := (a - b) + (b - a)

/-- ACQUIRING ends when 16 good marks and a full frame are there: the rack's number is adopted at the next boundary. -/
def State.tryLock (s : State) : State :=
  match s.ruling.state, s.ruling.fullSeen with
  | .acquiring, some (n, at_) =>
    if 16 ≤ s.ruling.good then
      s.rule (fun s => s.withRuling { s.ruling with
        state := .locked, fullSeen := none, jump := (n + 2 ^ 48 - at_ % 2 ^ 48) % 2 ^ 48 })
    else s
  | _, _ => s

/-- Hatch framing follows the marks from the mark after the sixteenth good one (R647). -/
def Hatch.frameMark (h : Hatch) (good : Nat) : Hatch :=
  match h.framing with
  | .grid => if 16 ≤ good then { h with framing := .sixteen } else h
  | .sixteen => { h.discard with framing := .marks }
  | _ => h

/-- A mark at `t` is accepted, against a boundary expected at `p`, `measured` after the one before (R23, R24). -/
def State.acceptMark (s : State) (t p measured : Nat) : State :=
  let good := if apart t p ≤ 20 then s.ruling.good + 1 else 0
  let s := s.setReg rRulePhase (BitVec.ofNat 64 (unsigned ((t : Int) - (p : Int)) 16))
  let s := s.rule (fun s => s.withRuling { s.ruling with
    state := if s.ruling.state = .flywheel then .locked else s.ruling.state
    candidate := none, predicted := some (t + measured), measured := measured, good := good, marked := true
    missed := 0 })
  (s.withHatch (s.hatch.frameMark good)).tryLock

/-- MARK_EDGE: a rising edge on HTCH_MARK at hub time `t` ns (R23, R692). Before the boundary that enters LOST (R42) a
mark is the first one seen without a phase. -/
def execMarkEdge (t : Nat) (s : State) : Out :=
  whenHub s <|
    let r := s.ruling
    if r.state = .unruled then .next s
    else match r.predicted with
      | some p =>
        if apart t p ≤ 200 then
          if (r.state = .flywheel || r.state = .slew) && 4 ≤ r.missed then
            .next (s.withRuling { r with candidate := some t })
          else .next (s.acceptMark t p (if r.missed = 0 then t + r.measured - p else r.measured))
        else .next (s.bump rRuleBad)
      | none =>
        match r.candidate with
        | some c =>
          if apart t (c + s.pitch) ≤ 200 then
            .next ((s.withRuling { r with good := 0 }).acceptMark t (c + s.pitch) (t - c))
          else .next (s.withRuling { r with candidate := some t })
        | none => .next (s.withRuling { r with candidate := some t })

/-- BOOT_PLATE_TIMEOUT: 16 plates have passed without LOCKED or UNRULED (R27). -/
def execBootPlateTimeout (s : State) : Out :=
  whenHub s <| whenIt (s.ruling.state == .acquiring && 65536 ≤ s.ruling.sinceStart) (.next s.enterLost)

/-! ### Rack frames: R22, R26, R44, R651 -/

/-- One byte into CRC-16 with polynomial 0x1021 (R651). -/
def crc16Byte (crc b : Nat) : Nat :=
  (upFrom 0 8).foldl (fun c _ => if 2 ^ 15 ≤ c then Nat.xor (c * 2 % 2 ^ 16) 0x1021 else c * 2) (Nat.xor crc (b * 256))

/-- CRC-16 with initial value 0xFFFF over bytes (R651). -/
def crc16 (bs : List Byte) : Nat := bs.foldl (fun c b => crc16Byte c b.toNat) 0xFFFF

/-- The frame's CRC matches and its reserved fields are zero (R651). -/
def rackValid (b : List Byte) : Bool :=
  b.length == 14 && crc16 (b.take 12) == leAt b 12 2 && leAt b 0 1 % 32 == 0 && leAt b 7 2 / 2 ^ 11 == 0 && leAt b 9 3 == 0
    && (bitOf (leAt b 0 1) 7 || leAt b 3 4 == 0)

/-- Re-alignment on the rack's number for the current line (R44). -/
def State.realign (s : State) (n : Nat) : State :=
  let d := (n + 2 ^ 48 - s.ruling.line % 2 ^ 48) % 2 ^ 48
  let back := 2 ^ 48 - d
  if d = 0 then
    s.rule (fun s => (s.withRuling { s.ruling with state := .locked }).setReg rRuleJump 0)
  else if d < 2 ^ 47 then s.withRuling { s.ruling with jump := d }
  else if back ≤ 4096 then
    s.rule (fun s => (s.withRuling { s.ruling with state := .slew, slewLeft := back, slewSkip := true }).setReg rRuleJump
      (BitVec.ofNat 64 (2 ^ 32 - back)))
  else s.rule (fun s => (s.withRuling { s.ruling with rejected := true }).ruleFlag 7)

/-- The line number of a valid frame reaches the tracker (R22, R24, R26, R44). -/
def State.frameLine (s : State) (n : Nat) (full : Bool) : State :=
  let r := s.ruling
  match r.state with
  | .locked =>
    if (if full then n == r.line % 2 ^ 48 else n == r.line % 2 ^ 16) then s else s.rule (fun s => s.ruleFlag 4)
  | .acquiring =>
    if full && r.predicted.isSome then (s.withRuling { r with fullSeen := some (n, r.line) }).tryLock else s
  | .lost => if full && r.predicted.isSome && !r.rejected && r.jump = 0 then s.realign n else s
  | _ => s

/-- RACK_FRAME: the rack frame of strokes 0 and 1 (R651): line number, grant, cap and acknowledgement. A line in
which the hatch clock was lost brings none (R47). -/
def execRackFrame (bytes : List Byte) (s : State) : Out :=
  whenHub s <|
    whenIt (s.hatch.framing != .none) <|
      if s.ruling.ckLost || !s.hatch.usable then .next s
      else if !rackValid bytes then .next (s.bump (rHatch 0xC))
      else
        let b0 := leAt bytes 0 1
        let full := bitOf b0 7
        let s := if s.hatch.framing = .marks then s.frameLine (if full then leAt bytes 1 6 else leAt bytes 1 2) full
                 else s
        let s := s.withPower { s.power with grant := some (bitOf b0 6)
                                            rackCap := some (leAt bytes 7 2, s.ruling.line) }
        .next (s.withHatch { s.hatch with ack := s.hatch.ack || bitOf b0 5 })

/-! ### The hatch clock: R47 -/

/-- HATCH_CLOCK_LOSS: eight HTCH_CK cycles are missing: hatch data is ignored, a packet in progress either way is discarded, and the
next line has the floor ceiling, whenever in the line the clock is lost and whether or not it returns within it (R47). -/
def execHatchClockLoss (s : State) : Out :=
  whenHub s <| whenIt (!s.ruling.ckLost) <|
    let s := s.withHatch { s.hatch.discard with usable := false }
    let s := s.rule (fun s => (s.withRuling { s.ruling with ckLost := true }).ruleFlag 3)
    let s := s.withPower { s.power with grant := none }
    .next (if s.power.decided then s.withPower { s.power with ceilNext := s.nextCeiling, burstNext := s.burstLine } else s)

/-- HATCH_CLOCK_RETURN: 64 good cycles; frames and management resume with the next line (R47). -/
def execHatchClockReturn (s : State) : Out :=
  whenHub s <| whenIt s.ruling.ckLost (.next (s.withRuling { s.ruling with ckLost := false }))

/-! ### The pitch: R18 -/

/-- PITCH_WRITE: a write of RULE_CTL (R18). A write of the code in force leaves the tracker as it is and starts the 16 plates
of R27 anew. -/
def execPitchWrite (v : BitVec 32) (s : State) : Out :=
  whenHub s <|
    let code := v.toNat % 8
    if s.boot.phase = 2 || 4 < code then .next s
    else if code = s.regN rRuleCtl % 8 then .next (s.withRuling { s.ruling with sinceStart := 0 })
    else
      let s := s.setReg rRuleCtl (BitVec.ofNat 64 code)
      if s.ruling.state = .unruled then .next s
      else .next (s.rule (fun s => s.withRuling { Ruling.init with
        measured := pitchNs code, rejected := s.ruling.rejected, ckLost := s.ruling.ckLost }))

/-! ### Arming commits: R33 to R35, R38 -/

/-- A commit set names units of which none is present or in use (R38). -/
def State.setAbsent (s : State) (i : Nat) : Bool :=
  if 3 ≤ i && i ≤ 6 then !s.adPresent (i - 3)
  else if 7 ≤ i && i ≤ 10 then !s.adPresent (i - 7)
  else if i = 11 then s.pop.hs == 0
  else if i = 12 then s.pop.dram == 0
  else if i = 14 then !(upFrom 0 8).any s.oePresent
  else if i = 16 then s.pop.pd == 0
  else false

/-- The sets of a mask that a commit acts on. -/
def State.effective (s : State) (mask : Nat) : Nat :=
  ((setBitsBelow 17 mask).filter (fun i => !s.setAbsent i)).foldl (fun n i => n + 2 ^ i) 0

/-- A commit has applied: COMMIT_DONE, COMMIT_LATE, LAST_MASK and CFG_COMMIT_DONE_LINE. -/
def State.commitDone (s : State) (mask : Nat) (late : Bool) : State :=
  let r := s.regN rCommitStat
  let s := s.setReg rCommitStat (BitVec.ofNat 64
    (2 ^ 31 + b2n (late || bitOf r 30) * 2 ^ 30 + b2n (bitOf r 29) * 2 ^ 29 + mask))
  s.withRegs { s.regs with doneLine := s.ruling.line % 2 ^ 48 }

/-- CFG_COMMIT_STATUS with its computed fields (R33). -/
def State.commitStatView (s : State) : Nat :=
  s.regN rCommitStat + b2n (!s.regs.commits.isEmpty) * 2 ^ 28 + s.regs.commits.length * 2 ^ 17

/-- The earliest line a commit armed now can meet: at least 8 strokes away (R34). -/
def State.earliestLine (s : State) : Nat :=
  (s.ruling.line + (if s.ruling.stroke * 4096 + s.ruling.tick ≤ 8 * 4096 then 1 else 2)) % 2 ^ 48

/-- The arming write reaches the hub before stroke 8 of the line before `t` (R34). -/
def State.onTime (s : State) (t : Nat) : Bool :=
  let d := (t + 2 ^ 48 - s.ruling.line % 2 ^ 48) % 2 ^ 48
  d < 2 ^ 47 && (1 < d || (d = 1 && s.ruling.stroke < 8))

/-- COMMIT_ARM: a write of CFG_COMMIT (R34, R35, R38). -/
def execCommitArm (v : BitVec 32) (s : State) : Out :=
  whenHub s <|
    let mask := v.toNat % 2 ^ 17
    let eff := s.effective mask
    if mask = 0 then .next s
    else if eff = 0 then .next (s.commitDone 0 false)
    else if 8 ≤ s.regs.commits.length || s.regs.commits.any (fun c => c.mask &&& eff != 0) then
      .next (s.setRegBit rCommitStat 29 true)
    else
      let t := s.regN rCommitLine % 2 ^ 48
      let c : Commit :=
        if bitOf v.toNat 31 then { mask := eff, due := s.earliestLine, late := false }
        else if s.onTime t then { mask := eff, due := t, late := false }
        else { mask := eff, due := s.earliestLine, late := true }
      .next (s.withRegs { s.regs with commits := s.regs.commits ++ [c] })

end Sys2Proof.Machine
end

