-- ==== Sys2Proof/Machine/Links.lean ====
section
/-! DEFINITION. Machine/Links.lean: die links, Rufen ports and flits, remote requests, collective steps and fabric resets
(chapter 17). -/

namespace Sys2Proof.Machine

/-! ### Die links: R561 to R574 -/

/-- The modules of a link (R561). -/
def linkModules (l : Nat) : Nat := if l < 6 then 4 else if l < 22 then 2 else 1

/-- The die codes at the two ends of a link, the lower one first (R561). -/
def linkEnds (l : Nat) : Nat × Nat :=
  if l < 6 then [(0, 1), (0, 2), (0, 3), (1, 2), (1, 3), (2, 3)].getD l (0, 1)
  else if l < 14 then ((l - 6) % 4, 4 + (l - 6) / 4)
  else if l < 22 then ((l - 14) / 2, 8 + (l - 14))
  else if l < 26 then (l - 22, 6)
  else (4 + (l - 26), 6)

/-- The link joins two present dies. -/
def State.linkPresent (s : State) (l : Nat) : Bool :=
  l < 28 && s.diePresent (linkEnds l).1 && s.diePresent (linkEnds l).2

/-- A module of a die link, if the link has trained it. -/
def State.adlMod (s : State) (l m : Nat) : Option AdlMod := s.links.mods.get? (l * 4 + m)

/-- Replace a module. -/
def State.setAdlMod (s : State) (l m : Nat) (x : AdlMod) : State :=
  s.withLinks { s.links with mods := s.links.mods.put (l * 4 + m) x }

/-- The module carries traffic now. -/
def State.modWorks (s : State) (l m : Nat) : Bool :=
  match s.adlMod l m with
  | some x => x.up && !x.retraining
  | none => false

/-- The unit path of a LINK record (R574). -/
def State.linkPath (s : State) (l m lane : Nat) : BitVec 64 :=
  s.path (linkEnds l).1 0 0 0xE (2 ^ 30 + (linkEnds l).2 % 16 * 2 ^ 26 + m * 2 ^ 24 + lane * 2 ^ 17)

/-- A LINK record (class 0x06) and its state; the places of lane and retries in its syndrome are not given, so its value
is free. -/
def State.linkRec (s : State) (path : BitVec 64) : State × ErrRec :=
  let (s, k) := s.draw
  (s, { errRec path 0x06 0 with syndrome := (Config.freeWord k).toNat })

/-- Log a LINK record of severity CORRECTED. -/
def State.linkRecord (s : State) (path : BitVec 64) : State :=
  let (s, r) := s.linkRec path
  s.log r

/-- Add one to a 16-bit saturating count of a link. -/
def bumpLink (t : Tbl Nat) (l : Nat) : Tbl Nat := t.setD (fun _ => 0) l (satInc 16 (t.getD (fun _ => 0) l))

/-- The classes a module carries now (R566, R567): its own, and, for the lowest one that works, those of the others. -/
def State.rolesNow (s : State) (l m : Nat) : Nat :=
  let own (i : Nat) : Nat := s.links.roles.getD (fun _ => 0) (l * 4 + i)
  let works := (upFrom 0 (linkModules l)).filter (s.modWorks l)
  if !s.modWorks l m then 0
  else if works.head? == some m then
    ((upFrom 0 (linkModules l)).filter (fun i => !s.modWorks l i)).foldl (fun r i => r ||| own i) (own m)
  else own m

/-- A module goes offline until the next cold reset (R572); the last one of an ADL link takes the module out of service,
that of an OE link quarantines the engine (R573). -/
def State.modOffline (s : State) (l m : Nat) (x : AdlMod) : State :=
  let s := (s.setAdlMod l m { x with up := false, retraining := false }).linkRecord (s.linkPath l m 0)
  let left := (upFrom 0 (linkModules l)).any (fun i => match s.adlMod l i with
    | some y => y.up
    | none => false)
  if left then s
  else if 14 ≤ l && l < 22 then s.applyQuarantine (.oe (l - 14)) 0 false
  else
    let (s, r) := s.linkRec (s.linkPath l m 0)
    s.logFatal r

/-- Replays of one flit before a retrain; 0 is reserved (assumption log 21). -/
def State.replayLimit (s : State) : Nat :=
  let n := s.regN (rD2d 0x18) % 256
  if n = 0 then 8 else n

/-- ADL_FLIT_CRC_FAIL: a flit fails its CRC and is replayed; `again` says that it is the one being replayed. At the limit
the module retrains, and a fourth retrain within one plate takes it offline (R572). -/
def execAdlFlitCrcFail (link : Nat) (md : Nat) (again : Bool) (s : State) : Out :=
  whenPowered s <| withSome (s.adlMod link md) fun x =>
    whenIt (x.up && !x.retraining && !(14 ≤ link && link < 22)) <|
      let s := s.withLinks { s.links with replays := bumpLink s.links.replays link }
      let n := if again then x.streak + 1 else 1
      if n < s.replayLimit then .next (s.setAdlMod link md { x with streak := n })
      else
        let s := s.withLinks { s.links with retrains := bumpLink s.links.retrains link }
        if 4 ≤ x.tries + 1 then .next (s.modOffline link md { x with streak := 0, tries := x.tries + 1 })
        else .next (s.setAdlMod link md { x with streak := 0, tries := x.tries + 1, retraining := true })

/-- ADL_MODULE_RETRAIN_DONE: a retrain ends at full width, at half width, or fails (R572); an OE link's module has no
retry, and its failure is reported so (R573). -/
def execAdlModuleRetrainDone (link : Nat) (md : Nat) (res : RetrainResult) (s : State) : Out :=
  whenPowered s <| withSome (s.adlMod link md) fun x =>
    whenIt (x.up && (x.retraining || (14 ≤ link && link < 22 && res == .failed))) <|
      match res with
      | .full => .next (s.setAdlMod link md { x with retraining := false })
      | .half => .next ((s.setAdlMod link md { x with retraining := false, half := true }).linkRecord
          (s.linkPath link md 0))
      | .failed => .next (s.modOffline link md x)

/-- D2D_QUERY: names the link that D2D_LINK_STAT shows (R587). -/
def execD2dQuery (v : BitVec 32) (s : State) : Out :=
  whenHub s <| .next (s.withLinks { s.links with query := v.toNat % 32 })

/-- D2D_LINK_STAT of the queried link (R587). -/
def State.linkStatView (s : State) : Nat :=
  let l := s.links.query
  let ms := upFrom 0 (linkModules l)
  let sum (f : Nat → Nat) : Nat := (ms.map f).foldl (· + ·) 0
  let half (m : Nat) : Bool := match s.adlMod l m with
    | some x => x.half && x.up
    | none => false
  if !s.linkPresent l then 0
  else
    sum (fun m => b2n (s.modWorks l m) * 2 ^ (60 + m)) + sum (fun m => b2n (half m) * 2 ^ (56 + m))
      + sum (fun m => s.rolesNow l m % 8 * 2 ^ (44 + 3 * m))
      + s.links.spares.getD (fun _ => 0) l % 256 * 2 ^ 32
      + s.links.retrains.getD (fun _ => 0) l * 2 ^ 16 + s.links.replays.getD (fun _ => 0) l

/-- D2D_LINK_UP: links with a module up. -/
def State.linkUpView (s : State) : Nat :=
  ((upFrom 0 28).map (fun l =>
    b2n (s.linkPresent l && (upFrom 0 (linkModules l)).any (s.modWorks l)) * 2 ^ l)).foldl (· + ·) 0

/-! ### Optical engines and ports: R575 to R579 -/

/-- The path of an OE with a sub-unit of R575. -/
def State.oePath (s : State) (k sub : Nat) : BitVec 64 := s.path (8 + k) 0 0 0xE sub

/-- LASER_LOW: a laser feed falls below +13 dBm (R576). -/
def execLaserLow (oe : Nat) (s : State) : Out :=
  whenPowered s <| whenIt (s.oePresent oe && !s.links.laserLow.getLsbD oe) <|
    .next ((s.withLinks { s.links with laserLow := s.links.laserLow ||| BitVec.ofNat 8 (2 ^ oe) }).linkRecord
      (s.oePath oe (2 ^ 26)))

/-- LASER_RECOVER: the feed has stayed above +15 dBm for 16 lines; its ports may retrain (R576). -/
def execLaserRecover (oe : Nat) (s : State) : Out :=
  whenPowered s <| whenIt (s.links.laserLow.getLsbD oe) <|
    .next (s.withLinks { s.links with laserLow := s.links.laserLow &&& ~~~ BitVec.ofNat 8 (2 ^ oe) })

/-- Send the flits of a port that are not acknowledged once more (R579). -/
def State.resend (s : State) (p : Nat) : State :=
  (s.port p).replay.foldl (fun s f => s.emit { kind := .fabric, args := [p], bytes := f.bytes }) s

/-- A port replays from the first flit not acknowledged; a flit replayed 16 times takes the port down with a LINK record,
and it retrains at once (R579). -/
def State.replayPort (s : State) (p : Nat) : State :=
  let x := s.port p
  let fs := x.replay.map (fun f => { f with replays := f.replays + 1 })
  if fs.any (fun f => 16 ≤ f.replays) then
    (s.setPort p { x with up := false, replay := x.replay.map (fun f => { f with replays := 0 }) }).linkRecord
      (s.oePath (p / 4) (p % 4 * 8 * 2 ^ 27))
  else (s.setPort p { x with replay := fs }).resend p

/-- RUFEN_PORT_TRAINED: a port that was down ends its training: up, or failed; four failures within one plate leave it
down until the next fabric reset (R579). -/
def execRufenPortTrained (port : Nat) (ok : Bool) (s : State) : Out :=
  whenPowered s <|
    let x := s.port port
    whenIt (port < 32 && s.oePresent (port / 4) && !x.up && !x.dead && !s.links.laserLow.getLsbD (port / 4)) <|
      if ok then .next ((s.setPort port { x with up := true, down := 0 }).resend port)
      else .next (s.setPort port { x with fails := x.fails + 1, dead := decide (4 ≤ x.fails + 1) })

/-- RUFEN_REPLAY_TIMEOUT: no ACK has covered a flit within 2 µs (R579). -/
def execRufenReplayTimeout (port : Nat) (s : State) : Out :=
  whenPowered s <| whenIt (s.portUp port && !(s.port port).replay.isEmpty) (.next (s.replayPort port))

/-- Take an acknowledgement: every flit up to `a` leaves the replay buffer (R579). -/
def Port.acked (x : Port) (a : Nat) : Port :=
  match x.replay with
  | [] => x
  | f :: _ =>
    let n := (a + 2 ^ 15 + 1 - f.seq % 2 ^ 15) % 2 ^ 15
    if n ≤ x.replay.length then { x with replay := x.replay.drop n } else x

/-- A time code differs by more than one line (R51, R580): flag, and a record naming the sending node. -/
def State.timeCode (s : State) (src code : Nat) : State :=
  let mine := s.ruling.line % 2 ^ 12 * 16 + s.ruling.stroke
  let d := (code + 2 ^ 16 - mine) % 2 ^ 16
  if 16 < d && d < 2 ^ 16 - 16 then
    (s.rule (fun s => s.ruleFlag 6)).timeRecord (unitPath src 0 0 0 0xF 0)
  else s

/-- A flit that is to go on to another node: HOPS falls by one, and at 0 the flit is dropped and counted (R581). -/
def State.forward (s : State) (flit : List Byte) : State :=
  let dest := leAt flit 1 1 % 128
  let hops := leAt flit 3 1 % 16
  if hops ≤ 1 then s.bump (rOpt 0x20)
  else match s.bestPort dest with
    | none => s.bump (rOpt 0x20)
    | some p => s.sendOn p (leAt flit 0 1 / 16) dest (leAt flit 2 1 % 128) (hops - 1) (leAt flit 12 1) (leAt flit 13 1)
        ((flit.drop 16).take 224) []

/-- The contents of a flit received in order (R581, R582): dropped when its generation or sender is wrong, forwarded when
it is another node's. What it brings to this node is the command of its own that follows. -/
def State.takeFlit (s : State) (flit : List Byte) : State :=
  let src := leAt flit 2 1 % 128
  let known := s.links.gens.setD (fun _ => 0) src (leAt flit 12 1)
  let s := s.withLinks { s.links with gens := known }
  if leAt flit 13 1 ≠ s.links.fabricGen || s.isolated src then s.bump (rOpt 0x20)
  else if leAt flit 1 1 % 128 = s.node || leAt flit 0 1 / 16 = 0 then s
  else s.forward flit

/-- RUFEN_FLIT_RECEIVE: a flit arrives at a port: FEC corrects up to 4 symbol errors, then the CRC is checked (R579), which 256
bytes alone can meet, and the time code compared (R51). A flit out of order is discarded; after a gap the next flit sent carries NAK. -/
def execRufenFlitReceive (port : Nat) (flit : List Byte) (sym : Nat) (crcOk : Bool) (s : State) : Out :=
  whenPowered s <|
    whenIt (s.portUp port) <|
      let x := s.port port
      if 4 < sym || !crcOk || flit.length != 256 then .next ((s.setPort port { x with nak := true }).bump (rOpt 0x28))
      else
        let s := (if sym = 0 then s else s.bump (rOpt 0x24)).timeCode (leAt flit 2 1 % 128) (leAt flit 8 2)
        let an := leAt flit 6 2
        let x := (x.acked (an % 2 ^ 15))
        let x := { x with credit := x.credit + (leAt flit 10 2 : Nat) }
        let d := (leAt flit 4 2 + 2 ^ 16 - x.rxSeq) % 2 ^ 16
        let s := s.setPort port
          (if d = 1 then { x with rxSeq := leAt flit 4 2, owed := x.owed + (if leAt flit 0 1 / 16 = 0 then 0 else 14) }
           else if 1 < d && d < 2 ^ 15 then { x with nak := true } else x)
        let s := if bitOf an 15 then s.replayPort port else s
        .next (if d = 1 then s.takeFlit flit else s)

/-! ### Isolation and remote requests: R582, R583 -/

/-- No port of a node's route entry has been up for 4 consecutive lines, or the entry is not VALID (R583). -/
def State.mayIsolate (s : State) (n : Nat) : Bool :=
  let e := s.route n
  !bitOf e 63 || (upFrom 0 32).all (fun p => !bitOf e p || (!s.portUp p && 4 ≤ (s.port p).down))

/-- NODE_ISOLATE: a node is isolated until a fabric reset finds it reachable (R583). -/
def execNodeIsolate (node : Nat) (s : State) : Out :=
  whenPowered s <| whenIt (node < 128 && node != s.node && s.pop.variant != .nwa1640e
      && !s.links.isolated.getLsbD node && s.mayIsolate node) <|
    .next (s.withLinks { s.links with isolated := s.links.isolated ||| BitVec.ofNat 128 (2 ^ node) })

/-- The bytes a remote request covers. -/
def remoteSize : RemoteOp → Nat
  | .read n => n
  | .write bs => bs.length
  | .atom _ f _ _ => atomBytes f
  | .adds f es => atomBytes f * es.length

/-- What a remote request asks of a home. -/
def remoteKind (pa : Nat) : RemoteOp → HomeKind
  | .read n => .naRead pa n
  | .write bs => .naWrite pa bs
  | .atom op f v cmp => .atomic pa op f v.toNat cmp.toNat
  | .adds f es => .adds pa f es

/-- A remote request at a scratchpad window is performed at the window port (R149, R150); a float add has no meaning
there and is answered with an error. -/
def State.remoteWindow (s : State) (r : RemoteReq) (c o : Nat) : State :=
  match r.op with
  | .read n =>
    let x := s.windowLoad c o n .request
    x.1.respond r.node r.tag false x.2.1 (b2n x.2.2)
  | .write bs => (s.windowStore c o bs).respond r.node r.tag false [] 0
  | .atom op f v cmp =>
    if atomIsFloat f then s.respond r.node r.tag true [] 0
    else
      let x := s.windowAtomic c o op f v.toNat cmp.toNat .request
      x.1.respond r.node r.tag false (toBytes (atomBytes f) x.2) 0
  | .adds f es =>
    if atomIsFloat f then s.respond r.node r.tag true [] 0
    else ((es.zip (upFrom 0 es.length)).foldl (fun s e =>
      (s.windowAtomic c (o + e.2 * atomBytes f) .add f e.1 0 .request).1) s).respond r.node r.tag false [] 0

/-- REMOTE_REQUEST: a request of another node is presented to its home, or answered with an error where this node does
not back it (R364, R582). One of an isolated node is dropped. -/
def execRemoteRequest (r : RemoteReq) (s : State) : Out :=
  whenPowered s <|
    let a := localPart r.pa
    let n := remoteSize r.op
    whenIt (r.node < 128 && r.node != s.node && nodePart r.pa == s.node && s.pop.variant != .nwa1640e && 1 ≤ n
        && a % 128 + n ≤ 128) <|
      if s.isolated r.node then .next (s.bump (rOpt 0x20))
      else if s.inTiered r.pa n then
        (s.reqArrive { line := a / 128, kind := remoteKind r.pa r.op, who := .remote r.node, e := r.e, tag := r.tag, ctx := some r.ctx.toNat }).andThen
          State.afterAll
      else match s.windowOf r.pa with
        | some w => .next (s.remoteWindow r w.1 w.2)
        | none => .next (s.respond r.node r.tag true [] 0)

/-- The route table is read: an entry outside backed memory is zero, and so not VALID (R581, R586). -/
def State.readRoutes (s : State) : State :=
  let a := s.regN (rOpt 0x8)
  let s := if s.inTiered a 1024 then s.homeRead a 1024 else s
  let entry (n : Nat) : Nat := if s.inTiered (a + 8 * n) 8 then s.sysNat (a + 8 * n) 8 else 0
  s.withLinks { s.links with routes := (upFrom 0 128).foldl (fun t n => t.setD (fun _ => 0) n (entry n)) ([] : Tbl Nat) }

/-! ### Collective steps: R584, R585 -/

/-- The address of a gate word (R588). -/
def State.gateAddr (s : State) (g : Nat) : Nat := s.regN (rOpt (0x80 + g * 8))

/-- A step for an unused gate is dropped and counted (R584). -/
def State.gateDrop (s : State) : State :=
  s.setRegBits (rOpt 0x50) 15 8 (satInc 8 (bitsOf (s.regN (rOpt 0x50)) 15 8))

/-- Write a gate word: a non-allocating 4 B write of SYSTEM scope (R584). -/
def State.writeGate (s : State) (g value : Nat) : State :=
  let a := s.gateAddr g
  if a = 0 then s.gateDrop
  else if s.inTiered a 4 then (s.sysWrite a (toBytes 4 value)).afterAll
  else s

/-- A step reaches this node (R585): kept for its line, or applied at once when the line has begun. -/
def State.takeStep (s : State) (g line value : Nat) : State :=
  if s.gateAddr g = 0 then s.gateDrop
  else
    let d := (line + 2 ^ 48 - s.ruling.line % 2 ^ 48) % 2 ^ 48
    if 1 ≤ d && d < 2 ^ 47 then
      s.withLinks { s.links with steps := s.links.steps ++ [{ gate := g, line := line, value := value }] }
    else
      let s := s.setRegBit (rOpt 0x50) 30 true
      (s.setRegBits (rOpt 0x50) 7 0 (satInc 8 (s.regN (rOpt 0x50) % 256))).writeGate g value

/-- Nodes of the step group (R584). -/
def State.stepGroup (s : State) : List Nat :=
  (upFrom 0 128).filter (fun n => bitOf (s.regN (rOpt (0x30 + n / 32 * 4))) (n % 32))

/-- STEP_ISSUE: a write of OPT_STEP_CMD (R584, R585). -/
def execStepIssue (v : BitVec 32) (s : State) : Out :=
  whenHub s <|
    let g := v.toNat % 16
    let line := s.regN (rOpt 0x40) % 2 ^ 48
    let value := s.regN (rOpt 0x48)
    let d := (line + 2 ^ 48 - s.ruling.line % 2 ^ 48) % 2 ^ 48
    if !bitOf v.toNat 31 || s.pop.variant = .nwa1640e then .next s
    else if d < 2 || 2 ^ 47 ≤ d then .next (s.setRegBit (rOpt 0x50) 31 true)
    else
      let others := s.stepGroup.filter (fun n => n != s.node && s.ruling.state != .unruled)
      let s := others.foldl (fun s n =>
        if s.nodeLost n then s else s.sendFlit n 2 [] [g, line, value]) s
      .next (if s.stepGroup.contains s.node then s.takeStep g line value else s)

/-- STEP_RECEIVE: a STEP flit of another node (R585); an UNRULED module ignores it (R49). -/
def execStepReceive (src : Nat) (gate : BitVec 4) (line : BitVec 48) (value : BitVec 32) (s : State) : Out :=
  whenPowered s <| whenIt (src < 128 && src != s.node && s.pop.variant != .nwa1640e) <|
    if s.ruling.state = .unruled then .next s
    else if s.isolated src then .next (s.bump (rOpt 0x20))
    else .next (s.takeStep gate.toNat line.toNat value.toNat)

/-- STEP_GATE_WRITE: at stroke 0 of its line a step writes its gate (R584); events of several lines due at one boundary go
in the order of their lines (R44). -/
def execStepGateWrite (gate : BitVec 4) (s : State) : Out :=
  whenPowered s <|
    withSome (s.links.steps.find? (fun x => x.gate == gate.toNat && s.dueFirst s.eventLines x.line))
      fun x =>
      .next ((s.withLinks { s.links with steps := s.links.steps.erase x }).writeGate x.gate x.value)

/-! ### Fabric resets: R586 -/

/-- An order for a fabric reset at line `n`: it joins one in progress, or waits for its line. -/
def State.takeFreset (s : State) (n : Nat) : State :=
  let joins := match s.links.fresetAt with
    | some m => (n + 2 ^ 48 - m % 2 ^ 48) % 2 ^ 48 < 64 || !lineAhead n m
    | none => false
  if joins || s.links.freset.contains n then s
  else s.withLinks { s.links with freset := s.links.freset ++ [n] }

/-- FRESET_ISSUE: a write of OPT_FRESET_CMD with GO: every node with a VALID entry is ordered, and this one (R586). -/
def execFresetIssue (v : BitVec 32) (s : State) : Out :=
  whenHub s <|
    if !bitOf v.toNat 31 || s.pop.variant = .nwa1640e || s.ruling.state = .unruled then .next s
    else
      let n := s.regN (rOpt 0x100) % 2 ^ 48
      let all := (upFrom 0 128).filter (fun k => k != s.node && bitOf (s.route k) 63)
      .next ((all.foldl (fun s k => s.sendFlit k 3 [] [n]) s).takeFreset n)

/-- FRESET_RECEIVE: an order of another node (R586); an UNRULED module takes no part (R49). -/
def execFresetReceive (line : BitVec 48) (s : State) : Out :=
  whenPowered s <| whenIt (s.pop.variant != .nwa1640e) <|
    if s.ruling.state = .unruled then .next s else .next (s.takeFreset line.toNat)

/-- The responses of requests of other nodes that the homes have accepted are dropped, and the requests finish (R586, step 2): no
route leads to a node number from 128 on. -/
def State.dropResponses (s : State) : State :=
  s.mapReqs (fun r => match r.who with
    | .remote k => { r with who := .remote (128 + k % 128) }
    | _ => r)

/-- FRESET_ACTION: at stroke 0 of line N (R586, steps 1 to 4): flits and replay buffers are dropped, the generation
advances, every port retrains, and the route table is read again. -/
def execFresetAction (s : State) : Out :=
  whenPowered s <| whenIt s.links.fresetAt.isNone <|
    withSome (s.links.freset.find? (s.dueFirst s.eventLines)) fun n =>
      let k := s.links
      let s := s.withLinks { k with
        freset := k.freset.filter (fun m => lineAhead m n && 64 ≤ (m + 2 ^ 48 - n % 2 ^ 48) % 2 ^ 48), fresetAt := some n
        fabricGen := (k.fabricGen + 1) % 256
        ports := k.ports.mapVals (fun x => { x with up := false, dead := false, fails := 0, replay := [], nak := false
                                                    owed := 0, credit := 0 }) }
      .next (s.dropResponses.readRoutes.setRegBits (rOpt 0x10C) 15 0 (satInc 16 (s.regN (rOpt 0x10C) % 2 ^ 16)))

/-- FRESET_END: at line N + 64 the nodes reachable through the table are out of isolation, the rest are isolated (R586,
step 5). -/
def execFresetEnd (reach : BitVec 128) (s : State) : Out :=
  whenPowered s <| withSome s.links.fresetAt fun n =>
    whenIt (s.reached ((n + 64) % 2 ^ 48 * 16)) <|
      let cut := (upFrom 0 128).filter (fun k => k != s.node && !(reach.getLsbD k && bitOf (s.route k) 63))
      .next (s.withLinks { s.links with
        fresetAt := none, isolated := BitVec.ofNat 128 (cut.foldl (fun a k => a + 2 ^ k) 0) })

/-- OPT_FRESET_STAT (R588). -/
def State.fresetView (s : State) : Nat :=
  b2n s.links.fresetAt.isSome * 2 ^ 31 + s.links.fabricGen * 2 ^ 16 + s.regN (rOpt 0x10C) % 2 ^ 16

/-- OPT_PORT_UP (R588). -/
def State.portUpView (s : State) : Nat := ((upFrom 0 32).map (fun p => b2n (s.portUp p) * 2 ^ p)).foldl (· + ·) 0

/-- OPT_ISOLATED, 128 bits (R583, R588). -/
def State.isolatedView (s : State) : Nat :=
  ((upFrom 0 128).map (fun n => b2n (n != s.node && s.isolated n) * 2 ^ n)).foldl (· + ·) 0

/-! ### At a line boundary -/

/-- What a line boundary does to the links: ports of a low feed go down (R576), lines without a port are counted (R583);
at a plate the counts of retrains begin anew (R572, R579). -/
def State.linksLine (s : State) (plate : Bool) : State :=
  let line (p : Nat) (x : Port) : Port :=
    let up := x.up && !s.links.laserLow.getLsbD (p / 4)
    { x with up := up, down := if up then 0 else min 4 (x.down + 1), fails := if plate then 0 else x.fails }
  let s := s.withLinks { s.links with
    ports := s.links.ports.foldl (fun t e => t.setD (fun _ => Port.init) e.1 (line e.1 e.2)) s.links.ports }
  if plate then s.withLinks { s.links with mods := s.links.mods.mapVals (fun m => { m with tries := 0 }) } else s

end Sys2Proof.Machine
end

