-- ==== Sys2Proof/Machine/CxlBlock.lean ====
section
/-! DEFINITION. Machine/CxlBlock.lean: the CXL link, the host session and its loss, host requests to tiered memory, host
snoops and MSI-X (chapter 18; R359 to R362, R498). -/

namespace Sys2Proof.Machine

/-! ### Events, interrupt and state: R616, R617 -/

/-- A flag of CXL_STAT is set: the CXL interrupt is raised when EN is 1 (R616). -/
def State.cxlEvent (s : State) (bit : Nat) : State :=
  let s := s.setRegBit (rCxl 0x4) bit true
  let t := s.regN (rCxl 0xC)
  if bitOf t 31 then s.msiTarget (t % 2 ^ 21) else s

/-- The CXL block's path with a sub-unit: hub sub-block 0. -/
def State.cxlPath (s : State) (sub : Nat) : BitVec 64 := s.path 6 0 0 0x0 sub

/-- The code of a link state (R617). -/
def CxlLink.code : CxlLink → Nat
  | .down => 0 | .training => 1 | .up => 2 | .retrain => 3 | .modeFail => 4

/-- CXL_STAT (R617). -/
def State.cxlStatView (s : State) : Nat :=
  let c := s.cxl
  c.link.code * 2 ^ 29 + c.width * 2 ^ 25 + c.rate * 2 ^ 23 + b2n c.session * 2 ^ 22
    + (s.regN (rCxl 0x4) &&& 0x380000) + b2n ((upFrom 0 16).any s.winBad) * 2 ^ 18 + c.sessionGen

/-! ### Aborting the queues of an owner: R422, R498 -/

/-- The energy of operations that are aborted goes to the residual (R533). -/
def State.energyAborted (s : State) (ops : List Op) : State :=
  let sum := (ops.map Op.energy).foldl (· + ·) 0
  (s.setReg (rPwr 0x28) (s.reg (rPwr 0x28) + BitVec.ofNat 64 sum)).withPower { s.power with
    aborted := s.power.aborted ++ ops.map Op.uid }

/-- The operations of a queue are aborted: their launches leave the cores, and nothing is written for them. -/
def State.abortQueue (s : State) (q : Nat) : State :=
  let ops := s.queueOps q
  let mine := ops.map Op.uid
  let on (k : Core) : Bool := match k.launch with
    | some l => mine.contains l.uid
    | none => false
  let s := ((s.cores.filter (fun _ k => on k)).map Prod.fst).foldl State.removeRunning s
  let s := s.withCores (s.cores.mapVals (fun k =>
    { k with staged := k.staged.filter (fun g => !mine.contains g.launch.uid) }))
  let s := s.withWork { s.work with fes := s.work.fes.mapVals (fun f =>
    { f with shares := f.shares.filter (fun h => !mine.contains h.uid) }) }
  let s := ops.foldl State.opGone (s.energyAborted ops)
  match s.queue? q with
  | some x => s.setQueue q { x with heldCq := [], rearm := false, ready := false, rereads := 0, desc := [], poison := false }
  | none => s

/-- Queues of an owner leave service in state `after`, which one that enters STOPPED tells by its interrupt (R486); each
context all of whose queues did so is reset (R422, R498). -/
def State.loseQueues (s : State) (owner : Nat → Bool) (after : QState) : State :=
  let lost := s.work.queues.filter (fun _ x => owner x.cfg.owner)
  let s := (lost.map Prod.fst).foldl (fun (s : State) q =>
    let s := s.abortQueue q
    match s.queue? q with
    | some x =>
      let x := { x with state := after, cause := 0 }
      (s.setQueue q x).queueIntr x
    | none => s) s
  let ctxs := (lost.map (fun e => e.2.cfg.context)).eraseDups
  let gone := ctxs.filter (fun c => s.work.queues.all (fun e => e.2.cfg.context != c || owner e.2.cfg.owner))
  (upFrom 0 4).foldl (fun (s : State) d => s.hangNext d hangFuel)
    (gone.foldl (fun (s : State) c => s.resetOutside c false) s).resetCheck

/-! ### Host loss: R360, R362, R498, R612 to R616 -/

/-- The path of a memory controller (sub-unit CTRL). -/
def State.ctlPath (s : State) (n : Nat) : BitVec 64 :=
  if n < 16 then s.path (16 + n) 0 0 0xE 1 else s.path (4 + (n - 16) / 8) 0 0 0xE (2 ^ 31 + (n - 16) * 2 ^ 27 + 1)

/-- The homes remove the host: lines it owned are poisoned, with one record per home (R360). -/
def State.hostLeavesHomes (s : State) : State :=
  let owned := (s.mem.dir.filter (fun _ e => e.owner == some 22)).map Prod.fst
  let s := s.setPoison (owned.flatMap (fun l => upFrom (l * 4) 4))
  let count (n : Nat) : Nat := (owned.filter (fun l => (s.homeOf (l * 128)).1 == n)).length
  let s := (s.mem.dir.map Prod.fst).foldl (fun (s : State) l => s.notice l 22) s
  (upFrom 0 32).foldl (fun (s : State) n =>
    if count n = 0 then s
    else s.log { errRec (s.ctlPath n) 0x04 1 with opKind := 3, syndrome := count n * 2 ^ 32 }) s

/-- Module copies of host lines go; modified data is discarded under R235 (R362). -/
def State.hostLinesLost (s : State) : State :=
  let lines := s.mem.tracker.map Prod.fst
  lines.foldl (fun (s : State) l =>
    let bad := s.mem.dirty.any (fun e => e.1 / 128 == l)
    let p := match s.tracked l with
      | some e => e.owner.getD 16 - 16
      | none => 0
    let s := if bad then s.log { errRec (s.path (4 + p) 0 0 0xE 0) 0x0A 2 with opKind := 3, syndrome := l * 128 } else s
    s.hostDrop l) s

/-- The lost host's own requests are void, and transactions that await its answer go on without it. -/
def State.hostAnswers (s : State) : State :=
  let s := s.withMem { s.mem with waitq := s.mem.waitq.filter (fun r => r.who != .host)
                                  txns := s.mem.txns.filter (fun t => t.req.who != .host) }
  (s.answersFor 22 (fun _ => true)).drainAll

/-- A stroke whose device timeout has expired by now. -/
def State.longAgo (s : State) : Nat := (s.strokeNow + 2 ^ 52 - 64) % 2 ^ 52

/-- Change the strokes in which the accesses to the host that are out have left. -/
def State.hostSent (s : State) (f : Nat → Nat) : State :=
  let away (t : Target) (sent : Nat) : Nat := if t == .host || t == .hostDevice then f sent else sent
  let s := s.withCores (s.cores.mapVals (fun k => { k with
    reads := k.reads.map (fun t => { t with sent := away t.target t.sent })
    writes := k.writes.map (fun w => { w with sent := away w.target w.sent })
    block := match k.block with
      | .waitv f va pc dl (some r) => .waitv f va pc dl (some { r with sent := away r.target r.sent })
      | b => b }))
  let s := s.withWork { s.work with
    fes := s.work.fes.mapVals (fun f => { f with writes := f.writes.map (fun w => { w with sent := away w.target w.sent }) })
    ops := s.work.ops.map (fun o => match s.target o.pa with
      | some t => { o with asked := o.asked.map (away t) }
      | none => o) }
  s.withPds { s.pds with harts := s.pds.harts.mapVals (fun k =>
    { k with stores := k.stores.map (fun x => { x with sent := away x.target x.sent }) }) }

/-- Accesses to the host that are out when the session is lost have timed out, in a later session as well (R235, R236, R498). -/
def State.hostAway (s : State) : State := s.hostSent (fun _ => s.longAgo)

/-- Strokes from one to another (R21). -/
def strokesFrom (a b : Nat) : Nat := (b + 2 ^ 52 - a % 2 ^ 52) % 2 ^ 52

/-- A retrain ends: the device timeouts of accesses to the host, but of those that had expired before it, run on as if it had
taken no time (R499). -/
def State.retrained (s : State) : State :=
  let t0 := s.cxl.retrainAt
  let t1 := s.strokeNow % 2 ^ 52
  s.hostSent (fun sent =>
    if strokesFrom sent t0 < 64 then (sent + strokesFrom t0 t1) % 2 ^ 52
    else if strokesFrom t0 sent ≤ strokesFrom t0 t1 then t1
    else sent)

/-- The link goes down (R591, R612, R614, R615): a decoder is uncommitted; during a session it is a host loss. `sub` is
the sub-unit of the LINK record (R616). -/
def State.linkDown (s : State) (sub : Nat) : State :=
  let en := bitOf (s.regN (rCxl 0x8)) 31
  let had := s.cxl.session
  let s := s.withCxl { s.cxl with
    link := if en then .training else .down, width := 0, rate := 0, recovery := 0, decoder := none, decoderErr := false
    session := false, sessionGen := if had then (s.cxl.sessionGen + 1) % 256 else s.cxl.sessionGen
    lost := s.cxl.lost || had, raised := if had then [] else s.cxl.raised }
  if !had then s.hostLinesLost
  else
    let s := (s.loseQueues (· == 2) .hostLost).hostLeavesHomes.hostLinesLost.hostAnswers.hostAway
    let s := ((s.bump (rCxl 0x28)).linkRecord (s.cxlPath sub)).cxlEvent 21
    s.afterAll

/-- CXL_RECOVERY_ENTER: the link enters Recovery (R499, R612). -/
def execCxlRecoveryEnter (s : State) : Out :=
  whenHub s <| whenIt (s.cxl.link == .up) (.next (s.withCxl { s.cxl with link := .retrain, recovery := 0, retrainAt := s.strokeNow % 2 ^ 52 }))

/-- Lines of Recovery before link down; 0 is reserved (assumption log 21). -/
def State.retrainLimit (s : State) : Nat :=
  let n := s.regN (rCxl 0x8) % 256
  if n = 0 then 8 else n

/-- CXL_RETRAIN_LIMIT: Recovery has lasted RETRAIN_LIMIT lines (R612). -/
def execCxlRetrainLimit (s : State) : Out :=
  whenHub s <| whenIt (s.cxl.link == .retrain && s.retrainLimit ≤ s.cxl.recovery) (.next (s.linkDown 1))

/-- CXL_LINK_DOWN: DL_Down, a reset of R591, or the host clears a protocol enable (R612). -/
def execCxlLinkDown (cause : LinkDownCause) (s : State) : Out :=
  whenHub s <|
    let works := s.cxl.link == .up || s.cxl.link == .retrain
    match cause with
    | .linkDown => whenIt works (.next (s.linkDown 0))
    | .hostReset => .next (s.linkDown 0)
    | .protocolOff => whenIt (works && s.cxl.session) (.next (s.linkDown 0))

/-- Widths and rates the link runs at (R589), rates by their code. -/
def cxlModeOk (width rate : Nat) : Bool := (width = 8 || width = 4) && (rate = 1 || rate = 2)

/-- CXL_LINK_TRAINING_END: training or Recovery ends in L0, or the partner cannot use 256 B flits (R590, R612). -/
def execCxlLinkTrainingEnd (ok : Bool) (width : Nat) (rate : Nat) (s : State) : Out :=
  whenHub s <|
    let c := s.cxl
    if ok then
      whenIt ((c.link == .training || c.link == .retrain || c.link == .modeFail) && cxlModeOk width rate) <|
        .next ((if c.link == .retrain then s.retrained else s).withCxl { c with link := .up, width := width, rate := rate, recovery := 0 })
    else whenIt (c.link == .training || c.link == .modeFail) <|
      .next ((s.withCxl { c with link := .modeFail, width := 0, rate := 0 }).cxlEvent 19)

/-- CXL_SESSION_START: the host has enabled both protocols; after a loss it has also committed the decoder (R614). -/
def execCxlSessionStart (s : State) : Out :=
  whenHub s <| whenIt (s.cxl.link == .up && !s.cxl.session && (!s.cxl.lost || s.cxl.decoder.isSome)) <|
    .next ((s.withCxl { s.cxl with session := true, lost := false }).cxlEvent 20)

/-- HDM_DECODER_COMMIT: the host commits its one decoder; more than one way fails (R598). -/
def execHdmDecoderCommit (base : Nat) (ways : Nat) (s : State) : Out :=
  whenHub s <| whenIt (s.cxl.link == .up) <|
    if ways = 1 then .next (s.withCxl { s.cxl with decoder := some base, decoderErr := false })
    else .next (s.withCxl { s.cxl with decoderErr := true })

/-! ### Host requests at the homes: R597, R599 to R601 -/

/-- The module address of a device physical address in the HDM range (R597). -/
def State.hdmAddr (s : State) (dpa : Nat) : Option Nat :=
  let ctl := s.regN (rCxl 0x10)
  if dpa < bitsOf ctl 45 32 * 2 ^ 28 then some (s.node * 2 ^ 49 + ctl % 2 ^ 14 * 2 ^ 28 + dpa) else none

/-- A host request of CXL.mem: `k` gets the module address; beyond the backed blocks `out` answers (R597). -/
def State.hostMem (s : State) (dpa : Nat) (out : State) (k : Nat → Act) : Out :=
  whenPowered s <| whenIt s.cxl.session <| withSome (s.hdmAddr dpa) fun pa =>
    if s.inTiered (pa / 128 * 128) 128 then k pa else .next out

/-- A read of an unbacked part returns data marked as poisoned (R597). -/
def State.unbackedRead (s : State) (dpa : Nat) : State :=
  let (s, k) := s.draw
  s.emit { kind := .data, args := [22, dpa, 1], bytes := (upFrom 0 64).map (Config.freeByte k) }

/-- A write to an unbacked part is discarded and logged (R597). -/
def State.unbackedWrite (s : State) : State := s.log { errRec (s.cxlPath 0) 0x04 2 with opKind := 3 }

/-- A request of the host at a line's home. -/
def State.hostReq (s : State) (pa : Nat) (kind : HomeKind) (e : Ecc) : Act :=
  (s.reqArrive { line := localPart pa / 128, kind := kind, who := .host, e := e }).andThen State.afterAll

/-- MEMRD_SHARED: MemRd with MetaValue S: read-shared (R600). -/
def execMemrdShared (dpa : Nat) (e : Ecc) (s : State) : Out :=
  s.hostMem dpa (s.unbackedRead dpa) fun pa => s.hostReq pa .readShared e

/-- MEMRD_ANY: MemRd with MetaValue A: read-own (R600). -/
def execMemrdAny (dpa : Nat) (e : Ecc) (s : State) : Out :=
  s.hostMem dpa (s.unbackedRead dpa) fun pa => s.hostReq pa .readOwn e

/-- MEMRD_INVALID: MemRd with MetaValue I or no meta update: a non-allocating read of a 64 B half (R600). -/
def execMemrdInvalid (dpa : Nat) (e : Ecc) (s : State) : Out :=
  s.hostMem dpa (s.unbackedRead dpa) fun pa => s.hostReq pa (.naRead (pa / 64 * 64) 64) e

/-- MEMINV_ANY: MemInv with MetaValue A: read-own without data (R600). -/
def execMeminvAny (dpa : Nat) (s : State) : Out :=
  s.hostMem dpa s fun pa => s.hostReq pa .invOwn []

/-- MEMINV_INVALID: MemInv with MetaValue I: an eviction notice (R600). -/
def execMeminvInvalid (dpa : Nat) (s : State) : Out :=
  s.hostMem dpa s fun pa =>
    whenIt (!s.busy (localPart pa / 128)) (.next (s.notice (localPart pa / 128) 22))

/-- The bytes of a host write, which their offsets in the line name, lie in the 64 B half of its address: the request carries no
others (R600). -/
def halfBytes (dpa : Nat) (bytes : List (Nat × Byte)) : List (Nat × Byte) :=
  bytes.filter (fun b => b.1 / 64 == dpa % 128 / 64)

/-- MEMWR_OWNER: MemWr or MemWrPtl of the owner: a writeback; a partial write merges its bytes and keeps the host as owner
(R600, R601). What the host has shown of the line before stands under them. -/
def execMemwrOwner (dpa : Nat) (bytes : List (Nat × Byte)) (w : HostWrite) (s : State) : Out :=
  s.hostMem dpa s.unbackedWrite fun pa =>
    let bytes := halfBytes dpa bytes
    let line := localPart pa / 128
    whenIt ((s.dirOf line).owner == some 22 && !s.busy line) <|
      let s := ((s.applyEcc line w.e).flush line).hostBytes line bytes w.poison
      let whole := (upFrom (dpa % 128 / 64 * 64) 64).all (fun o => bytes.any (fun b => b.1 == o))
      .next ((if whole then s.setDir line { owner := none, sharers := 0 } else s).touch (line * 128))

/-- MEMWR_NON_OWNER: MemWr or MemWrPtl of a host that does not own the line: a non-allocating write (R600, R601). -/
def execMemwrNonOwner (dpa : Nat) (bytes : List (Nat × Byte)) (w : HostWrite) (s : State) : Out :=
  s.hostMem dpa s.unbackedWrite fun pa =>
    whenIt ((s.dirOf (localPart pa / 128)).owner != some 22) (s.hostReq pa (.bytesWrite (halfBytes dpa bytes) w.poison) w.e)

/-! ### Host snoops: R607 -/

/-- The module line of a host physical address: through the cacheable window that names it (R604). -/
def State.hpaLine (s : State) (hpa : Nat) : Option Nat :=
  let at_ (w : Nat) : Option Nat := match s.winRange w with
    | some (a, b) =>
      let h := s.regN (rCxl (0x108 + w * 0x20))
      if !s.winBad w && !bitOf (s.regN (rCxl (0x110 + w * 0x20))) 62 && decide (h ≤ hpa ∧ hpa < h + (b - a)) then
        some ((a + (hpa - h)) / 128)
      else none
    | none => none
  (upFrom 0 16).findSome? at_

/-- A snoop: answered at once with no data when the tracker does not hold the line. -/
def State.hostSnoop (s : State) (hpa : Nat) (held : Nat → State) : Out :=
  whenPowered s <| whenIt s.cxl.session <|
    let none_ := s.emitN .cxl [2, hpa]
    match s.hpaLine hpa with
    | none => .next none_
    | some l => if (s.tracked l).isSome then .next (held l) else .next none_

/-- SNPINV: every module copy of the line goes, and modified data goes to the host (R607). -/
def execSnpinv (hpa : Nat) (s : State) : Out := s.hostSnoop hpa fun l => (s.dirtyOut l).hostDrop l

/-- SNPDATA: every copy becomes shared, and modified data goes to the host (R607). -/
def execSnpdata (hpa : Nat) (s : State) : Out :=
  s.hostSnoop hpa fun l => s.hostShare l

/-- SNPCUR: current data is returned, and no state changes (R607). -/
def execSnpcur (hpa : Nat) (s : State) : Out := s.hostSnoop hpa fun l => s.dirtyOut l

/-! ### MSI-X: R611 -/

/-- Four bytes of a vector's entry in the MSI-X table: address low, address high, data, control. -/
def State.msixField (s : State) (v i : Nat) : Nat :=
  ofBytes ((upFrom (v * 16 + i * 4) 4).map (fun a => s.cxl.msix.getD (fun _ => 0) a))

/-- MSIX_SEND: a raised vector is sent; a masked one becomes pending, and is sent when its mask clears (R611). -/
def execMsixSend (vec : Nat) (s : State) : Out :=
  whenHub s <|
    let c := s.cxl
    let masked := bitOf (s.msixField vec 3) 0
    let send (s : State) : State := s.emitN .msix [vec, s.msixField vec 1 * 2 ^ 32 + s.msixField vec 0, s.msixField vec 2]
    whenIt (c.session && vec < 2048) <|
      if c.raised.contains vec then
        let c := { c with raised := c.raised.erase vec }
        if masked then .next (s.withCxl { c with msixPend := if c.msixPend.contains vec then c.msixPend
                                                            else vec :: c.msixPend })
        else .next (send (s.withCxl c))
      else whenIt (c.msixPend.contains vec && !masked) <|
        .next (send (s.withCxl { c with msixPend := c.msixPend.filter (· != vec) }))

end Sys2Proof.Machine
end

