-- ==== Sys2Proof/Machine/Line.lean ====
section
/-! DEFINITION. Machine/Line.lean: what falls due at a line boundary, in the order of R28: the line number, commits, energy,
timeouts and the plate's telemetry snapshot (R24, R28 to R45, R263, R425, R500, R559, R646). -/

namespace Sys2Proof.Machine

/-! ### The tracker at a boundary: R23, R24, R42, R692 -/

/-- The boundary that has begun line L has had no accepted mark: the line is counted; LOCKED becomes FLYWHEEL, a fifth boundary in a row enters
LOST, and a phase found in ACQUIRING or LOST is dropped after four. -/
def State.missLine (s : State) : State :=
  if s.ruling.state = .unruled then s
  else
    let s := s.bump rRuleMissed
    let r := s.ruling
    match r.predicted with
    | none => s
    | some p =>
      let r' := { r with predicted := some (p + r.measured), missed := r.missed + 1, good := 0 }
      match r.state with
      | .locked => s.rule (fun s => s.withRuling { r' with state := .flywheel })
      | .flywheel | .slew => if 4 ≤ r.missed then s.enterLost else s.withRuling r'
      | _ =>
        if 4 ≤ r.missed + 1 then
          s.withRuling { r' with predicted := none, missed := 0, fullSeen := none, jump := 0, candidate := none }
        else s.withRuling r'

/-- The lines by which the count advances: one, and those a re-alignment skips (R44). -/
def State.lineStep (s : State) : Nat := 1 + s.ruling.jump

/-- The line number advances (R28, step 1); a re-alignment forward that was waiting ends LOST (R44, R45). -/
def State.advanceLine (s : State) : State :=
  let r := s.ruling
  let r' := { r with line := (r.line + s.lineStep) % 2 ^ 48, stroke := 0, tick := 0, jump := 0 }
  if r.state = .lost && r.jump != 0 then
    s.rule (fun s => ((s.withRuling { r' with state := .locked }).ruleFlag 5).setReg rRuleJump
      (BitVec.ofNat 64 (r.jump % 2 ^ 32)))
  else s.withRuling r'

/-- In SLEW every second mark counts no line; the counts agree when none is left to absorb (R44, R45). The line goes on over its
two marks: ruled time never runs backwards, so its stroke is not begun anew at the mark that counts none (assumption log 35).
A grant of the first of them is void: grants govern from the line after the lock (R45). -/
def State.slewSkipped (s : State) : State :=
  let r := s.ruling
  let left := r.slewLeft - 1
  let s := s.withPower { s.power with grant := none }
  s.rule (fun s => s.withRuling { r with
    slewLeft := left, slewSkip := false, state := if left = 0 then .locked else .slew })

/-- A multiple of `n` lies among the `k` line numbers that follow `line`. -/
def crosses (line k n : Nat) : Bool := (line + k) / n != line / n

/-! ### Commits: R33 to R36, R38 -/

/-- The units of a block are present (R38). -/
def State.blockPresent (s : State) (b : Block0) : Bool :=
  match b with
  | .fe d | .atu d => s.adPresent d
  | .hbmc n => s.ctlPresent n
  | .dramc n => s.ctlPresent (16 + n)
  | .pd p => s.pdPresent p
  | _ => true

/-- The die a register belongs to is present; in PWR some registers belong to one die each (R38). -/
def State.regPresent (s : State) (b : Block0) (x : Nat) : Bool :=
  s.blockPresent b && (match b with
    | .pwr =>
      if 0x100 ≤ x && x < 0x140 then s.adPresent ((x - 0x100) / 0x10)
      else if 0x180 ≤ x && x < 0x1A0 then s.pdPresent ((x - 0x180) / 0x10)
      else if 0x400 ≤ x && x < 0x480 then s.adPresent ((x - 0x400) / 0x20)
      else true
    | _ => true)

/-- The block lies on the hub die, whose rail the thermal trip leaves on (R52, R507). -/
def Block0.onHub : Block0 → Bool
  | .hub | .rule | .hatch | .pwr | .ras | .cfg | .d2d | .opt | .cxl | .msixTable | .msixPending | .component | .loader =>
    true
  | .fe _ | .atu _ | .hbmc _ | .dramc _ | .peel | .pd _ | .mfile _ | .sfile _ _ => false

/-- The block answers: its units are present, and its die has its rail (R52, R668). -/
def State.blockOn (s : State) (b : Block0) : Bool := s.blockPresent b && (!s.power.tripped || b.onHub)

/-- An offset is that of an RWS register of a set in the mask, on units that are present. -/
def State.inCommit (s : State) (mask o : Nat) : Bool :=
  match blockAt o with
  | some (b, x) =>
    s.regPresent b x
      && (match b.set with
          | some i => bitOf mask i
          | none => false)
      && (match rowAt b.rows x with
          | some (r, _) => r.cls == .rws
          | none => false)
  | none => false

/-- The value a register takes from its staged copy: OFFLINE of a controller does not go back to 1 (R335). -/
def State.stagedValue (s : State) (o : Nat) : BitVec 64 :=
  let keep := match blockAt o with
    | some (.hbmc _, 0) | some (.dramc _, 0) => !bitOf (s.regN o) 29
    | _ => false
  if keep then setBit (s.regStaged o) 29 false else s.regStaged o

/-- Every staged value of the sets becomes live, in one change (R33), and the staged value then equals the live one (R38). -/
def State.copySets (s : State) (mask : Nat) : State :=
  let keys := ((s.regs.staged.map Prod.fst) ++ (s.regs.live.map Prod.fst)).filter (s.inCommit mask)
  let live := keys.foldl (fun (t : Tbl (BitVec 64)) o => t.setD (regReset s.pop.variant) o (s.stagedValue o)) s.regs.live
  let staged := keys.foldl (fun (t : Tbl (BitVec 64)) o => t.setD (regReset s.pop.variant) o (s.stagedValue o)) s.regs.staged
  s.withRegs { s.regs with live := live, staged := staged }

/-- What units do when their live values change: quotas (R273), the peel ring (R269), waiting records (R554), trims (R516),
the unit command (R557), the CXL link (R612), and the route table at a new base (R588). -/
def State.onCommit (old s : State) (mask : Nat) : State :=
  let s := if bitOf mask 0 then s.trimCheck else s
  let s := if bitOf mask 12 && !s.peel.quotaReady && s.reg (rPeel 0x4048) != old.reg (rPeel 0x4048) then s.quotaInit else s
  let s := if bitOf mask 12 then (s.fetchCmds s.cmdRing).cmdsOn else s
  let s := if bitOf mask 14 && s.reg (rOpt 0x8) != old.reg (rOpt 0x8) then s.readRoutes else s
  let s := if bitOf mask 2 then
      let c := s.regN (rRas 0x38)
      s.logFlush.unitCommand (s.reg (rRas 0x30)) (c % 8) (bitsOf c 31 24)
    else s
  if bitOf mask 15 then
    let on (x : State) : Bool := bitOf (x.regN (rCxl 0x8)) 31
    if on s && s.cxl.link == .down then s.withCxl { s.cxl with link := .training }
    else if !on s && s.cxl.link != .down then s.linkDown 0
    else s
  else s

/-- Put a commit in the order of the target lines, counted from the line before the boundary (R44); commits of one line
apply together (R35). -/
def insertCommit (from_ : Nat) (c : Commit) : List Commit → List Commit
  | [] => [c]
  | x :: t =>
    let d (y : Commit) : Nat := (y.due + 2 ^ 48 - from_ % 2 ^ 48) % 2 ^ 48
    if d c < d x then c :: x :: t
    else if d c = d x then { x with mask := x.mask ||| c.mask, late := x.late || c.late } :: t
    else x :: insertCommit from_ c t

/-- One commit applies (R33). -/
def State.applyCommit (s : State) (c : Commit) : State :=
  (State.onCommit s (s.copySets c.mask) c.mask).commitDone c.mask c.late

/-- R28, step 2: the commits whose line has come. `from_` is the line before the boundary. One whose line a forward jump skipped
falls due at this boundary and does not set COMMIT_LATE for it (R44; assumption log 36). -/
def State.commitLine (s : State) (from_ : Nat) : State :=
  let due (c : Commit) : Bool := c.due = s.ruling.line || !lineAhead c.due s.ruling.line
  let now := (s.regs.commits.filter due).foldl (fun l c => insertCommit from_ c l) []
  now.foldl State.applyCommit (s.withRegs { s.regs with commits := s.regs.commits.filter (fun c => !due c) })

/-! ### Timeouts and counts of lines: R28 (step 4), R425, R475, R490, R495, R496, R612 -/

/-- The lines of a CXL retrain advance: the CXL block is the hub's (R612). -/
def State.ageHub (s : State) (k : Nat) : State :=
  if s.cxl.link == .retrain then s.withCxl { s.cxl with recovery := s.cxl.recovery + k } else s

/-- The counters of lines advance: those of timeouts by every line that has begun or was skipped (R44). -/
def State.ageLine (s : State) (k : Nat) : State :=
  let s := s.withWork { s.work with
    ops := s.work.ops.map (fun o => { o with age := o.age + k })
    fes := s.work.fes.mapVals (fun f => { f with hang := f.hang.map (fun h => { h with lines := h.lines + k }) }) }
  let s := s.withCores (s.cores.mapVals (fun c => if c.launch.isSome then { c with still := c.still + 1 } else c))
  (upFrom 0 2).foldl (fun (s : State) p =>
    let n := s.regN (rPd p 0x1C)
    if s.pdPresent p && !s.pds.wdogHeld.getLsbD p && n < s.regN (rPd p 0x18) % 2 ^ 16 then
      s.setReg (rPd p 0x1C) (BitVec.ofNat 64 (n + 1))
    else s) s

/-! ### Plates: R28 (step 5), R263, R500, R544, R559 -/

/-- A bit vector of the numbers below `n` that satisfy `p`, as `k` bytes. -/
def maskBytes (k n : Nat) (p : Nat → Bool) : List Byte :=
  toBytes k (((upFrom 0 n).filter p).foldl (fun a i => a + 2 ^ i) 0)

/-- The telemetry snapshot (R559). -/
def State.telemetry (s : State) : List Byte :=
  let b := toBytes 8 s.now.toNat ++ toBytes 4 s.ras.logIndex ++ toBytes 4 (s.regN (rRas 0x14))
    ++ maskBytes 16 128 (fun c => s.coreState c == 0) ++ maskBytes 16 128 (fun c => s.coreState c == 1)
    ++ maskBytes 64 512 (fun i => s.enginePresent (i / 4) (i % 4)) ++ maskBytes 16 96 s.hartPresent
    ++ (upFrom 0 17).flatMap (fun r => toBytes 4 (s.regN (rPwr (0x200 + 4 * r)))) ++ toBytes 4 (s.regN (rPwr 0x18))
    ++ (upFrom 0 6).flatMap (fun d => toBytes 4 (s.dieStatView d))
  b ++ (upFrom 0 3872).map (fun _ => 0)

/-- The snapshot goes to the halves of the buffer in turn (R559); a buffer outside backed memory takes none. -/
def State.snapshot (s : State) : State :=
  let a := s.regN (rRas 0x48) + b2n s.ras.telemHalf * 4096
  let s' := s.withRas { s.ras with telemHalf := !s.ras.telemHalf, readIndex := s.ras.logIndex }
  if s.inTiered a 4096 then s'.sysWrite a s.telemetry else s'

/-- A plate begins; `window` says that an escalation window begins with it (R500). -/
def State.plateLine (s : State) (window : Bool) : State :=
  let s := s.snapshot.decay.proofOverdue
  if window then (s.withWork { s.work with escCount := 0 }).setReg (rRas 0x114) 0 else s

/-! ### The boundary -/

/-- What a boundary does on the hatch: the alert pin (R646), the hatch clock (R47) and the scan chunks (R658). -/
def State.hatchLine (s : State) : State :=
  let h := s.hatch
  s.withHatch { h with alert := if h.ack then h.event else h.alert, ack := false, event := false
                       usable := !s.ruling.ckLost, scan := h.scanNext }

/-- What a boundary finds of marks, in the line it has begun: a mark accepted for it has been taken, a missing one counts
(R23, R42). -/
def State.markLine (s : State) : State :=
  let s := if s.ruling.marked then s else s.missLine
  s.withRuling { s.ruling with marked := false, sinceStart := s.ruling.sinceStart + 1 }

/-- The time CSR goes on at 100 MHz, whose relation to the ruling is free (R402, assumption log 158). -/
def State.passTime (s : State) : State :=
  let r := s.draw
  r.1.withPds { s.pds with time := (s.pds.time + (Config.freeWord r.2).toNat) % 2 ^ 64 }

/-- The boundary falls on one of the marks of SLEW that count no line, unless it is the one that enters LOST (R42, R44). -/
def State.slewHolds (s : State) : Bool :=
  s.ruling.state = .slew && s.ruling.slewSkip && (s.ruling.marked || s.ruling.missed < 4)

/-- LINE_BOUNDARY: the boundary of a line, after the module's chunks of the line it ends; `m` is what the meters hold for the line that closes (R28, R529). A tripped
module keeps the hub's part alone: the tracker, commits, energy accounting, and the count of a link that retrains (R52). -/
def execLineBoundary (m : LineMeas) (s : State) : Out :=
  whenHub s <|
    let s := s.sendChunks.hatchLine.passTime
    let r := s.ruling
    if s.slewHolds then .next s.markLine.slewSkipped
    else
      let k := s.lineStep
      let s := s.settleCeiling.advanceLine.markLine
      let s := s.withRuling { s.ruling with slewSkip := s.ruling.state = .slew }
      let s := ((s.commitLine r.line).closeLine m).powerLine.ageHub k
      if s.power.tripped then .next s
      else
        let plate := crosses r.line k 4096
        let s := s.ageLine k
        let s := if plate then s.plateLine (crosses r.line k (2 ^ 24)) else s
        .next (s.linksLine plate)

end Sys2Proof.Machine
end

