-- ==== Sys2Proof/Machine/Invalidate.lean ====
section
/-! DEFINITION. Machine/Invalidate.lean: invalidation records, the invalidation rings and acknowledgements (R386 to R396). -/

namespace Sys2Proof.Machine

/-- An invalidation record (R386) as an invalidation; the ATUs and the number are filled in at its start. -/
def invalOf (b : List Byte) (die : Nat) (uid : Option Nat) : Inval :=
  let f := leAt b 14 1
  { id := 0, start := leAt b 0 8, pages := leAt b 8 4, asid := leAt b 12 2, allAsids := bitOf f 0, global := bitOf f 1
    whole := bitOf f 2, die := die, uid := uid, waits := [], deps := [] }

/-- A reserved field is not zero, or PAGES is zero without WHOLE (R392). -/
def recordBad (b : List Byte) : Bool :=
  leAt b 14 1 / 8 != 0 || leAt b 15 1 != 0 || (leAt b 8 4 == 0 && !bitOf (leAt b 14 1) 2)

/-- The ring of die `d` is served: ATUs translate (R395), its size is one of the table's, and it lies in backed memory. -/
def State.ringOk (s : State) (d : Nat) : Bool :=
  let n := s.regN (rAtu d 0x18) % 16
  s.adPresent d && bitOf (s.regN (rAtu d 0x8)) 31 && 4 ≤ n && n ≤ 12 && s.inTiered (s.regN (rAtu d 0x10)) (32 * 2 ^ n)

/-- An invalidation starts; where no ATU has to acknowledge it, it is complete (R385, R388). -/
def State.beginInval (s : State) (i : Inval) : State :=
  let n := s.xlat.nextInv
  let s := s.startInval i
  match s.xlat.invals.find? (fun x => x.id == n && x.waits.isEmpty) with
  | some x => s.invalDone x
  | none => s

/-- INV_RING_ENTRY: a front end takes the entry at the head of its die's ring: a bad record completes at once, another
starts its invalidation (R387, R392 to R394). -/
def execInvRingEntry (die : Nat) (s : State) : Out :=
  whenPowered s <|
    whenIt (s.ringOk die && (s.fe die).ringBusy.isNone && s.regN (rAtu die 0x20) != s.regN (rAtu die 0x1C)) <|
      let s := s.homeRead (s.ringEntry die) 16
      let b := s.sysRead (s.ringEntry die) 16
      if recordBad b then .next (s.ringDone die 2)
      else
        let s := s.setFe die { s.fe die with ringBusy := some s.xlat.nextInv }
        .next (s.beginInval (invalOf b die none))

/-- INVALIDATION_ACK: an ATU acknowledges an invalidation once every access that used a removed entry has finished
(R388). -/
def execInvalidationAck (inv : Nat) (atu : Nat) (s : State) : Out :=
  whenPowered s <| withSome (s.xlat.invals.find? (fun i => i.id == inv)) fun i =>
    whenIt (i.waits.contains atu && !i.deps.any (fun d => d.1 == atu && s.depOpen d)) <|
      let i := { i with waits := i.waits.filter (· != atu), deps := i.deps.filter (fun d => d.1 != atu) }
      if i.waits.isEmpty then .next (s.invalDone i)
      else .next (s.withXlat { s.xlat with invals := s.xlat.invals.map (fun x => if x.id == i.id then i else x) })

end Sys2Proof.Machine
end

