-- ==== Sys2Proof/Machine/Proc.lean ====
section
/-! DEFINITION. Machine/Proc.lean: the processor dies: fences of the harts (R403 to R405, R414), interrupt-file writes (R416),
the watchdog (R425) and the warm reset (R419 to R424). -/

namespace Sys2Proof.Machine

/-! ### Harts -/

/-- A fence of a hart waits for the older accesses it orders, or completes at once when there are none (R414). -/
def State.hartWait (s : State) (h : Nat) (f : HartFence) : State :=
  s.setHart h ({ s.hart h with fence := some f }).settle

/-- The word is a standard FENCE of RV64I: MISC-MEM with funct3 0. -/
def isFence (w : BitVec 32) : Bool := w.toNat % 128 == 0x0F && bitsOf w.toNat 14 12 == 0

/-- What a standard FENCE waits for: with PW or PO set it completes when all older stores have performed (R414), and with PR or PI
set when all older loads have their data (R219); its successors wait for it. -/
def Hart.standardFence (k : Hart) (w : BitVec 32) : HartFence :=
  { cacheable := false, stores := bitOf w.toNat 24 || bitOf w.toNat 26
    loads := bitOf w.toNat 25 || bitOf w.toNat 27, upto := k.nextId
    thenStores := bitOf w.toNat 20 || bitOf w.toNat 22, thenLoads := bitOf w.toNat 21 || bitOf w.toNat 23 }

/-- An Xnwfence is illegal (R405): a reserved scope, a reserved field that is not zero, or both predecessor bits or both
successor bits clear. -/
def xnwIllegal (w : BitVec 32) : Bool :=
  let n := w.toNat
  let scope := bitsOf n 31 28
  !(scope == 1 || scope == 2) || bitsOf n 27 26 != 0 || bitsOf n 23 22 != 0 || bitsOf n 19 7 != 0
    || bitsOf n 25 24 == 0 || bitsOf n 21 20 == 0

/-- What an Xnwfence waits for, in either scope (R404, R414; assumption log 143). -/
def Hart.xnwFence (k : Hart) (w : BitVec 32) : HartFence :=
  { cacheable := true, stores := bitOf w.toNat 24, loads := bitOf w.toNat 25, upto := k.nextId
    thenStores := bitOf w.toNat 20, thenLoads := bitOf w.toNat 21 }

/-- A hart executes a fence, which its word names whichever command brings it: a standard FENCE, an Xnwfence, or an Xnwfence that is
illegal and traps (R403 to R405, R414). Another word is no fence. -/
def State.hartFence (s : State) (h : Nat) (w : BitVec 32) : Out :=
  whenPowered s <| whenIt (s.hartRuns h && (s.hart h).fence.isNone) <|
    if isFence w then .next (s.hartWait h ((s.hart h).standardFence w))
    else whenIt (w.toNat % 128 == 0x0B)
      (.next (if xnwIllegal w then s.hartTrap h 2 none else s.hartWait h ((s.hart h).xnwFence w)))

/-- HART_FENCE: a standard FENCE (R414). -/
def execHartFence (h : Nat) (w : BitVec 32) (s : State) : Out := s.hartFence h w

/-- NW_FENCE_CX: orders the hart's cacheable accesses within its complex (R404). -/
def execNwFenceCx (h : Nat) (w : BitVec 32) (s : State) : Out := s.hartFence h w

/-- NW_FENCE_RG: orders the hart's cacheable accesses within its region (R404). -/
def execNwFenceRg (h : Nat) (w : BitVec 32) (s : State) : Out := s.hartFence h w

/-! ### Interrupt files: R416 -/

/-- A number of 4 bytes in the other byte order. -/
def swap4 (v : Nat) : Nat := v % 256 * 2 ^ 24 + v / 256 % 256 * 2 ^ 16 + v / 2 ^ 16 % 256 * 256 + v / 2 ^ 24 % 256

/-- A write to offset `x` of the page of file `f` of hart `h` (R416). -/
def State.msiPage (s : State) (h f x size : Nat) (v : Nat) : State :=
  if size ≠ 4 then s
  else if x = 0 then s.msi h f (v % 2 ^ 32)
  else if x = 4 then s.msi h f (swap4 (v % 2 ^ 32))
  else s

/-! ### The watchdog: R425 -/

/-- LINES of PD_WDOG_CTL. -/
def State.wdogLines (s : State) (p : Nat) : Nat := s.regN (rPd p 0x18) % 2 ^ 16

/-- PD_WDOG_EXPIRE: the count reaches LINES: a record, the alert, and the count holds (R425). -/
def execPdWdogExpire (p : Nat) (s : State) : Out :=
  whenPowered s <|
    let n := s.wdogLines p
    whenIt (s.pdPresent p && n != 0 && n ≤ s.regN (rPd p 0x1C) && !s.pds.wdogHeld.getLsbD p) <|
      let s := s.withPds { s.pds with wdogHeld := s.pds.wdogHeld ||| BitVec.ofNat 2 (2 ^ p) }
      .next ((s.log { errRec (s.path (4 + p) 0 0 0xE 0) 0x11 2 with syndrome := n + (4 + p) * 2 ^ 16 }).alert 2)

/-- PD_WDOG_COUNT_WRITE: any write returns the count to zero, and it counts again (R425). -/
def execPdWdogCountWrite (p : Nat) (_ : BitVec 32) (s : State) : Out :=
  whenPowered s <| whenIt (s.pdPresent p) <|
    .next ((s.withPds { s.pds with wdogHeld := s.pds.wdogHeld &&& ~~~ BitVec.ofNat 2 (2 ^ p) }).setReg (rPd p 0x1C) 0)

/-! ### Warm reset: R419 to R424 -/

/-- PD_RESET_STAT of a die, with the phase of the reset in progress. -/
def State.resetStatView (s : State) (p : Nat) : Nat :=
  (s.regN (rPd p 0xC) &&& 2 ^ 31) + (if s.pdPresent p then s.pds.phase else 0)

/-- PD_WARM_RESET: a write of PD_RESET_CTL (R419): the harts of the named dies stop, their queues are stopped (R422), and
once their stores have performed the caches are written back. -/
def execPdWarmReset (v : BitVec 32) (s : State) : Out :=
  whenPowered s <|
    let ps := (upFrom 0 2).filter (fun p => bitOf v.toNat p && s.pdPresent p)
    if s.pds.phase ≠ 0 then
      .next (((upFrom 0 2).filter s.pdPresent).foldl (fun (s : State) p => s.setRegBit (rPd p 0xC) 31 true) s)
    else if ps.isEmpty then .next s
    else
      let stop (t : Tbl Hart) (h : Nat) : Tbl Hart :=
        t.setD (fun _ => Hart.init) h { t.getD (fun _ => Hart.init) h with stopped := true }
      let s := s.withPds { s.pds with
        harts := (ps.flatMap dieHarts).foldl stop s.pds.harts
        resetDies := ps.foldl (fun n p => n + 2 ^ p) 0, phase := 1 }
      .next ((s.loseQueues (fun o => ps.contains o) .stopped).warmCheck)

/-- A quarantine of a hart or complex of a die that is being reset applies with the reset (R548). -/
def State.warmQuarantine (s : State) : State :=
  match s.ras.cmd with
  | none => s
  | some m =>
    let mine (p : Nat) : Bool := bitOf s.pds.resetDies p
    match s.unitOf m.path with
    | some (.hart h) =>
      if m.op = 3 && mine (h / 48) then
        ((s.applyQuarantine (.hart h) m.seq true).withRas { s.ras with cmd := none }).cmdDone m.seq 0
      else s
    | some (.complex x) =>
      if m.op = 3 && mine (x / 6) then
        ((s.applyQuarantine (.complex x) m.seq true).withRas { s.ras with cmd := none }).cmdDone m.seq 0
      else s
    | _ => s

/-- WARM_RESET_RELEASE: at the first line boundary after the dies are in reset, their harts start at the warm entry
(R420, step 6). -/
def execWarmResetRelease (s : State) : Out :=
  whenPowered s <| whenIt (s.pds.phase == 2 && s.ruling.stroke == 0 && s.ruling.line != s.pds.since) <|
    let ps := s.resetDieList
    let s := s.warmQuarantine
    let go (t : Tbl Hart) (h : Nat) : Tbl Hart := t.setD (fun _ => Hart.init) h Hart.init
    let s := s.withPds { s.pds with harts := (ps.flatMap dieHarts).foldl go s.pds.harts, resetDies := 0, phase := 0 }
    .next (ps.foldl (fun (s : State) p => s.bump (rPd p 0x28)) s)

end Sys2Proof.Machine
end

