-- ==== Sys2Proof/Machine/Boot.lean ====
section
/-! DEFINITION. Machine/Boot.lean: module resets, boot, flash records, debug tokens, and the loss and return of input power
(chapter 19; R52, R246, R247, R327, R535). -/

namespace Sys2Proof.Machine

/-! ### Records: R621 to R623, R627, R635 -/

/-- The record's bytes at an offset, as a number. -/
def recAt (r : FlashRec) (o n : Nat) : Nat := leAt r.bytes o n

/-- SEQ of a record. -/
def recSeq (r : FlashRec) : Nat := recAt r 8 8

/-- LENGTH of a record: the bytes of its payload. -/
def recLength (r : FlashRec) : Nat := recAt r 16 4

/-- VERSION of a record. -/
def recVersion (r : FlashRec) : Nat := recAt r 20 4

/-- The payload of a record. -/
def recPayload (r : FlashRec) : List Byte := (r.bytes.drop 64).take (recLength r)

/-- Bytes of a trailer: of a signed record, and of one with the check alone. -/
def trailerSize (signed : Bool) : Nat := if signed then 3144 else 64

/-- The module's own MODULE_ID; its value is free (assumption log 6). -/
def moduleId : Nat := leAt (Config.cryptoBytes 0 []) 0 8

/-- The conditions of R622 common to every record: MAGIC, SEQ, the size, the reserved fields, the check and the signature. -/
def recFormOk (magic size : Nat) (signed : Bool) (r : FlashRec) : Bool :=
  let n := recLength r
  recAt r 0 8 == magic && recSeq r != 0 && recSeq r != 2 ^ 64 - 1 && n % 8 == 0
    && r.bytes.length == 64 + n + trailerSize signed && r.bytes.length ≤ size && recAt r 32 32 == 0
    && (!signed || recAt r (64 + n + 1859) 5 == 0) && r.checkOk && (!signed || r.sigOk)

/-- The items of a configuration payload (R627), with fuel; none where an item does not fit. -/
def parseItems : Nat → List Byte → Option (List (Nat × List Byte))
  | _, [] => some []
  | 0, _ => none
  | k + 1, bs =>
    let n := leAt bs 2 2
    let size := 4 + (n + 3) / 4 * 4
    if bs.length < size then none
    else match parseItems k (bs.drop size) with
      | some l => some ((leAt bs 0 2, (bs.drop 4).take n) :: l)
      | none => none

/-- The items of a record. -/
def recItems (r : FlashRec) : List (Nat × List Byte) :=
  match parseItems (recLength r) (recPayload r) with
  | some l => l
  | none => []

/-- An item of a record. -/
def recItem (r : FlashRec) (type : Nat) : Option (List Byte) := ((recItems r).find? (fun i => i.1 == type)).map Prod.snd

/-- A number in an item of a record, zero without it. -/
def itemAt (r : FlashRec) (type o n : Nat) : Nat :=
  match recItem r type with
  | some b => leAt b o n
  | none => 0

/-- The items of a configuration record make it valid (R627). -/
def itemsOk (r : FlashRec) : Bool :=
  match parseItems (recLength r) (recPayload r) with
  | none => false
  | some l =>
    let types := l.map Prod.fst
    [1, 2, 3, 4, 5].all types.contains && types.all (fun t => t < 2 ^ 15 || decide (t ≤ 9))
      && types.all (fun t => (types.filter (· == t)).length == 1) && itemAt r 4 0 4 ≤ 4

/-- MIN_VERSION of a configuration record. -/
def minVersion (r : FlashRec) : Nat := itemAt r 1 0 4

/-- The directory of a firmware payload holds the four components it must, once each (R635). -/
def bundleOk (r : FlashRec) : Bool :=
  let p := recPayload r
  let n := leAt p 0 4
  let types := (upFrom 0 n).map (fun i => leAt p (8 + 32 * i) 4)
  8 + 32 * n ≤ p.length && [1, 2, 3, 4].all (fun t => (types.filter (· == t)).length == 1)

/-- A record is valid in a region, but for the VERSION of firmware (R622): 0 firmware, 1 configuration, 2 fault history. -/
def recValid (region : Nat) (r : FlashRec) : Bool :=
  let form := recFormOk (0x4E574B5A00000001 + region) (if region = 0 then 0x3000000 else 0x400000) (region < 2) r
  if region = 0 then form && bundleOk r
  else if region = 1 then form && recAt r 24 8 == moduleId && itemsOk r
  else form && recAt r 24 8 == moduleId

/-- The record in a bank of a region. -/
def State.bank (s : State) (region b : Nat) : FlashRec := s.boot.flash.getD (fun _ => FlashRec.blank) (region * 2 + b)

/-- Firmware is no older than the selected configuration allows (R622, R642). -/
def State.versionOk (s : State) (r : FlashRec) : Bool :=
  match s.boot.cfg with
  | some c => minVersion c.2 ≤ recVersion r
  | none => true

/-- The valid records of a region with their banks. -/
def State.validRecs (s : State) (region : Nat) : List (Nat × FlashRec) :=
  ((upFrom 0 2).map (fun b => (b, s.bank region b))).filter
    (fun x => recValid region x.2 && (region != 0 || s.versionOk x.2))

/-- The record of highest SEQ, or of the lower one, bank 0 among equals (R623). -/
def pickRec (old : Bool) : List (Nat × FlashRec) → Option (Nat × FlashRec)
  | [] => none
  | [a] => some a
  | a :: b :: _ =>
    if old then (if recSeq b.2 < recSeq a.2 then some b else some a)
    else (if recSeq a.2 < recSeq b.2 then some b else some a)

/-! ### Module resets: R246, R535, R631, R670 -/

/-- Registers a warm reset keeps: the counters of the D2D, OPT and CXL blocks, with the bits that count (R670). -/
def warmCounters : List (Nat × Nat) :=
  [(rD2d 0x1C, 16), (rOpt 0x20, 32), (rOpt 0x24, 32), (rOpt 0x28, 32), (rOpt 0x50, 16), (rOpt 0x10C, 16),
   (rCxl 0x20, 32), (rCxl 0x24, 32), (rCxl 0x28, 32)]

/-- The module is held in reset: all state is lost but the flash, and, in a warm reset, what R572, R631 and R670 keep. -/
def State.moduleReset (s : State) (cold : Bool) : State :=
  let r := State.reset
  let t := r.withPop { r.pop with variant := s.pop.variant }
  let t := ((t.withOut s.out).withFresh s.fresh).withPending s.pending
  let t := t.withBoot { r.boot with cold := cold, flash := s.boot.flash, repairs := if cold then [] else s.boot.repairs }
  if cold then t
  else
    let t := t.withLinks { r.links with
      mods := s.links.mods.filter (fun _ m => !m.up), retrains := s.links.retrains, replays := s.links.replays }
    warmCounters.foldl (fun (t : State) e => t.setReg e.1 (BitVec.ofNat 64 (s.regN e.1 % 2 ^ e.2))) t

/-- MODULE_COLD_RESET: input power reaches the operating range, or HTCH_RST_N is low for 10 ms or more (R631). -/
def execModuleColdReset (cause : ColdCause) (s : State) : Out :=
  match cause with
  | .power => if s.power.input then .next s else .next (s.moduleReset true)
  | .resetPin => whenHub s (.next (s.moduleReset true))

/-- MODULE_WARM_RESET: HTCH_RST_N is low for a number of microseconds: below 10 it is ignored; from 10 ms on, or after a
thermal trip, it is a cold reset (R631). -/
def execModuleWarmReset (us : Nat) (s : State) : Out :=
  whenHub s <|
    if us < 10 then .next s else .next (s.moduleReset (decide (10000 ≤ us) || s.power.tripped))

/-- INPUT_UNDERVOLTAGE: every regulator turns off; nothing is recorded, and nothing but the flash survives (R52, R535). -/
def execInputUndervoltage (s : State) : Out :=
  whenHub s <|
    let t := s.moduleReset true
    .next (t.withPower { t.power with input := false })

/-- INPUT_POWER_ON: input power returns, as a module cold reset (R535). -/
def execInputPowerOn (s : State) : Out := if s.power.input then .next s else .next (s.moduleReset true)

/-! ### What a boot finds: R3, R628, R672 -/

/-- The units a variant has (R3): AD, PD, HBM, DRAM and OE masks. -/
def variantPop : Variant → Pop
  | .nwa1640 => { variant := .nwa1640, ad := 15, pd := 3, hs := 0xFFFF, dram := 0xFFFF, oe := 0xFF }
  | .nwa1640e => { variant := .nwa1640e, ad := 15, pd := 3, hs := 0xFFFF, dram := 0xFFFF, oe := 0 }
  | .nwa1220 => { variant := .nwa1220, ad := 3, pd := 1, hs := 0x00FF, dram := 0x00FF, oe := 0x0F }

/-- The units CAPABILITY lists (R627). -/
def capPop (v : Variant) (c : FlashRec) : Pop :=
  let p := variantPop v
  { variant := v
    ad := p.ad &&& BitVec.ofNat 4 (itemAt c 2 0 1), pd := p.pd &&& BitVec.ofNat 2 (itemAt c 2 1 1)
    hs := p.hs &&& BitVec.ofNat 16 (itemAt c 2 4 2), dram := p.dram &&& BitVec.ofNat 16 (itemAt c 2 6 2)
    oe := p.oe &&& BitVec.ofNat 8 (itemAt c 2 2 1) }

/-- The optical engines whose die links are not offline since the last cold reset (R572, R573). -/
def State.oeLinked (s : State) : BitVec 8 :=
  BitVec.ofNat 8 (((upFrom 0 8).filter (fun k =>
    (upFrom 0 2).any (fun m => (s.adlMod (14 + k) m).isNone))).foldl (fun a k => a + 2 ^ k) 0)

/-- The units present (R628): listed and trained; without a QUALIFIED_OE item no engine is qualified (R564, R627). -/
def State.bootPop (s : State) (c : FlashRec) (e : BootEnv) : Pop :=
  let p := capPop s.pop.variant c
  { p with ad := p.ad &&& e.ad, pd := p.pd &&& e.pd, hs := p.hs &&& e.hs, dram := p.dram &&& e.dram
           oe := if (recItem c 7).isSome then p.oe &&& e.oe &&& s.oeLinked else 0 }

/-- The units listed that did not train are quarantined (R564, R628): stacks, packages and optical engines, under their keys. -/
def State.untrained (s : State) (listed : Pop) : State :=
  let hs := (setBitsBelow 16 (listed.hs &&& ~~~ s.pop.hs).toNat).map (fun n => keyOf (16 + n) 0 0 0xE)
  let dram := (setBitsBelow 16 (listed.dram &&& ~~~ s.pop.dram).toNat).map (fun n =>
    keyOf (4 + n / 8) 0 0 0xE + 2 ^ 31 + n * 2 ^ 27)
  let oe := (setBitsBelow 8 (listed.oe &&& ~~~ s.pop.oe).toNat).map (fun k => keyOf (8 + k) 0 0 0xE)
  (hs ++ dram ++ oe).foldl (fun (s : State) k => s.setUnit k 2 0 false) s

/-! ### Applying the configuration: R566, R571, R627, R630 -/

/-- Give fields of an RWS register an initial value, live and staged. -/
def State.initBits (s : State) (o hi lo v : Nat) : State :=
  (s.setRegBits o hi lo v).setStaged o (setBits (s.regStaged o) hi lo v)

/-- The strap LOW_POWER_START (R630). -/
def State.lowPower (s : State) : State :=
  let s := (upFrom 0 4).foldl (fun (s : State) d => s.initBits (rPwr (0x100 + d * 0x10)) 3 0 0) s
  let s := (upFrom 0 2).foldl (fun (s : State) p => s.initBits (rPwr (0x180 + p * 0x10)) 7 0 0) s
  s.initBits (rPwr 0x8) 10 0 (if s.pop.variant = .nwa1220 then 300 else 500)

/-- The default classes of a module of a link (R566): C 1, D 2, F 4. -/
def defaultRole (l m : Nat) : Nat :=
  if 14 ≤ l && l < 22 then 0 else if m = 0 then 3 else if l < 6 && m = 3 then 6 else 2

/-- The place of an ADL module's byte in the ROLES item: links and modules in rising order (PRESUMED layout, assumption
log 105; R566, R627). -/
def roleByte (l m : Nat) : Nat :=
  ((upFrom 0 l).map (fun i => if 14 ≤ i && i < 22 then 0 else linkModules i)).foldl (· + ·) m

/-- The masks of an ADL link leave no class of it without a module, and give C to one (R566). -/
def rolesOk (l : Nat) (ms : List Nat) : Bool :=
  (ms.filter (fun r => bitOf r 0)).length == 1 && ms.any (fun r => bitOf r 1) && (6 ≤ l || ms.any (fun r => bitOf r 2))

/-- One link takes its roles from the ROLES item, or the defaults (R566). -/
def State.linkRoles (s : State) (c : FlashRec) (l : Nat) : State :=
  let given := (upFrom 0 (linkModules l)).map (fun m => itemAt c 6 (roleByte l m) 1 % 8)
  let adl := !(14 ≤ l && l < 22)
  let use := adl && (recItem c 6).isSome
  let ms := if use && rolesOk l given then given else (upFrom 0 (linkModules l)).map (defaultRole l)
  let roles := (ms.zip (upFrom 0 ms.length)).foldl
    (fun (t : Tbl Nat) x => t.setD (fun _ => 0) (l * 4 + x.2) x.1) s.links.roles
  let s := s.withLinks { s.links with roles := roles }
  if use && !rolesOk l given && s.linkPresent l then s.linkRecord (s.linkPath l 0 0) else s

/-- The modules of a present link come up, but for those that are offline until the next cold reset (R572). -/
def State.linkTrain (s : State) (l : Nat) : State :=
  if !s.linkPresent l then s
  else (upFrom 0 (linkModules l)).foldl (fun (s : State) m =>
    if (s.adlMod l m).isSome then s
    else s.setAdlMod l m { up := true, half := false, retraining := false, streak := 0, tries := 0 }) s

/-- The wire check of a cold reset (R571): lanes outside the factory map are logged and counted. -/
def State.wireCheck (s : State) (e : BootEnv) : State :=
  let spares := e.spares.foldl (fun (t : Tbl Nat) x => t.setD (fun _ => 0) x.1 (x.2 % 256)) ([] : Tbl Nat)
  let s := (s.withLinks { s.links with spares := spares }).withBoot { s.boot with repairs := spares }
  let s := s.setReg (rD2d 0x1C) (BitVec.ofNat 64 (min e.lanes.length 65535))
  e.lanes.foldl (fun (s : State) x => s.linkRecord (s.linkPath x.1 0 x.2)) s

/-- The registers the configuration items feed, the node number and the subsystem identifiers (R5, R369, R593, R617, R627;
assumption log 139). -/
def State.configRegs (s : State) (c : FlashRec) : State :=
  let s := if s.pop.variant = .nwa1640e then s else s.withXlat { s.xlat with node := itemAt c 3 0 4 % 128 }
  let s := s.withCxl { s.cxl with subsystem := (itemAt c 9 0 2, itemAt c 9 2 2) }
  if (recItem c 8).isNone then s
  else
    let h := itemAt c 8 0 8
    (s.setReg (rCxl 0x10) (BitVec.ofNat 64 (bitsOf h 45 32 * 2 ^ 32 + h % 2 ^ 14))).setReg (rCxl 0x18)
      (BitVec.ofNat 64 (itemAt c 8 8 4 % 2 ^ 20))

/-- The PITCH item is written to RULE_CTL.PITCH (R18); an unruled module keeps its own pitch (R48). -/
def State.bootPitch (s : State) (c : FlashRec) : State :=
  let code := itemAt c 4 0 4
  if code = s.regN rRuleCtl % 8 then s
  else
    let s := s.setReg rRuleCtl (BitVec.ofNat 64 code)
    if s.ruling.state = .unruled then s
    else s.withRuling { Ruling.init with measured := pitchNs code, ckLost := s.ruling.ckLost }

/-! ### The fault history at boot: R327, R629 -/

/-- The controller and the row that a path names, if it names a row (R15, R314, R315). -/
def State.rowOf (s : State) (p : BitVec 64) : Option (Nat × Nat) :=
  let row := p.toNat % 2 ^ 32
  let n := if 16 ≤ bitsOf p.toNat 56 52 then bitsOf p.toNat 56 52 - 16 else 16 + bitsOf row 30 27
  if (s.unitOf p).isSome && s.ctlPresent n && rowValid n row && s.rowPath n row == p then some (n, row) else none

/-- One entry of the fault history is applied (R629), unless its path names no unit (R15); `rep` names the rows that post-package repair mends (R327). -/
def State.historyEntry (s : State) (rep : List (BitVec 64)) (b : List Byte) : State :=
  let p := BitVec.ofNat 64 (leAt b 0 8)
  let v := leAt b 17 1
  let core (hi lo : Nat) : State := match s.unitOf p with
    | some (.core c) => s.initBits (rPwr (0x400 + c / 4 * 4)) (8 * (c % 4) + hi) (8 * (c % 4) + lo) v
    | _ => s
  match leAt b 16 1 with
  | 1 => match s.rowOf p with
    | some (n, row) => if rep.contains p then s else s.takeSpare n row
    | none => s
  | 2 => match s.unitOf p with
    | none => s
    | some u =>
      let st := (s.unitState u).1
      if !u.quarantinable then s.log { errRec p 0x0C 0 with syndrome := st + 4 * st + 2 ^ 16 }
      else if 2 ≤ st then s else s.applyQuarantine u 0 false
  | 3 => core 7 4
  | 4 => core 1 0
  | 5 => if (s.unitOf p).isNone then s else s.logAt { errRec p 0x0E 2 with syndrome := unitRail p } (BitVec.ofNat 64 (leAt b 8 8))
  | _ => s

/-- The 24 B entries of a history payload. -/
def historyEntries (r : FlashRec) : List (List Byte) :=
  (upFrom 0 (recLength r / 24)).map (fun i => ((recPayload r).drop (24 * i)).take 24)

/-- Step 5 for the fault history. -/
def State.applyHistory (s : State) (rep : List (BitVec 64)) : State :=
  match s.boot.hist with
  | none => s
  | some h => ((historyEntries h.2).foldl (fun (s : State) b => s.historyEntry rep b) s).trimCheck

/-! ### The boot: R630 to R633 -/

/-- Boot stops with a code of HUB_BOOT_STAT.FAIL and the alert (R633). -/
def State.bootStop (s : State) (code : Nat) : State := (s.withBoot { s.boot with phase := 3, fail := code }).alert 5

/-- Step 1: the straps are sampled, the tracker starts, and the hub fills its nonce (R48, R630, R640, R647), and the time CSR starts at 0 (R402). -/
def State.bootSample (s : State) (straps : BitVec 8) : State :=
  let (s, k) := s.draw
  let s := (s.withBoot { s.boot with straps := straps }).setReg (rHub 0x400) (BitVec.ofNat 64 straps.toNat)
  let s := (upFrom 0 4).foldl (fun (s : State) i => s.setReg (rHub (0x440 + 8 * i))
    (BitVec.ofNat 64 (ofBytes ((upFrom (8 * i) 8).map (Config.freeByte k))))) s
  let s := s.withPds { s.pds with time := 0 }
  let s := s.withHatch { Hatch.init with framing := .grid }
  let s := s.withRuling { Ruling.init with
    state := if straps.getLsbD 0 then .unruled else .acquiring, ckLost := s.ruling.ckLost }
  if straps.getLsbD 7 then s.lowPower else s

/-- The credit and the ceilings as the module starts (R48, R520, R526). -/
def State.bootPower (s : State) : State :=
  let un := s.ruling.state = .unruled
  let c := if un then s.burstCeil else s.floorCeil
  s.withPower { s.power with credit := s.creditMax, ceilNow := c, ceilNext := c, burstNow := un, burstNext := un }

/-- Step 2: the configuration and firmware records are selected (R622, R623), and the fault history. -/
def State.bootSelect (s : State) : State :=
  let s := s.withBoot { s.boot with cfg := pickRec (s.boot.straps.getLsbD 2) (s.validRecs 1) }
  s.withBoot { s.boot with
    fw := if s.boot.straps.getLsbD 1 then none else pickRec false (s.validRecs 0)
    hist := pickRec false (s.validRecs 2) }

/-- Steps 5 and 6: rows are repaired, memory is written to zero, controllers leave OFFLINE, and the initial map is set up
(R246, R247, R250, R327, R693). -/
def State.bootMemory (s : State) (e : BootEnv) : State :=
  let s := s.applyHistory e.repaired
  let h := unitFrames 0 * 2 ^ unitsLog (popcount 16 s.pop.hs.toNat)
  let d := unitFrames 16 * 2 ^ unitsLog (popcount 16 s.pop.dram.toNat)
  let s := s.withPeel { s.peel with h := h, d := d, vacantHbm := upFrom (h - 16) 16, vacantDram := upFrom (d - 16) 16 }
  let s := ((upFrom 0 32).filter s.ctlPresent).foldl (fun (s : State) n => s.initBits (rMc n 0x0) 29 29 0) s
  s.withBoot { s.boot with phase := 1, readyAt := s.ruling.line }

/-- HUB_ADL_REV at boot (R565, R671). -/
def State.adlRev (s : State) : Nat :=
  ((upFrom 0 6).filter s.diePresent).foldl (fun a d => a + 2 ^ (4 * d)) (2 ^ 28)

/-- Steps 4 to 6 of R632, with the selected configuration. -/
def State.bootUnits (s : State) (c : FlashRec) (e : BootEnv) : State :=
  let listed := capPop s.pop.variant c
  let s := s.configRegs c
  let s := if s.boot.cold then s.wireCheck e else s.withLinks { s.links with spares := s.boot.repairs }
  if !e.adlOk then
    let (s, k) := s.draw
    let rev := (Config.freeWord k).toNat % 2 ^ 32
    let s := s.setReg (rHub 0x4) (BitVec.ofNat 64 rev)
    (s.outOfService (3 + rev * 2 ^ 32)).bootStop 4
  else
    let s := (s.withPop (s.bootPop c e)).untrained listed
    let s := s.setReg (rHub 0x4) (BitVec.ofNat 64 s.adlRev)
    let s := (upFrom 0 28).foldl (fun (s : State) l => (s.linkRoles c l).linkTrain l) s
    if s.pop.ad != listed.ad || s.pop.pd != listed.pd || s.pop.hs == 0 || s.pop.dram == 0 then s.bootStop 5
    else s.bootMemory e

/-- RESET_RELEASE: HTCH_RST_N rises and the module boots, up to step 6 (R632); `e` is what it samples and finds. -/
def execResetRelease (env : BootEnv) (s : State) : Out :=
  whenHub s <| whenIt (s.boot.phase == 0) <|
    let s := (s.bootSample env.straps).bootPower.bootSelect
    match s.boot.cfg with
    | none => .next (if s.boot.straps.getLsbD 1 then s.withBoot { s.boot with phase := 3 } else s.bootStop 1)
    | some c =>
      let s := s.bootPitch c.2
      let s := s.withPower { s.power with credit := min s.power.credit s.creditMax }
      if s.boot.straps.getLsbD 1 then .next (s.withBoot { s.boot with phase := 3 })
      else if s.boot.fw.isSome then .next (s.bootUnits c.2 env)
      else if (upFrom 0 2).any (fun b => recValid 0 (s.bank 0 b)) then .next (s.bootStop 3)
      else .next (s.bootStop 2)

/-- HART_BOOT_RELEASE: step 7 at the first line boundary after step 6 that R27 allows: the harts start at the cold entry,
boot is complete and the RWL registers lock (R632, R666). -/
def execHartBootRelease (s : State) : Out :=
  whenPowered s <|
    whenIt (s.boot.phase == 1 && s.ruling.stroke == 0 && s.ruling.line != s.boot.readyAt
        && s.ruling.state != .acquiring) <|
      .next (s.withBoot { s.boot with phase := 2 })

/-- HUB_BOOT_STAT (R643). -/
def State.bootStatView (s : State) : Nat :=
  let bank (o : Option (Nat × FlashRec)) : Nat := match o with
    | some x => x.1
    | none => 0
  b2n s.boot.image.isSome * 2 ^ 31 + bank s.boot.fw * 2 ^ 30 + bank s.boot.cfg * 2 ^ 29 + bank s.boot.hist * 2 ^ 28
    + b2n s.boot.hist.isSome * 2 ^ 27 + s.boot.fail * 2 ^ 16

/-! ### The recovery image: R634 -/

/-- The mask ROM waits for a recovery image: RECOVERY is set, or boot failed with code 1 or 2. -/
def State.recoveryOpen (s : State) : Bool :=
  s.boot.phase == 3 && (s.boot.fail == 1 || s.boot.fail == 2 || s.boot.straps.getLsbD 1)

/-- An image meets the conditions of a recovery image (R634). -/
def State.imageOk (s : State) (r : FlashRec) : Bool :=
  recFormOk 0x4E574B5A00000004 (64 + 0x800000 + 3144) true r && s.versionOk r

/-- The image runs in place of HUB_BOOT. -/
def State.runImage (s : State) (r : FlashRec) : State := s.withBoot { s.boot with phase := 4, image := some r }

/-! ### The record writer: R624 to R626 -/

/-- A record as the hub reads it from memory: its check and its signature are computed (assumption log 6). -/
def readRecord (bytes : List Byte) : FlashRec :=
  { bytes := bytes, checkOk := Config.checkMatches bytes, sigOk := Config.signatureVerifies bytes }

/-- A write of HUB_REC_STAT by the writer: BUSY, DONE as it stands or set, RESULT, BANK. -/
def State.recStat (s : State) (busy done : Bool) (result bank : Nat) : State :=
  s.setReg (rHub 0x40C) (BitVec.ofNat 64 (b2n busy * 2 ^ 31 + b2n (done || bitOf (s.regN (rHub 0x40C)) 30) * 2 ^ 30
    + result * 2 ^ 20 + bank))

/-- BANK of HUB_REC_STAT: the bank of the last write. -/
def State.lastBank (s : State) : Nat := s.regN (rHub 0x40C) % 2

/-- The bank that a write of a region erases: the one that does not hold the valid record of highest SEQ (R624). -/
def State.writeBank (s : State) (region : Nat) : Nat :=
  match pickRec false (s.validRecs region) with
  | some x => 1 - x.1
  | none => 0

/-- The ROLLBACK permission of a debug token in force (R640). -/
def State.permitted (s : State) (bit : Nat) : Bool :=
  bitOf (s.regN (rHub 0x420)) 31 && bitOf (s.regN (rHub 0x420)) bit

/-- What steps 1 and 2 of R624 find: none, or the RESULT that ends the write. -/
def State.recCheck (s : State) (region : Nat) (r : FlashRec) : Option Nat :=
  let low := match s.boot.cfg with
    | some c => minVersion r < minVersion c.2 && !s.permitted 2
    | none => false
  if 3 ≤ region || !recValid region r then some 1
  else if (region = 0 && !s.versionOk r) || (region = 1 && low) then some 3
  else if (s.validRecs region).any (fun x => recSeq r ≤ recSeq x.2) then some 2
  else none

/-- Steps 3 and 4 begin: the bank is erased. -/
def State.startWrite (s : State) (region : Nat) (r : FlashRec) : State :=
  let b := s.writeBank region
  (s.withBoot { s.boot with
    flash := s.boot.flash.erase (region * 2 + b), writer := some { region := region, bank := b, image := r } }).recStat
      true false (bitsOf (s.regN (rHub 0x40C)) 23 20) b

/-- The record at an address: its header tells its length. -/
def State.memRecord (s : State) (a : Nat) (signed : Bool) : State × Option FlashRec :=
  if !s.inTiered a 64 then (s, none)
  else
    let s := s.homeRead a 64
    let n := 64 + s.sysNat (a + 16) 4 + trailerSize signed
    if !s.inTiered a n then (s, none)
    else
      let s := s.homeRead a n
      (s, some (readRecord (s.sysRead a n)))

/-- RECORD_WRITE_START: a write of HUB_REC_CTL (R624); START is ignored while a write goes on (R625). A new fault-history
record is the one that omits the entries SERVICE_CLEAR has named (R629). -/
def execRecordWriteStart (v : BitVec 32) (s : State) : Out :=
  whenPowered s <|
    let region := v.toNat % 4
    if !bitOf v.toNat 31 || s.boot.writer.isSome then .next s
    else match s.memRecord (s.regN (rHub 0x410)) (region < 2) with
      | (s, none) => .next (s.recStat false true 1 s.lastBank)
      | (s, some r) => match s.recCheck region r with
        | some res => .next (s.recStat false true res s.lastBank)
        | none => .next ((if region = 2 then s.withBoot { s.boot with clears := [] } else s).startWrite region r)

/-- RECORD_WRITE_DONE: the record has been written and read back, and stands its checks or not (R624, step 4). -/
def execRecordWriteDone (verified : Bool) (s : State) : Out :=
  whenHub s <| withSome s.boot.writer fun w =>
    let s := s.withBoot { s.boot with
      writer := none, flash := if verified then s.boot.flash.put (w.region * 2 + w.bank) w.image else s.boot.flash }
    .next (s.recStat false true (if verified then 0 else 4) w.bank)

/-- The bytes of a fault-history record: header, payload and check (R621). -/
def historyBytes (seq : Nat) (payload : List Byte) : List Byte :=
  let body := toBytes 8 0x4E574B5A00000003 ++ toBytes 8 seq ++ toBytes 4 payload.length ++ toBytes 4 1
    ++ toBytes 8 moduleId ++ toBytes 32 0 ++ payload
  body ++ (upFrom 0 64).map (byteAt (Config.cryptoBytes 1 body))

/-- THERMAL_TRIP: a junction reads 115 °C: every rail but the hub's turns off; a record, the alert, and a history entry
that the writer writes (R52, R626). -/
def execThermalTrip (die : Nat) (s : State) : Out :=
  whenPowered s <|
    whenIt (die < 32 && s.diePresent die && 115 ≤ s.power.temps.getD (fun _ => 0) die) <|
      let unit := s.path die 0 0 0xE 0
      let s := if s.boot.writer.isSome then
          (s.withBoot { s.boot with writer := none }).recStat false true 5 s.lastBank
        else s
      let s := ((s.log { errRec unit 0x0E 2 with syndrome := unitRail unit }).withPower
        { s.power with tripped := true }).alert 1
      let entry := toBytes 8 unit.toNat ++ toBytes 8 s.now.toNat ++ toBytes 8 5
      let old := pickRec false (s.validRecs 2)
      let payload := (match old with
        | some x => recPayload x.2
        | none => []) ++ entry
      let seq := (match old with
        | some x => recSeq x.2
        | none => 0) + 1
      .next (s.startWrite 2 { bytes := historyBytes seq payload, checkOk := true, sigOk := false })

/-! ### Debug tokens: R640, R641 -/

/-- A token meets its conditions: body, check and signature, and DEBUG was set at the last module reset. -/
def State.tokenOk (s : State) (b : List Byte) : Bool :=
  let nonce := (upFrom 0 4).flatMap (fun i => toBytes 8 (s.regN (rHub (0x440 + 8 * i))))
  s.boot.straps.getLsbD 3 && b.length == 64 + 3144 && leAt b 0 8 == 0x4E574B5A00000005 && leAt b 8 8 == moduleId
    && (b.drop 16).take 32 == nonce && leAt b 52 12 == 0 && leAt b (64 + 1859) 5 == 0 && Config.checkMatches b && Config.signatureVerifies b

/-- A token is submitted: accepted with its permissions, of which SCAN changes strokes 14 and 15 from the next line on, or
rejected (R641, R650). -/
def State.takeToken (s : State) (b : List Byte) : State :=
  if s.tokenOk b then
    (s.setReg (rHub 0x420) (BitVec.ofNat 64 (2 ^ 31 + (s.regN (rHub 0x420) &&& 2 ^ 30) + leAt b 48 4 % 8))).withHatch
      { s.hatch with scanNext := s.hatch.scanNext || bitOf (leAt b 48 4) 1 }
  else s.setRegBit (rHub 0x420) 30 true

/-- DEBUG_TOKEN_SUBMIT: a write of HUB_DEBUG_SRC (R641, R643); a token outside local memory is refused. -/
def execDebugTokenSubmit (v : BitVec 64) (s : State) : Out :=
  whenPowered s <|
    let a := v.toNat % 2 ^ 56 / 64 * 64
    let t := s.homeRead a 3208
    .next (if s.inTiered a 3208 then t.takeToken (t.sysRead a 3208) else s.takeToken [])

end Sys2Proof.Machine
end

