-- ==== Sys2Proof/Machine/Control.lean ====
section
/-! DEFINITION. Machine/Control.lean: the control instructions, CTL (R168 to R171). -/

namespace Sys2Proof.Machine

/-- What a CTL needs at issue: no extension word, and no reserved bit set (R163, R181). -/
def ctlIns (f : CtlF) (src : List Nat) : Ins := { h := f.h, illegal := f.h.x || f.rsv != 0, srcS := src }

/-- PC + 8 × OFFSET (R168). -/
def ctlTarget (pc : Word) (f : CtlF) : Word := pc + 8 * f.offset.signExtend 64

/-- The target lies outside the body of some loop of the stack. -/
def leavesAny (loops : List LoopEnt) (target : Nat) : Bool :=
  loops.any (fun e => target < e.first || e.last < target)

/-- A taken b whose target lies outside the body of an active loop ends it and every loop within it (R169). -/
def leaveLoops (loops : List LoopEnt) (target : Nat) : List LoopEnt :=
  match loops with
  | [] => []
  | e :: t =>
    if leavesAny t target || target < e.first || e.last < target then leaveLoops t target else e :: t

/-- CTL_NOP: none. -/
def execCtlNop (c : Nat) (f : CtlF) (s : State) : Out :=
  s.issue c (ctlIns f []) (fun _ _ => {}) fun s _ _ => s

/-- CTL_B: PC ← PC + 8 × OFFSET (R169). -/
def execCtlB (c : Nat) (f : CtlF) (s : State) : Out :=
  s.issue c (ctlIns f []) (fun _ _ => {}) fun s k _ =>
    let t := ctlTarget k.pc f
    s.modCore c (fun x => { x with pc := t, loops := leaveLoops k.loops t.toNat })

/-- CTL_LOOP: the body from the next word to the word at PC + 8 × OFFSET runs RA times; a count of zero skips it.
OFFSET below 1, or a fifth nested loop, raises STACK_FAULT (R169). -/
def execCtlLoop (c : Nat) (f : CtlF) (s : State) : Out :=
  s.issue c (ctlIns f [f.ra.toNat])
    (fun k _ => { stack := f.offset.toInt < 1 || 4 ≤ k.loops.length })
    fun s k _ =>
      let n := (k.sreg f.ra.toNat).toNat
      let last := ctlTarget k.pc f
      if n = 0 then
        s.modCore c (fun x =>
          let r := loopBack k.loops [last.toNat]
          { x with loops := r.1
                   pc := match r.2 with
                     | some a => BitVec.ofNat 64 a
                     | none => last + 8 })
      else
        s.modCore c (fun x => { x with
          loops := { first := (k.pc + 8).toNat, last := last.toNat, left := n } :: k.loops, pc := k.pc + 8 })

/-- CTL_CALL: pushes the address of the next instruction; PC ← PC + 8 × OFFSET. A ninth nested call raises STACK_FAULT;
the loop stack stays (R169, R170). -/
def execCtlCall (c : Nat) (f : CtlF) (s : State) : Out :=
  s.issue c (ctlIns f []) (fun k _ => { stack := 8 ≤ k.rets.length }) fun s k _ =>
    s.modCore c (fun x => { x with pc := ctlTarget k.pc f, loops := k.loops, rets := (k.pc + 8) :: k.rets })

/-- CTL_RET: pops PC; an empty return stack raises STACK_FAULT (R170). -/
def execCtlRet (c : Nat) (f : CtlF) (s : State) : Out :=
  s.issue c (ctlIns f []) (fun k _ => { stack := k.rets.isEmpty }) fun s k _ =>
    s.modCore c (fun x => { x with pc := k.rets.head?.getD 0, loops := k.loops, rets := k.rets.tail })

/-- CTL_END: the core waits until every earlier instruction has completed and its stores are performed at SYSTEM; then
it reports its part of the launch complete (R171). -/
def execCtlEnd (c : Nat) (f : CtlF) (s : State) : Out :=
  s.issue c (ctlIns f []) (fun _ _ => {}) fun s k _ =>
    s.modCore c (fun x => { x with block := .ending, pc := k.pc, loops := k.loops })

/-- CTL_TRAP: ends the launch with PROGRAM_TRAP and the trap code in OFFSET[15:0] (R168). -/
def execCtlTrap (c : Nat) (f : CtlF) (s : State) : Out :=
  s.issue c (ctlIns f []) (fun _ _ => { trap := true, code := f.offset.toNat % 2 ^ 16 }) fun s _ _ => s

end Sys2Proof.Machine
end

