-- ==== Sys2Proof/Machine/Mmio.lean ====
section
/-! DEFINITION. Machine/Mmio.lean: what every access to the MMIO range does (R32, R41, R661 to R674), and the accesses the
CXL host makes through its BARs (R594 to R596). -/

namespace Sys2Proof.Machine

/-! ### What registers show -/

/-- A number whose bit `i` is `p i`, for `i` below `n`. -/
def maskOf (n : Nat) (p : Nat → Bool) : Nat := (upFrom 0 n).foldl (fun a i => a + b2n (p i) * 2 ^ i) 0

/-- The part number of HUB_ID and CXL_ID (R671). -/
def State.part (s : State) : Nat :=
  match s.pop.variant with
  | .nwa1640 => 0x1640
  | .nwa1640e => 0x1641
  | .nwa1220 => 0x1220

/-- HUB_CAP_DIES (R672). -/
def State.capDies (s : State) : Nat :=
  maskOf 4 s.adPresent + maskOf 2 s.pdPresent * 2 ^ 4 + 2 ^ 6 + maskOf 8 s.oePresent * 2 ^ 8 + s.pop.hs.toNat * 2 ^ 16

/-- The HUB block (R643, R671, R672). -/
def State.hubView (s : State) (x : Nat) : Nat :=
  if x = 0x0 then s.part * 2 ^ 16 + 0x100
  else if x = 0x18 then leAt (Config.cryptoBytes 2 []) 0 8
  else if x = 0x104 then s.capDies
  else if x = 0x108 then s.pop.dram.toNat
  else if x = 0x10C then maskOf 16 s.clusterPresent
  else if 0x110 ≤ x && x < 0x120 then maskOf 64 (fun i => s.corePresent ((x - 0x110) * 8 + i))
  else if 0x120 ≤ x && x < 0x160 then maskOf 64 (fun i => s.enginePresent (((x - 0x120) * 8 + i) / 4) (i % 4))
  else if 0x160 ≤ x && x < 0x170 then maskOf 64 (fun i => s.hartPresent ((x - 0x160) * 8 + i))
  else if x = 0x170 then maskOf 16 s.slcPresent
  else if x = 0x404 then s.bootStatView
  else s.regN (rHub x)

/-- The HATCH block (R659). -/
def State.hatchView (s : State) (x : Nat) : Nat :=
  if x = 0x4 then b2n (s.hatch.framing != .none) * 2 ^ 31 + b2n s.hatch.scan * 2 ^ 30 + b2n s.hatch.alert * 2 ^ 29 + s.hatch.eid
  else if x = 0x8 then s.hatch.causes.toNat
  else s.regN (rHatch x)

/-- The PWR block (R536). -/
def State.pwrView (s : State) (x : Nat) : Nat :=
  if x = 0x14 then s.pwrStatView
  else if x = 0x1C then s.creditView
  else if 0x100 ≤ x && x < 0x140 && x % 16 = 4 then s.dieStatView ((x - 0x100) / 16)
  else if 0x180 ≤ x && x < 0x1A0 && x % 16 = 4 then s.dieStatView (4 + (x - 0x180) / 16)
  else s.regN (rPwr x)

/-- RAS_SUMMARY (R674). -/
def State.summaryView (s : State) : Nat :=
  b2n s.work.oos * 2 ^ 31 + b2n (s.regN (rRas 0xC) != s.regN (rRas 0x10)) * 2 ^ 30
    + b2n (s.regN (rRas 0x14) != 0) * 2 ^ 29 + b2n (bitOf (s.regN (rRas 0x3C)) 31) * 2 ^ 28
    + b2n ((upFrom 0 128).any (fun c => s.coreState c == 1)) * 2 ^ 27 + b2n (bitOf s.proofStatView 30) * 2 ^ 26
    + b2n ((upFrom 0 4).any (fun d => (s.fe d).hang.isSome)) * 2 ^ 25 + b2n (bitOf (s.regN (rRas 0x104)) 31) * 2 ^ 24
    + b2n (bitOf s.ruleStat 1 || bitOf s.ruleStat 3) * 2 ^ 23 + b2n (bitOf s.pwrStatView 31) * 2 ^ 22
    + b2n (bitOf s.cxlStatView 21) * 2 ^ 21 + b2n s.hatch.alert * 2 ^ 20 + s.regN (rRas 0x114) % 128

/-- The RAS block (R505, R560, R674). -/
def State.rasView (s : State) (x : Nat) : Nat :=
  if x = 0x28 then s.unitStateView
  else if x = 0x50 then s.summaryView
  else if x = 0x10C then s.ctxGenView
  else if x = 0x214 then s.proofStatView
  else if x = 0x228 then s.proofLastView.toNat
  else s.regN (rRas x)

/-- The FE block of die `d` (R88, R153, R310, R368, R476, R504). -/
def State.feView (s : State) (d x : Nat) : Nat :=
  let k (i : Nat) : Core := s.core (d * 32 + i)
  if x = 0x20 then s.qstateView d
  else if x = 0x2C then (s.work.ops.filter (fun o => o.die == d)).length
  else if x = 0x40 then s.recipeView d
  else if x = 0x804 then maskOf 32 (fun i => match (k i).launch with
    | some l => l.twin
    | none => false)
  else if x = 0x900 then maskOf 32 (fun i => s.corePresent (d * 32 + i))
  else if x = 0x904 then maskOf 32 (fun i => (k i).launch.isSome)
  else if x = 0xB0C then min 16 (s.fe d).shares.length * 2 ^ 16 + (s.dispatching d).length
  else if x = 0xC04 then ((upFrom (d * 4) 4).map (fun c => (s.cluster c).disabled.length)).foldl (· + ·) 0
  else if x = 0xD14 then s.hangView d
  else s.regN (rFe d x)

/-- A memory controller's block (R336, R366). -/
def State.mcView (s : State) (n x : Nat) : Nat :=
  if x = 0x20 then s.scrubRow n
  else if x = 0x38 then (s.dirEntryView n).toNat
  else if (x = 0x80 || x = 0x84) && !s.marginOpen then 0
  else s.regN (rMc n x)

/-- The peel engine's block (R248, R279). -/
def State.peelView (s : State) (x : Nat) : Nat :=
  if x = 0x4000 then s.peel.h * 2 ^ 21 + s.peel.d
  else if x = 0x400C then
    if s.peel.h = 0 then s.regN (rPeel x)
    else s.peel.vacantHbm.length * 2 ^ 26 + s.peel.vacantDram.length * 2 ^ 20 + s.peel.moves.length * 2 ^ 15
      + b2n s.peel.quotaReady
  else if x = 0x4058 then (s.remap s.peel.query).word.toNat
  else s.regN (rPeel x)

/-- The OPT block (R588); it reads zero on the NWA-1640E. -/
def State.optView (s : State) (x : Nat) : Nat :=
  if s.pop.variant = .nwa1640e then 0
  else if x = 0x0 then s.portUpView
  else if x = 0x4 then s.links.laserLow.toNat
  else if x = 0x10 then s.isolatedView % 2 ^ 64
  else if x = 0x18 then s.isolatedView / 2 ^ 64
  else if x = 0x10C then s.fresetView
  else s.regN (rOpt x)

/-- The block of processor die `p` (R367, R426). -/
def State.pdView (s : State) (p x : Nat) : Nat :=
  if x = 0x0 then maskOf 48 (fun i => s.hartPresent (p * 48 + i))
  else if x = 0xC then s.resetStatView p
  else if x = 0x2060 then maskOf 8 (fun i => s.isGated (keyOf (4 + p) 0 i 0x9))
  else s.regN (rPd p x)

/-- The live value a register shows, by its block and offset. -/
def State.liveView (s : State) (b : Block0) (x : Nat) : Nat :=
  match b with
  | .hub => s.hubView x
  | .rule => if x = 0x0 then s.now.toNat else if x = 0xC then s.ruleStat else s.regN (b.base + x)
  | .hatch => s.hatchView x
  | .pwr => s.pwrView x
  | .ras => s.rasView x
  | .cfg => if x = 0xC then s.commitStatView else if x = 0x10 then s.regs.doneLine else s.regN (b.base + x)
  | .fe d => s.feView d x
  | .hbmc n => s.mcView n x
  | .dramc n => s.mcView (16 + n) x
  | .peel => s.peelView x
  | .d2d => if x = 0x0 then s.linkUpView else if x = 0x10 then s.linkStatView else s.regN (b.base + x)
  | .opt => s.optView x
  | .cxl =>
    if x = 0x0 then s.part * 2 ^ 16 + 0x100
    else if x = 0x4 then s.cxlStatView
    else if x = 0x1C then s.mem.tracker.length
    else s.regN (b.base + x)
  | .pd p => s.pdView p x
  | _ => s.regN (b.base + x)

/-! ### Reading: R661 to R665 -/

/-- An offset within a block lies in its half of staged copies (R665). -/
def stagedPart (x : Nat) : Bool := 0x8000 ≤ x && x < 0x10000

/-- The register an access names: its row, its offset in the block, and whether it is the staged copy. -/
def regAt (b : Block0) (x : Nat) : Option (RegRow × Nat × Bool) :=
  let st := stagedPart x
  match rowAt b.rows (if st then x - 0x8000 else x) with
  | some (r, y) => if st && r.cls != .rws then none else some (r, y, st)
  | none => none

/-- The access has a width and alignment the register takes (R662): 4 B, or 8 B of a 64-bit register. -/
def accessOk (r : RegRow) (x size : Nat) : Bool :=
  (size == 4 && x % 4 == 0) || (size == 8 && r.bytes == 8 && x % 8 == 0)

/-- The full value of a register, live or staged; WO fields read as zero (R664). -/
def State.regValue (s : State) (b : Block0) (r : RegRow) (y : Nat) (st : Bool) : Nat :=
  if st then (s.regStaged (b.base + y)).toNat
  else if r.cls == .wo then 0
  else s.liveView b y

/-- The configuration space of the CXL function as a host reads it: what it reports does not change with the link, so that
nothing of it has to return at a host loss (R593, R614). -/
def State.cxlFunction (s : State) : CxlFunction :=
  { classCode := 0x120000, vendor := Config.vendorId, device := s.part, subVendor := s.cxl.subsystem.1
    subDevice := s.cxl.subsystem.2 }

/-- The identity CSRs of every hart: the values of the HUB identity registers (R402, R671). -/
def State.hartIds (s : State) : HartIds :=
  { mvendorid := 0, marchid := BitVec.ofNat 64 (s.hubView 0x8), mimpid := BitVec.ofNat 64 (s.hubView 0x10) }

/-- A number's part of `size` bytes from byte `o`. -/
def partOf (v o size : Nat) : Nat := v / 2 ^ (8 * o) % 2 ^ (8 * size)

/-- The component HART_LOADER of a firmware record: the bytes its directory entry names (R635). -/
def hartLoader (r : FlashRec) : List Byte :=
  let p := recPayload r
  match ((upFrom 0 (leAt p 0 4)).map (8 + 32 * ·)).find? (fun e => leAt p e 4 == 3) with
  | some e => (p.drop (leAt p (e + 8) 8)).take (leAt p (e + 16) 8)
  | none => []

/-- A byte of the loader window: of the verified HART_LOADER of the selected firmware (R636); beyond it, free. -/
def State.loaderByte (s : State) (x : Nat) : Byte :=
  let l := match s.boot.fw with
    | some f => hartLoader f.2
    | none => []
  match l[x]? with
  | some b => b
  | none => byteAt (Config.cryptoBytes 4 []) x

/-- The bytes of regions without a register table: the MSI-X table and its pending bits; interrupt files, which read as
zero (R416); the loader window; the component registers, whose contents this spec does not give (free values). -/
def State.regionByte (s : State) (b : Block0) (x : Nat) : Byte :=
  match b with
  | .msixTable => s.cxl.msix.getD (fun _ => 0) x
  | .msixPending => BitVec.ofNat 8 (maskOf 8 (fun i => s.cxl.msixPend.contains (x * 8 + i)))
  | .component => byteAt (Config.cryptoBytes 3 []) x
  | .loader => s.loaderByte x
  | _ => 0

/-- Regions that are read as bytes. -/
def byteRegion : Block0 → Bool
  | .msixTable | .msixPending | .component | .loader => true
  | _ => false

/-- A load of `size` bytes from an offset of the MMIO range: its value, zero where nothing answers (R661, R662, R668). -/
def State.readMmio (s : State) (o size : Nat) : Nat :=
  match blockAt o with
  | none => 0
  | some (b, x) =>
    if byteRegion b then
      if (size == 4 || size == 8) && o % size == 0 then ofBytes ((upFrom x size).map (s.regionByte b)) else 0
    else if !s.blockOn b then 0
    else match regAt b x with
      | none => 0
      | some (r, y, st) =>
        if accessOk r x size then partOf (s.regValue b r y st) (x % 0x8000 - y % 0x8000) size else 0

/-- A live access to the registers of a gated domain powers it up: front ends and memory controllers (R667). -/
def State.touchMmio (s : State) (o : Nat) : State :=
  let wake (k : Nat) : State := s.withPower { s.power with gated := s.power.gated.filter (· != k) }
  match blockAt o with
  | some (.fe d, x) | some (.atu d, x) => if stagedPart x then s else wake (keyOf d 0 0 0x9)
  | some (.hbmc n, x) => if stagedPart x then s else wake (ctlDomain n)
  | some (.dramc n, x) => if stagedPart x then s else wake (ctlDomain (16 + n))
  | _ => s

/-- A load from the MMIO range, as aligned pieces of at most 8 B (R231), each of which powers its domain up (R667). -/
def State.loadMmio (s : State) : Nat → Nat → Nat → State × List Byte
  | 0, _, _ => (s, [])
  | fuel + 1, o, n =>
    if n = 0 then (s, [])
    else
      let m := deviceCut o n
      let s := s.touchMmio o
      let r := State.loadMmio s fuel (o + m) (n - m)
      (r.1, toBytes m (s.readMmio o m) ++ r.2)

/-! ### Writing: R32, R41, R661 to R668 -/

/-- What a command does, when it can: else nothing happens. -/
def orStay (s : State) (o : Out) : State :=
  match o with
  | .next t => t
  | _ => s

/-- A write of FE_QCTL (R431); a reserved OP is BAD_STATE. -/
def State.qctl (s : State) (d v : Nat) : State :=
  let q := v % 1024
  match bitsOf v 31 28 with
  | 1 => orStay s (execCreate d q s)
  | 2 => orStay s (execEnable d q s)
  | 3 => orStay s (execDisable d q s)
  | 4 => orStay s (execDestroy d q s)
  | 5 => orStay s (execResume d q s)
  | _ => s.qctlDone d q 1

/-- A write of PWR_DOMAIN_CTL for the path in PWR_DOMAIN_PATH (R536); whether a hart named is in WFI is drawn (assumption
log 85). -/
def State.domainCtl (s : State) (v : Nat) : State :=
  let p := s.reg (rPwr 0x500)
  match v % 4 with
  | 1 =>
    let r := s.draw
    orStay r.1 (execGate p ((Config.freeWord r.2).getLsbD 0) r.1)
  | 2 => orStay s (execUngate p s)
  | 3 => orStay s (execQuery p s)
  | _ => s

/-- The commands of a memory controller's block. -/
def State.mcCommand (s : State) (n x v : Nat) : Option State :=
  if x = 0x14 then some (orStay s (execRemapReq n { row := BitVec.ofNat 32 v, e := [] } s))
  else if x = 0x30 then some (orStay s (execHbmcDirQuery n (BitVec.ofNat 64 v) s))
  else if x = 0x80 then some (orStay s (execMarginStart n (BitVec.ofNat 32 v) s))
  else none

/-- What a write to a register does beyond its fields: the commands of the block, with the value written. None where
the fields are all it changes. -/
def State.regCommand (s : State) (b : Block0) (x v : Nat) : Option State :=
  let w := BitVec.ofNat 32 v
  let d := BitVec.ofNat 64 v
  match b with
  | .hub => if x = 0x408 then some (orStay s (execRecordWriteStart w s))
            else if x = 0x418 then some (orStay s (execDebugTokenSubmit d s)) else none
  | .rule => if x = 0x8 then some (orStay s (execPitchWrite w s)) else none
  | .hatch => if x = 0x8 then some (s.withHatch { s.hatch with causes := s.hatch.causes &&& ~~~ BitVec.ofNat 6 v })
              else none
  | .pwr => if x = 0x508 then some (s.domainCtl v) else none
  | .ras =>
    if x = 0x20 then some (orStay s (execRasUnitQuery d s))
    else if x = 0x100 then some (orStay s (execContextReset w s))
    else if x = 0x108 then some (orStay s (execRasCtxQuery w s))
    else if x = 0x210 then some (orStay s (execProofSubmit w s))
    else if x = 0x220 then some (orStay s (execRasProofQuery w s))
    else none
  | .cfg => if x = 0x8 then some (orStay s (execCommitArm w s)) else none
  | .fe i =>
    if x = 0x10 then some (s.qctl i v)
    else if x = 0x18 then some (orStay s (execFeQquery i w s))
    else if x = 0x28 then some (orStay s (execFeHinv i w s))
    else if x = 0x38 then some (orStay s (execFeRecipeQuery i w s))
    else none
  | .hbmc n => State.mcCommand s n x v
  | .dramc n => State.mcCommand s (16 + n) x v
  | .peel =>
    if x = 0x403C then some (orStay s (execCmdRingTailWrite w s))
    else if x = 0x4050 then some (orStay s (execDramcBlockQuery w s))
    else none
  | .d2d => if x = 0x8 then some (orStay s (execD2dQuery w s)) else none
  | .opt =>
    if s.pop.variant = .nwa1640e then some s
    else if x = 0x4C then some (orStay s (execStepIssue w s))
    else if x = 0x108 then some (orStay s (execFresetIssue w s))
    else none
  | .pd p =>
    if x = 0x8 then some (orStay s (execPdWarmReset w s))
    else if x = 0x1C then some (orStay s (execPdWdogCountWrite p w s))
    else none
  | _ => none

/-- The value of a register after a write of `v` over the bytes from `o`: the rest of it keeps what was last written. -/
def mergeReg (old v o size : Nat) : Nat := old - partOf old o size * 2 ^ (8 * o) + v % 2 ^ (8 * size) * 2 ^ (8 * o)

/-- The fields of a register take a written value: writable bits change, W1C bits written as 1 clear (R664). -/
def takeFields (r : RegRow) (old v ones : Nat) : Nat := ((old - (old &&& r.wmask)) + (v &&& r.wmask)) - (old &&& r.w1c &&& ones)

/-- A write to a register of a present block. -/
def State.regWrite (s : State) (b : Block0) (r : RegRow) (y : Nat) (o size v : Nat) : State :=
  let a := b.base + y
  let ones := v % 2 ^ (8 * size) * 2 ^ (8 * o)
  match r.cls with
  | .ro => s
  | .rws => s.setStaged a (BitVec.ofNat 64 (mergeReg (s.regStaged a).toNat v o size &&& r.wmask))
  | .rwl =>
    if s.boot.phase = 2 then s
    else match s.regCommand b y (mergeReg (s.regN a) v o size) with
      | some t => t
      | none => s.setReg a (BitVec.ofNat 64 (mergeReg (s.regN a) v o size &&& r.wmask))
  | .wo =>
    let s := s.setReg a (BitVec.ofNat 64 (mergeReg (s.regN a) v o size &&& r.wmask))
    match s.regCommand b y (s.regN a) with
    | some t => t
    | none => s
  | .rw | .mixed =>
    let full := mergeReg (s.regN a) v o size
    match s.regCommand b y full with
    | some t => t
    | none => s.setReg a (BitVec.ofNat 64 (takeFields r (s.regN a) full ones))

/-- A write to the bytes of a vector in the MSI-X table (R611, R617). -/
def State.msixWrite (s : State) (x : Nat) (bs : List Byte) : State :=
  s.withCxl { s.cxl with msix := putBytes (fun _ => 0) s.cxl.msix x bs }

/-- A store of `size` bytes to an offset of the MMIO range (R32, R41, R416, R661 to R668). -/
def State.writeMmio (s : State) (o size v : Nat) : State :=
  match blockAt o with
  | none => s
  | some (.mfile h, x) => if s.power.tripped then s else s.msiPage h 0 x size v
  | some (.sfile h g, x) => if s.power.tripped then s else s.msiPage h (1 + g) x size v
  | some (.msixTable, x) =>
    if (size == 4 || size == 8) && x % size == 0 then s.msixWrite x (toBytes size v) else s
  | some (b, x) =>
    if !s.blockOn b then s
    else match regAt b x with
      | none => s
      | some (r, y, _) => if accessOk r x size then (s.touchMmio o).regWrite b r y (x % 0x8000 - y % 0x8000) size v else s

/-- STAGED_WRITE: a write to an RWS register, at its offset or at that of its staged copy, changes its staged value only
(R32); the write acts as the register it names has it, and beyond the range it is no write of the module's. -/
def execStagedWrite (off : Nat) (size : Nat) (v : BitVec 64) (s : State) : Out :=
  whenHub s <| whenIt (off < 0x10000000) (.next (s.writeMmio off size v.toNat))

/-- MSI_WRITE: a write to an interrupt-file page, at its offset in the MMIO range (R416, R417). -/
def execMsiWrite (off : Nat) (size : Nat) (v : BitVec 64) (s : State) : Out :=
  whenPowered s <| whenIt (off < 0x10000000) (.next (s.writeMmio off size v.toNat))

/-- REGISTER_WRITE: a store to an offset of the MMIO range takes effect when written (R41). -/
def execRegisterWrite (off : Nat) (size : Nat) (v : BitVec 64) (s : State) : Out :=
  whenHub s <| whenIt (off < 0x10000000) (.next (s.writeMmio off size v.toNat))

/-! ### The host's BARs: R594 to R596 -/

/-- The bit of CXL_BAR0_MASK that opens a block (R617, R660). -/
def Block0.maskBit : Block0 → Option Nat
  | .hub => some 0 | .rule => some 1 | .hatch => some 2 | .pwr => some 3 | .ras => some 4 | .cfg => some 5
  | .fe d => some (6 + d) | .atu d => some (10 + d) | .hbmc _ => some 14 | .dramc _ => some 15 | .peel => some 15
  | .d2d => some 16 | .opt => some 17 | .cxl => some 18 | .pd _ => some 19
  | _ => none

/-- A BAR0 access reaches a register (R595, R636, R661). -/
def State.bar0Ok (s : State) (o size : Nat) : Bool :=
  (size == 4 || size == 8) && o % size == 0 && (match blockAt o with
    | some (.msixTable, _) | some (.msixPending, _) | some (.component, _) => true
    | some (b, x) => (match b.maskBit with
      | some i => bitOf (s.regN (rCxl 0x18)) i && (regAt b x).isSome
      | none => false)
    | none => false)

/-- A completion to the host: 0 done, 1 poisoned, 2 unsupported request (R595, R596). -/
def State.hostDone (s : State) (bar off status : Nat) (bs : List Byte) : State :=
  s.emit { kind := .data, args := [22, bar, off, status], bytes := bs }

/-- BAR0_ACCESS: a host access to the MMIO range (R595). -/
def execBar0Access (off : Nat) (size : Nat) (wr : Option (BitVec 64)) (s : State) : Out :=
  whenHub s <| whenIt (s.cxl.link == .up && off < 0x10000000) <|
    if !s.bar0Ok off size then .next (s.hostDone 0 off 2 [])
    else match wr with
      | some v => .next ((s.writeMmio off size v.toNat).hostDone 0 off 0 [])
      | none => .next ((s.touchMmio off).hostDone 0 off 0 (toBytes size (s.readMmio off size)))

/-- One piece of a BAR2 access, within a line: at the window port of its core, or unsupported (R151, R596). -/
def State.bar2Piece (s : State) (off n : Nat) (wr : Option (List Byte)) : State :=
  let c := off / 0x400000
  if !s.corePresent c then s.hostDone 2 off 2 []
  else match wr with
    | some bs => (s.windowStore c (off % 0x400000) bs).hostDone 2 off 0 []
    | none =>
      let r := s.windowLoad c (off % 0x400000) n .request
      r.1.hostDone 2 off (b2n r.2.2) r.2.1

/-- BAR2_ACCESS: a host access to the scratchpad windows, split at line boundaries (R596). -/
def execBar2Access (off : Nat) (n : Nat) (wr : Option (List Byte)) (s : State) : Out :=
  whenPowered s <|
    let len := match wr with
      | some bs => bs.length
      | none => n
    whenIt (s.cxl.link == .up && 1 ≤ len && off + len ≤ 0x20000000) <|
      .next ((linesOf off len).foldl (fun (s : State) l =>
        let a := max off (l * 128)
        let k := min (off + len) (l * 128 + 128) - a
        s.bar2Piece a k (wr.map (fun bs => (bs.drop (a - off)).take k))) s)

end Sys2Proof.Machine
end

