-- ==== Sys2Proof/Machine/Stream.lean ====
section
/-! DEFINITION. Machine/Stream.lean: TLD, TST, GATH, ATOM, SIG, WAITV and SYNC as the sequencer issues them (R180 to
R193). Their requests go out through Machine/CoreOps.lean. -/

namespace Sys2Proof.Machine

/-! ### The extension word and deadlines: R185, R186 -/

/-- ILLEGAL_INSTRUCTION of a stream extension word: DLM 3, a relative deadline of 0, a reserved bit, or SLICE outside a
GATH (R163, R186; assumption log 17). -/
def extBad (h : Hdr) (w : BitVec 64) (gath : Bool) : Bool :=
  let e := extOf w
  h.x && (e.dlm = 3 || (e.dlm = 1 && e.dl = 0) || e.rsv != 0 || (!gath && e.slice != 0))

/-- The register an absolute deadline is read from. -/
def extSrc (h : Hdr) (w : BitVec 64) : List Nat := if h.x && (extOf w).dlm = 2 then [(extOf w).dr] else []

/-- The deadline as a stroke (R186). -/
def State.deadlineOf (s : State) (k : Core) (h : Hdr) (w : BitVec 64) : Option Nat :=
  let e := extOf w
  if !h.x then none
  else if e.dlm = 1 then some ((s.strokeNow + e.dl) % 2 ^ 52)
  else if e.dlm = 2 then some (strokeOf (k.sreg e.dr))
  else none

/-- An absolute deadline that lies in the past at issue (R186). -/
def State.latePast (s : State) (k : Core) (h : Hdr) (w : BitVec 64) : Bool :=
  h.x && (extOf w).dlm = 2 && s.reached (strokeOf (k.sreg (extOf w).dr))

/-- The predicate LP of an instruction that has an extension word. -/
def lpOf (h : Hdr) (w : BitVec 64) : Option Nat := if h.x then some (extOf w).lp else none

/-- Issue halts behind an acquire that has issued (R212). -/
def State.holdAcquire (s : State) (c seq : Nat) (acquire : Bool) : State :=
  if acquire then s.modCore c (fun k => { k with block := .acquire seq }) else s

/-- A TLD or GATH that completes with LATE at issue (R186, R187). -/
def State.lateAtIssue (s : State) (c : Nat) (lp : Option Nat) : State :=
  s.modCore c (fun k => match lp with
    | some p => k.noteLate.setP p true
    | none => k.noteLate)

/-! ### TLD and TST: R180 to R184 -/

/-- The distance between rows: RS, or the length of what a row moves when RS is s0 (R180, R182). -/
def Core.rowDist (k : Core) (f : TldF) (t : Td) : Nat :=
  if f.rs = 0 then (if f.sc then t.scaleBytes else t.rowBytes) else (k.sreg f.rs.toNat).toNat

/-- ILLEGAL_FORMAT of a TLD or plain TST: a reserved format (assumption log 18), or SC on a tile without scales. -/
def tldFormatBad (f : TldF) (t : Td) : Bool := t.format.isNone || (f.sc && !t.scaled)

/-- What a TLD or a TST checks at issue. -/
def tldFaults (f : TldF) (k : Core) (_ : Launch) : IssueFaults :=
  let t := tdOf (k.treg f.td.toNat)
  { format := tldFormatBad f t, shape := t.badShape, bounds := if f.sc then !t.scalesFit else !t.fits }

/-- TLD: rows, or rows of scales, from global memory (R182). -/
def State.tld (s : State) (c : Nat) (f : TldF) : Out :=
  let i : Ins := { h := f.h
                   illegal := f.add || f.acc || f.eng != 0 || f.atile != 0 || f.rsv != 0 || f.mark = 2
                     || f.scope = 3 || extBad f.h f.ext false
                   srcS := [f.ra.toNat, f.rs.toNat] ++ extSrc f.h f.ext, writes := [f.td.toNat], unit := some 5 }
  s.issue c i (tldFaults f) fun s k _ =>
    if s.latePast k f.h f.ext then s.lateAtIssue c (lpOf f.h f.ext)
    else
      let d := k.treg f.td.toNat
      let kind := JobKind.tld f d (k.sreg f.ra.toNat).toNat (k.rowDist f (tdOf d))
      (s.enqueue c k i 5 kind (fun j => { j with
        lp := lpOf f.h f.ext, acquire := f.mark = 1, scope := f.scope.toNat, deadline := s.deadlineOf k f.h f.ext }))
        |>.holdAcquire c k.nextSeq (f.mark = 1)

/-- TLD: moves the tile's elements. -/
def execTld (c : Nat) (f : TldF) (s : State) : Out := s.tld c { f with sc := false }

/-- TLD_SC: moves the tile's scale array. -/
def execTldSc (c : Nat) (f : TldF) (s : State) : Out := s.tld c { f with sc := true }

/-- TST and TST.ADD (R182, R184); `faults` adds what the form checks. -/
def State.tst (s : State) (c : Nat) (f : TldF) (faults : Core → Launch → IssueFaults) : Out :=
  let i : Ins := { h := f.h
                   illegal := f.h.x || f.eng != 0 || f.atile != 0 || f.rsv != 0 || f.mark = 1 || f.scope = 3
                   srcS := [f.ra.toNat, f.rs.toNat], reads := [f.td.toNat], unit := some 5 }
  s.issue c i faults fun s k _ =>
    let d := k.treg f.td.toNat
    s.enqueue c k i 5 (.tst f d (k.sreg f.ra.toNat).toNat (k.rowDist f (tdOf d)))
      (fun j => { j with release := f.mark = 2, scope := f.scope.toNat })

/-- TST: stores the tile's elements. -/
def execTst (c : Nat) (f : TldF) (s : State) : Out :=
  let f := { f with sc := false, add := false, acc := false }
  s.tst c f (tldFaults f)

/-- TST_SC: stores the tile's scale array. -/
def execTstSc (c : Nat) (f : TldF) (s : State) : Out :=
  let f := { f with sc := true, add := false, acc := false }
  s.tst c f (tldFaults f)

/-- The formats TST.ADD takes (R184). -/
def addFormat (t : Td) : Bool := t.fmt = 7 || t.fmt = 8 || t.fmt = 9 || t.fmt = 10

/-- TST_ADD: each element is added at its home (R184). A misaligned row distance is reported with RA (R199; assumption log
153). -/
def execTstAdd (c : Nat) (f : TldF) (s : State) : Out :=
  let f := { f with add := true, acc := false }
  s.tst c f fun k l =>
    let t := tdOf (k.treg f.td.toNat)
    let base := (k.sreg f.ra.toNat).toNat
    let n := t.width / 8
    { tldFaults f k l with
      format := !addFormat t || f.sc
      align := addFormat t && (base % n != 0 || k.rowDist f t % n != 0)
      va := base }

/-! ### GATH: R189 -/

/-- What a GATH checks at issue. -/
def gathFaults (f : GathF) (k : Core) (_ : Launch) : IssueFaults :=
  let t := tdOf (k.treg f.td.toNat)
  let i := tdOf (k.treg f.ti.toNat)
  let pool := (k.sreg f.rp.toNat).toNat
  let slice := if f.h.x then (extOf f.ext).slice * 16 else 0
  { format := i.fmt != 10 || t.format.isNone
    shape := t.badShape || i.badShape || 4096 < i.elems || t.rows < i.elems || t.rowBytes % 16 != 0
      || gathBlock f < slice + t.rowBytes
    align := pool % gathBlock f != 0
    va := pool
    bounds := !rowsFit t.base t.stride i.elems t.rowBytes || !rowsFit i.base 0 1 (4 * i.elems) }

/-- GATH: copies indexed blocks or slices of a pool into consecutive places (R137 to R141, R189). -/
def execGath (c : Nat) (f : GathF) (s : State) : Out :=
  let i : Ins := { h := f.h, illegal := f.rsv != 0 || f.mark = 2 || f.scope = 3 || extBad f.h f.ext true
                   srcS := [f.rp.toNat, f.rl.toNat] ++ extSrc f.h f.ext
                   reads := [f.ti.toNat], writes := [f.td.toNat], unit := some 5 }
  s.issue c i (gathFaults f) fun s k _ =>
    if s.latePast k f.h f.ext then s.lateAtIssue c (lpOf f.h f.ext)
    else
      let kind := JobKind.gath f (k.treg f.td.toNat) (k.treg f.ti.toNat) (k.sreg f.rp.toNat).toNat
        (k.sreg f.rl.toNat).toNat
      (s.enqueue c k i 5 kind (fun j => { j with
        lp := lpOf f.h f.ext, acquire := f.mark = 1, scope := f.scope.toNat, deadline := s.deadlineOf k f.h f.ext }))
        |>.holdAcquire c k.nextSeq (f.mark = 1)

/-! ### ATOM and SIG: R190, R191 -/

/-- ATOM (R190): one operation at the home; RD receives the old value. -/
def State.atom (s : State) (c : Nat) (op : AtomOp) (f : AtomF) : Out :=
  let i : Ins := { h := f.h, illegal := f.h.x || f.rsv != 0 || 5 ≤ f.fmt.toNat || f.scope = 3
                   srcS := [f.ra.toNat, f.rb.toNat] ++ (if op = .cas then [f.rc.toNat] else []), unit := some 5 }
  let faults (k : Core) (_ : Launch) : IssueFaults :=
    let a := (k.sreg f.ra.toNat).toNat
    { format := op != .add && 2 ≤ f.fmt.toNat, align := a % atomBytes (atomFmt f) != 0, va := a }
  let acquire := f.mark = 1 || f.mark = 3
  s.issue c i faults fun s k _ =>
    (s.enqueue c k i 5
      (.atom op f (k.sreg f.ra.toNat).toNat (k.sreg f.rb.toNat).toNat (k.sreg f.rc.toNat).toNat)
      (fun j => { j with rd := if f.rd = 0 then none else some f.rd.toNat, release := 2 ≤ f.mark.toNat
                         acquire := acquire, scope := f.scope.toNat }))
      |>.holdAcquire c k.nextSeq acquire

/-- ATOM_ADD. -/
def execAtomAdd (c : Nat) (f : AtomF) (s : State) : Out := s.atom c .add f

/-- ATOM_MIN. -/
def execAtomMin (c : Nat) (f : AtomF) (s : State) : Out := s.atom c .min f

/-- ATOM_MAX. -/
def execAtomMax (c : Nat) (f : AtomF) (s : State) : Out := s.atom c .max f

/-- ATOM_SWAP. -/
def execAtomSwap (c : Nat) (f : AtomF) (s : State) : Out := s.atom c .swap f

/-- ATOM_COMPARE_SWAP. -/
def execAtomCompareSwap (c : Nat) (f : AtomF) (s : State) : Out := s.atom c .cas f

/-- SIG (R191): writes RB, or adds it at the home. -/
def State.sig (s : State) (c : Nat) (add : Bool) (f : SigF) : Out :=
  let i : Ins := { h := f.h, illegal := f.h.x || f.rsv != 0 || f.mark = 1 || f.mark = 3 || f.scope = 3
                   srcS := [f.ra.toNat, f.rb.toNat], unit := some 5 }
  let faults (k : Core) (_ : Launch) : IssueFaults :=
    let a := (k.sreg f.ra.toNat).toNat
    { align := a % (if f.w then 8 else 4) != 0, va := a }
  s.issue c i faults fun s k _ =>
    s.enqueue c k i 5 (.sig add f (k.sreg f.ra.toNat).toNat (k.sreg f.rb.toNat).toNat)
      (fun j => { j with release := f.mark = 2, scope := f.scope.toNat })

/-- SIG_WRITE. -/
def execSigWrite (c : Nat) (f : SigF) (s : State) : Out := s.sig c false f

/-- SIG_ADD. -/
def execSigAdd (c : Nat) (f : SigF) (s : State) : Out := s.sig c true f

/-! ### WAITV: R192 -/

/-- Width of a WAITV in bits. -/
def waitvBits (f : WaitvF) : Nat := if f.w then 64 else 32

/-- A read of a WAITV that is out when the wait ends stays out until its answer comes, which is discarded: a device access
holds younger requests back until then (R232). -/
def Core.dropRead (k : Core) : Core :=
  match k.block with
  | .waitv _ _ _ _ (some o) =>
    { k with nextTag := k.nextTag + 1, nextSeq := k.nextSeq + 1
             reads := k.reads ++ [{ tag := k.nextTag, job := k.nextSeq, pa := o.pa, len := 0, off := 0, target := o.target
                                    served := none, missed := false, sent := o.sent, dead := true, early := false }] }
  | _ => k

/-- A WAITV ends: on its condition, or LATE at its deadline, which sets STATUS bit 1 and counts (R185 to R187, R192). LP tells
which when there is an extension word. With a deadline TP is 1 after LATE (R192, R217); what it holds after the condition has
ended the wait first the spec does not state: it is the free `tp` (assumption log 19). -/
def Core.endWaitv (k : Core) (f : WaitvF) (late tp : Bool) : Core :=
  let k := { k.dropRead with block := .none, still := 0 }
  let k := if late then k.noteLate else k
  let k := if f.h.x then k.setP (extOf f.ext).lp late else k
  if f.h.x && (extOf f.ext).dlm != 0 then k.setP f.tp.toNat (late || tp) else k

/-- The condition of a WAITV of core `c` holds: the wait ends (R192). -/
def State.metWaitv (s : State) (c : Nat) (f : WaitvF) : State :=
  let r := s.draw
  r.1.modCore c (fun k => k.endWaitv f false ((Config.freeWord r.2).getLsbD 0))

/-- The deadline of a WAITV of core `c` ends the wait (R186, R192). -/
def State.lateWaitv (s : State) (c : Nat) (f : WaitvF) : State := s.modCore c (fun k => k.endWaitv f true true)

/-- The deadline of a wait has come (R186). -/
def State.waitOver (s : State) (dl : Option Nat) : Bool :=
  match dl with
  | some d => s.reached d
  | none => false

/-- Test a WAITV's value: a deadline that has come ends it first, else it ends when the condition holds (R192). -/
def State.waitvTest (s : State) (c : Nat) (f : WaitvF) (dl : Option Nat) (v : Nat) : State :=
  if s.waitOver dl then s.lateWaitv c f
  else if condHolds f.cond.toNat (waitvBits f) v ((s.core c).sreg f.rb.toNat).toNat then s.metWaitv c f
  else s

/-- Every store of the core has left its stream unit: a WAITV is younger than all of them (R208; assumption log 130). -/
def Core.storesSent (k : Core) : Bool :=
  k.jobs.all (fun j => j.unit != 5 || j.kind.isRead || (j.begun && j.planned && j.todo.isEmpty))

/-- A WAITV's read of its target can be made: it follows the core's older device accesses (R232) and its older stores to the
line (R208), and as a device read all its older writes (R232). -/
def State.waitvReady (s : State) (c pa : Nat) (t : Target) : Bool :=
  let k := s.core c
  k.storesSent && !k.deviceOut &&
    (match t with
     | .tiered | .window _ => !s.portHeld c t && !s.lineOpen c k.nextTag pa t true
     | .mmio | .hostDevice => k.writes.isEmpty && s.drained c
     | _ => !k.writes.any (fun w => w.target == t && w.pa / 128 == pa / 128 && w.stage == .sent))

/-- A WAITV reads its word and tests it, or, where the answer comes from outside the module, its read leaves (R192). A
poisoned word is not tested (assumption log 130); an uncorrectable one of a window raises UNCORRECTABLE (R128, R196). -/
def State.waitvRead (s : State) (c : Nat) (f : WaitvF) (va pc : Nat) (dl : Option Nat) (pa : Nat) (t : Target) : State :=
  let n := waitvBits f / 8
  let s := s.modCore c (fun k => { k with block := .waitv f va pc dl none })
  if !s.waitvReady c pa t then s
  else match t with
  | .tiered =>
    let s := s.homeRead pa n
    if s.anyPoison pa n then s else s.waitvTest c f dl (s.sysNat pa n)
  | .window w =>
    let r := s.windowLoad w (localPart pa - windowBase w) n (.tile 0xB 0 (s.core c).launch)
    if r.2.2 then r.1.issueFault c { code := excUncorrectable, pc := pc, va := 0, trap := 0 }
    else r.1.waitvTest c f dl (ofBytes r.2.1)
  | .mmio =>
    let r := s.loadMmio n (localPart pa - mmioBase) n
    r.1.waitvTest c f dl (ofBytes r.2)
  | t =>
    (s.modCore c (fun k => { k with
      block := .waitv f va pc dl (some { pa := pa, target := t, sent := s.strokeNow }) })).sendOut t pa [0] []

/-- A translation for a WAITV has an answer; a deadline that has come ends the wait first. -/
def State.waitvGo (s : State) (c : Nat) (f : WaitvF) (va pc : Nat) (dl : Option Nat) (l : Launch) (r : XRes) : State :=
  if s.waitOver dl then s.lateWaitv c f
  else match r with
  | .ok pa t => s.waitvRead c f va pc dl pa t
  | .miss => s.modCore c (fun k => { k with block := .waitvWalk f va pc dl, walk := none })
  | .fault x => (s.noteFault (c / 32) l.ctx va x).issueFault c { code := x.code, pc := pc, va := va, trap := 0 }

/-- A WAITV starts a read of its word: each is an access of its own, translated when it is made (R389). -/
def State.waitvLook (s : State) (c : Nat) (f : WaitvF) (va pc : Nat) (dl : Option Nat) (l : Launch) : State :=
  let r := s.lookup c (c / 8) (c / 32) l.asid va .watch
  r.1.waitvGo c f va pc dl l r.2

/-- WAITV: halts issue until the value meets the condition (R192). -/
def execWaitv (c : Nat) (f : WaitvF) (s : State) : Out :=
  let i : Ins := { h := f.h, illegal := f.rsv != 0 || 6 ≤ f.cond.toNat || f.mark = 2 || f.mark = 3 || f.scope = 3
                     || extBad f.h f.ext false
                   srcS := [f.ra.toNat, f.rb.toNat] ++ extSrc f.h f.ext }
  let faults (k : Core) (_ : Launch) : IssueFaults :=
    let a := (k.sreg f.ra.toNat).toNat
    { align := a % (waitvBits f / 8) != 0, va := a }
  s.issue c i faults fun s k l =>
    if s.latePast k f.h f.ext then s.lateWaitv c f
    else
      s.waitvLook c f (k.sreg f.ra.toNat).toNat k.pc.toNat (s.deadlineOf k f.h f.ext) l

/-- WAITV_DEADLINE_EXPIRY: the deadline of a WAITV has come; the wait ends with TP set to 1 (R192). -/
def execWaitvDeadlineExpiry (c : Nat) (s : State) : Out :=
  whenPowered s <|
    let go (f : WaitvF) (d : Option Nat) : Act :=
      match d with
      | some d => whenIt (s.reached d) (.next ((s.lateWaitv c f).after c))
      | none => notNow
    match (s.core c).block with
    | .waitv f _ _ d _ => go f d
    | .waitvWalk f _ _ d => go f d
    | _ => notNow

/-! ### SYNC: R193 -/

/-- SYNC_FENCE: completes when every earlier instruction has completed and its stores are performed at the scope. -/
def execSyncFence (c : Nat) (f : SyncF) (s : State) : Out :=
  s.issue c { h := f.h, illegal := f.h.x || f.rsv != 0 || f.scope = 3 } (fun _ _ => {}) fun s _ _ =>
    s.modCore c (fun k => { k with block := .fence f.scope.toNat f.sp.toNat, syncTimeout := false })

/-- SYNC_BAR: completes when RN cores of the launch in the cluster have reached the barrier; only scope CLUSTER. -/
def execSyncBar (c : Nat) (f : SyncF) (s : State) : Out :=
  s.issue c { h := f.h, illegal := f.h.x || f.rsv != 0 || f.scope != 1, srcS := [f.rn.toNat] } (fun _ _ => {})
    fun s k _ => s.modCore c (fun x => { x with
      block := .bar f.bid.toNat (k.sreg f.rn.toNat).toNat f.sp.toNat, syncTimeout := false })

/-! ### Walks and deadlines of the stream unit -/

/-- WALK_COMPLETE: the walk core `c` waits on finishes: its leaf is installed, or the instruction faults (R380, R136). -/
def execWalkComplete (c : Nat) (s : State) : Out :=
  whenPowered s <| withSome (s.core c).launch fun l =>
    let k := s.core c
    match k.block, k.walk with
    | .waitvWalk f va pc dl, _ =>
      let r := s.translate c (c / 8) (c / 32) (.tile 0xB 0 (some l)) l.asid l.root va .watch
      .next ((r.1.waitvGo c f va pc dl l r.2).after c)
    | _, some va =>
      withSome k.streamHead fun j =>
        let s := s.modCore c (fun k => { k with walk := none })
        let r := s.translate c (c / 8) (c / 32) (s.jobCause c j.kind) l.asid l.root va (j.kind.accAt va)
        match r.2 with
        | .fault x => .next (((r.1.noteFault (c / 32) l.ctx va x).execFault c j x.code va).after c)
        | _ => .next (r.1.after c)
    | _, none => notNow

/-- STREAM_DEADLINE_EXPIRY: the deadline of TLD or GATH `id` has come with data missing: it completes LATE (R187). -/
def execStreamDeadlineExpiry (c : Nat) (id : Nat) (s : State) : Out :=
  whenPowered s <| withSome ((s.core c).jobs.find? (fun j => j.seq == id)) fun j =>
    match j.deadline with
    | some d => whenIt (s.reached d) (.next ((s.lateJob c j).after c))
    | none => notNow

end Sys2Proof.Machine
end

