-- ==== Sys2Proof/Machine/FrontEnd.lean ====
section
/-! DEFINITION. Machine/FrontEnd.lean: the front ends' own memory accesses, the handles (R447 to R449), the checks and
the acceptance of descriptors (R440 to R446), and the launch block (R450 to R454). -/

namespace Sys2Proof.Machine

/-! ### A front end's reads and writes in a context: R220, R373, R448 -/

/-- Cut `n` bytes from a virtual address at page boundaries. -/
def pageCuts : Nat → Nat → Nat → List (Nat × Nat)
  | 0, _, _ => []
  | fuel + 1, va, n =>
    if n = 0 then []
    else
      let m := min n (4096 - va % 4096)
      (va % 2 ^ 64, m) :: pageCuts fuel (va + m) (n - m)

/-- The pages of a range, as far as a front end touches them at once. -/
def pagesOf (va n : Nat) : List (Nat × Nat) := pageCuts (n / 4096 + 2) va n

/-- Bytes written to the MMIO range as aligned pieces of at most 8 B (R231). -/
def State.writeMmioBytes (s : State) : Nat → Nat → List Byte → State
  | 0, _, _ => s
  | fuel + 1, o, bs =>
    if bs.isEmpty then s
    else
      let m := deviceCut o bs.length
      State.writeMmioBytes (s.writeMmio o m (ofBytes (bs.take m))) fuel (o + m) (bs.drop m)

/-- The record of a front end's read that is not answered: its target is lost, or the device timeout has expired (R236, R613). -/
def State.feLost (s : State) (d op ctx pa : Nat) (t : Target) : State :=
  let unit := if (t == .host || t == .hostDevice) && !s.cxl.session then s.path 6 0 0 0 0 else s.fePath d
  s.logBy (.descriptor op ctx none) { errRec unit 0x0A 2 with syndrome := pa }

/-- What a front end reads at a physical address, and whether it came poisoned. The bytes of a host or of another node are free
values, but where a processor die holds them modified (R361), and so is whether they come poisoned (R609) or not within the
device timeout, which a retrain suspends (R499; assumption log 12); then, and from a lost target, the answer is all ones, with a
record (R235, R236, R613). -/
def State.feGet (s : State) (d op ctx pa n : Nat) (t : Target) : State × List Byte × Bool :=
  match t with
  | .tiered =>
    let s := s.homeRead pa n
    (s, s.sysRead pa n, s.anyPoison pa n)
  | .window c => s.windowLoad c (localPart pa - windowBase c) n (.descriptor op ctx none)
  | .mmio =>
    let r := s.loadMmio n (localPart pa - mmioBase) n
    (r.1, r.2, false)
  | _ =>
    let r := s.draw
    let way := (Config.freeWord r.2).toNat % 4
    let host := t == .host || t == .hostDevice
    if s.targetLost t || (way = 0 && !(host && s.cxl.link == .retrain)) then
      (r.1.feLost d op ctx pa t, List.replicate n 0xFF, false)
    else
      let bs := (upFrom 0 n).map (Config.freeByte r.2)
      (if host && way = 1 then r.1.poisonIn pa n else r.1, if t == .host then s.underDirty pa bs else bs, way = 1)

/-- A front end's read of a virtual range in a context: its bytes, or the status that ends the operation. A poisoned
read ends it with MEMORY_POISON (assumption log 25). -/
def State.feLoad (s : State) (d op ctx asid root va n : Nat) : State × Except Nat (List Byte) :=
  (pagesOf va n).foldl (fun (acc : State × Except Nat (List Byte)) p =>
    match acc with
    | (s, .error e) => (s, .error e)
    | (s, .ok bs) =>
      match s.feTranslate d op ctx asid root p.1 .load with
      | (s, .ok pa t) =>
        let r := s.feGet d op ctx pa p.2 t
        if r.2.2 then (r.1, .error 0x302) else (r.1, .ok (bs ++ r.2.1))
      | (s, .fault f) => (s, .error (0x100 + f.code))
      | (s, .miss) => (s, .error 0x109)) (s, .ok [])

/-- The context entry of an operation, or ACCESS_FAULT (R373). -/
def State.feCtx (s : State) (d op ctx : Nat) : State × Except Nat (Nat × Nat) :=
  match s.ctxEntry d op ctx with
  | (s, some e) => (s, .ok e)
  | (s, none) => (s, .error 0x109)

/-- A front end's write of SYSTEM scope for an operation (R458, R461). -/
def State.feStore (s : State) (d uid ctx pa : Nat) (bs : List Byte) : State :=
  match s.target pa with
  | some .mmio => s.writeMmioBytes bs.length (localPart pa - mmioBase) bs
  | _ => s.feWrite d (feFor ((s.op? uid).map Op.queue) (some uid) .data ctx pa) bs

/-! ### The header and the opcodes: R443 to R446 -/

def descOp (b : List Byte) : Nat := leAt b 0 1
def descFlags (b : List Byte) : Nat := leAt b 1 1
def descCtx (b : List Byte) : Nat := leAt b 2 2 % 4096
def descGen (b : List Byte) : Nat := leAt b 2 2 / 4096
def descSeq (b : List Byte) : Nat := leAt b 4 4
def descHandle (b : List Byte) : Nat := leAt b 8 8 / 2 ^ 52
def descInlLen (b : List Byte) : Nat := leAt b 8 8 / 2 ^ 44 % 256
def descOffset (b : List Byte) : Nat := leAt b 8 8 % 2 ^ 44

/-- The inline data of a descriptor (R446). -/
def descInline (b : List Byte) : List Byte := (b.drop 16).take (descInlLen b)

/-- The right a handle has to give. -/
inductive Right where
  | unused | read | write
  deriving DecidableEq, Repr

/-- What the table "Opcodes" allows an opcode: EXT, INLINE, and its handle's right; none for a reserved one (R445). -/
def opRow (op : Nat) : Option (Bool × Bool × Right) :=
  match op with
  | 0x01 => some (true, true, .read)
  | 0x02 => some (true, false, .unused)
  | 0x03 => some (true, true, .write)
  | 0x04 => some (false, false, .write)
  | 0x05 => some (false, false, .read)
  | 0x06 => some (false, false, .unused)
  | 0x07 => some (false, false, .unused)
  | 0x08 => some (false, false, .read)
  | 0x09 => some (false, false, .unused)
  | 0x0A => some (true, false, .read)
  | 0x0B => some (false, false, .unused)
  | 0x0C => some (true, false, .unused)
  | _ => none

/-- The bytes from `a` up to `b` are zero. -/
def zeros (l : List Byte) (a b : Nat) : Bool := ((l.drop a).take (b - a)).all (· == 0)

/-- BAD_DESCRIPTOR by the header (R438, R444, R445, R446). -/
def headerBad (x : Queue) (b : List Byte) : Bool :=
  match opRow (descOp b) with
  | none => true
  | some (ext, inl, right) =>
    let f := descFlags b
    (bitOf f 4 && (!ext || x.head % 4 != 0)) || f / 32 != 0 || (bitOf f 1 && !inl)
      || (bitOf f 3 && x.cfg.sigAddr == 0)
      || (if bitOf f 1 then descInlLen b == 0 || (if bitOf f 4 then 192 else 48) < descInlLen b
          else descInlLen b != 0 || descOp b == 3)
      || (right == .unused && (descHandle b != 0 || descOffset b != 0))

/-- The format checks of DISPATCH_EXPERTS (R284, R308); the regions are bounded by the starts of the last places R302
gives them (assumption log 26). -/
def dispatchBad (b : List Byte) : Bool :=
  let reuse := bitOf (leAt b 52 1) 7
  let n := leAt b 48 2
  let k := leAt b 50 1
  let w := leAt b 51 1
  let entries := leAt b 64 2
  let off := leAt b 68 4
  let lim := leAt b 72 4
  let bases := [leAt b 76 4, leAt b 80 4, leAt b 84 4, leAt b 88 4, leAt b 92 4]
  let last := max (off + lim - 1) (max (leAt b 76 4 + 3 * leAt b 80 4)
    (max (leAt b 84 4 + 15 * leAt b 92 4) (leAt b 88 4 + 15 * leAt b 92 4)))
  !bitOf (descFlags b) 4 || b.length != 256
    || bitsOf (leAt b 52 1) 6 2 != 0 || leAt b 66 2 != 0 || !zeros b 96 256
    || !(1 ≤ n && n ≤ 4096) || !(1 ≤ k && k ≤ 8) || !(k ≤ w && w ≤ 16) || !(1 ≤ entries && entries ≤ 4096)
    || (!reuse && (leAt b 52 1 % 4 == 3 || 2 < leAt b 53 1 || (leAt b 53 1 == 1 && leAt b 54 2 == 0)))
    || off % 256 != 0 || lim % 256 != 0 || lim == 0 || bases.any (fun v => v % 16 != 0) || 0x3FFFFF < last

/-- The checks of the arguments that need no memory; bytes no rule describes are ignored (assumption log 27). -/
def argsCheck (b : List Byte) : Option Nat :=
  let bad (c : Bool) : Option Nat := if c then some 0x201 else none
  match descOp b with
  | 0x01 =>
    if bitOf (descFlags b) 1 then none
    else bad (bitOf (leAt b 16 2) 15 || !zeros b 18 24 || (5 < popcount 15 (leAt b 16 2) && !bitOf (descFlags b) 4))
  | 0x02 => bad (leAt b 17 1 / 32 != 0 || !zeros b 18 24)
  | 0x04 => bad (1 < leAt b 16 1 || 1 < leAt b 17 1 || !zeros b 18 24)
  | 0x05 => bad (5 < leAt b 16 1 || 1 < leAt b 17 1 || !zeros b 18 24)
  | 0x06 => bad (15 < leAt b 16 1 || !zeros b 18 64)
  | 0x07 => bad (1 < leAt b 16 1 || !zeros b 17 64)
  | 0x08 => bad (1 < leAt b 17 1 || !zeros b 18 64)
  | 0x09 => bad (recordBad ((b.drop 16).take 16))
  | 0x0A => if dispatchBad b then some 0x20A else none
  | 0x0B => bad (leAt b 24 8 == 0 || 2 ^ 40 < leAt b 24 8 || 1 < leAt b 32 1 || !zeros b 33 64)
  | _ => none

/-- The checks of a descriptor before anything is read for it (R444, R445). -/
def State.headerCheck (s : State) (x : Queue) (b : List Byte) : Option Nat :=
  if x.poison then some 0x302
  else if headerBad x b then some 0x201
  else if !x.cfg.priv && descCtx b != x.cfg.context then some 0x202
  else if descGen b != s.gen (descCtx b) % 16 then some 0x203
  else argsCheck b

/-! ### Handles: R447 to R449 -/

/-- The directory entry of a context followed by an entry of its handle table, from the cache or from memory; none
where they do not lie in backed memory. -/
def State.handleEntry (s : State) (d ctx h : Nat) : State × Option (List Byte) :=
  match (s.fe d).handles.find? (fun e => e.1 == ctx && e.2.1 == h) with
  | some e => (s, some e.2.2)
  | none =>
    let a := s.regN (rFe d 0x8) % 2 ^ 56 + ctx * 16
    if !s.inTiered a 16 then (s, none)
    else
      let s := s.homeRead a 16
      let dir := s.sysRead a 16
      let t := leAt dir 0 8 % 2 ^ 56 + h * 16
      if !bitOf (leAt dir 10 1) 0 || leAt dir 8 2 ≤ h || !s.inTiered t 16 then (s, none)
      else
        let s := s.homeRead t 16
        let e := dir ++ s.sysRead t 16
        (s.setFe d { s.fe d with handles := ((ctx, h, e) :: (s.fe d).handles).take 256 }, some e)

/-- The virtual address a handle gives for `n` bytes (R448, steps 1 and 2), or HANDLE_FAULT. -/
def State.handleVa (s : State) (d : Nat) (b : List Byte) (n : Nat) (write : Bool) : State × Except Nat Nat :=
  match s.handleEntry d (descCtx b) (descHandle b) with
  | (s, none) => (s, .error 0x204)
  | (s, some e) =>
    let r := leAt e 30 1
    if !bitOf r 2 || !bitOf r (if write then 1 else 0) || leAt e 24 6 < descOffset b + n then (s, .error 0x204)
    else (s, .ok ((leAt e 16 8 + descOffset b) % 2 ^ 64))

/-! ### The launch block: R450 to R453 -/

def blockEntry (l : List Byte) : Nat := leAt l 0 8
def blockCount (l : List Byte) : Nat := leAt l 8 2
def blockExact (l : List Byte) : Bool := bitOf (leAt l 10 1) 0
def blockInlOff (l : List Byte) : Nat := leAt l 12 4
def blockSet (l : List Byte) : Nat := leAt l 16 16

/-- ENTRY is a multiple of 8 or names a built-in program that there is (R450, R452, R455). -/
def entryOk (e : Nat) : Bool :=
  if bitOf e 63 && bitsOf e 62 8 == 0 then 1 ≤ e % 256 && e % 256 ≤ 3 else e % 8 == 0

/-- BAD_DESCRIPTOR by ENTRY or a reserved field of the launch block, as a dispatch checks them: FLAGS it ignores (R306). -/
def blockFixed (l : List Byte) : Bool :=
  !entryOk (blockEntry l) || leAt l 11 1 != 0 || !zeros l 152 160 || !zeros l 416 512

/-- BAD_DESCRIPTOR by ENTRY or a reserved field of the launch block (R452). -/
def blockRsv (l : List Byte) : Bool := blockFixed l || leAt l 10 1 / 2 != 0

/-- BAD_DESCRIPTOR by the launch block of a LAUNCH, the ranges of CORE_COUNT and INLINE_OFF among it (assumption log 28). -/
def blockBad (l : List Byte) : Bool :=
  blockRsv l || blockCount l == 0 || 128 < blockCount l || blockInlOff l % 16 != 0

/-- The cores of a launch (R451): the least loaded of those in service in its set, in rising order; none is NO_CORES. -/
def State.chooseCores (s : State) (l : List Byte) : List Nat :=
  let free := (setBitsBelow 128 (blockSet l)).filter (fun c => s.coreState c == 0)
  if free.isEmpty || (blockExact l && free.length < blockCount l) then []
  else (s.leastLoaded (min (blockCount l) free.length) free).foldl (fun r c => insertUp c r) []

/-- Values that replace arguments: register and value. -/
abbrev Overrides := List (Nat × Nat)

/-- The overrides of a LAUNCH (R453). -/
def launchOverrides (b : List Byte) : Overrides :=
  if bitOf (descFlags b) 1 then []
  else
    let regs := (setBitsBelow 15 (leAt b 16 2)).map (· + 1)
    (regs.zip (upFrom 0 regs.length)).map (fun p => (p.1, leAt b (24 + 8 * p.2) 8))

/-- A launch of a launch block as a core holds it staged (R452). -/
def stagedOf (l : List Byte) (launch : Launch) (ovr : Overrides) (set : Nat) (inl : List Byte) : Staged :=
  { launch := launch, entry := BitVec.ofNat 64 (blockEntry l)
    args := (upFrom 0 15).map (fun i => match ovr.find? (fun o => o.1 == i + 1) with
      | some o => BitVec.ofNat 64 o.2
      | none => BitVec.ofNat 64 (leAt l (32 + 8 * i) 8))
    tds := (upFrom 0 16).map (fun i => BitVec.ofNat 128 (leAt l (160 + 16 * i) 16))
    set := BitVec.ofNat 128 set, inlOff := blockInlOff l, inl := inl }

/-- Place a staged launch on a core that may have left service since it was chosen (R545). -/
def State.stageOn (s : State) (c : Nat) (g : Staged) : State :=
  if s.coreState c = 0 then s.stage c g else s.placeAgain c g

/-! ### Acceptance: R440 to R442 -/

/-- What acceptance reads for an operation: the relocated address, its second page, the launch block or recipe body, the
cores, the recipe version. -/
structure Prep where
  pa : Nat := 0
  pa2 : Nat := 0
  va : Nat := 0
  asid : Nat := 0
  root : Nat := 0
  block : List Byte := []
  placed : List Nat := []
  recipe : Option (Nat × Nat) := none
  deriving DecidableEq, Repr

/-- Translate the pages a relocated range reaches, for a write or another access. -/
def State.relocPages (s : State) (d op ctx asid root va n : Nat) (a : Acc) : State × Except Nat (List Nat) :=
  (pagesOf va n).foldl (fun (acc : State × Except Nat (List Nat)) p =>
    match acc with
    | (s, .error e) => (s, .error e)
    | (s, .ok l) =>
      match s.feTranslate d op ctx asid root p.1 a with
      | (s, .ok pa _) => (s, .ok (l ++ [pa]))
      | (s, .fault f) => (s, .error (0x100 + f.code))
      | (s, .miss) => (s, .error 0x109)) (s, .ok [])

/-- Relocate the handle for `n` bytes that the opcode accesses in place (R448); the target must be aligned to `align`. -/
def State.relocate (s : State) (d : Nat) (b : List Byte) (n align : Nat) (write : Bool) (a : Acc) :
    State × Except Nat Prep :=
  match s.handleVa d b n write with
  | (s, .error e) => (s, .error e)
  | (s, .ok va) =>
    if va % align != 0 then (s, .error 0x201)
    else match s.feCtx d (descOp b) (descCtx b) with
      | (s, .error e) => (s, .error e)
      | (s, .ok (asid, root)) =>
        match s.relocPages d (descOp b) (descCtx b) asid root va n a with
        | (s, .error e) => (s, .error e)
        | (s, .ok l) => (s, .ok { va := va, pa := l.getD 0 0, pa2 := l.getD 1 0, asid := asid, root := root })

/-- Relocate the handle and read `n` bytes through it (R448, R450). -/
def State.relocRead (s : State) (d : Nat) (b : List Byte) (n : Nat) : State × Except Nat Prep :=
  match s.handleVa d b n false with
  | (s, .error e) => (s, .error e)
  | (s, .ok va) =>
    match s.feCtx d (descOp b) (descCtx b) with
    | (s, .error e) => (s, .error e)
    | (s, .ok (asid, root)) =>
      match s.feLoad d (descOp b) (descCtx b) asid root va n with
      | (s, .error e) => (s, .error e)
      | (s, .ok l) => (s, .ok { va := va, block := l, asid := asid, root := root })

/-- What acceptance does for a LAUNCH (R450, R451, R454). -/
def State.prepLaunch (s : State) (d : Nat) (b : List Byte) : State × Except Nat Prep :=
  match s.relocRead d b 512 with
  | (s, .error e) => (s, .error e)
  | (s, .ok p) =>
    if blockBad p.block then (s, .error 0x201)
    else
      let cs := s.chooseCores p.block
      if cs.isEmpty then (s, .error 0x205)
      else if !cs.all (fun c => s.t0Holds c (descCtx b) (blockInlOff p.block) (descInlLen b)) then (s, .error 0x206)
      else (s, .ok { p with placed := cs })

/-- What acceptance does for a LAUNCH_RECIPE: it takes the slot's current version (R471); an INSTALLED slot has none before its
first RECIPE_PATCH completes (assumption log 76). -/
def State.prepRecipe (s : State) (d : Nat) (b : List Byte) : State × Except Nat Prep :=
  let i := leAt b 16 1
  let r := s.rslot d i
  if r.state ≠ 1 then (s, .error 0x209)
  else if r.ctx ≠ descCtx b then (s, .error 0x202)
  else match r.current with
    | none => (s, .error 0x209)
    | some v =>
      (s.setRslot d i { r with live := r.live.map (fun x => if x.num == v then { x with runs := x.runs + 1 } else x) },
       .ok { recipe := some (i, v) })

/-- What acceptance does for a RECIPE_PATCH: INSTALL reads the body, as long as its NODES says (R448, R469). -/
def State.prepPatch (s : State) (d : Nat) (b : List Byte) : State × Except Nat Prep :=
  if leAt b 17 1 = 1 then (s, .ok {})
  else match s.relocRead d b 64 with
    | (s, .error e) => (s, .error e)
    | (s, .ok p) =>
      let n := leAt p.block 0 2
      if n = 0 || 64 < n then (s, .ok p) else s.relocRead d b (64 + 32 * n)

/-- What acceptance reads and checks for an opcode. -/
def State.prep (s : State) (d : Nat) (b : List Byte) : State × Except Nat Prep :=
  let width := if leAt b 17 1 = 1 then 8 else 4
  match descOp b with
  | 0x01 => s.prepLaunch d b
  | 0x02 => s.prepRecipe d b
  | 0x03 => s.relocate d b (descInlLen b) 1 true .store
  | 0x04 => s.relocate d b width width true (if leAt b 16 1 = 1 then .sigAdd else .sigStore)
  | 0x05 => s.relocate d b width width false .watch
  | 0x08 => s.prepPatch d b
  | 0x0A => s.relocRead d b 512
  | _ => (s, .ok {})

/-- The operation an accepted descriptor becomes (R442). -/
def State.newOp (s : State) (d q : Nat) (b : List Byte) (check : Option Nat) (p : Prep) : Op :=
  { uid := s.work.nextUid, die := d, queue := q, opcode := descOp b, flags := descFlags b, ctx := descCtx b
    gen := s.gen (descCtx b), seq := descSeq b, desc := b
    phase := if check.isSome then .ended else .waiting
    accepted := s.now, start := none, fin := none, pa := p.pa, va := p.va, pa2 := p.pa2, asid := p.asid, root := p.root, block := p.block
    cores := [], placed := p.placed, waitSlot := [], check := check, excOrTimeout := none, exc := none, removed := none
    poison := false, devTimeout := false, replayed := false, stopping := false, stopAt := none, subst := 0
    errIndex := none, age := 0, energy := 0, openEnergy := 0, recipe := p.recipe, nodesStarted := [], nodesDone := []
    nodeCores := [], nodePlaced := [], parts := [], plan := [], dspTotal := 0, dspDeadline := 0, decided := false
    signalled := false, hung := false, expired := false, asked := none }

/-- The head of a queue waits behind an operation that holds back its followers: a FENCE, a WAIT, or a descriptor with
FENCE_BEFORE that has not started (R441, R460). -/
def State.gated (s : State) (q : Nat) : Bool :=
  (s.queueOps q).any (fun o => o.check.isNone
    && (o.opcode == 5 || o.opcode == 7 || (bitOf o.flags 2 && (o.phase == .waiting || o.phase == .aborted))))

/-- A context whose descriptors are not accepted: it is being reset, or is a suspect of a hang (R493, R496). -/
def State.ctxHeld (s : State) (ctx : Nat) : Bool :=
  s.work.resetting.contains ctx
    || (upFrom 0 4).any (fun d => match (s.fe d).hang with
      | some h => h.suspects.contains ctx
      | none => false)

/-- The head descriptor of a queue may be accepted now (R440, R441). -/
def State.mayAccept (s : State) (q : Nat) (x : Queue) : Bool :=
  x.state == .running && x.ready && decide ((s.queueOps q).length < x.cfg.maxInflight) && !s.gated q
    && !s.ctxHeld (descCtx x.desc) && !s.ctxHeld x.cfg.context

/-- The queue a front end serves next (R440): the highest priority, then the first after the last one served. -/
def State.nextQueue (s : State) (d : Nat) : Option (Nat × Queue) :=
  let last := (s.fe d).lastQueue
  let rank (e : Nat × Queue) : Nat := (3 - e.2.cfg.priority) * 1024 + (e.1 + 1023 - last) % 1024
  match s.work.queues.filter (fun q x => x.die == d && s.mayAccept q x) with
  | [] => none
  | e :: t => some (t.foldl (fun a x => if rank x < rank a then x else a) e)

/-- Operations in flight at a front end (R143). -/
def State.dieOps (s : State) (d : Nat) : Nat := (s.work.ops.filter (fun o => o.die == d)).length

end Sys2Proof.Machine
end

