-- ==== Sys2Proof/Machine/Descriptors.lean ====
section
/-! DEFINITION. Machine/Descriptors.lean: what each opcode of a descriptor does once its operation may start (R390, R451 to
R472), but for the dispatch of experts. -/

namespace Sys2Proof.Machine

/-! ### Starting an operation: R459 to R462 -/

/-- Operations accepted before this one and still in flight. -/
def State.earlier (s : State) (o : Op) : List Op := s.work.ops.takeWhile (fun x => x.uid != o.uid)

/-- An operation has not started, and with FENCE_BEFORE every earlier operation of its queue has completed (R460). -/
def State.unfenced (s : State) (o : Op) : Bool :=
  o.phase == .waiting && (!bitOf o.flags 2 || !(s.earlier o).any (fun x => x.queue == o.queue))

/-- The operation may start. Operations of one queue run in any order (R459), but for FENCE_BEFORE (R460) and for those of a
context that is replayed, which start in the order of their acceptance (R496). -/
def State.startable (s : State) (o : Op) : Bool :=
  s.unfenced o && !(o.replayed && (s.earlier o).any (fun x => x.ctx == o.ctx && x.replayed && x.opcode != 0x07 && s.unfenced x))

/-- An operation of an opcode that may start; the records of errors it causes are its own (R480). -/
def State.starts (s : State) (uid opcode : Nat) (k : Op → Act) : Out :=
  whenPowered s <| withSome (s.op? uid) fun o =>
    whenIt (o.opcode == opcode && s.startable o) ((k o).andThen (s.causing uid))

/-- The operation reaches a scratchpad window that a replay keeps from its context (R496). -/
def State.opHeld (s : State) (o : Op) : Bool :=
  [o.pa, o.pa2].any (fun a => match s.target a with
    | some (.window c) => s.hangHolds c o.ctx
    | _ => false)

/-- The work of an operation that used no core has ended. -/
def State.opEnd (s : State) (uid : Nat) : State :=
  s.modOp uid (fun o => { o with phase := .ended, start := if o.start.isNone then some s.now else o.start })

/-- An operation ends with a status as it starts. -/
def State.opFail (s : State) (uid st : Nat) : State :=
  s.modOp uid (fun o => { o with
    phase := .ended, excOrTimeout := if o.excOrTimeout.isNone then some st else o.excOrTimeout })

/-! ### Launches on the cores of one or more dies: R305, R451, R452 -/

/-- The dies of a list of cores other than die `d`. -/
def otherDies (d : Nat) (cores : List Nat) : List Nat :=
  (upFrom 0 4).filter (fun e => e != d && cores.any (fun c => c / 32 == e))

/-- The launch of core `c` among `cores` (R452). -/
def Op.launchFor (o : Op) (node : Nat) (cores : List Nat) (c asid root : Nat) : Launch :=
  { uid := o.uid, rank := (cores.takeWhile (fun x => x != c)).length, cores := cores.length, ctx := o.ctx, gen := o.gen
    node := node, asid := asid, root := root, twin := false }

/-- The cores of a launch belong to an operation: those placed now and those of shares (R305). -/
def Op.give (o : Op) (node : Nat) (cores now : List Nat) (parts : List Part) : Op :=
  if node = 0 then { o with phase := .running, placed := cores, cores := o.cores ++ now, parts := o.parts ++ parts }
  else { o with nodesStarted := (node - 1) :: o.nodesStarted
                nodeCores := o.nodeCores ++ now.map (fun c => (c, node)), parts := o.parts ++ parts
                nodePlaced := (node, cores) :: o.nodePlaced.filter (fun e => e.1 != node) }

/-- Place a launch on its cores: those of the leading die are staged at once, each other die gets a share. The context
entry is read where cores of the die start (R373). The second part is the status that ends the operation instead. -/
def State.placeLaunch (s : State) (o : Op) (node : Nat) (block : List Byte) (ovr : Overrides) (inl : List Byte)
    (cores : List Nat) : State × Option Nat :=
  let here := cores.filter (fun c => c / 32 == o.die)
  let r := if here.isEmpty then (s, Except.ok (0, 0)) else s.feCtx o.die o.opcode o.ctx
  match r with
  | (s, .error e) => (s, some e)
  | (s, .ok (asid, root)) =>
    let away := (cores.filter (fun c => c / 32 != o.die)).map (fun c =>
      ({ core := c, node := node, items := [], taken := false, asid := 0, root := 0 } : Part))
    let s := s.modOp o.uid (fun o => o.give node cores here away)
    let s := (otherDies o.die cores).foldl (fun (s : State) e =>
      s.setFe e { s.fe e with shares := (s.fe e).shares ++ [{ uid := o.uid, node := node, block := block }] }) s
    (here.foldl (fun (s : State) c =>
      s.stageOn c (stagedOf block (o.launchFor node cores c asid root) ovr (blockSet block) inl)) s, none)

/-- LAUNCH: places a tile program on the cores chosen at acceptance; a replay for which they no longer hold chooses anew
(R451 to R454, R496). -/
def execLaunch (uid : Nat) (s : State) : Out :=
  s.starts uid 0x01 fun o =>
    let cores := if o.placed.isEmpty then s.chooseCores o.block else o.placed
    if cores.isEmpty then .next (s.opFail uid 0x205)
    else
      match s.placeLaunch o 0 o.block (launchOverrides o.desc) (if bitOf o.flags 1 then descInline o.desc else []) cores with
      | (s, some e) => .next (s.opFail uid e)
      | (s, none) => .next s

/-! ### Recipes: R467 to R473 -/

/-- The body of the version a LAUNCH_RECIPE took. -/
def State.recipeBody (s : State) (o : Op) : Option (List Byte) :=
  o.recipe.bind (fun r => ((s.rslot o.die r.1).live.find? (fun v => v.num == r.2)).map RVersion.body)

/-- LAUNCH_RECIPE: the operation starts; its nodes start as their predecessors have completed (R471, R472). -/
def execLaunchRecipe (uid : Nat) (s : State) : Out :=
  s.starts uid 0x02 fun _ => .next (s.modOp uid (fun o => { o with phase := .running }))

/-- The parameters of a LAUNCH_RECIPE as overrides of a node's registers (R472). -/
def recipeOverrides (b : List Byte) : Overrides :=
  (setBitsBelow 5 (leAt b 17 1)).map (fun k => (11 + k, leAt b (24 + 8 * k) 8))

/-- Every predecessor of a node has completed (R472). -/
def Op.predsDone (o : Op) (body : List Byte) (node : Nat) : Bool :=
  (setBitsBelow 64 (leAt body (64 + 32 * node + 8) 8)).all o.nodesDone.contains

/-- A node could not start: its status counts as an exception of the node (R472). -/
def State.nodeFail (s : State) (uid node st : Nat) : State :=
  (s.modOp uid (fun o => { o with
    nodesStarted := node :: o.nodesStarted, nodesDone := node :: o.nodesDone
    excOrTimeout := if o.excOrTimeout.isNone then some st else o.excOrTimeout })).opCheck uid

/-- Read a node's launch block and choose its cores (R472). -/
def State.nodeBlock (s : State) (o : Op) (body : List Byte) (node : Nat) : State × Except Nat (List Byte × List Nat) :=
  match s.feCtx o.die o.opcode o.ctx with
  | (s, .error e) => (s, .error e)
  | (s, .ok (asid, root)) =>
    match s.feLoad o.die o.opcode o.ctx asid root (leAt body (64 + 32 * node) 8) 512 with
    | (s, .error e) => (s, .error e)
    | (s, .ok l) =>
      if blockBad l then (s, .error 0x201)
      else
        let cores := match o.nodePlaced.find? (fun e => e.1 == node + 1) with
          | some e => e.2
          | none => s.chooseCores l
        if cores.isEmpty then (s, .error 0x205) else (s, .ok (l, cores))

/-- RECIPE_NODE_START: a node whose predecessors have completed starts as a LAUNCH; after an exception none does (R472). -/
def execRecipeNodeStart (uid : Nat) (node : Nat) (s : State) : Out :=
  whenPowered s <| withSome (s.op? uid) fun o => withSome (s.recipeBody o) fun body =>
    whenIt (o.opcode == 0x02 && o.phase == .running && o.excOrTimeout.isNone && !o.stopping
        && decide (node < leAt body 0 2) && !o.nodesStarted.contains node && o.predsDone body node) <|
      .next (s.causing uid (match s.nodeBlock o body node with
      | (s, .error e) => s.nodeFail uid node e
      | (s, .ok (l, cores)) =>
          match s.placeLaunch o (node + 1) l (recipeOverrides o.desc) [] cores with
          | (s, some e) => s.nodeFail uid node e
          | (s, none) => s))

/-- RECIPE_FORMAT by the body of a recipe (R468, R469). -/
def bodyBad (b : List Byte) : Bool :=
  let n := leAt b 0 2
  n == 0 || 64 < n || leAt b 2 2 != 0 || !zeros b 8 64
    || (upFrom 0 n).any (fun i => leAt b (64 + 32 * i + 8) 8 / 2 ^ i != 0 || !zeros b (64 + 32 * i + 16) (64 + 32 * i + 32))

/-- INSTALL: a RECIPE_PATCH takes a body as a version of its slot, which becomes current, with its number, when the patch
completes (R469); a replay of a patch that has done so installs nothing more. -/
def execInstall (uid : Nat) (s : State) : Out :=
  s.starts uid 0x08 fun o => whenIt (leAt o.desc 17 1 == 0) <|
    let i := leAt o.desc 16 1
    let r := s.rslot o.die i
    if o.recipe.isSome then .next (s.opEnd uid)
    else if bodyBad o.block then .next (s.opFail uid 0x207)
    else if r.state ≠ 0 && r.ctx ≠ o.ctx then .next (s.opFail uid 0x202)
    else if 4 ≤ r.alive.length then .next (s.opFail uid 0x208)
    else
      let s := s.setRslot o.die i { r with
        state := 1, ctx := o.ctx
        live := r.live ++ [{ num := 0, va := o.va, body := o.block, asid := o.asid, root := o.root, runs := 0
                             arriving := some uid }] }
      .next ((s.modOp uid (fun o => { o with recipe := some (i, 0) })).opEnd uid)

/-- REMOVE: a RECIPE_PATCH makes the slot REMOVING (R470). -/
def execRemove (uid : Nat) (s : State) : Out :=
  s.starts uid 0x08 fun o => whenIt (leAt o.desc 17 1 == 1) <|
    let i := leAt o.desc 16 1
    let r := s.rslot o.die i
    if r.state = 0 then .next (s.opFail uid 0x209)
    else if r.ctx ≠ o.ctx then .next (s.opFail uid 0x202)
    else if r.state = 2 then .next (s.opEnd uid)
    else .next (((s.setRslot o.die i { r with state := 2, current := none }).freeVersions o.die i).opEnd uid)

/-! ### Writes, signals and waits: R456 to R458 -/

/-- INLINE_WRITE: inline data to the relocated address, performed at SYSTEM (R458). -/
def execInlineWrite (uid : Nat) (s : State) : Out :=
  s.starts uid 0x03 fun o => whenIt (!s.opHeld o) <|
    let bs := descInline o.desc
    let m := 4096 - o.va % 4096
    let s := s.feStore o.die uid o.ctx o.pa (bs.take m)
    let s := if m < bs.length then s.feStore o.die uid o.ctx o.pa2 (bs.drop m) else s
    .next (s.opEnd uid)

/-- Width in bytes of a SIGNAL or WAIT: field W. -/
def flagBytes (b : List Byte) : Nat := if leAt b 17 1 = 1 then 8 else 4

/-- VALUE of a SIGNAL or WAIT; the upper bytes of a 32-bit one are ignored (assumption log 27). -/
def flagValue (b : List Byte) : Nat := leAt b 24 (flagBytes b)

/-- A SIGNAL add at the home of its flag (R224, R456). -/
def State.signalAdd (s : State) (o : Op) : State :=
  let f := if flagBytes o.desc = 8 then AtomFmt.i64 else AtomFmt.i32
  let v := flagValue o.desc
  match s.target o.pa with
  | some .tiered =>
    match s.sysAdd o.pa .add f v 0 with
    | (s, some _) => s
    | (s, none) => s.refusePoison o.pa (some o.ctx) (some o.uid)
  | some (.window c) => (s.windowAtomic c (localPart o.pa - windowBase c) .add f v 0 o.cause).1
  | some (.remote n) =>
    let w : WOp := .atom .add f v 0
    s.feSend o.die (feFor (some o.queue) (some o.uid) .data o.ctx o.pa) (.remote n) w.info w.bytes
  | _ => s

/-- SIGNAL: writes or adds a value to a flag (R456). -/
def execSignal (uid : Nat) (s : State) : Out :=
  s.starts uid 0x04 fun o => whenIt (!s.opHeld o) <|
    if leAt o.desc 16 1 = 1 then .next ((s.signalAdd o).opEnd uid)
    else .next ((s.feStore o.die uid o.ctx o.pa (toBytes (flagBytes o.desc) (flagValue o.desc))).opEnd uid)

/-- A WAIT has read its target: it ends when the condition holds, else it goes on waiting (R457). -/
def State.waitTest (s : State) (o : Op) (v : Nat) : State :=
  let holds := condHolds (leAt o.desc 16 1) (8 * flagBytes o.desc) v (flagValue o.desc)
  s.modOp o.uid (fun o => { o with phase := if holds then .ended else .running, asked := none })

/-- The answer to a WAIT's read outside the module, or none when neither it nor the device timeout is there yet: all ones and
a record at the timeout (R236), data as a processor die may hold it modified (R361). Poisoned data decides nothing. -/
def State.waitBack (s : State) (o : Op) (t : Target) (sent : Nat) (dev : Option Reply) : Option State :=
  let n := flagBytes o.desc
  let host := t == .host || t == .hostDevice
  if s.timedOut t sent then
    some ((s.feLost o.die o.opcode o.ctx o.pa t).waitTest o (2 ^ (8 * n) - 1))
  else match dev with
    | some (.data b) => if b.length = n then some (s.waitTest o (ofBytes (if host then s.underDirty o.pa b else b))) else none
    | some (.poisoned _) => some ((if host then s.poisonIn o.pa n else s).modOp o.uid (fun o => { o with phase := .running, asked := none }))
    | _ => none

/-- A WAIT reads its target: in the module at once; elsewhere its read leaves, and the answer may come with it (R457). -/
def State.waitLook (s : State) (o : Op) (dev : Option Reply) : State :=
  let n := flagBytes o.desc
  match s.target o.pa with
  | some .tiered =>
    let s := s.homeRead o.pa n
    s.waitTest o (s.sysNat o.pa n)
  | some (.window c) =>
    let r := s.windowLoad c (localPart o.pa - windowBase c) n o.cause
    r.1.waitTest o (ofBytes r.2.1)
  | some .mmio =>
    let r := s.loadMmio n (localPart o.pa - mmioBase) n
    r.1.waitTest o (ofBytes r.2)
  | some t =>
    let s' := (s.sendOut t o.pa [0] []).modOp o.uid (fun o => { o with phase := .running, asked := some s.strokeNow })
    (s'.waitBack o t s.strokeNow dev).getD s'
  | none => s.modOp o.uid (fun o => { o with phase := .running })

/-- WAIT: the target is read first (R457). One without FENCE_BEFORE was read at its acceptance, and starts here again only in a
replay. -/
def execWait (uid : Nat) (dev : Option Reply) (s : State) : Out :=
  s.starts uid 0x05 fun o => whenIt (!s.opHeld o) (.next (s.waitLook o dev))

/-- WAIT_REREAD: the target is read again, after a write to its line or with the stroke, or the answer to a read that has
left arrives (R457). -/
def execWaitReread (uid : Nat) (dev : Option Reply) (s : State) : Out :=
  whenPowered s <| withSome (s.op? uid) fun o =>
    whenIt (o.opcode == 0x05 && o.phase == .running) <|
      match o.asked, s.target o.pa with
      | some sent, some t => withSome (s.waitBack o t sent dev) fun t => .next (s.causing uid t)
      | _, _ => whenIt (!s.opHeld o) (.next (s.causing uid (s.waitLook o dev)))

/-! ### PHASE, FENCE, INVALIDATE_RANGE, PEEL_HINT, NOP -/

/-- The preferences of a queue after a PHASE (R464). -/
def Queue.prefer (x : Queue) (b : List Byte) : Queue :=
  let p := leAt b 16 1
  let mask := leAt b 17 1
  { x with prefs := (upFrom 0 4).map (fun d => if mask = 0 || bitOf mask d then p else x.prefs.getD d 0) }

/-- PHASE: the queue's preferred point for the named dies (R464). One without FENCE_BEFORE has set it at its acceptance. -/
def execPhase (uid : Nat) (s : State) : Out :=
  s.starts uid 0x06 fun o => withSome (s.queue? o.queue) fun x =>
    .next ((s.setQueue o.queue (x.prefer o.desc)).opEnd uid)

/-- FENCE: completes when the earlier operations of its queue, or with CONTEXT_WIDE also those of its context on the
front end, have completed (R460). -/
def execFence (uid : Nat) (s : State) : Out :=
  s.starts uid 0x07 fun o =>
    let wide := bitOf (leAt o.desc 16 1) 0
    whenIt (!(s.earlier o).any (fun x => x.queue == o.queue || (wide && x.ctx == o.ctx && x.die == o.die))) <|
      .next (s.modOp uid (fun o => { o with phase := .ended }))

/-- INVALIDATE_RANGE: the record, with the ASID of the descriptor's context; one at a time per front end (R390, R394). -/
def execInvalidateRange (uid : Nat) (s : State) : Out :=
  s.starts uid 0x09 fun o =>
    whenIt (!s.xlat.invals.any (fun i => i.die == o.die && i.uid.isSome)) <|
      match s.feCtx o.die o.opcode o.ctx with
      | (s, .error e) => .next (s.opFail uid e)
      | (s, .ok (asid, _)) =>
        let i := invalOf ((o.desc.drop 16).take 16) o.die (some uid)
        let s := s.modOp uid (fun o => { o with phase := .running, start := some s.now })
        .next (s.beginInval { i with asid := asid, allAsids := false, global := false })

/-- The physical address of a page of a PEEL_HINT, when it maps to tiered memory; a fault is passed over (R465). -/
def State.hintPage (s : State) (d op ctx asid root va : Nat) : State × Option Nat :=
  match s.feWalker d with
  | none => (s, none)
  | some k =>
    match s.translate (128 + d) k d (.descriptor op ctx none) asid root va .load with
    | (s, .ok pa .tiered) => (s, some pa)
    | (s, _) => (s, none)

/-- Nominate the blocks of `n` pages from a virtual address (R264, R465). -/
def State.hintPages (s : State) (o : Op) (asid root : Nat) (up : Bool) : Nat → Nat → State
  | 0, _ => s
  | n + 1, va =>
    let r := s.hintPage o.die o.opcode o.ctx asid root (va % 2 ^ 64)
    let s := match r.2 with
      | some pa =>
        let b := blockOf pa
        if up then r.1.nominate b 2 o.ctx
        else if (r.1.remap b).state = 0 then r.1.nominate b 3 o.ctx
        else r.1
      | none => r.1
    State.hintPages s o asid root up n (va + 4096)

/-- PEEL_HINT: nominates every tiered block the range covers, for promotion or eviction (R465). -/
def execPeelHint (uid : Nat) (s : State) : Out :=
  s.starts uid 0x0B fun o =>
    match s.feCtx o.die o.opcode o.ctx with
    | (s, .error e) => .next (s.opFail uid e)
    | (s, .ok (asid, root)) =>
      let a := leAt o.desc 16 8
      let n := (a % 4096 + leAt o.desc 24 8 + 4095) / 4096
      .next ((s.hintPages o asid root (leAt o.desc 32 1 == 0) n (a - a % 4096)).opEnd uid)

/-- NOP: does nothing and completes when it starts (R466). -/
def execNop (uid : Nat) (s : State) : Out := s.starts uid 0x0C fun _ => .next (s.opEnd uid)

/-! ### Acceptance: R440 to R449 -/

/-- What an operation does at its acceptance: a WAIT reads its target (R457), a PHASE completes (R464); with FENCE_BEFORE, when
they start. -/
def State.atOnce (s : State) (o : Op) : State :=
  if o.check.isSome || bitOf o.flags 2 || s.opHeld o then s
  else if o.opcode = 0x05 then s.waitLook o none
  else if o.opcode = 0x06 then
    match s.queue? o.queue with
    | some x => (s.setQueue o.queue (x.prefer o.desc)).opEnd o.uid
    | none => s
  else s

/-- A front end accepts the descriptor at the head of queue `q` (R440 to R449); the records of errors its reads cause are its
operation's (R480). -/
def State.accept (s : State) (d q : Nat) (x : Queue) : State :=
  let b := x.desc
  let r := match s.headerCheck x b with
    | some e => (s, Except.error e)
    | none => s.prep d b
  let o := match r.2 with
    | .error e => r.1.newOp d q b (some e) {}
    | .ok p => r.1.newOp d q b none p
  let t := r.1.withWork { r.1.work with ops := r.1.work.ops ++ [o], nextUid := r.1.work.nextUid + 1 }
  let t := s.causing o.uid (t.atOnce o)
  (t.setFe d { t.fe d with lastQueue := q }).advanceQueue q (if b.length = 256 then 4 else 1)

/-- DESCRIPTOR_ACCEPT: a front end accepts the next descriptor by its arbitration; shares come before it (R305, R440). -/
def execDescriptorAccept (die : Nat) (s : State) : Out :=
  whenPowered s <|
    whenIt (s.adPresent die && !s.work.oos && (s.fe die).shares.isEmpty && decide (s.dieOps die < 1024)) <|
      withSome (s.nextQueue die) fun e => .next (s.accept die e.1 e.2)

end Sys2Proof.Machine
end

