-- ==== Sys2Proof/Machine/Expert.lean ====
section
/-! DEFINITION. Machine/Expert.lean: expert dispatch (chapter 08, R282 to R310) and the shares of dispatches and launches
(R305). -/

namespace Sys2Proof.Machine

/-! ### The descriptor: R283 -/

def dspRouter (b : List Byte) : Nat := leAt b 16 8
def dspMap (b : List Byte) : Nat := leAt b 24 8
def dspDecision (b : List Byte) : Nat := leAt b 32 8
def dspSets (b : List Byte) : Nat := leAt b 40 8
def dspTokens (b : List Byte) : Nat := leAt b 48 2
def dspK (b : List Byte) : Nat := leAt b 50 1
def dspW (b : List Byte) : Nat := leAt b 51 1
def dspPolicy (b : List Byte) : Nat := leAt b 52 1 % 4
def dspReuse (b : List Byte) : Bool := bitOf (leAt b 52 1) 7
def dspDlm (b : List Byte) : Nat := leAt b 53 1
def dspDeadlineRel (b : List Byte) : Nat := leAt b 54 2
def dspDeadlineAbs (b : List Byte) : Nat := leAt b 56 8
def dspEntries (b : List Byte) : Nat := leAt b 64 2
def dspWorkOff (b : List Byte) : Nat := leAt b 68 4
def dspWorkLimit (b : List Byte) : Nat := leAt b 72 4

/-! ### What the leader works with -/

/-- A dispatch being decided: the module's state, the operation's place, the map entries read, the verdicts, and the sums
of R293. `err` is the status that ends it. -/
structure Dsp where
  s : State
  d : Nat
  uid : Nat
  ctx : Nat
  asid : Nat
  root : Nat
  b : List Byte
  map : List (Nat × List Byte)
  verdicts : List (Nat × Bool)
  hsum : Nat
  dsum : Nat
  waits : Nat
  err : Option Nat
  deriving DecidableEq, Repr

/-- The dispatch ends with a status; the first one counts. -/
def Dsp.fail (x : Dsp) (st : Nat) : Dsp := { x with err := if x.err.isNone then some st else x.err }

/-- Read bytes of the context. -/
def Dsp.read (x : Dsp) (va n : Nat) : Dsp × List Byte :=
  if x.err.isSome then (x, [])
  else match x.s.feLoad x.d 0x0A x.ctx x.asid x.root va n with
    | (s, .ok bs) => ({ x with s := s }, bs)
    | (s, .error e) => ({ x with s := s }.fail e, [])

/-- Translate an address for an access; `only` asks for tiered memory (R285). -/
def Dsp.reach (x : Dsp) (va : Nat) (a : Acc) (only : Bool) : Dsp × Nat :=
  if x.err.isSome then (x, 0)
  else match x.s.feTranslate x.d 0x0A x.ctx x.asid x.root (va % 2 ^ 64) a with
    | (s, .ok pa t) => (if only && t != .tiered then { x with s := s }.fail 0x109 else { x with s := s }, pa)
    | (s, .fault f) => ({ x with s := s }.fail (0x100 + f.code), 0)
    | (s, .miss) => ({ x with s := s }.fail 0x109, 0)

/-- The map entry of an expert (R289), read once. -/
def Dsp.entry (x : Dsp) (e : Nat) : Dsp × List Byte :=
  match x.map.find? (fun p => p.1 == e) with
  | some p => (x, p.2)
  | none =>
    let va := dspMap x.b + 32 * e
    let r := ((x.reach va .load true).1.reach (va + 31) .load true).1.read va 32
    ({ r.1 with map := (e, r.2) :: r.1.map }, r.2)

/-- The expert is in the map, with a VALID entry (R287). -/
def Dsp.valid (x : Dsp) (e : Nat) : Dsp × Bool :=
  if dspEntries x.b ≤ e then (x, false)
  else
    let r := x.entry e
    (r.1, bitOf (leAt r.2 19 1) 0)

/-! ### Deciding: R291 to R298 -/

/-- A block's bytes count in DRAM (R292). -/
def Remap.inDram (r : Remap) : Bool := r.state = 1 || r.state = 2 || (r.state = 4 && r.tier = 1)

/-- A rate of the predictor; the reserved value leaves the reset value (assumption log 21). -/
def rateOf (v reset : Nat) : Nat := if v % 2 ^ 20 = 0 then reset else v % 2 ^ 20

/-- The expert meets the deadline (R293). -/
def Dsp.meets (x : Dsp) (h d : Nat) : Bool :=
  let r (o : Nat) : Nat := x.s.regN (rFe x.d o)
  let p := r 0xB08 % 256 + max (ceilDiv (x.hsum + h) (1024 * rateOf (r 0xB00) 0x6000))
    (ceilDiv (x.dsum + d) (1024 * rateOf (r 0xB04) 0x500))
  if d = 0 || dspDlm x.b = 0 then true
  else if dspDlm x.b = 1 then p ≤ dspDeadlineRel x.b
  else (dspDeadlineAbs x.b / 2 ^ 12 + 2 ^ 52 - (x.s.strokeNow + p) % 2 ^ 52) % 2 ^ 52 < 2 ^ 51

/-- Add 1 to a counter whose four bytes lie in two pages, `n` of them in the first (R298). -/
def State.addSplit (s : State) (x : Dsp) (a b n : Nat) : State :=
  let s := (s.homeRead a n).homeRead b (4 - n)
  if s.anyPoison a n then s.refusePoison a (some x.ctx) (some x.uid)
  else if s.anyPoison b (4 - n) then s.refusePoison b (some x.ctx) (some x.uid)
  else
    let bs := toBytes 4 (ofBytes (s.sysRead a n ++ s.sysRead b (4 - n)) + 1)
    (s.sysWrite a (bs.take n)).sysWrite b (bs.drop n)

/-- A miss is reported: MISSES is added to at its home, and the expert's blocks in module DRAM are nominated (R298;
assumption log 147). -/
def Dsp.miss (x : Dsp) (e : Nat) (blocks : List Nat) (wait : Bool) : Dsp :=
  let va := dspMap x.b + 32 * e + 20
  let r := x.reach va .sigAdd true
  let k := 4096 - va % 4096
  let q := if k < 4 then r.1.reach (va + k) .sigAdd true else (r.1, 0)
  if q.1.err.isSome then q.1
  else
    let x := q.1
    let s := if k < 4 then x.s.addSplit x r.2 q.2 k
      else match x.s.sysAdd r.2 .add .i32 1 0 with
        | (s, some _) => s
        | (s, none) => s.refusePoison r.2 (some x.ctx) (some x.uid)
    { x with s := blocks.foldl (fun (s : State) b => if (s.remap b).state = 1 then s.nominate b 4 x.ctx else s) s
             waits := x.waits + b2n wait }

/-- Evaluate an expert: the dispatch after it, and whether the expert is accepted (R292 to R295). A BLOCK_COUNT of 0 is
a fault of the map (assumption log 29). -/
def Dsp.evaluate (x : Dsp) (e : Nat) : Dsp × Bool :=
  match x.verdicts.find? (fun p => p.1 == e) with
  | some p => (x, p.2)
  | none =>
    let r := x.entry e
    let x := r.1
    let first := leAt r.2 12 4 % 2 ^ 21
    let count := leAt r.2 12 4 / 2 ^ 21
    let blocks := upFrom first count
    if x.err.isSome then (x, false)
    else if count = 0 || blocks.any (fun b => (x.s.remap b).state = 7) then (x.fail 0x20B, false)
    else
      let d := ceilDiv (leAt r.2 8 4 * (blocks.filter (fun b => (x.s.remap b).inDram)).length) count
      let h := leAt r.2 8 4 - d
      let ok := x.meets h d
      let wait := dspPolicy x.b = 2 || bitOf (leAt r.2 19 1) 1
      let x := if ok then x else x.miss e blocks wait
      let x := if ok || wait then { x with hsum := x.hsum + h, dsum := x.dsum + d } else x
      ({ x with verdicts := (e, ok || wait) :: x.verdicts }, ok || wait)

/-- A slot of the router output (R286): its expert and its weight. -/
def slotOf (b raw : List Byte) (t c : Nat) : Nat × Nat :=
  let o := (t * dspW b + c) * 8
  (leAt raw o 2, leAt raw (o + 4) 4)

/-- The experts of a token's active slots before slot `c`. -/
def activeBefore (b raw : List Byte) (t c : Nat) : List Nat :=
  ((upFrom 0 c).map (fun i => (slotOf b raw t i).1)).filter (· != 0xFFFF)

/-- The faults of active slots (R287). -/
def Dsp.checkSlots (x : Dsp) (raw : List Byte) : Dsp :=
  (upFrom 0 (dspTokens x.b)).foldl (fun (x : Dsp) t =>
    (upFrom 0 (dspK x.b)).foldl (fun (x : Dsp) c =>
      let e := (slotOf x.b raw t c).1
      if e = 0xFFFF || x.err.isSome then x
      else
        let r := x.valid e
        if !r.2 || (activeBefore x.b raw t c).contains e then r.1.fail 0x20B else r.1) x) x

/-- What becomes of an active slot (R288): the cause, and the slot of the row its expert comes from. -/
structure Choice where
  t : Nat
  slot : Nat
  /-- 0 KEPT, 1 SUBSTITUTE, 2 DROPPED, 3 EMPTY. -/
  cause : Nat
  rank : Nat
  expert : Nat
  deriving DecidableEq, Repr

/-- The first reserve of a token that can stand in for a missed expert (R287, R295, R296). -/
def Dsp.substitute (x : Dsp) (raw : List Byte) (t : Nat) (taken : List Nat) : Dsp × Option Nat :=
  let active := activeBefore x.b raw t (dspK x.b)
  (upFrom (dspK x.b) (dspW x.b - dspK x.b)).foldl (fun (r : Dsp × Option Nat) c =>
    let e := (slotOf r.1.b raw t c).1
    if r.2.isSome || e = 0xFFFF || active.contains e || taken.contains e then r
    else
      let v := r.1.valid e
      if !v.2 then (v.1, none)
      else
        let a := v.1.evaluate e
        (a.1, if a.2 then some c else none)) (x, none)

/-- Decide one active slot (R291, R295). -/
def Dsp.slot (x : Dsp) (raw : List Byte) (t c : Nat) (done : List Choice) : Dsp × Choice :=
  let e := (slotOf x.b raw t c).1
  let dropped : Choice := { t := t, slot := c, cause := 2, rank := c, expert := 0xFFFF }
  if e = 0xFFFF then (x, { dropped with cause := 3 })
  else
    let r := x.evaluate e
    if r.2 then (r.1, { t := t, slot := c, cause := 0, rank := c, expert := e })
    else if dspPolicy x.b ≠ 0 then (r.1, dropped)
    else
      let taken := (done.filter (fun (y : Choice) => y.t == t && y.cause == 1)).map Choice.expert
      let u := r.1.substitute raw t taken
      match u.2 with
      | some k => (u.1, { t := t, slot := c, cause := 1, rank := k, expert := (slotOf x.b raw t k).1 })
      | none => (u.1, dropped)

/-- Decide every active slot, slot 0 of every token first (R291). -/
def Dsp.decideAll (x : Dsp) (raw : List Byte) : Dsp × List Choice :=
  (upFrom 0 (dspK x.b)).foldl (fun (r : Dsp × List Choice) c =>
    (upFrom 0 (dspTokens x.b)).foldl (fun (r : Dsp × List Choice) t =>
      if r.1.err.isSome then r
      else
        let a := r.1.slot raw t c r.2
        (a.1, r.2 ++ [a.2])) r) (x, [])

/-- An FP32 sum in the order of a list (R297). -/
def f32Sum : List (BitVec 32) → BitVec 32
  | [] => 0
  | v :: vs => vs.foldl (f32Bin Fl.add) v

/-- The final weights of a token's slots, in slot order (R288, R297). -/
def finalWeights (b raw : List Byte) (t : Nat) (mine : List Choice) : List (Choice × BitVec 32) :=
  let w (c : Nat) : BitVec 32 := BitVec.ofNat 32 (slotOf b raw t c).2
  let named (y : Choice) : Bool := y.cause ≤ 1
  if mine.all (fun y => y.cause == 0 || y.cause == 3) then mine.map (fun y => (y, if named y then w y.rank else 0))
  else
    let orig := f32Sum ((mine.filter (fun y => y.cause != 3)).map (fun y => w y.slot))
    let fin := f32Sum ((mine.filter named).map (fun y => w y.rank))
    let f := f32Div orig fin
    mine.map (fun y => (y, if named y then f32Bin Fl.mul (w y.rank) f else 0))

/-- A decision entry (R288). RANK of a slot without an expert is a value the spec does not give: it is free. -/
def decisionEntry (draw : Nat) (p : Choice × BitVec 32) : List Byte :=
  toBytes 2 p.1.expert
    ++ [if p.1.cause ≤ 1 then BitVec.ofNat 8 p.1.rank else Config.freeByte draw (p.1.t * 8 + p.1.slot)]
    ++ toBytes 1 p.1.cause ++ toBytes 4 p.2.toNat

/-- The tokens of a decision, each with its slots and final weights, in token order. -/
def decisionRows (b raw : List Byte) (cs : List Choice) : List (List (Choice × BitVec 32)) :=
  (upFrom 0 (dspTokens b)).map (fun t =>
    finalWeights b raw t ((upFrom 0 (dspK b)).filterMap (fun c => cs.find? (fun y => y.t == t && y.slot == c))))

/-! ### Work for the cores: R299 to R303 -/

/-- What each token runs: expert and weight. -/
abbrev Uses := List (Nat × Nat × Nat)

/-- The experts in use, in ascending order (R299). -/
def expertsOf (u : Uses) : List Nat := u.foldl (fun l x => insertUp x.2.1 l) []

/-- Groups of eight. -/
def groups8 {α : Type} : Nat → List α → List (List α)
  | 0, _ => []
  | n + 1, l => if l.isEmpty then [] else l.take 8 :: groups8 n (l.drop 8)

/-- A list filled up to eight. -/
def fill8 (l : List Nat) (v : Nat) : List Nat := (upFrom 0 8).map (fun i => l.getD i v)

/-- The items of one expert on a core: one for each group of its tokens (R299, R300). -/
def itemsOf (u : Uses) (e set first count wbase : Nat) : List Item :=
  let mine := u.filter (fun x => x.2.1 == e)
  (groups8 (mine.length + 1) mine).map (fun g =>
    { expert := e, m := g.length, first := first, count := count, wbase := wbase
      tokens := fill8 (g.map (fun x => x.1)) 0xFFFF, weights := fill8 (g.map (fun x => x.2.2)) 0, set := set })

/-- The entry of an expert that has been read. -/
def Dsp.known (x : Dsp) (e : Nat) : List Byte :=
  match x.map.find? (fun p => p.1 == e) with
  | some p => p.2
  | none => []

/-- The items a core of a set receives: `lo` and `hi` bound its units among those of the set's experts (R300). An entry with
UNITS 0, outside the range of R289, gives no items (assumption log 133). -/
def Dsp.coreItems (x : Dsp) (u : Uses) (set lo hi : Nat) : Nat → List Nat → List Item
  | _, [] => []
  | base, e :: es =>
    let units := leAt (x.known e) 16 2
    let a := max lo base
    let z := min hi (base + units)
    (if a < z then itemsOf u e set (a - base) (z - a) (leAt (x.known e) 0 8) else [])
      ++ Dsp.coreItems x u set lo hi (base + units) es

/-- The parts a core set gives its present cores (R290, R300). -/
def Dsp.setParts (x : Dsp) (u : Uses) (set : Nat) (experts : List Nat) : Dsp × List (Nat × List Item) :=
  let r := x.read (dspSets x.b + 16 * set) 16
  let cores := (setBitsBelow 128 (ofBytes r.2)).filter x.s.corePresent
  if r.1.err.isSome then (r.1, [])
  else if cores.isEmpty then (r.1.fail 0x20B, [])
  else
    let total := (experts.map (fun e => leAt (x.known e) 16 2)).foldl (· + ·) 0
    let n := cores.length
    (r.1, (cores.zip (upFrom 0 n)).map (fun p =>
      (p.1, x.coreItems u set (total * p.2 / n) (total * (p.2 + 1) / n) 0 experts)))

/-- Add a set's items to those of the cores, which stay in ascending order. -/
def joinItems (t : Tbl (List Item)) (new : List (Nat × List Item)) : Tbl (List Item) :=
  new.foldl (fun (t : Tbl (List Item)) p => if p.2.isEmpty then t else t.put p.1 (t.getD (fun _ => []) p.1 ++ p.2)) t

/-- The work of every core (R299 to R301): items by core set, then expert, then group. -/
def Dsp.work (x : Dsp) (u : Uses) : Dsp × Tbl (List Item) :=
  let es := expertsOf u
  let x := es.foldl (fun (x : Dsp) e => (x.entry e).1) x
  let setOf (e : Nat) : Nat := leAt (x.known e) 18 1 % 16
  (upFrom 0 16).foldl (fun (r : Dsp × Tbl (List Item)) c =>
    let mine := es.filter (fun e => setOf e == c)
    if mine.isEmpty || r.1.err.isSome then r
    else
      let p := r.1.setParts u c mine
      (p.1, joinItems r.2 p.2)) (x, [])

/-- Packs of four items (R302). -/
def packs4 : Nat → List Item → List (List Item)
  | 0, _ => []
  | n + 1, l => if l.isEmpty then [] else l.take 4 :: packs4 n (l.drop 4)

/-- Problem tables of a pack (R302). -/
def packTables (p : List Item) : Nat := ceilDiv ((p.map Item.count).foldl max 0) 4

/-- Problem tables of a packet. -/
def tableCount (items : List Item) : Nat := ((packs4 items.length items).map packTables).foldl (· + ·) 0

/-- TABLE_OFF (R301). -/
def tableOff (b : List Byte) (n : Nat) : Nat := ceilDiv (dspWorkOff b + 64 + 64 * n) 256 * 256

/-- The length of a packet. -/
def packetSize (b : List Byte) (items : List Item) : Nat :=
  tableOff b items.length - dspWorkOff b + 256 * tableCount items

/-- The 64 bytes of an item (R301). -/
def itemBytes (i : Item) : List Byte :=
  toBytes 2 i.expert ++ toBytes 1 i.m ++ [0] ++ toBytes 2 i.first ++ toBytes 2 i.count ++ toBytes 8 i.wbase
    ++ i.tokens.flatMap (toBytes 2) ++ i.weights.flatMap (toBytes 4)

/-- The pair of expert and unit a problem of a table names, when it is enabled (R302). -/
def problemUnit (p : List Item) (s q : Nat) : Option (Item × Nat × Nat) :=
  match p[q / 4]? with
  | some i => if 4 * s + q % 4 < i.count then some (i, i.expert, i.first + 4 * s + q % 4) else none
  | none => none

/-- The place of a pair among the distinct pairs before it, in order of first appearance. -/
def pairRank (l : List (Nat × Nat)) (x : Nat × Nat) : Nat := (l.eraseDups.takeWhile (· != x)).length

/-- One problem table: step `s` of a pack, table `t` of the packet (R302, R79). The other fields of a disabled problem are zero
(assumption log 134). -/
def tableBytes (b : List Byte) (p : List Item) (s t : Nat) : List Byte :=
  let pairs := (upFrom 0 16).filterMap (fun q => (problemUnit p s q).map (fun x => x.2))
  let base := if t % 2 = 0 then leAt b 84 4 else leAt b 88 4
  (upFrom 0 16).flatMap (fun q =>
    match problemUnit p s q with
    | none => toBytes 16 0
    | some (i, x) =>
      toBytes 4 (leAt b 76 4 + q / 4 * leAt b 80 4) ++ toBytes 4 (base + pairRank pairs x * leAt b 92 4)
        ++ toBytes 1 i.m ++ toBytes 1 8 ++ toBytes 1 1 ++ toBytes 5 0)

/-- The tables of a packet, in order of pack and step. -/
def allTables (b : List Byte) : Nat → List (List Item) → List Byte
  | _, [] => []
  | t, p :: ps =>
    (upFrom 0 (packTables p)).flatMap (fun s => tableBytes b p s (t + s)) ++ allTables b (t + packTables p) ps

/-- A core's work packet (R301). The bytes between its items and its tables are zero (assumption log 134). -/
def packetBytes (b : List Byte) (seq : Nat) (items : List Item) : List Byte :=
  let n := items.length
  let off := tableOff b n
  toBytes 4 n ++ toBytes 4 (tableCount items) ++ toBytes 4 off ++ toBytes 4 seq ++ toBytes 48 0
    ++ items.flatMap itemBytes ++ toBytes (off - dspWorkOff b - 64 - 64 * n) 0 ++ allTables b 0 (packs4 n items)

/-- The checks of every packet (R303): the sizes of all of them come before what any core holds (assumption log 135). -/
def Dsp.checkWork (x : Dsp) (w : Tbl (List Item)) : Dsp :=
  if w.any (fun p => dspWorkLimit x.b < packetSize x.b p.2) then x.fail 0x20C
  else if !w.all (fun p => x.s.t0Holds p.1 x.ctx (dspWorkOff x.b) (dspWorkLimit x.b)) then x.fail 0x20D
  else x

/-! ### The commands -/

/-- Write a decision table of the context (R288). -/
def Dsp.writeRows (x : Dsp) (bs : List Byte) : Dsp :=
  let pages := pagesOf (dspDecision x.b) bs.length
  let r := pages.foldl (fun (r : Dsp × List Nat) p =>
    let t := r.1.reach p.1 .store false
    (t.1, r.2 ++ [t.2])) (x, [])
  if r.1.err.isSome then r.1
  else
    let cuts := (pages.zip r.2).foldl (fun (c : State × List Byte) p =>
      (c.1.feStore x.d x.uid x.ctx p.2 (c.2.take p.1.2), c.2.drop p.1.2)) (r.1.s, bs)
    { r.1 with s := cuts.1 }

/-- The deadline s3 carries (R306). -/
def State.dispatchDeadline (s : State) (b : List Byte) : Word :=
  if dspReuse b || dspDlm b = 0 then 0
  else if dspDlm b = 1 then BitVec.ofNat 64 ((s.strokeNow + dspDeadlineRel b) * 2 ^ 12)
  else BitVec.ofNat 64 (dspDeadlineAbs b / 2 ^ 12 * 2 ^ 12)

/-- Hand out the parts of a dispatch: those of the leader's die it keeps, each other die gets a share (R305). -/
def State.handOut (s : State) (o : Op) (plan : List Part) (asid root : Nat) : State :=
  let parts := plan.map (fun p => if p.core / 32 = o.die then { p with taken := true, asid := asid, root := root } else p)
  let cores := plan.map Part.core
  let s := s.modOp o.uid (fun o => { o with
    phase := if plan.isEmpty then .ended else .running, plan := plan, parts := parts, dspTotal := plan.length
    decided := true })
  (otherDies o.die cores).foldl (fun (s : State) e =>
    s.setFe e { s.fe e with shares := (s.fe e).shares ++ [{ uid := o.uid, node := 0, block := o.block }] }) s

/-- The uses a decision gives, in token order. -/
def usesOf (rows : List (List (Choice × BitVec 32))) : Uses :=
  rows.flatMap (fun r => (r.filter (fun p => p.1.cause ≤ 1)).map (fun p => (p.1.t, p.1.expert, p.2.toNat)))

/-- The tables of the descriptor are translated, and the launch block is checked (R285, R306). -/
def Dsp.open (x : Dsp) (o : Op) : Dsp :=
  let x := if dspReuse x.b then x else (x.reach (dspRouter x.b) .load false).1
  let x := (x.reach (dspMap x.b) .load true).1
  let x := (x.reach (dspDecision x.b) (if dspReuse x.b then .load else .store) false).1
  let x := (x.reach (dspSets x.b) .load false).1
  if blockFixed o.block then x.fail 0x201 else x

/-- DECIDE mode: decisions and their rows (R291 to R298). -/
def Dsp.decide (x : Dsp) : Dsp × Uses × List Byte × Nat × Nat :=
  let r := x.read (dspRouter x.b) (dspTokens x.b * dspW x.b * 8)
  let y := (r.1.checkSlots r.2).decideAll r.2
  let rows := decisionRows x.b r.2 y.2
  let count (c : Nat) : Nat := (y.2.filter (fun z => z.cause == c)).length
  let k := y.1.s.draw
  ({ y.1 with s := k.1 }, usesOf rows, (rows.flatMap id).flatMap (decisionEntry k.2), count 1, count 2)

/-- REUSE mode: the uses the decision table names (R308); 0xFFFF names no expert. -/
def Dsp.reuse (x : Dsp) : Dsp × Uses :=
  let n := dspTokens x.b * dspK x.b
  let r := x.read (dspDecision x.b) (n * 8)
  (upFrom 0 n).foldl (fun (a : Dsp × Uses) i =>
    let e := leAt r.2 (i * 8) 2
    if e = 0xFFFF || a.1.err.isSome then a
    else
      let v := a.1.valid e
      if v.2 then (v.1, a.2 ++ [(i / dspK x.b, e, leAt r.2 (i * 8 + 4) 4)]) else (v.1.fail 0x20B, a.2)) (r.1, [])

/-- The plan of a dispatch: the parts of its cores, in ascending order. -/
def planOf (w : Tbl (List Item)) : List Part :=
  w.map (fun p => { core := p.1, node := 0, items := p.2, taken := false, asid := 0, root := 0 })

/-- Decide a dispatch, or reuse a decision: the state, the status that ends it, its plan, and the entry's ASID and root.
A failed one keeps what it counted and nominated (R298). -/
def State.runDispatch (s : State) (o : Op) (asid root : Nat) : State × Option Nat × List Part :=
  let x : Dsp := { s := s, d := o.die, uid := o.uid, ctx := o.ctx, asid := asid, root := root, b := o.desc, map := []
                   verdicts := [], hsum := 0, dsum := 0, waits := 0, err := none }
  let x := x.open o
  if dspReuse o.desc then
    let r := x.reuse
    let w := r.1.work r.2
    let x := w.1.checkWork w.2
    (x.s, x.err, planOf w.2)
  else
    let (y, uses, rows, subst, drops) := x.decide
    let w := y.work uses
    let z := w.1.checkWork w.2
    let z := if z.err.isSome then z else z.writeRows rows
    let s := ((z.s.bumpBy (rFe o.die 0xB10) subst).bumpBy (rFe o.die 0xB14) drops).bumpBy (rFe o.die 0xB18) z.waits
    (s.modOp o.uid (fun o => { o with subst := min (subst + drops) 0xFFFF }), z.err, planOf w.2)

/-- The dispatch unit of a die may decide this operation next: it has room, and no operation accepted earlier waits for it
(R309). One accepted earlier that may not start yet does not hold back those of other queues (assumption log 155). -/
def State.dspTurn (s : State) (o : Op) : Bool :=
  (s.dispatching o.die).length < 8
    && !(s.earlier o).any (fun x => x.die == o.die && x.opcode == 0x0A && s.startable x)

/-- DISPATCH_DECIDE and DISPATCH_REUSE; a replay takes the plan it had (R496). -/
def State.dispatch (s : State) (uid : Nat) (reuse : Bool) : Out :=
  s.starts uid 0x0A fun o => whenIt (dspReuse o.desc == reuse && s.dspTurn o) <|
    match s.feCtx o.die o.opcode o.ctx with
    | (s, .error e) => .next (s.opFail uid e)
    | (s, .ok (asid, root)) =>
      let dl := s.dispatchDeadline o.desc
      let r := if o.plan.isEmpty then s.runDispatch o asid root else (s, none, o.plan)
      match r with
      | (s, some e, _) => .next (s.opFail uid e)
      | (s, none, plan) =>
        .next ((s.modOp uid (fun o => { o with dspDeadline := dl })).handOut o plan asid root)

/-- DISPATCH_DECIDE: a DISPATCH_EXPERTS descriptor in DECIDE mode (R291). -/
def execDispatchDecide (uid : Nat) (s : State) : Out := s.dispatch uid false

/-- DISPATCH_REUSE: a DISPATCH_EXPERTS descriptor in REUSE mode (R308). -/
def execDispatchReuse (uid : Nat) (s : State) : Out := s.dispatch uid true

/-! ### Shares and packets: R304 to R306 -/

/-- The overrides a share's launch has: those of its descriptor. -/
def Op.overrides (o : Op) : Overrides := if o.opcode = 0x02 then recipeOverrides o.desc else launchOverrides o.desc

/-- The cores a share's launch runs on, in ascending order. -/
def Op.launchCores (o : Op) (node : Nat) : List Nat :=
  if node = 0 then o.placed
  else match o.nodePlaced.find? (fun e => e.1 == node) with
    | some e => e.2
    | none => []

/-- The launch of a share starts on the cores of its die. -/
def State.stageShare (s : State) (die : Nat) (o : Op) (h : Share) (asid root : Nat) : State :=
  let mine (p : Part) : Bool := p.node == h.node && p.core / 32 == die
  let cores := (o.parts.filter mine).map Part.core
  let s := s.modOp o.uid (fun o =>
    let o := { o with parts := o.parts.filter (fun p => !mine p) }
    if h.node = 0 then { o with cores := o.cores ++ cores }
    else { o with nodeCores := o.nodeCores ++ cores.map (fun c => (c, h.node)) })
  let inl := if h.node = 0 && bitOf o.flags 1 then descInline o.desc else []
  cores.foldl (fun (s : State) c =>
    s.stageOn c (stagedOf h.block (o.launchFor h.node (o.launchCores h.node) c asid root) o.overrides (blockSet h.block)
      inl)) s

/-- DISPATCH_SHARE: a front end takes the oldest share of its queue: it reads the context entry, and starts a launch on
its die's cores, or takes their packets to write (R305, R373, R451). -/
def execDispatchShare (die : Nat) (s : State) : Out :=
  whenPowered s <| whenIt (s.adPresent die) <|
    match (s.fe die).shares with
    | [] => notNow
    | h :: rest =>
      let s0 := s
      let s := s.setFe die { s.fe die with shares := rest }
      match s.op? h.uid with
      | none => .next s
      | some o =>
        match s.feCtx die o.opcode o.ctx with
        | (s, .error e) =>
          let t := s.modOp h.uid (fun o => { o with excOrTimeout := if o.excOrTimeout.isNone then some e else o.excOrTimeout })
          .next (s0.causing h.uid ((t.stopLaunch h.uid h.node).sweep.opCheck h.uid))
        | (s, .ok (asid, root)) =>
          if o.opcode = 0x0A then
            .next (s0.causing h.uid (s.modOp h.uid (fun o => { o with parts := o.parts.map (fun p =>
              if p.core / 32 = die then { p with taken := true, asid := asid, root := root } else p) })))
          else .next (s0.causing h.uid (s.stageShare die o h asid root))

/-- A launch running or staged on a core came from a dispatch with this WORK_OFF (R304). -/
def State.sameWork (s : State) (c off : Nat) : Bool :=
  let k := s.core c
  ((k.launch.map Launch.uid).toList ++ k.staged.map (fun g => g.launch.uid)).any (fun u => match s.op? u with
    | some o => o.opcode == 0x0A && dspWorkOff o.desc == off
    | none => false)

/-- The part of a dispatch whose packet a core gets next, by the order of acceptance. -/
def State.nextPart (s : State) (c : Nat) : Option (Op × Part) :=
  s.work.ops.findSome? (fun o => if o.opcode = 0x0A then
    (o.parts.find? (fun p => p.core == c && p.taken)).map (fun p => (o, p)) else none)

/-- DISPATCH_PACKET_WRITE: a core's packet is written through its window port, and its launch staged (R304, R306). -/
def execDispatchPacketWrite (die : Nat) (core : Nat) (s : State) : Out :=
  whenPowered s <|
    let s := s.fillSlots core
    withSome (s.nextPart core) fun r =>
      let o := r.1
      let p := r.2
      let off := dspWorkOff o.desc
      whenIt (core / 32 == die && s.coreState core == 0 && decide ((s.core core).staged.length < 3)
          && !s.sameWork core off && !s.hangHolds core o.ctx) <|
        let ovr := [(1, off), (2, p.items.length), (3, o.dspDeadline.toNat), (4, dspDecision o.desc)]
        let s := s.windowStore core off (packetBytes o.desc o.seq p.items)
        let left := o.parts.filter (fun x => x != p)
        let s := s.modOp o.uid (fun o => { o with parts := left, cores := o.cores ++ [core] })
        .next (s.stage core (stagedOf o.block (o.launchFor 0 (o.plan.map Part.core) core p.asid p.root) ovr (2 ^ core) []))

end Sys2Proof.Machine
end

