-- ==== Sys2Proof/Machine/StreamEvents.lean ====
section
/-! DEFINITION. Machine/StreamEvents.lean: what comes back to a stream unit: data, acknowledgements, timeouts (R133, R187,
R230 to R236, R267, R318), re-reads of a WAITV (R192), and the built-in programs (R455). -/

namespace Sys2Proof.Machine

/-! ### Data: R133, R187, R236, R267, R318 -/

/-- The scratchpad words of a piece that a range of its bytes reaches get uncorrectable check bits (R318). -/
def State.spoilPart (s : State) (c : Nat) (t : RTag) (a n : Nat) : State :=
  let lo := max a (localPart t.pa)
  let hi := min (a + n) (localPart t.pa + t.len)
  if lo < hi then s.scrSpoil c (t.off + (lo - localPart t.pa)) (hi - lo) else s

/-- The instruction a read tag belongs to, as the cause of a record; a TLD or GATH that has ended LATE has gone. -/
def State.readCause (s : State) (c : Nat) (t : RTag) : Cause :=
  match (s.core c).jobs.find? (fun j => j.seq == t.job) with
  | some j => s.jobCause c j.kind
  | none => .tile 5 0 (s.core c).launch

/-- The bytes that arrive for a tag, with the ranges of bad ones among them (first address, length); none when they have
not been answered yet. The first reads of a window or of the MMIO range are made now. -/
def State.arriving (s : State) (c : Nat) (t : RTag) (r : Option Reply) : Option (State × List Byte × List (Nat × Nat)) :=
  match t.target with
  | .tiered => t.served.map (fun x => (s, x.1, x.2.map (fun sec => (sec * 32, 32))))
  | .window w =>
    let o := localPart t.pa - windowBase w
    let r := s.windowLoad w o t.len (s.readCause c t)
    if !s.readTurn c t then none
    else some (r.1, r.2.1, ((wordsOf o t.len).filter (fun x => s.scrBad w (x * 8) 8)).map (fun x => (windowBase w + x * 8, 8)))
  | .mmio =>
    let r := s.loadMmio t.len (localPart t.pa - mmioBase) t.len
    if s.volReadTurn c t then some (r.1, r.2, []) else none
  | t' =>
    let host := t' == .host || t' == .hostDevice
    let bytes (b : List Byte) : List Byte := if host then s.underDirty t.pa b else b
    if s.timedOut t' t.sent then none
    else match r with
    | some (.data b) => if b.length = t.len then some (s, bytes b, []) else none
    | some (.poisoned b) =>
      if b.length = t.len then some (if host then s.poisonIn t.pa t.len else s, bytes b, [(localPart t.pa, t.len)]) else none
    | _ => none

/-- A read tag is free. -/
def State.freeRead (s : State) (c tag : Nat) : State :=
  s.modCore c (fun k => { k with reads := k.reads.filter (fun x => x.tag != tag), still := 0 })

/-- A place that a TLD from the core's own window writes is one it also reads (R135). The window offset of each row follows
from that of the piece, as in one contiguous mapping (assumption log 42). -/
def State.selfRead (s : State) (c : Nat) (t : RTag) (x : Nat) : Bool :=
  match (s.core c).jobs.find? (fun j => j.seq == t.job) with
  | some j => match j.kind with
    | .tld f d base dist =>
      let r := tileRows (tdOf d) f.sc
      let i := if r.2.1 = 0 then 0 else (t.off - r.1) / r.2.1
      let va := base + i * dist + (t.off - r.1 - i * r.2.1)
      let src := localPart t.pa - windowBase c
      t.target == .window c && src ≤ va + x && rowsCover base dist (tdOf d).rows r.2.2 (va + x - src)
    | _ => false
  | none => false

/-- Bytes of a read reach the scratchpad; those of an instruction a fault has overtaken are undefined (R198), and so are
those a copy within the scratchpad reads as well (R135). -/
def State.landRead (s : State) (c : Nat) (t : RTag) (bs : List Byte) (bad : List (Nat × Nat)) : State :=
  let tainted := (s.core c).jobs.any (fun j => j.seq == t.job && j.tainted)
  let k := s.draw
  let self := s.selfRead c t
  let s := if tainted || t.target == .window c then k.1 else s
  let bs := if tainted then (upFrom 0 bs.length).map (Config.freeByte k.2) else selfBytes self k.2 t.off bs
  bad.foldl (fun (s : State) p => s.spoilPart c t p.1 p.2) (s.scrWrite c t.off bs)

/-- The target of a request is a scratchpad window. -/
def Target.isWindow : Target → Bool
  | .window _ => true
  | _ => false

/-- Bytes of a read arrive: in the scratchpad, or for the built-in program that asked for them (R455). An uncorrectable word
of a scratchpad that the read has met raises UNCORRECTABLE (R196). -/
def State.land (s : State) (c : Nat) (t : RTag) (bs : List Byte) (bad : List (Nat × Nat)) : State :=
  match (s.core c).jobs.find? (fun j => j.seq == t.job) with
  | some j => (match j.kind with
    | .builtin g => s.landMove c j g t.off bs (!bad.isEmpty)
    | _ =>
      let s := s.landRead c t bs bad
      if t.target.isWindow && !bad.isEmpty then s.execFault c j excUncorrectable 0 else s)
  | none => s.landRead c t bs bad

/-- A deadline that has come is met before anything that arrives (R187). -/
def State.deadlineFirst (s : State) (c : Nat) (t : RTag) : State :=
  match (s.core c).jobs.find? (fun j => j.seq == t.job) with
  | some j => (match j.deadline with
    | some d => if s.reached d then s.lateJob c j else s
    | none => s)
  | none => s

/-- The home of a read with a deadline answers early with LATE (R267): only a home of the module does (R608). -/
def State.earlyLate (s : State) (c : Nat) (t : RTag) : Act :=
  let timed := (s.core c).jobs.any (fun j => j.seq == t.job && j.deadline.isSome)
  whenIt (timed && t.target == .tiered && t.served.isNone && !t.dead && !t.early) <|
    let s := s.withMem { s.mem with waitq := s.mem.waitq.filter (fun r => r.kind != .coreTag c t.tag) }
    .next ((s.modCore c (fun k => { k with reads := k.reads.map (fun x =>
      if x.tag == t.tag then { x with early := true } else x) })).after c)

/-- STREAM_DATA_ARRIVAL: the answer to a read tag arrives (R133, R187, R267, R318). -/
def execStreamDataArrival (c : Nat) (tag : Nat) (r : Option Reply) (s : State) : Out :=
  whenPowered s <| withSome (s.rtag c tag) fun t =>
    if r = some .late then s.earlyLate c t
    else
      let s := s.deadlineFirst c t
      withSome (s.rtag c tag) fun t =>
        if t.dead then .next ((s.freeRead c tag).after c)
        else if t.early then notNow
        else withSome (s.arriving c t r) fun x =>
          .next (((x.1.land c t x.2.1 x.2.2).freeRead c tag).after c)

/-! ### Device timeouts: R234 to R236, R499, R613 -/

/-- The record of a device timeout, of the operation on a core when there is one. -/
def State.timeoutRecord (s : State) (w : Cause) (unit : BitVec 64) (pa : Nat) : State :=
  s.logBy w { errRec unit 0x0A 2 with syndrome := pa }

/-- The unit a timed-out access of core `c` is recorded for: its stream unit, or the CXL block for a read without a
session (R234, R613). -/
def State.timeoutUnit (s : State) (c : Nat) (t : Target) (read : Bool) : BitVec 64 :=
  if read && (t == .host || t == .hostDevice) && !s.cxl.session then s.path 6 0 0 0 0 else s.corePath c 0x5 0

/-- DEVICE_READ_TIMEOUT: a read is not answered in time: every byte is 0xFF, STATUS bit 0 of the launch that made it is set, a
record is logged (R236, R613). One whose instruction has ended LATE has its data discarded (R187). -/
def execDeviceReadTimeout (c : Nat) (tag : Nat) (s : State) : Out :=
  whenPowered s <| withSome (s.rtag c tag) fun t =>
    whenIt (s.timedOut t.target t.sent && !t.early) <|
      let s := s.deadlineFirst c t
      withSome (s.rtag c tag) fun t =>
        let s := (s.timeoutRecord (s.readCause c t) (s.timeoutUnit c t.target true) t.pa).modCore c (fun k =>
          { k with devTimeout := k.devTimeout || !t.past })
        if t.dead then .next ((s.freeRead c tag).after c)
        else .next (((s.land c t ((upFrom 0 t.len).map (fun _ => 0xFF)) []).freeRead c tag).after c)

/-! ### Writes: R133, R203, R229, R231 -/

/-- A write tag is free; ATOM's register takes the old value, free when a fault has overtaken the instruction (R190). -/
def State.freeWrite (s : State) (c : Nat) (w : WTag) (old : Option Nat) : State :=
  let tainted := (s.core c).jobs.any (fun j => j.seq == w.job && j.tainted)
  let rd := ((s.core c).jobs.find? (fun j => j.seq == w.job)).bind Job.rd
  let k := s.draw
  let s := if tainted then k.1 else s
  s.modCore c (fun x =>
    let x := match rd, old with
      | some r, some v =>
        { x with s := x.s.setD (fun _ => 0) r (if tainted then Config.freeWord k.2 else BitVec.ofNat 64 v) }
      | _, _ => x
    { x with writes := x.writes.filter (fun y => y.tag != w.tag), still := 0 })

/-- A window port performs a write tag: stores, atomics, and adds one element after another (R149, R150, R184). -/
def State.windowTag (s : State) (c x : Nat) (w : WTag) : State × Option Nat :=
  let o := localPart w.pa - windowBase x
  match w.op with
  | .store bs => (s.windowStore x o bs, none)
  | .atom op f v cmp =>
    let r := s.windowAtomic x o op f v cmp (.tile w.code.1 w.code.2 (s.core c).launch)
    (r.1, some r.2)
  | .adds f es =>
    ((es.zip (upFrom 0 es.length)).foldl (fun (s : State) p =>
      (s.windowAtomic x (o + p.2 * atomBytes f) .add f p.1 0 (.tile w.code.1 w.code.2 (s.core c).launch)).1) s, none)

/-- The bytes a write covers at its target. -/
def WOp.span : WOp → Nat
  | .store bs => bs.length
  | .atom _ f _ _ => atomBytes f
  | .adds f es => es.length * atomBytes f

/-- An atomic or an add of a write tag meets an uncorrectable word of a scratchpad (R128, R196). -/
def State.windowBad (s : State) (x : Nat) (w : WTag) : Bool :=
  match w.op with
  | .store _ => false
  | _ => s.scrBad x (localPart w.pa - windowBase x) w.op.span

/-- The instruction of a write tag raises UNCORRECTABLE for such a word; it may have left its unit (R196, R198). -/
def State.windowFault (s : State) (c : Nat) (w : WTag) : State :=
  s.faultAt c w.job w.pc excUncorrectable 0

/-- A remote home has refused an operation of core `c` on poison (R319). -/
def State.remotePoison (s : State) (c : Nat) : State :=
  match (s.core c).launch with
  | some l => s.modOp l.uid (fun o => { o with poison := true })
  | none => s

/-- A write tag has come as far as frees it: the state, and the old value of an atomic; none when it has not. -/
def State.ackOf (s : State) (c : Nat) (w : WTag) (r : Option Reply) : Option (State × Option Nat) :=
  match w.target with
  | .tiered => if s.tagDone c w then some (s, w.old) else none
  | .window x =>
    if s.writeTurn c w then
      let r := s.windowTag c x w
      let t := r.1.noteWrote c w.job w.pa w.op.span
      some (if s.windowBad x w then t.windowFault c w else t, r.2)
    else none
  | .mmio =>
    if s.volWriteTurn c w then some (s.writeMmioBytes w.op.bytes.length (localPart w.pa - mmioBase) w.op.bytes, none)
    else none
  | .host => if w.stage == .performed then some (s, none) else none
  | .hostDevice => if r = some .ack && !s.timedOut w.target w.sent then some (s, none) else none
  | .remote _ =>
    if s.timedOut w.target w.sent then none
    else match w.op, r with
    | .atom _ f _ _, some (.data b) => if b.length = atomBytes f then some (s, some (ofBytes b)) else none
    | .atom _ _ _ _, some (.poisoned _) => some (s.remotePoison c, some (2 ^ 64 - 1))
    | .atom _ _ _ _, _ => none
    | .adds _ _, some (.poisoned _) => some (s.remotePoison c, none)
    | _, some .ack => some (s, none)
    | _, _ => none

/-- The acknowledgement of a hart's store, or the answer to its load or far atomic (R414); poisoned data raise a hardware
error (R413). None comes after the device timeout (R238). -/
def State.hartAck (s : State) (h id : Nat) (r : Option Reply) : Act :=
  withSome ((s.hart h).stores.find? (fun x => x.id == id && !x.cacheable)) fun x =>
    let k := s.hart h
    let host := x.target == .host || x.target == .hostDevice
    let k := { k with stores := k.stores.filter (fun y => y.id != id) }
    let done (k : Hart) (s : State) : Act := .next ((s.setHart h k.settle).hartDrain)
    whenIt (x.target != .tiered && !s.timedOut x.target x.sent) <|
      if x.load then
        match r with
        | some (.data b) => whenIt (b.length = x.bytes.length) <|
            let b := if host then s.underDirty x.pa b else b
            .next (((s.setHart h k.settle).hartGets h x.vec x.pa b false).emit
              { kind := .data, args := [16 + h / 48, x.pa, 0], bytes := b }).hartDrain
        | some (.poisoned _) => done { k with trap := some { cause := 19, tval := some x.pa } } (if host then s.poisonIn x.pa x.bytes.length else s)
        | _ => notNow
      else whenIt (r == some .ack) (done k s)

/-- The acknowledgement of a front end's write (R203); those of one queue come in order (R461). A write to a register is performed
with it. -/
def State.feAcked (s : State) (d tag : Nat) (ok : FeWrite → Bool) : Act :=
  withSome ((s.fe d).writes.find? (fun w => w.tag == tag)) fun w =>
    whenIt (ok w && (s.fe d).oldest w && !s.timedOut w.target w.sent) <|
      let s := if w.target == .mmio then s.writeMmioBytes w.bytes.length (localPart w.pa - mmioBase) w.bytes else s
      .next (s.feAck d w).afterAll

/-- WRITE_ACK: the acknowledgement of a write tag; numbers from 256 name the stores and loads of harts, those from 1,024 the
writes of front ends (R133, R203, R231, R414). -/
def execWriteAck (c : Nat) (tag : Nat) (r : Option Reply) (s : State) : Out :=
  whenPowered s <|
    if 1024 ≤ c then s.feAcked (c - 1024) tag (fun w => r == some .ack && w.target != .host)
    else if 256 ≤ c then s.hartAck (c - 256) tag r
    else withSome (s.wtag c tag) fun w => withSome (s.ackOf c w r) fun x =>
      .next ((x.1.freeWrite c w x.2).after c)

/-- GLOBAL_OBSERVATION: the host's response makes a write through a cacheable window performed (R606); for a hart's store
it brings the ownership of its lines. Numbers 512 and 513 name the processor dies: `tag` is then a line of a cacheable
host window that the die has asked for with ownership. Numbers from 1,024 name the writes of front ends. -/
def execGlobalObservation (c : Nat) (tag : Nat) (s : State) : Out :=
  whenPowered s <| whenIt s.cxl.session <|
    if 1024 ≤ c then s.feAcked (c - 1024) tag (fun w => w.target == .host)
    else if 512 ≤ c then
      whenIt (s.pdPresent (c - 512) && s.target (s.node * 2 ^ 49 + tag * 128) == some .host) <|
        .next (s.trackHold tag (16 + (c - 512)) true).hartDrain
    else if 256 ≤ c then
      withSome ((s.hart (c - 256)).stores.find? (fun x => x.id == tag && x.cacheable && x.target == .host)) fun x =>
        let i := 16 + (c - 256) / 48
        whenIt (!s.timedOut x.target x.sent) <| .next ((linesOf (localPart x.pa) x.bytes.length).foldl (fun (s : State) l => s.trackHold l i true) s).hartDrain
    else withSome (s.wtag c tag) fun w =>
      whenIt (w.target == .host && w.stage == .sent && !s.timedOut w.target w.sent) <|
        .next ((s.performed c tag none).after c)

/-- The core waits on older writes: at a SYNC, at END, or in the drain before it stops (R234). -/
def Core.waitsDrain (k : Core) : Bool :=
  match k.block with
  | .fence _ _ | .bar _ _ _ | .ending | .draining => true
  | _ => false

/-- A release of the core waits to start behind its older writes, or an ATOM waits for this very write (R211, R234). -/
def Core.waitsRelease (k : Core) (w : WTag) : Bool :=
  k.jobs.any (fun j => (j.release && !j.begun && w.job < j.seq) || (j.seq == w.job && (match j.kind with
    | .atom _ _ _ _ _ => true
    | _ => false)))

/-- DEVICE_WRITE_TIMEOUT: a write is not acknowledged in time, or its target is known lost: it is discarded (R234, R235).
Numbers from 1,024 name the writes of front ends.
An ATOM so discarded gives its register a value the spec does not state: a free one. -/
def execDeviceWriteTimeout (c : Nat) (tag : Nat) (s : State) : Out :=
  whenPowered s <|
  if 1024 ≤ c then
    withSome ((s.fe (c - 1024)).writes.find? (fun w => w.tag == tag)) fun w =>
      whenIt (s.timedOut w.target w.sent) ((s.feLate (c - 1024) w).andThen State.afterAll)
  else withSome (s.wtag c tag) fun w =>
    whenIt (s.timedOut w.target w.sent && w.stage == .sent) <|
      let d := c / 32
      let k := s.core c
      let ctx := (k.launch.map Launch.ctx).getD 0
      let s := s.timeoutRecord (.tile w.code.1 w.code.2 k.launch) (s.timeoutUnit c w.target false) w.pa
      let s := (s.bump (rFe d 0xA00)).setReg (rFe d 0xA08) (BitVec.ofNat 64 (ctx % 4096 * 2 ^ 48 + w.pa % 2 ^ 56 / 256))
      let s := s.modCore c (fun x => { x with syncTimeout := x.syncTimeout || k.waitsDrain
                                              devTimeout := x.devTimeout || k.waitsRelease w })
      let (s, n) := s.draw
      .next ((s.freeWrite c w (some (Config.freeWord n).toNat)).after c)

/-! ### WAITV on a target that must be read again: R192 -/

/-- What comes back for a WAITV's read that is out: its word, or all ones at the device timeout or from a lost target (R236,
R613). A poisoned word is not tested (assumption log 130). -/
def State.waitvBack (s : State) (c : Nat) (f : WaitvF) (dl : Option Nat) (o : WaitRead) (r : Option Reply) : Act :=
  let n := waitvBits f / 8
  let host := o.target == .host || o.target == .hostDevice
  if s.timedOut o.target o.sent then
    let s := (s.timeoutRecord (.tile 0xB 0 (s.core c).launch) (s.timeoutUnit c o.target true) o.pa).modCore c (fun k => { k with devTimeout := true })
    .next ((s.waitvTest c f dl (2 ^ (8 * n) - 1)).after c)
  else match r with
    | some (.data b) =>
      whenIt (b.length = n) (.next ((s.waitvTest c f dl (ofBytes (if host then s.underDirty o.pa b else b))).after c))
    | some (.poisoned _) => .next (if host then s.poisonIn o.pa n else s)
    | _ => notNow

/-- WAITV_REREAD: a WAITV reads its target again: after a write to the line, or each stroke where the home reports none; or
the answer to its last read arrives (R192). A deadline that has come ends it first (R187). -/
def execWaitvReread (c : Nat) (dev : Option Reply) (s : State) : Out :=
  whenPowered s <| withSome (s.core c).launch fun l =>
    match (s.core c).block with
    | .waitv f va pc dl o =>
      if s.waitOver dl then .next ((s.lateWaitv c f).after c)
      else match o with
        | none => .next ((s.waitvLook c f va pc dl l).after c)
        | some o => (s.modCore c (fun k => { k with block := .waitv f va pc dl none })).waitvBack c f dl o dev
    | _ => notNow

/-! ### The built-in programs: R455 -/

/-- A built-in program begins on a core: its accesses go through the stream unit like those of any tile program, and END
follows them (R171, R455). -/
def State.builtin (s : State) (c idx : Nat) : Out :=
  whenPowered s <| withSome (s.core c).launch fun l =>
    let k := s.core c
    whenIt (k.pc.toNat = 2 ^ 63 + idx && k.block = .none) <|
      let g : Prog := { idx := idx, args := (upFrom 1 6).map (fun r => (k.sreg r).toNat), next := l.rank
                        step := max 1 l.cores, moves := [] }
      let s := s.enqueue c k { h := { pred := 0, pneg := true, x := false }, illegal := false } 5 (.builtin g)
        (fun j => { j with begun := true, planned := true })
      .next ((s.modCore c (fun k => { k with block := .ending, waiting := false, still := 0 })).after c)

/-- COPY: s1 source, s2 destination, s3 length; overlapping ranges leave the destination undefined (R455). -/
def execCopy (c : Nat) (s : State) : Out := s.builtin c 1

/-- FILL: s1 destination, s2 length, s3 the pattern repeated from the destination (R455). -/
def execFill (c : Nat) (s : State) : Out := s.builtin c 2

/-- COPY_2D: s1 source, s2 destination, s3 row length, s4 rows, s5 and s6 row distances (R455). -/
def execCopy2d (c : Nat) (s : State) : Out := s.builtin c 3

end Sys2Proof.Machine
end

