-- ==== Sys2Proof/Machine/Harts.lean ====
section
/-! DEFINITION. Machine/Harts.lean: what the harts' stores and atomics do to the rest of the module (R407 to R414, R238). The
harts' own instructions are RISC-V's and stand outside the model. -/

namespace Sys2Proof.Machine

/-- A hart's access is a device access (R408, R409). -/
def hartDevice (t : Target) (p : Pbmt) : Bool :=
  match t with
  | .mmio | .hostDevice => true
  | .tiered | .host => p == .io
  | _ => false

/-- A hart's access is cacheable (R408, R409). -/
def hartCacheable (t : Target) (p : Pbmt) : Bool := (t == .tiered || t == .host) && p == .pma

/-- A load of `n` bytes that no cache of the die serves (R408, R409): it goes to its home, a window port, a register, the host or
another node. A cacheable one is a READ_SHARED. A load that nothing backs raises an access fault (R151, R244), and so does a
device load of more than 8 B or into a vector register; a device load waits for the hart's older device accesses (R412). -/
def State.hartLoad (s : State) (h : Nat) (a : HartAcc) (pa n : Nat) (e : Ecc) : Act :=
  let k := s.hart h
  let who := Agent.hart h a
  let done (s : State) (bs : List Byte) (bad : Bool) : Act :=
    .next ((s.emit { kind := .data, args := [agentId who, pa, b2n bad], bytes := bs }).hartGets h a.vec pa bs bad)
  whenIt (1 ≤ n && pa % 128 + n ≤ 128 && s.hartMay who pa n true false) <|
    match s.target pa with
    | none => .next (s.hartTrap h 5 none)
    | some t =>
      let dev := hartDevice t a.pbmt
      if dev && (8 < n || a.vec.isSome) then .next (s.hartTrap h 5 none)
      else whenIt (!hartCacheable t a.pbmt && !(dev && k.deviceOut)) <|
        let opened := s.hartEnter h pa (List.replicate n 0) t false dev true false false a.vec
        match t with
        | .tiered => whenIt (s.inTiered pa n) <|
            (opened.reqArrive { line := localPart pa / 128, kind := .naRead pa n, who := who, e := e, tag := k.nextId }).andThen
              State.hartDrain
        | .window c =>
          let r := s.windowLoad c (localPart pa - windowBase c) n .request
          done r.1 r.2.1 r.2.2
        | .mmio =>
          let r := s.loadMmio n (localPart pa - mmioBase) n
          done r.1 r.2 false
        | t => .next (opened.sendOut t pa [0] [])

/-- NON_ALLOCATING_READ: a volatile read, or a read of an agent that holds no copy (R340). -/
def execNonAllocatingRead (src : NaSrc) (e : Ecc) (s : State) : Out :=
  whenPowered s <|
    match src with
    | .tag c tag =>
      withSome (s.rtag c tag) fun t =>
        let plain := (s.core c).jobs.any (fun j => j.seq == t.job && !j.kind.vol)
        whenIt (t.target == .tiered && t.served.isNone && !t.early && !plain && s.readTurn c t)
          (s.tagAtHome c tag (localPart t.pa / 128) e)
    | .agent who pa n =>
      match who with
      | .hart h a => s.hartLoad h a pa n e
      | _ => whenIt (1 ≤ n && pa % 128 + n ≤ 128 && s.inTiered pa n) <|
          (s.reqArrive { line := localPart pa / 128, kind := .naRead pa n, who := who, e := e }).andThen State.afterAll

/-- The targets of an access of `n` bytes: one, or two where a misaligned one reaches from one range into the next, with the first
address of the second (R408, R410). -/
def State.hartTarget (s : State) (pa n : Nat) : Option (Target × Option (Nat × Target)) :=
  match s.target pa, s.target (pa + n - 1) with
  | some t, some u => if t == u then some (t, none) else some (t, some ((pa + n - 1) / 4096 * 4096, u))
  | _, _ => none

/-- The line of a cacheable host window is asked of the host, with ownership (R606). -/
def State.askHost (s : State) (h pa : Nat) (t : Target) : State :=
  if t == .host && s.cxl.session && !s.ownsLine (16 + h / 48) (localPart pa / 128) then s.emitN .cxl [2, pa] else s

/-- The bytes a hart's store writes: given ones, or the first elements of a vector register (R401). -/
def hartBytes (d : HartData) (k : Hart) : List Byte :=
  match d with
  | .scalar bs => bs
  | .vector r eew n => toBytes (eew * n) (k.v.getD (fun _ => 0) r).toNat

/-- The store is a vector store, which a device does not take (R412). -/
def hartVector : HartData → Bool
  | .vector _ _ _ => true
  | .scalar _ => false

/-- An access of a hart whose line its die owns passes the die's caches (R354 to R356): what they find in the line, and the
line's use. -/
def State.slcPass (s : State) (h pa : Nat) (f : Finds) : State :=
  let line := localPart pa / 128
  if s.ownsLine (16 + h / 48) line then ((s.slcError (h / 48) line f.slc).sramError h line f.sram).dieUse h line else s

/-- One part of a store of a hart, in one range (R407 to R414). To cacheable memory it enters the store buffer and performs when
its die owns the lines; to a window, the MMIO range, or memory it may not cache it performs at its home; to a device of the
host or another node it waits for the acknowledgement. -/
def State.storePart (s : State) (h pa : Nat) (bytes : List Byte) (f : Finds) (pbmt : Pbmt) (t : Target) : Act :=
  let k := s.hart h
  let n := bytes.length
  let dev := hartDevice t pbmt
  whenIt (k.canStart (hartCacheable t pbmt) false true) <|
    if hartCacheable t pbmt then
      let s := s.slcPass h pa f
      .next (((s.hartEnter h pa bytes t true false false true false).askHost h pa t).drainHart h)
    else whenIt (!k.older pa n && !(dev && k.deviceOut)) <|
      match t with
      | .tiered =>
        if pa % 128 + n ≤ 128 then
          ((s.hartEnter h pa bytes t false dev false true false).reqArrive
            { line := localPart pa / 128, kind := .naWrite pa bytes, who := .hart h { off := 0, n := 0 }, e := f.e
              tag := k.nextId }).andThen State.afterAll
        else .next (s.sysWrite pa bytes).afterAll
      | .window c => .next (s.windowStore c (localPart pa - windowBase c) bytes)
      | .mmio => .next (s.writeMmioBytes n (localPart pa - mmioBase) bytes)
      | t => .next ((s.hartEnter h pa bytes t false dev false true false).sendOut t pa [1] bytes)

/-- HART_STORE: a store of a hart (R407 to R414). One that nothing backs raises an access fault, and so does a device store of a
vector, or of more than 8 B; a misaligned one that reaches into another range is performed in two parts (R410). -/
def execHartStore (h : Nat) (pa : Nat) (src : HartWrite) (pbmt : Pbmt) (s : State) : Out :=
  whenPowered s <|
    let k := s.hart h
    let bytes := hartBytes src.data k
    let n := bytes.length
    let bad (t : Target) : Bool := hartDevice t pbmt && (hartVector src.data || 8 < n)
    whenIt (s.hartRuns h && 1 ≤ n && n ≤ 128) <|
      match s.hartTarget pa n with
      | none => k.trapTurn (s.hartTrap h 7 none)
      | some (t, none) =>
        if bad t then k.trapTurn (s.hartTrap h 7 none) else s.storePart h pa bytes src.f pbmt t
      | some (t, some (b, u)) =>
        if bad t || bad u then k.trapTurn (s.hartTrap h 7 none)
        else match s.storePart h pa (bytes.take (b - pa)) src.f pbmt t with
          | .next x => match x.storePart h b (bytes.drop (b - pa)) src.f pbmt u with
            | .next y => .next y
            | a => a
          | a => a

/-- The result of an AMO on operands of `n` bits (RV64A). -/
def amoNew (op : HartAmo) (n old v : Nat) : Nat :=
  match op with
  | .swap | .lrsc => v
  | .add => (old + v) % 2 ^ n
  | .xor => old ^^^ v
  | .and => old &&& v
  | .or => old ||| v
  | .min => if signed v n < signed old n then v else old
  | .max => if signed old n < signed v n then v else old
  | .minu => min old v
  | .maxu => max old v

/-- The bytes a die's cached line holds: those of a host line it has not written itself are free values. -/
def State.lineBytes (s : State) (pa n : Nat) (t : Target) : State × List Byte :=
  if t == .tiered then (s, s.sysRead pa n)
  else
    let r := s.draw
    (r.1, (upFrom (localPart pa) n).map (fun a => match s.mem.dirty.get? a with
      | some b => b
      | none => Config.freeByte r.2 a))

/-- The old value of an AMO, as its hart receives it. -/
def State.amoResult (s : State) (h pa : Nat) (bs : List Byte) : State :=
  s.emit { kind := .data, args := [16 + h / 48, pa, 0], bytes := bs }

/-- An AMO performed at its home as a far atomic (R411), in one step with what it waits for there (assumption log 12); on
poison the home refuses it (R319). -/
def State.homeAmo (s : State) (h pa : Nat) (op : HartAmo) (n v : Nat) (e : Ecc) : State :=
  let ls := linesOf (localPart pa) n
  let s := ls.foldl State.recall (ls.foldl State.lineTurn s)
  let s := (s.applyEcc (localPart pa / 128) e).touch pa
  if s.anyPoison pa n then (s.refusePoison pa none none).hartTrap h 19 (some pa)
  else
    let old := s.sysRead pa n
    ((s.homeStore pa (toBytes n (amoNew op (8 * n) (ofBytes old) v))).amoResult h pa old).afterAll

/-- An AMO performed in the cache of a die that owns the line (R225, R411, R413). -/
def State.cacheAmo (s : State) (h pa : Nat) (op : HartAmo) (n v : Nat) (t : Target) : State :=
  if s.anyPoison pa n then s.hartTrap h 19 (some pa)
  else
    let r := s.lineBytes pa n t
    ((r.1.soleCore h (localPart pa / 128)).hartPut pa (toBytes n (amoNew op (8 * n) (ofBytes r.2) v))).amoResult h pa r.2

/-- An AMO performed at a window port (R150). -/
def State.windowAmo (s : State) (h c pa : Nat) (op : HartAmo) (n v : Nat) : State :=
  let o := localPart pa - windowBase c
  let r := s.windowLoad c o n .request
  if r.2.2 then r.1.hartTrap h 19 (some pa)
  else (r.1.scrWrite c o (toBytes n (amoNew op (8 * n) (ofBytes r.2.1) v))).amoResult h pa r.2.1

/-- The code of an AMO where it leaves for another node. -/
def amoCode : HartAmo → Nat
  | .swap => 0 | .add => 1 | .xor => 2 | .and => 3 | .or => 4 | .min => 5 | .max => 6 | .minu => 7 | .maxu => 8 | .lrsc => 9

/-- HART_AMO: an AMO, or an LR/SC pair that succeeds, of 4 or 8 bytes (R410, R411). With rl it waits for the hart's older
accesses; with aq younger ones wait for it (R219). An error of the die's cache may cost it the line, which it then has to ask
for again (R356). -/
def execHartAmo (h : Nat) (pa : Nat) (op : HartAtomic) (wide : Bool) (v : BitVec 64) (pbmt : Pbmt) (s : State) : Out :=
  let o := op.o
  let f := op.f
  let op := op.op
  whenPowered s <|
    let n := if wide then 8 else 4
    let x := v.toNat % 2 ^ (8 * n)
    let k := s.hart h
    let isLr := op == .lrsc
    whenIt (s.hartRuns h) <|
      if pa % n ≠ 0 then k.trapTurn (s.hartTrap h (if isLr then 4 else 6) none)
      else match s.target pa with
        | none => k.trapTurn (s.hartTrap h (if isLr then 5 else 7) none)
        | some t =>
          let plain := hartCacheable t pbmt
          let dev := hartDevice t pbmt
          let far := t != .mmio && t != .hostDevice && !(t == .host && !plain)
          if !far || (isLr && !plain) then k.trapTurn (s.hartTrap h (if isLr then 5 else 7) none)
          else whenIt (k.canStart plain true true && !k.older pa n && !(o.rl && !k.stores.isEmpty)
              && !(dev && k.deviceOut)) <|
            if plain then
              whenIt (s.ownsLine (16 + h / 48) (localPart pa / 128)) <|
                let s := s.slcPass h pa f
                .next (if s.ownsLine (16 + h / 48) (localPart pa / 128) && !s.mem.lost.contains (localPart pa / 128)
                       then s.cacheAmo h pa op n x t else s)
            else match t with
              | .window c => .next (s.windowAmo h c pa op n x)
              | .remote _ =>
                .next ((s.hartEnter h pa (toBytes n x) t false false true true o.aq).sendOut t pa [2, amoCode op, n] (toBytes n x))
              | _ => .next (s.homeAmo h pa op n x f.e)

/-- PROCESSOR_DEVICE_TIMEOUT: a store of a hart is not acknowledged in time, or its target is known lost: it is discarded
and logged, and the hart gets a RAS interrupt; a read so timed out returns all ones (R235, R238). -/
def execProcessorDeviceTimeout (h : Nat) (id : Nat) (s : State) : Out :=
  whenPowered s <| withSome ((s.hart h).stores.find? (fun x => x.id == id)) fun x =>
    whenIt (s.timedOut x.target x.sent) <|
      let k := s.hart h
      let path := s.path (4 + h / 48) (h / 24 % 2) (h / 8 % 3) (h % 8) 0
      let s := s.log { errRec path 0x0A 2 with opKind := 3, syndrome := x.pa }
      let s := s.setHart h ({ k with stores := k.stores.filter (fun y => y.id != id) }).settle
      let s := if x.load then s.amoResult h x.pa (x.bytes.map (fun _ => 0xFF)) else s
      .next (s.msi h 0 (s.regN (rPd (h / 48) 0x20) % 2 ^ 9)).hartDrain

end Sys2Proof.Machine
end

