-- ==== Sys2Proof/Machine/Hatch.lean ====
section
/-! DEFINITION. Machine/Hatch.lean: the hatch bus: module frames, management chunks, the messages that the hub answers, and
debug scan (chapter 20; R534, R639 to R641). -/

namespace Sys2Proof.Machine

/-! ### The bus: R647 to R650 -/

/-- A stroke of the module's own line is one the bus uses; on the grid, the strokes are those of the grid, which is
independent of the module's lines (R648). -/
def State.inStroke (s : State) (l : List Nat) : Bool := s.hatch.framing != .marks || l.contains s.ruling.stroke

/-! ### The module frame: R652 -/

/-- The burst request of a frame (R522); the reserved REQ_MODE 3 acts as the reset value 2 (assumption log 21). -/
def State.burstAsked (s : State) : Bool :=
  match bitsOf (s.regN (rPwr 0x10)) 29 28 with
  | 0 => false
  | 1 => true
  | _ => s.power.wanted

/-- Bytes 0 to 11 of the module frame (table "Module frame"). -/
def State.frameBody (s : State) : List Byte :=
  let b0 := b2n s.burstAsked * 128 + b2n s.work.oos * 64 + b2n s.hatch.alert * 32 + b2n s.power.tripped * 16
    + bitsOf s.boot.straps.toNat 6 4 * 2 + b2n (s.boot.phase == 2)
  let b1 := s.ruling.state.code * 32 + b2n s.power.creditOut * 16 + b2n (s.power.limiter.get? 17).isSome * 8
    + b2n (s.hatch.framing == .marks) * 4
  let hot := (s.power.temps.map Prod.snd).foldl max 0
  toBytes 1 b0 ++ toBytes 1 b1 ++ toBytes 2 (s.regN (rPwr 0x18) % 4096) ++ toBytes 2 s.ruling.line ++ toBytes 1 hot
    ++ toBytes 5 0

/-- MODULE_FRAME_SEND: at stroke 2 the module sends its frame with its CRC; with the hatch clock lost or not yet usable it
drives nothing (R652). -/
def execModuleFrameSend (s : State) : Out :=
  whenHub s <| whenIt (s.hatch.framing != .none && s.inStroke [2]) <|
    if s.busOpen then
      .next (s.emit { kind := .frame, args := [], bytes := s.frameBody ++ toBytes 2 (crc16 s.frameBody) })
    else .next s

/-! ### Management chunks: R653, R654 -/

/-- One byte into CRC-8 with polynomial 0x07 (R653). -/
def crc8Byte (crc b : Nat) : Nat :=
  (upFrom 0 8).foldl (fun c _ => if 2 ^ 7 ≤ c then Nat.xor (c * 2 % 2 ^ 8) 0x07 else c * 2) (Nat.xor crc b)

/-- CRC-8 with initial value 0 over bytes (R653). -/
def crc8 (bs : List Byte) : Nat := bs.foldl (fun c b => crc8Byte c b.toNat) 0

/-- A chunk passes its checks in a stroke of `n` cycles (R653). -/
def chunkOk (n : Nat) (b : List Byte) : Bool :=
  let len := leAt b 0 1 % 128
  len ≤ n - 3 && crc8 (b.take (len + 1)) == leAt b (len + 1) 1

/-- The packet in progress is over: it joins the packets held, at most 8, or is dropped and counted (R654). -/
def State.takePacket (s : State) (p : List Byte) : State :=
  let s := s.withHatch { s.hatch with part := none, skip := true }
  if s.hatch.rx.length < 8 then s.withHatch { s.hatch with rx := s.hatch.rx ++ [p] } else s.bump (rHatch 0x14)

/-- Payload joins the packet in progress, which ends when its BYTE_COUNT bytes are there (R654). -/
def State.appendChunk (s : State) (p : List Byte) : State :=
  if 2 ≤ p.length && 2 + leAt p 0 2 ≤ p.length then s.takePacket ((p.drop 2).take (leAt p 0 2))
  else s.withHatch { s.hatch with part := some p, skip := false }

/-- MANAGEMENT_CHUNK: a chunk from the tray, in strokes 4 to 12 and, without scan, 14 (R650, R653, R654); a data cycle that
the operand does not name carries 0x00 (R649). -/
def execManagementChunk (bytes : List Byte) (s : State) : Out :=
  whenHub s <|
    let n := s.strokeCycles
    let bytes := bytes.take (n - 1)
    whenIt (s.busOpen && s.inStroke ([4, 6, 8, 10, 12] ++ (if s.hatch.scan then [] else [14]))) <|
      let len := leAt bytes 0 1 % 128
      let data := (bytes.drop 1).take len
      if !chunkOk n bytes then
        .next ((s.withHatch { s.hatch with part := none, skip := true }).bump (rHatch 0x10))
      else if len = 0 then .next s
      else if bitOf (leAt bytes 0 1) 7 then .next (s.appendChunk data)
      else match s.hatch.part with
        | some p => .next (s.appendChunk (p ++ data))
        | none => .next s

/-! ### Messages: R655 to R657 -/

/-- HUB_RUNTIME answers: the mask ROM, once it has stopped, answers only what R633 and R634 need (R655). -/
def State.runtime (s : State) : Bool := s.boot.phase != 3

/-- A message reaches the hub in the oldest packet it holds, which leaves the buffer (R654). -/
def State.message (s : State) (k : State → State) : Out :=
  whenHub s <| whenIt s.busOpen <| .next (k (s.withHatch { s.hatch with rx := s.hatch.rx.drop 1 }))

/-- A message that the mask ROM leaves unanswered (R655). -/
def State.runtimeMessage (s : State) (k : State → State) : Out :=
  s.message fun s => if s.runtime then k s else s

/-- The message types the module answers at the time (R655). -/
def State.messageTypes (s : State) : List Nat := if s.runtime then [0x00, 0x01, 0x05, 0x7E] else [0x00, 0x01, 0x05]

/-- MCTP_CONTROL: an MCTP control message; byte 1 is its command and, for Set Endpoint ID, byte 3 the identifier
(PRESUMED layout, assumption log 40; R654, R655). -/
def execMctpControl (body : List Byte) (s : State) : Out :=
  s.message fun s =>
    let cmd := leAt body 1 1
    if cmd = 1 then
      let e := leAt body 3 1
      if leAt body 2 1 % 4 ≤ 1 && e != 0 && e != 255 then (s.withHatch { s.hatch with eid := e }).mgmt [0x00, 1, 0, e] []
      else s.mgmt [0x00, 1, 2, s.hatch.eid] []
    else if cmd = 2 then s.mgmt [0x00, 2, 0, s.hatch.eid] []
    else if cmd = 5 then s.mgmt ([0x00, 5, 0] ++ s.messageTypes) []
    else
      let (s, k) := s.draw
      s.mgmt [0x00, cmd] ((upFrom 0 8).map (Config.freeByte k))

/-- PLDM_TYPE_0: discovery: the PLDM types the module answers at the time (R655). -/
def execPldmType0 (_body : List Byte) (s : State) : Out :=
  s.message fun s => s.mgmt ([0x01, 0] ++ (if s.runtime then [0, 2, 5] else [0, 5])) []

/-- The reading of a sensor (R655), under the model's own numbers (assumption log 41): 0 to 31 temperatures by die code, 32
to 48 rails, 49 the input, 50 PWR_ENERGY_TOTAL, 51 the tracker; from 2^57 on, the state of the unit whose path the rest is. -/
def State.sensor (s : State) (i : Nat) : Nat :=
  if i < 32 then s.power.temps.getD (fun _ => 0) i
  else if i ≤ 48 then s.regN (rPwr (0x200 + (i - 32) * 4))
  else if i = 49 then s.regN (rPwr 0x18)
  else if i = 50 then s.regN (rPwr 0x20)
  else if i = 51 then s.ruling.state.code
  else s.pathState (BitVec.ofNat 64 (s.node * 2 ^ 57 + i % 2 ^ 57))

/-- PLDM_TYPE_2: a sensor's copy with the line at which it was taken (R655, R656). -/
def execPldmType2 (sensor : Nat) (s : State) : Out :=
  s.runtimeMessage fun s => s.mgmt [0x01, 2, s.sensor sensor, s.ruling.line] []

/-- A record transfer goes through the record writer as Kelza starts it (R624, R655); 0xFE where no write can start. -/
def State.transferRecord (s : State) (region : Nat) (r : FlashRec) : State :=
  if s.power.tripped || s.boot.writer.isSome then s.mgmt [0x01, 5, region, 0xFE] []
  else match s.recCheck region r with
    | some res => (s.recStat false true res s.lastBank).mgmt [0x01, 5, region, res] []
    | none =>
      ((if region = 2 then s.withBoot { s.boot with clears := [] } else s).startWrite region r).mgmt [0x01, 5, region, 0] []

/-- A recovery image reaches the mask ROM, which runs a valid one (R634). -/
def State.transferImage (s : State) (r : FlashRec) : State :=
  if !s.recoveryOpen then s.mgmt [0x01, 5, 3, 0xFE] []
  else if s.imageOk r then (s.runImage r).mgmt [0x01, 5, 3, 0] []
  else s.mgmt [0x01, 5, 3, 1] []

/-- PLDM_TYPE_5: a firmware-update transfer: a record for the writer, or, under region 3, a recovery image (R634, R655). -/
def execPldmType5 (region : Nat) (image : FlashRec) (s : State) : Out :=
  s.message fun s =>
    if region = 3 then s.transferImage image
    else if s.runtime then s.transferRecord region image
    else s.mgmt [0x01, 5, region, 0xFE] []

/-! ### SPDM: R637 to R639 -/

/-- A value of `n` bytes that cryptography gives over some content (assumption log 6). -/
def cryptoValue (kind n : Nat) (content : List Byte) : List Byte := (upFrom 0 n).map (byteAt (Config.cryptoBytes kind content))

/-- The DEBUG strap chooses the identity (R638): 1 in the debug domain. -/
def State.domain (s : State) : List Byte := [BitVec.ofNat 8 (b2n (s.boot.straps.getLsbD 3))]

/-- GET_VERSION: SPDM 1.3 (R639). -/
def execGetVersion (_body : List Byte) (s : State) : Out := s.message fun s => s.mgmt [0x05, 0x04, 0x13] []

/-- GET_CAPABILITIES: certificates, challenge and measurements with a signature; no key exchange, no secure session, no
mutual authentication (R639). -/
def execGetCapabilities (_body : List Byte) (s : State) : Out := s.message fun s => s.mgmt [0x05, 0x61, 1, 1, 2, 0, 0, 0] []

/-- NEGOTIATE_ALGORITHMS: SHA3-384 for both hashes, no standard asymmetric algorithm, one vendor-defined entry naming
Falcon-1024 (R639). -/
def execNegotiateAlgorithms (_body : List Byte) (s : State) : Out :=
  s.message fun s => s.mgmt [0x05, 0x63, 384, 384, 0, 1, 1024] []

/-- GET_DIGESTS: the digest of the chain of certificate slot 0 (R639). -/
def execGetDigests (_body : List Byte) (s : State) : Out := s.message fun s => s.mgmt [0x05, 0x01, 1] (cryptoValue 5 48 s.domain)

/-- GET_CERTIFICATE: the chain of slot 0: the root certificate, then the module certificate, production or debug (R639). -/
def execGetCertificate (_body : List Byte) (s : State) : Out :=
  s.message fun s => s.mgmt [0x05, 0x02] (Config.cryptoBytes 6 s.domain)

/-- CHALLENGE: the digest of slot 0 and a signature of the request by the identity key (R638, R639). -/
def execChallenge (body : List Byte) (s : State) : Out :=
  s.message fun s => s.mgmt [0x05, 0x03] (cryptoValue 5 48 s.domain ++ Config.cryptoBytes 7 (s.domain ++ body))

/-- The CHECK of a record: the first 64 bytes of its trailer (R621). -/
def recCheckBytes (r : FlashRec) : List Byte := (r.bytes.drop (64 + recLength r)).take 64

/-- What a measurement block digests (table "Measurement blocks"); none where it reads as zeros or does not exist. -/
def State.measured (s : State) (i : Nat) : Option (List Byte) :=
  match i with
  | 1 => some (toBytes 4 1)
  | 2 => s.boot.fw.map (fun x => toBytes 1 x.1 ++ toBytes 8 (recSeq x.2) ++ toBytes 4 (recVersion x.2) ++ recCheckBytes x.2)
  | 3 => s.boot.cfg.map (fun x => toBytes 1 x.1 ++ toBytes 8 (recSeq x.2) ++ toBytes 4 (minVersion x.2) ++ recCheckBytes x.2)
  | 4 => s.boot.hist.map (fun x => toBytes 1 x.1 ++ toBytes 8 (recSeq x.2) ++ recCheckBytes x.2)
  | 5 => some (toBytes 4 (s.regN (rHub 0x400)) ++ toBytes 4 (s.regN (rHub 0x420)))
  | 6 => s.boot.image.map FlashRec.bytes
  | _ => none

/-- A measurement block: a SHA3-384 digest of its content, zeros without one (R639). -/
def State.measurement (s : State) (i : Nat) : List Byte :=
  match s.measured i with
  | some c => cryptoValue (16 + i) 48 c
  | none => toBytes 48 0

/-- GET_MEASUREMENTS: index 0 asks for the number of blocks, 0xFF for all six; another block does not exist (R639). -/
def execGetMeasurements (index : Nat) (s : State) : Out :=
  s.message fun s =>
    if index = 0 then s.mgmt [0x05, 0x60, 6] []
    else if index ≤ 6 then s.mgmt [0x05, 0x60, 1, index] (s.measurement index)
    else if index = 0xFF then s.mgmt [0x05, 0x60, 6] ((upFrom 1 6).flatMap s.measurement)
    else s.mgmt [0x05, 0x7F] []

/-! ### Vendor commands: R656, R657 -/

/-- UNIT_QUERY: a copy of RAS_UNIT_STATE of a path, and the line at which it was taken (R556, R656). -/
def execUnitQuery (path : BitVec 64) (s : State) : Out :=
  s.runtimeMessage fun s =>
    s.mgmt [0x7E, 0x01, (s.withRas { s.ras with unitQuery := path }).unitStateView, s.ruling.line] []

/-- UNIT_CMD and SERVICE_CLEAR are refused (R657). -/
def State.cmdOff (s : State) : Bool := !bitOf (s.regN (rHatch 0x0)) 31

/-- A SEQ that differs from that of the last command issued and from zero (R557). -/
def State.newSeq (s : State) : Nat := if s.ras.lastSeq % 256 = 255 then 1 else s.ras.lastSeq % 256 + 1

/-- Kelza stages a command and commits set RAS at the next line that can be met, or lets a commit of it that is pending
already carry the command (R34, R36, R557). -/
def State.stageCommand (s : State) (path : BitVec 64) (op seq : Nat) : State :=
  let s := (s.setStaged (rRas 0x30) path).setStaged (rRas 0x38) (BitVec.ofNat 64 (seq * 2 ^ 24 + op))
  let s := s.withHatch { s.hatch with asks := s.hatch.asks ++ [seq] }
  if s.regs.commits.any (fun c => bitOf c.mask 2) then s
  else s.withRegs { s.regs with commits := s.regs.commits ++ [{ mask := 4, due := s.earliestLine, late := false }] }

/-- UNIT_CMD: refused while UNIT_CMD_EN is 0; BUSY while one asked for before is unanswered or no commit can be armed; else
staged and committed, and answered when it is acknowledged (R557, R657). -/
def execUnitCmd (path : BitVec 64) (op : BitVec 3) (s : State) : Out :=
  s.runtimeMessage fun s =>
    if s.cmdOff || s.power.tripped then s.mgmt [0x7E, 0x02, 1] []
    else if !s.hatch.asks.isEmpty || s.ras.cmd.isSome || 8 ≤ s.regs.commits.length then s.mgmt [0x7E, 0x02, 2] []
    else s.stageCommand path op.toNat s.newSeq

/-- SERVICE_CLEAR: names units whose fault-history entries the next record omits (R629, R657); a path that names no unit
rejects the request (R15). -/
def execServiceClear (paths : List (BitVec 64)) (s : State) : Out :=
  s.runtimeMessage fun s =>
    if s.cmdOff || paths.any (fun p => (s.unitOf p).isNone) then s.mgmt [0x7E, 0x03, 1] []
    else (s.withBoot { s.boot with clears := s.boot.clears ++ paths }).mgmt [0x7E, 0x03, 0] []

/-- DEBUG_TOKEN: submits a token: 0 accepted, 1 rejected (R641). -/
def execDebugToken (body : List Byte) (s : State) : Out :=
  s.runtimeMessage fun s => (s.takeToken body).mgmt [0x7E, 0x04, b2n (!s.tokenOk body)] []

/-- A scan chain may be selected (R658): 1 SCAN is bit 1 of PERMIT. -/
def State.scanAllowed (s : State) (p : BitVec 64) : Bool :=
  s.permitted 1 && (s.unitOf p).isSome && (s.pathState p == 2 || s.work.oos)

/-- SCAN_SELECT: selects the chain of a unit, whose clocks stop (R658). -/
def execScanSelect (path : BitVec 64) (s : State) : Out :=
  s.runtimeMessage fun s =>
    if s.scanAllowed path then
      (s.withHatch { s.hatch with
        chain := some path, stopped := if s.hatch.stopped.contains path then s.hatch.stopped else s.hatch.stopped ++ [path] }).mgmt
          [0x7E, 0x05, 0] []
    else s.mgmt [0x7E, 0x05, 1] []

/-- The record of an INDEX, in the hub buffer or in the log (R553, R554). -/
def State.recordAt (s : State) (i : Nat) : Option (List Byte) :=
  match s.ras.waiting.find? (fun e => e.index == i) with
  | some e => some (e.bytes false)
  | none =>
    let b := s.sysRead (s.regN (rRas 0x0) + i % 2 ^ (s.regN (rRas 0x8) % 32) * 64) 64
    if s.logUsable && !s.power.tripped && leAt b 16 4 == i then some b else none

/-- LOG_READ: the error records from an INDEX onward that the hub buffer or the log still holds (table "Vendor commands"). -/
def execLogRead (index : Nat) (s : State) : Out :=
  s.runtimeMessage fun s =>
    let n := (s.ras.logIndex + 2 ^ 32 - index % 2 ^ 32) % 2 ^ 32
    let s := if s.logUsable && !s.power.tripped then
        (upFrom index (if n < 2 ^ 31 then n else 0)).foldl (fun (s : State) i =>
          if s.ras.waiting.any (fun e => e.index == i % 2 ^ 32) then s
          else s.homeRead (s.regN (rRas 0x0) + i % 2 ^ (s.regN (rRas 0x8) % 32) * 64) 64) s
      else s
    let l := (upFrom index (if n < 2 ^ 31 then n else 0)).filterMap (fun i => s.recordAt (i % 2 ^ 32))
    s.mgmt [0x7E, 0x06, index] l.flatten

/-! ### Debug scan: R658 -/

/-- SCAN_IN_PACKET: `bits` bits, least significant first, go into the selected chain, and in stroke 15 those shifted out
come back, which are free; a packet that fails its CRC or leaves it no room, or finds no chain, shifts nothing and is answered
with BITS 0. A data cycle that the operand does not name carries 0x00 (R649). -/
def execScanInPacket (bits : Nat) (_data : List Byte) (crcOk : Bool) (s : State) : Out :=
  whenHub s <|
    whenIt (s.busOpen && s.hatch.scan && s.inStroke [14]) <|
      if !crcOk || 8 * (s.strokeCycles - 4) < bits || s.hatch.chain.isNone then .next (s.emitN .data [15, 0])
      else
        let (s, k) := s.draw
        .next (s.emit { kind := .data, args := [15, bits], bytes := (upFrom 0 (ceilDiv bits 8)).map (Config.freeByte k) })

end Sys2Proof.Machine
end

