-- ==== Sys2Proof/Machine/Scalar.lean ====
section
/-! DEFINITION. Machine/Scalar.lean: the scalar instructions, SCL (R166, R167, R157). -/

namespace Sys2Proof.Machine

/-- ILLEGAL_INSTRUCTION of an SCL: its reserved bit, or an extension word without the immediate (R163, R181). -/
def sclIllegal (f : SclF) : Bool := f.rsv || (f.h.x && !f.imm)

/-- What an SCL reads at issue: RA, and RB unless it takes the immediate, and the scalars named beside. -/
def sclIns (f : SclF) (more : List Nat) : Ins :=
  { h := f.h, illegal := sclIllegal f
    srcS := (f.ra.toNat :: (if f.imm then [] else [f.rb.toNat])) ++ more }

/-- An SCL whose result goes to RD. -/
def State.sclReg (s : State) (c : Nat) (f : SclF) (op : Word → Word → Word) : Out :=
  s.issue c (sclIns f []) (fun _ _ => {}) fun s k _ =>
    s.modCore c (fun x => x.setS f.rd.toNat (op (k.sreg f.ra.toNat) (k.sclB f)))

/-- An SCL comparison: its result goes to predicate RD[2:0]. -/
def State.sclCmp (s : State) (c : Nat) (f : SclF) (op : Word → Word → Bool) : Out :=
  s.issue c (sclIns f []) (fun _ _ => {}) fun s k _ =>
    s.modCore c (fun x => x.setP (f.rd.toNat % 8) (op (k.sreg f.ra.toNat) (k.sclB f)))

/-- An SCL on predicates: p[RD[2:0]] ← p[RA[2:0]] op p[RB[2:0]]. -/
def State.sclPred (s : State) (c : Nat) (f : SclF) (op : Bool → Bool → Bool) : Out :=
  s.issue c { h := f.h, illegal := sclIllegal f, srcP := [f.ra.toNat % 8, f.rb.toNat % 8] } (fun _ _ => {})
    fun s k _ => s.modCore c (fun x =>
      x.setP (f.rd.toNat % 8) (op (k.preg (f.ra.toNat % 8)) (k.preg (f.rb.toNat % 8))))

/-- The scratchpad offset of lds and sts: RA + B modulo 2^64 (R167). -/
def Core.scratchAddr (k : Core) (f : SclF) : Nat := (k.sreg f.ra.toNat + k.sclB f).toNat

/-- What lds and sts check at issue (R167). The address ALIGNMENT reports is the scratchpad offset (R199; assumption log 153). -/
def Core.scratchFaults (k : Core) (f : SclF) : IssueFaults :=
  { align := k.scratchAddr f % 8 != 0, va := k.scratchAddr f, bounds := 0x3FFFF8 < k.scratchAddr f }

/-- A special value of RDSR (R157). CYCLES counts core cycles, which this model does not keep: a free value. -/
def State.special (s : State) (c : Nat) (k : Core) (l : Launch) (i : Nat) : Word :=
  match i with
  | 0 => s.corePath c 0xC 0
  | 1 => BitVec.ofNat 64 l.rank
  | 2 => BitVec.ofNat 64 l.cores
  | 3 => BitVec.ofNat 64 (l.ctx % 2 ^ 12 + l.gen % 2 ^ 8 * 2 ^ 12)
  | 4 => s.now
  | 5 => k.status
  | 6 => Config.freeWord s.fresh
  | _ => 0

/-- SCL_ADD: RD ← RA + B (R166). -/
def execSclAdd (c : Nat) (f : SclF) (s : State) : Out := s.sclReg c f (fun a b => a + b)

/-- SCL_SUB: RD ← RA − B (R166). -/
def execSclSub (c : Nat) (f : SclF) (s : State) : Out := s.sclReg c f (fun a b => a - b)

/-- SCL_MUL: the low 64 bits of RA × B (R166). -/
def execSclMul (c : Nat) (f : SclF) (s : State) : Out := s.sclReg c f (fun a b => a * b)

/-- SCL_AND: bitwise and (R166). -/
def execSclAnd (c : Nat) (f : SclF) (s : State) : Out := s.sclReg c f (fun a b => a &&& b)

/-- SCL_OR: bitwise or (R166). -/
def execSclOr (c : Nat) (f : SclF) (s : State) : Out := s.sclReg c f (fun a b => a ||| b)

/-- SCL_XOR: bitwise exclusive or (R166). -/
def execSclXor (c : Nat) (f : SclF) (s : State) : Out := s.sclReg c f (fun a b => a ^^^ b)

/-- SCL_SHL: RA shifted left by B[5:0] (R166). -/
def execSclShl (c : Nat) (f : SclF) (s : State) : Out := s.sclReg c f (fun a b => a <<< (b.toNat % 64))

/-- SCL_SHR: RA shifted right by B[5:0] (R166). -/
def execSclShr (c : Nat) (f : SclF) (s : State) : Out := s.sclReg c f (fun a b => a >>> (b.toNat % 64))

/-- SCL_SAR: RA shifted right arithmetically by B[5:0] (R166). -/
def execSclSar (c : Nat) (f : SclF) (s : State) : Out := s.sclReg c f (fun a b => a.sshiftRight (b.toNat % 64))

/-- SCL_MIN: signed minimum (R166). -/
def execSclMin (c : Nat) (f : SclF) (s : State) : Out := s.sclReg c f (fun a b => if b.slt a then b else a)

/-- SCL_MAX: signed maximum (R166). -/
def execSclMax (c : Nat) (f : SclF) (s : State) : Out := s.sclReg c f (fun a b => if a.slt b then b else a)

/-- SCL_MINU: unsigned minimum (R166). -/
def execSclMinu (c : Nat) (f : SclF) (s : State) : Out := s.sclReg c f (fun a b => if b.ult a then b else a)

/-- SCL_MAXU: unsigned maximum (R166). -/
def execSclMaxu (c : Nat) (f : SclF) (s : State) : Out := s.sclReg c f (fun a b => if a.ult b then b else a)

/-- SCL_CMPEQ: p[RD[2:0]] ← the comparison of RA and B (R166). -/
def execSclCmpeq (c : Nat) (f : SclF) (s : State) : Out := s.sclCmp c f (fun a b => a == b)

/-- SCL_CMPNE: p[RD[2:0]] ← the comparison of RA and B (R166). -/
def execSclCmpne (c : Nat) (f : SclF) (s : State) : Out := s.sclCmp c f (fun a b => a != b)

/-- SCL_CMPLT: p[RD[2:0]] ← the comparison of RA and B (R166). -/
def execSclCmplt (c : Nat) (f : SclF) (s : State) : Out := s.sclCmp c f (fun a b => a.slt b)

/-- SCL_CMPLTU: p[RD[2:0]] ← the comparison of RA and B (R166). -/
def execSclCmpltu (c : Nat) (f : SclF) (s : State) : Out := s.sclCmp c f (fun a b => a.ult b)

/-- SCL_CMPGE: p[RD[2:0]] ← the comparison of RA and B (R166). -/
def execSclCmpge (c : Nat) (f : SclF) (s : State) : Out := s.sclCmp c f (fun a b => !a.slt b)

/-- SCL_CMPGEU: p[RD[2:0]] ← the comparison of RA and B (R166). -/
def execSclCmpgeu (c : Nat) (f : SclF) (s : State) : Out := s.sclCmp c f (fun a b => !a.ult b)

/-- SCL_PAND: on predicates (R166). -/
def execSclPand (c : Nat) (f : SclF) (s : State) : Out := s.sclPred c f (fun a b => a && b)

/-- SCL_POR: on predicates (R166). -/
def execSclPor (c : Nat) (f : SclF) (s : State) : Out := s.sclPred c f (fun a b => a || b)

/-- SCL_PXOR: on predicates (R166). -/
def execSclPxor (c : Nat) (f : SclF) (s : State) : Out := s.sclPred c f (fun a b => a != b)

/-- SCL_PANDN: on predicates (R166). -/
def execSclPandn (c : Nat) (f : SclF) (s : State) : Out := s.sclPred c f (fun a b => a && !b)

/-- SCL_LDS: RD ← the 8 B at scratchpad offset RA + B (R167); an uncorrectable word raises UNCORRECTABLE (R196). -/
def execSclLds (c : Nat) (f : SclF) (s : State) : Out :=
  s.issue c (sclIns f []) (fun k _ => k.scratchFaults f) fun s k _ =>
    let a := k.scratchAddr f
    if s.scrBad c a 8 then
      (s.scratchRecord c a (.tile 0 0x20 k.launch)).issueFault c { code := excUncorrectable, pc := k.pc.toNat, va := 0, trap := 0 }
    else s.modCore c (fun x => x.setS f.rd.toNat (BitVec.ofNat 64 (ofBytes (s.scrRead c a 8))))

/-- SCL_STS: the 8 B at scratchpad offset RA + B ← register RD (R167). -/
def execSclSts (c : Nat) (f : SclF) (s : State) : Out :=
  s.issue c (sclIns f [f.rd.toNat]) (fun k _ => k.scratchFaults f) fun s k _ =>
    (s.scrWrite c (k.scratchAddr f) (toBytes 8 (k.sreg f.rd.toNat).toNat)).noteWrote c k.nextSeq
      (windowBase c + k.scratchAddr f) 8

/-- SCL_TDSET: t[RD[3:0]] word 0 ← RA, word 1 ← register RB (R166). Pending instructions keep the values they took
(R161). -/
def execSclTdset (c : Nat) (f : SclF) (s : State) : Out :=
  s.issue c { h := f.h, illegal := sclIllegal f, srcS := [f.ra.toNat, f.rb.toNat] } (fun _ _ => {}) fun s k _ =>
    s.modCore c (fun x => x.setT (f.rd.toNat % 16) (k.sreg f.rb.toNat ++ k.sreg f.ra.toNat))

/-- SCL_TDGET0: RD ← word 0 of t[RA[3:0]] (R166). -/
def execSclTdget0 (c : Nat) (f : SclF) (s : State) : Out :=
  s.issue c { h := f.h, illegal := sclIllegal f } (fun _ _ => {}) fun s k _ =>
    s.modCore c (fun x => x.setS f.rd.toNat ((k.treg (f.ra.toNat % 16)).extractLsb' 0 64))

/-- SCL_TDGET1: RD ← word 1 of t[RA[3:0]] (R166). -/
def execSclTdget1 (c : Nat) (f : SclF) (s : State) : Out :=
  s.issue c { h := f.h, illegal := sclIllegal f } (fun _ _ => {}) fun s k _ =>
    s.modCore c (fun x => x.setS f.rd.toNat ((k.treg (f.ra.toNat % 16)).extractLsb' 64 64))

/-- A descriptor with B added to its BASE, modulo 2^22 (R166). -/
def tdAdjust (d : BitVec 128) (b : Word) : BitVec 128 :=
  d.extractLsb' 22 106 ++ (d.extractLsb' 0 22 + b.extractLsb' 0 22)

/-- SCL_TDADJ: BASE of t[RD[3:0]] ← BASE + B, modulo 2^22 (R166). -/
def execSclTdadj (c : Nat) (f : SclF) (s : State) : Out :=
  s.issue c { h := f.h, illegal := sclIllegal f, srcS := if f.imm then [] else [f.rb.toNat] } (fun _ _ => {})
    fun s k _ => s.modCore c (fun x =>
      x.setT (f.rd.toNat % 16) (tdAdjust (k.treg (f.rd.toNat % 16)) (k.sclB f)))

/-- SCL_RDSR: RD ← special value B[4:0] (R157). -/
def execSclRdsr (c : Nat) (f : SclF) (s : State) : Out :=
  s.issue c { h := f.h, illegal := sclIllegal f, srcS := if f.imm then [] else [f.rb.toNat] } (fun _ _ => {})
    fun s k l =>
      let v := s.special c k l ((k.sclB f).toNat % 32)
      let s := if (k.sclB f).toNat % 32 = 6 then s.draw.1 else s
      s.modCore c (fun x => x.setS f.rd.toNat v)

end Sys2Proof.Machine
end

