-- ==== Sys2Proof/Machine/Vop.lean ====
section
/-! DEFINITION. Machine/Vop.lean: the vector unit's instructions (R176 to R179, R106 to R112). -/

namespace Sys2Proof.Machine

/-- The shapes of operation of the table "VOP operations". -/
inductive VopClass where
  | bin | fma | cmp | sel | un | red | int | cvt | copy | seed
  deriving DecidableEq, Repr

/-- The class of an opcode (R176). -/
def vopClass (op : Nat) : VopClass :=
  if op = 3 then .fma else if op ≤ 5 then .bin else if op ≤ 8 then .cmp else if op = 9 then .sel
  else if op ≤ 0x16 then .un else if op ≤ 0x19 then .red else if op ≤ 0x26 then .int
  else if op = 0x30 then .cvt else if op = 0x31 then .copy else .seed

/-- The class reads TS2, so BC applies (R176). -/
def VopClass.twoSource : VopClass → Bool
  | .bin | .fma | .cmp | .sel | .int => true
  | _ => false

/-- The class reads TS3. -/
def VopClass.threeSource : VopClass → Bool
  | .fma | .sel => true
  | _ => false

/-- ILLEGAL_INSTRUCTION of a VOP by its encoding (R163, R176, R178). -/
def vopIllegal (op : Nat) (f : VopF) : Bool :=
  f.h.x || f.rsv != 0 || (!(vopClass op).twoSource && f.bc != 0) || (f.sr && op != 0x30)

/-- TS2 is read as a tile: it is a source, and BC is not 3. -/
def usesTs2 (op : Nat) (f : VopF) : Bool := (vopClass op).twoSource && f.bc != 3

/-- The pairs cvt accepts (R178): FP32 with any format, FP32 to FP32 being one of "any format to FP32". -/
def cvtOk (a b : Fmt) : Bool :=
  a == .fp32 || b == .fp32 || (a == .int8 && b == .int32) || (a == .int32 && b == .int8)

/-- ILLEGAL_FORMAT (R177, R178): TD, TS1, TS2 when read as a tile, TS3. -/
def vopFormatBad (op : Nat) (f : VopF) (d a b t : Td) : Bool :=
  let fp (x : Td) : Bool := x.fmt = 9
  let i32 (x : Td) : Bool := x.fmt = 10
  let two (p : Td → Bool) : Bool := !usesTs2 op f || p b
  match vopClass op with
  | .bin => !(fp d && fp a && two fp)
  | .fma => !(fp d && fp a && two fp && fp t)
  | .cmp => !(i32 d && fp a && two fp)
  | .sel => !(i32 t && ((fp d && fp a && two fp) || (i32 d && i32 a && two i32)))
  | .un | .red => !(fp d && fp a)
  | .int => !(i32 d && i32 a && two i32)
  | .cvt => match a.format, d.format with
    | some x, some y => !cvtOk x y
    | _, _ => true
  | .copy => a.format.isNone || d.format.isNone || a.width != d.width
  | .seed => false

/-- ILLEGAL_SHAPE (R160, R177, R178). -/
def vopShapeBad (op : Nat) (f : VopF) (d a b t : Td) : Bool :=
  let same (x : Td) : Bool := x.rows = d.rows && x.elems = d.elems
  let ts2 := if usesTs2 op f then
      b.badShape || (if f.bc = 0 then !same b else if f.bc = 1 then b.rows != d.rows else b.elems != d.elems)
    else false
  match vopClass op with
  | .seed => false
  | .red => d.badShape || a.badShape || d.rows != a.rows || d.elems != 1
  | .cvt => d.badShape || a.badShape || !same a || (d.scaled && d.elems % 32 != 0)
  | .fma | .sel => d.badShape || a.badShape || !same a || ts2 || t.badShape || !same t
  | _ => d.badShape || a.badShape || !same a || ts2

/-- The scale arrays an operation uses (R160): cvt from or to a scaled MX format, and copy between two of them. -/
def vopScales (op : Nat) (d a : Td) : Bool × Bool :=
  match vopClass op with
  | .cvt => (d.scaled, a.scaled)
  | .copy => (d.scaled && a.scaled, d.scaled && a.scaled)
  | _ => (false, false)

/-- SCRATCH_BOUNDS (R160). -/
def vopBoundsBad (op : Nat) (f : VopF) (d a b t : Td) : Bool :=
  let u := vopScales op d a
  vopClass op != .seed &&
    (!d.fits || !a.fits || (usesTs2 op f && !b.fits) || ((vopClass op).threeSource && !t.fits)
      || (u.1 && !d.scalesFit) || (u.2 && !a.scalesFit))

/-- What a VOP needs at issue. -/
def vopIns (op : Nat) (f : VopF) : Ins :=
  let cls := vopClass op
  { h := f.h, illegal := vopIllegal op f
    srcS := if (cls.twoSource && f.bc = 3) || cls = .seed then [f.rs.toNat] else []
    reads := if cls = .seed then [] else
      f.ts1.toNat :: ((if usesTs2 op f then [f.ts2.toNat] else []) ++ (if cls.threeSource then [f.ts3.toNat] else []))
    writes := if cls = .seed then [] else [f.td.toNat]
    unit := some 4 }

/-- A cvt is a stochastic conversion: SR is 1, and it is not INT32 to FP32, which rounds to nearest (R108, R112). A
one that is exact, a widening one such as BF16 to FP32 or FP32 to FP32 itself, counts as one too (DESIGN CHOICE, assumption
log 124; R111). -/
def stochastic (f : VopF) (d a : Td) : Bool := f.sr && !(a.fmt = 10 && d.fmt = 9)

/-- A VOP issues to the vector unit; a stochastic cvt takes S and advances it at issue (R179, R111). -/
def State.vop (s : State) (c op : Nat) (f : VopF) : Out :=
  let faults (k : Core) (_ : Launch) : IssueFaults :=
    let d := tdOf (k.treg f.td.toNat)
    let a := tdOf (k.treg f.ts1.toNat)
    let b := tdOf (k.treg f.ts2.toNat)
    let t := tdOf (k.treg f.ts3.toNat)
    { format := vopFormatBad op f d a b t, shape := vopShapeBad op f d a b t, bounds := vopBoundsBad op f d a b t }
  s.issue c (vopIns op f) faults fun s k _ =>
    let d := tdOf (k.treg f.td.toNat)
    let s := if stochastic f d (tdOf (k.treg f.ts1.toNat)) then s.modCore c (fun x => { x with rnd := stochAdvance k.rnd (d.rows * d.elems) }) else s
    s.enqueue c k (vopIns op f) 4
      (.vop op f (k.treg f.td.toNat) (k.treg f.ts1.toNat) (k.treg f.ts2.toNat) (k.treg f.ts3.toNat)
        (k.sreg f.rs.toNat) k.rnd) id

/-! ### Results -/

/-- A one-source operation (R106). -/
def vopUnary (op : Nat) (a : BitVec 32) : Nat :=
  match op with
  | 0x10 => sqrtBits a
  | 0x11 => rcpBits a
  | 0x12 => rsqBits a
  | 0x13 => expBits false a
  | 0x14 => expBits true a
  | 0x15 => logBits false a
  | _ => logBits true a

/-- An operation of two sources on 32-bit elements (R106, R176). -/
def vopBinary (op : Nat) (a b : BitVec 32) : BitVec 32 :=
  match op with
  | 0 => f32Bin Fl.add a b
  | 1 => f32Bin (fun x y => x.add y.neg) a b
  | 2 => f32Bin Fl.mul a b
  | 4 => f32Bin Fl.min a b
  | 5 => f32Bin Fl.max a b
  | 6 => f32Cmp Fl.lt a b
  | 7 => f32Cmp (fun x y => x.lt y || x.eq y) a b
  | 8 => f32Cmp Fl.eq a b
  | 0x20 => a + b
  | 0x21 => a - b
  | 0x22 => if b.slt a then b else a
  | 0x23 => if a.slt b then b else a
  | 0x24 => a <<< (b.toNat % 32)
  | 0x25 => a >>> (b.toNat % 32)
  | _ => a.sshiftRight (b.toNat % 32)

/-- An operation of three sources (R176): fma, or sel. -/
def vopTernary (op : Nat) (a b t : BitVec 32) : BitVec 32 :=
  if op = 3 then f32Fma a b t else if t != 0 then a else b

/-- One level of the reduction tree: results 2i and 2i + 1 combine, an odd last one passes up (R177). -/
def treeLevel (g : BitVec 32 → BitVec 32 → BitVec 32) : List (BitVec 32) → List (BitVec 32)
  | a :: b :: t => g a b :: treeLevel g t
  | l => l

/-- The value of a group of at most 256 elements (R177). -/
def treeReduce (g : BitVec 32 → BitVec 32 → BitVec 32) : Nat → List (BitVec 32) → BitVec 32
  | 0, l => l.headD 0
  | n + 1, l => treeReduce g n (treeLevel g l)

/-- Groups of 256 consecutive elements (R177). -/
def groups256 : Nat → List (BitVec 32) → List (List (BitVec 32))
  | 0, _ => []
  | n + 1, l => if l.isEmpty then [] else l.take 256 :: groups256 n (l.drop 256)

/-- A NaN an instruction produces is the canonical one (R98). -/
def canonNan (x : BitVec 32) : BitVec 32 :=
  match Fmt.fp32.decode x.toNat with
  | .nan => BitVec.ofNat 32 (Fmt.nanBits .fp32)
  | _ => x

/-- rsum or rmax of a row: groups in ascending order, each by its tree (R177); the one value of a row of one element is the
result, a NaN made canonical (R98). -/
def vopReduce (op : Nat) (row : List (BitVec 32)) : BitVec 32 :=
  let g := if op = 0x18 then f32Bin Fl.add else f32Bin Fl.max
  match (groups256 (row.length / 256 + 1) row).map (treeReduce g 8) with
  | [] => 0
  | x :: t => canonNan (t.foldl g x)

/-- The value of element `j` of a source row for cvt: its block scale included (R108). -/
def State.cvtSource (s : State) (c : Nat) (a : Td) (x : Fmt) (r : Nat) : List Fl :=
  ((s.tileElems c a r).zip (upFrom 0 a.elems)).map (fun p =>
    let v := x.decode p.1
    if a.scaled then
      match scaleExp (s.tileScale c a r (p.2 / 32)) with
      | some e => v.shift e
      | none => .nan
    else v)

/-- How element `j` of the destination is rounded (R107, R111). -/
def cvtRnd (f : VopF) (st : Word) (j : Nat) : Rnd := if f.sr then .stoch (stochR st j) else .rne

/-- Blocks of 32 values. -/
def blocks32 : Nat → List Fl → List (List Fl)
  | 0, _ => []
  | n + 1, l => if l.isEmpty then [] else l.take 32 :: blocks32 n (l.drop 32)

/-- Row `r` of a cvt: the destination's elements and scale bytes (R107 to R109). -/
def State.cvtRow (s : State) (c : Nat) (f : VopF) (d a : Td) (x y : Fmt) (st : Word) (r : Nat) :
    List Nat × List Nat :=
  let vs := s.cvtSource c a x r
  let j0 := r * d.elems
  if d.scaled then
    let bs := blocks32 (vs.length / 32 + 1) vs
    let out := (bs.zip (upFrom 0 bs.length)).map (fun b => mxBlock y (fun j => cvtRnd f st (j0 + b.2 * 32 + j)) b.1)
    (out.flatMap Prod.fst, out.map Prod.snd)
  else if y == .fp32 then
    if a.scaled then
      ((vs.zip (upFrom 0 vs.length)).map (fun p => Fmt.fp32.encode (cvtRnd f st (j0 + p.2)) f.sat p.1), [])
    else (vs.map (ieeeBits .fp32), [])
  else ((vs.zip (upFrom 0 vs.length)).map (fun p => y.encodeAny (cvtRnd f st (j0 + p.2)) f.sat p.1), [])

/-- Second-source element under BC (R176). -/
def State.second (s : State) (c : Nat) (f : VopF) (b : Td) (rs : Word) (r j : Nat) : BitVec 32 :=
  match f.bc.toNat with
  | 0 => BitVec.ofNat 32 (elemAt 32 (s.tileRow c b r) j)
  | 1 => BitVec.ofNat 32 (elemAt 32 (s.tileRow c b r) 0)
  | 2 => BitVec.ofNat 32 (elemAt 32 (s.tileRow c b 0) j)
  | _ => rs.setWidth 32

/-- The rows and scale rows a VOP writes. -/
def State.vopRows (s : State) (c op : Nat) (f : VopF) (d a b t : Td) (rs st : Word) :
    List (List Nat) × List (List Nat) :=
  let rows := upFrom 0 d.rows
  let el (x : Td) (r j : Nat) : BitVec 32 := BitVec.ofNat 32 (elemAt 32 (s.tileRow c x r) j)
  match vopClass op with
  | .un => (rows.map (fun r => (upFrom 0 d.elems).map (fun j => vopUnary op (el a r j))), [])
  | .bin | .cmp | .int =>
    (rows.map (fun r => (upFrom 0 d.elems).map (fun j => (vopBinary op (el a r j) (s.second c f b rs r j)).toNat)), [])
  | .fma | .sel =>
    (rows.map (fun r => (upFrom 0 d.elems).map (fun j =>
      (vopTernary op (el a r j) (s.second c f b rs r j) (el t r j)).toNat)), [])
  | .red => (rows.map (fun r => [(vopReduce op ((upFrom 0 a.elems).map (el a r))).toNat]), [])
  | .copy =>
    (rows.map (s.tileElems c a),
     if d.scaled && a.scaled then
       rows.map (fun r => (upFrom 0 a.scaleBytes).map (s.tileScale c a r))
     else [])
  | .cvt =>
    match a.format, d.format with
    | some x, some y =>
      let out := rows.map (s.cvtRow c f d a x y st)
      (out.map Prod.fst, if d.scaled then out.map Prod.snd else [])
    | _, _ => ([], [])
  | .seed => ([], [])

/-- The first uncorrectable word among the bytes a VOP reads (R128). -/
def State.vopBad (s : State) (c op : Nat) (f : VopF) (d a b t : Td) : Option Nat :=
  let whole (x : Td) : Option Nat := s.rowsBad c x.base x.stride x.rows x.rowBytes
  let two := if usesTs2 op f then
      (if f.bc = 1 then s.rowsBad c b.base b.stride b.rows 4
       else if f.bc = 2 then s.rowsBad c b.base 0 1 b.rowBytes else whole b)
    else none
  ((whole a).or two).or
    ((if (vopClass op).threeSource then whole t else none).or
      (if (vopScales op d a).2 then s.rowsBad c a.sbase a.sstride a.rows a.scaleBytes else none))

/-- VOP_FINISH: the vector unit finishes its oldest running instruction and writes the destination tile. -/
def execVopFinish (c : Nat) (s : State) : Out :=
  whenPowered s <| withSome ((s.core c).jobs.find? (fun j => j.unit == 4 && j.begun)) fun j =>
    match j.kind with
    | .vop op f d s1 s2 s3 rs st =>
      let d := tdOf d
      let a := tdOf s1
      let b := tdOf s2
      let t := tdOf s3
      match s.vopBad c op f d a b t with
      | some off =>
        let s := j.kind.dest.foldl (fun s r => s.spillRows c r.1 r.2.1 r.2.2.1 r.2.2.2) (s.scratchRecord c off (s.jobCause c j.kind))
        .next (((s.execFault c j excUncorrectable 0).finishJob c j false).after c)
      | none =>
        let s := if j.tainted then
            j.kind.dest.foldl (fun s r => s.spillRows c r.1 r.2.1 r.2.2.1 r.2.2.2) s
          else
            let out := s.vopRows c op f d a b t rs st
            (s.putRows c d 0 out.1).putScales c d 0 out.2
        .next ((s.finishJob c j false).after c)
    | _ => notNow

/-! ### The instructions -/

/-- VOP_ADD (R176). -/
def execVopAdd (c : Nat) (f : VopF) (s : State) : Out := s.vop c 0x0 f

/-- VOP_SUB (R176). -/
def execVopSub (c : Nat) (f : VopF) (s : State) : Out := s.vop c 0x1 f

/-- VOP_MUL (R176). -/
def execVopMul (c : Nat) (f : VopF) (s : State) : Out := s.vop c 0x2 f

/-- VOP_FMA (R176). -/
def execVopFma (c : Nat) (f : VopF) (s : State) : Out := s.vop c 0x3 f

/-- VOP_MIN (R176). -/
def execVopMin (c : Nat) (f : VopF) (s : State) : Out := s.vop c 0x4 f

/-- VOP_MAX (R176). -/
def execVopMax (c : Nat) (f : VopF) (s : State) : Out := s.vop c 0x5 f

/-- VOP_CMPLT (R176). -/
def execVopCmplt (c : Nat) (f : VopF) (s : State) : Out := s.vop c 0x6 f

/-- VOP_CMPLE (R176). -/
def execVopCmple (c : Nat) (f : VopF) (s : State) : Out := s.vop c 0x7 f

/-- VOP_CMPEQ (R176). -/
def execVopCmpeq (c : Nat) (f : VopF) (s : State) : Out := s.vop c 0x8 f

/-- VOP_SEL (R176). -/
def execVopSel (c : Nat) (f : VopF) (s : State) : Out := s.vop c 0x9 f

/-- VOP_SQRT (R176). -/
def execVopSqrt (c : Nat) (f : VopF) (s : State) : Out := s.vop c 0x10 f

/-- VOP_RCP (R176). -/
def execVopRcp (c : Nat) (f : VopF) (s : State) : Out := s.vop c 0x11 f

/-- VOP_RSQ (R176). -/
def execVopRsq (c : Nat) (f : VopF) (s : State) : Out := s.vop c 0x12 f

/-- VOP_EXP (R176). -/
def execVopExp (c : Nat) (f : VopF) (s : State) : Out := s.vop c 0x13 f

/-- VOP_EXP2 (R176). -/
def execVopExp2 (c : Nat) (f : VopF) (s : State) : Out := s.vop c 0x14 f

/-- VOP_LOG (R176). -/
def execVopLog (c : Nat) (f : VopF) (s : State) : Out := s.vop c 0x15 f

/-- VOP_LOG2 (R176). -/
def execVopLog2 (c : Nat) (f : VopF) (s : State) : Out := s.vop c 0x16 f

/-- VOP_RSUM (R176). -/
def execVopRsum (c : Nat) (f : VopF) (s : State) : Out := s.vop c 0x18 f

/-- VOP_RMAX (R176). -/
def execVopRmax (c : Nat) (f : VopF) (s : State) : Out := s.vop c 0x19 f

/-- VOP_IADD (R176). -/
def execVopIadd (c : Nat) (f : VopF) (s : State) : Out := s.vop c 0x20 f

/-- VOP_ISUB (R176). -/
def execVopIsub (c : Nat) (f : VopF) (s : State) : Out := s.vop c 0x21 f

/-- VOP_IMIN (R176). -/
def execVopImin (c : Nat) (f : VopF) (s : State) : Out := s.vop c 0x22 f

/-- VOP_IMAX (R176). -/
def execVopImax (c : Nat) (f : VopF) (s : State) : Out := s.vop c 0x23 f

/-- VOP_SHL (R176). -/
def execVopShl (c : Nat) (f : VopF) (s : State) : Out := s.vop c 0x24 f

/-- VOP_SHR (R176). -/
def execVopShr (c : Nat) (f : VopF) (s : State) : Out := s.vop c 0x25 f

/-- VOP_SAR (R176). -/
def execVopSar (c : Nat) (f : VopF) (s : State) : Out := s.vop c 0x26 f

/-- VOP_CVT (R176). -/
def execVopCvt (c : Nat) (f : VopF) (s : State) : Out := s.vop c 0x30 f

/-- VOP_COPY (R176). -/
def execVopCopy (c : Nat) (f : VopF) (s : State) : Out := s.vop c 0x31 f

/-- VOP_SEED: S ← register RS, at issue (R176, R179). -/
def execVopSeed (c : Nat) (f : VopF) (s : State) : Out :=
  s.issue c (vopIns 0x3F f) (fun _ _ => {}) fun s k _ =>
    s.modCore c (fun x => { x with rnd := k.sreg f.rs.toNat })

end Sys2Proof.Machine
end

