-- ==== Sys2Proof/Machine/Dispatch.lean ====
section
/-! DEFINITION. Machine/Dispatch.lean: the meaning of every command, one arm per constructor of `Instr`. -/

namespace Sys2Proof.Machine

def exec (i : Instr) (s : State) : Host.Outcome State Fault Refusal :=
  match i with
  | .markEdge t => Sys2Proof.Machine.execMarkEdge t s
  | .lineBoundary m => Sys2Proof.Machine.execLineBoundary m s
  | .bootPlateTimeout => Sys2Proof.Machine.execBootPlateTimeout s
  | .rackFrame bytes => Sys2Proof.Machine.execRackFrame bytes s
  | .hatchClockLoss => Sys2Proof.Machine.execHatchClockLoss s
  | .hatchClockReturn => Sys2Proof.Machine.execHatchClockReturn s
  | .pitchWrite v => Sys2Proof.Machine.execPitchWrite v s
  | .stagedWrite off size v => Sys2Proof.Machine.execStagedWrite off size v s
  | .commitArm v => Sys2Proof.Machine.execCommitArm v s
  | .sclAdd c f => Sys2Proof.Machine.execSclAdd c f s
  | .sclSub c f => Sys2Proof.Machine.execSclSub c f s
  | .sclMul c f => Sys2Proof.Machine.execSclMul c f s
  | .sclAnd c f => Sys2Proof.Machine.execSclAnd c f s
  | .sclOr c f => Sys2Proof.Machine.execSclOr c f s
  | .sclXor c f => Sys2Proof.Machine.execSclXor c f s
  | .sclShl c f => Sys2Proof.Machine.execSclShl c f s
  | .sclShr c f => Sys2Proof.Machine.execSclShr c f s
  | .sclSar c f => Sys2Proof.Machine.execSclSar c f s
  | .sclMin c f => Sys2Proof.Machine.execSclMin c f s
  | .sclMax c f => Sys2Proof.Machine.execSclMax c f s
  | .sclMinu c f => Sys2Proof.Machine.execSclMinu c f s
  | .sclMaxu c f => Sys2Proof.Machine.execSclMaxu c f s
  | .sclCmpeq c f => Sys2Proof.Machine.execSclCmpeq c f s
  | .sclCmpne c f => Sys2Proof.Machine.execSclCmpne c f s
  | .sclCmplt c f => Sys2Proof.Machine.execSclCmplt c f s
  | .sclCmpltu c f => Sys2Proof.Machine.execSclCmpltu c f s
  | .sclCmpge c f => Sys2Proof.Machine.execSclCmpge c f s
  | .sclCmpgeu c f => Sys2Proof.Machine.execSclCmpgeu c f s
  | .sclPand c f => Sys2Proof.Machine.execSclPand c f s
  | .sclPor c f => Sys2Proof.Machine.execSclPor c f s
  | .sclPxor c f => Sys2Proof.Machine.execSclPxor c f s
  | .sclPandn c f => Sys2Proof.Machine.execSclPandn c f s
  | .sclLds c f => Sys2Proof.Machine.execSclLds c f s
  | .sclSts c f => Sys2Proof.Machine.execSclSts c f s
  | .sclTdset c f => Sys2Proof.Machine.execSclTdset c f s
  | .sclTdget0 c f => Sys2Proof.Machine.execSclTdget0 c f s
  | .sclTdget1 c f => Sys2Proof.Machine.execSclTdget1 c f s
  | .sclTdadj c f => Sys2Proof.Machine.execSclTdadj c f s
  | .sclRdsr c f => Sys2Proof.Machine.execSclRdsr c f s
  | .ctlNop c f => Sys2Proof.Machine.execCtlNop c f s
  | .ctlB c f => Sys2Proof.Machine.execCtlB c f s
  | .ctlLoop c f => Sys2Proof.Machine.execCtlLoop c f s
  | .ctlCall c f => Sys2Proof.Machine.execCtlCall c f s
  | .ctlRet c f => Sys2Proof.Machine.execCtlRet c f s
  | .ctlEnd c f => Sys2Proof.Machine.execCtlEnd c f s
  | .ctlTrap c f => Sys2Proof.Machine.execCtlTrap c f s
  | .tmma c f => Sys2Proof.Machine.execTmma c f s
  | .tmmaP c f => Sys2Proof.Machine.execTmmaP c f s
  | .tmmaRetire c eng x => Sys2Proof.Machine.execTmmaRetire c eng x s
  | .vopAdd c f => Sys2Proof.Machine.execVopAdd c f s
  | .vopSub c f => Sys2Proof.Machine.execVopSub c f s
  | .vopMul c f => Sys2Proof.Machine.execVopMul c f s
  | .vopFma c f => Sys2Proof.Machine.execVopFma c f s
  | .vopMin c f => Sys2Proof.Machine.execVopMin c f s
  | .vopMax c f => Sys2Proof.Machine.execVopMax c f s
  | .vopCmplt c f => Sys2Proof.Machine.execVopCmplt c f s
  | .vopCmple c f => Sys2Proof.Machine.execVopCmple c f s
  | .vopCmpeq c f => Sys2Proof.Machine.execVopCmpeq c f s
  | .vopSel c f => Sys2Proof.Machine.execVopSel c f s
  | .vopSqrt c f => Sys2Proof.Machine.execVopSqrt c f s
  | .vopRcp c f => Sys2Proof.Machine.execVopRcp c f s
  | .vopRsq c f => Sys2Proof.Machine.execVopRsq c f s
  | .vopExp c f => Sys2Proof.Machine.execVopExp c f s
  | .vopExp2 c f => Sys2Proof.Machine.execVopExp2 c f s
  | .vopLog c f => Sys2Proof.Machine.execVopLog c f s
  | .vopLog2 c f => Sys2Proof.Machine.execVopLog2 c f s
  | .vopRsum c f => Sys2Proof.Machine.execVopRsum c f s
  | .vopRmax c f => Sys2Proof.Machine.execVopRmax c f s
  | .vopIadd c f => Sys2Proof.Machine.execVopIadd c f s
  | .vopIsub c f => Sys2Proof.Machine.execVopIsub c f s
  | .vopImin c f => Sys2Proof.Machine.execVopImin c f s
  | .vopImax c f => Sys2Proof.Machine.execVopImax c f s
  | .vopShl c f => Sys2Proof.Machine.execVopShl c f s
  | .vopShr c f => Sys2Proof.Machine.execVopShr c f s
  | .vopSar c f => Sys2Proof.Machine.execVopSar c f s
  | .vopCvt c f => Sys2Proof.Machine.execVopCvt c f s
  | .vopCopy c f => Sys2Proof.Machine.execVopCopy c f s
  | .vopSeed c f => Sys2Proof.Machine.execVopSeed c f s
  | .vopFinish c => Sys2Proof.Machine.execVopFinish c s
  | .tld c f => Sys2Proof.Machine.execTld c f s
  | .tldSc c f => Sys2Proof.Machine.execTldSc c f s
  | .tst c f => Sys2Proof.Machine.execTst c f s
  | .tstSc c f => Sys2Proof.Machine.execTstSc c f s
  | .tstAdd c f => Sys2Proof.Machine.execTstAdd c f s
  | .tstAcc c f => Sys2Proof.Machine.execTstAcc c f s
  | .gath c f => Sys2Proof.Machine.execGath c f s
  | .atomAdd c f => Sys2Proof.Machine.execAtomAdd c f s
  | .atomMin c f => Sys2Proof.Machine.execAtomMin c f s
  | .atomMax c f => Sys2Proof.Machine.execAtomMax c f s
  | .atomSwap c f => Sys2Proof.Machine.execAtomSwap c f s
  | .atomCompareSwap c f => Sys2Proof.Machine.execAtomCompareSwap c f s
  | .sigWrite c f => Sys2Proof.Machine.execSigWrite c f s
  | .sigAdd c f => Sys2Proof.Machine.execSigAdd c f s
  | .waitv c f => Sys2Proof.Machine.execWaitv c f s
  | .waitvReread c dev => Sys2Proof.Machine.execWaitvReread c dev s
  | .syncFence c f => Sys2Proof.Machine.execSyncFence c f s
  | .syncBar c f => Sys2Proof.Machine.execSyncBar c f s
  | .streamDataArrival c tag r => Sys2Proof.Machine.execStreamDataArrival c tag r s
  | .writeAck c tag r => Sys2Proof.Machine.execWriteAck c tag r s
  | .streamDeadlineExpiry c id => Sys2Proof.Machine.execStreamDeadlineExpiry c id s
  | .deviceWriteTimeout c tag => Sys2Proof.Machine.execDeviceWriteTimeout c tag s
  | .deviceReadTimeout c tag => Sys2Proof.Machine.execDeviceReadTimeout c tag s
  | .launchStart c => Sys2Proof.Machine.execLaunchStart c s
  | .scratchScrub c row errs => Sys2Proof.Machine.execScratchScrub c row errs s
  | .windowAccess who pa n wr => Sys2Proof.Machine.execWindowAccess who pa n wr s
  | .windowAtomic who pa op fmt v cmp => Sys2Proof.Machine.execWindowAtomic who pa op fmt v cmp s
  | .readShared who line e => Sys2Proof.Machine.execReadShared who line e s
  | .readOwn who line e => Sys2Proof.Machine.execReadOwn who line e s
  | .writeThroughWrite cl wid e => Sys2Proof.Machine.execWriteThroughWrite cl wid e s
  | .nonAllocatingRead src e => Sys2Proof.Machine.execNonAllocatingRead src e s
  | .nonAllocatingWrite src bytes => Sys2Proof.Machine.execNonAllocatingWrite src bytes s
  | .farAtomic src op fmt v cmp => Sys2Proof.Machine.execFarAtomic src op fmt v cmp s
  | .writeback who line bytes slc => Sys2Proof.Machine.execWriteback who line bytes slc s
  | .evictionNotice who line slc => Sys2Proof.Machine.execEvictionNotice who line slc s
  | .ownerForward line hasCopy => Sys2Proof.Machine.execOwnerForward line hasCopy s
  | .clusterInvalidation cl line => Sys2Proof.Machine.execClusterInvalidation cl line s
  | .clusterCacheRead c tag parity => Sys2Proof.Machine.execClusterCacheRead c tag parity s
  | .heldWriteAck cl wid => Sys2Proof.Machine.execHeldWriteAck cl wid s
  | .promote idx => Sys2Proof.Machine.execPromote idx s
  | .evict idx => Sys2Proof.Machine.execEvict idx s
  | .pin idx => Sys2Proof.Machine.execPin idx s
  | .unpin idx => Sys2Proof.Machine.execUnpin idx s
  | .setOwner idx => Sys2Proof.Machine.execSetOwner idx s
  | .batch idx => Sys2Proof.Machine.execBatch idx s
  | .t0Alloc idx => Sys2Proof.Machine.execT0Alloc idx s
  | .t0Free idx => Sys2Proof.Machine.execT0Free idx s
  | .t3Charge idx => Sys2Proof.Machine.execT3Charge idx s
  | .batchStart idx => Sys2Proof.Machine.execBatchStart idx s
  | .moveSwitch m => Sys2Proof.Machine.execMoveSwitch m s
  | .moveSwitchComplete slot => Sys2Proof.Machine.execMoveSwitchComplete slot s
  | .dramcBlockQuery v => Sys2Proof.Machine.execDramcBlockQuery v s
  | .cmdRingTailWrite v => Sys2Proof.Machine.execCmdRingTailWrite v s
  | .dispatchDecide uid => Sys2Proof.Machine.execDispatchDecide uid s
  | .dispatchReuse uid => Sys2Proof.Machine.execDispatchReuse uid s
  | .dispatchShare die => Sys2Proof.Machine.execDispatchShare die s
  | .dispatchPacketWrite die core => Sys2Proof.Machine.execDispatchPacketWrite die core s
  | .patrolScrubVisit ctl errs => Sys2Proof.Machine.execPatrolScrubVisit ctl errs s
  | .remapReq ctl v => Sys2Proof.Machine.execRemapReq ctl v s
  | .hbmTempRead ctl temp => Sys2Proof.Machine.execHbmTempRead ctl temp s
  | .marginStart ctl v => Sys2Proof.Machine.execMarginStart ctl v s
  | .marginRunDone ctl errors => Sys2Proof.Machine.execMarginRunDone ctl errors s
  | .hbmcDirQuery ctl v => Sys2Proof.Machine.execHbmcDirQuery ctl v s
  | .bisnpTimeout line => Sys2Proof.Machine.execBisnpTimeout line s
  | .walkComplete c => Sys2Proof.Machine.execWalkComplete c s
  | .invRingEntry die => Sys2Proof.Machine.execInvRingEntry die s
  | .invalidationAck inv atu => Sys2Proof.Machine.execInvalidationAck inv atu s
  | .nwFenceCx h w => Sys2Proof.Machine.execNwFenceCx h w s
  | .nwFenceRg h w => Sys2Proof.Machine.execNwFenceRg h w s
  | .pdWarmReset v => Sys2Proof.Machine.execPdWarmReset v s
  | .warmResetRelease => Sys2Proof.Machine.execWarmResetRelease s
  | .pdWdogExpire p => Sys2Proof.Machine.execPdWdogExpire p s
  | .pdWdogCountWrite p v => Sys2Proof.Machine.execPdWdogCountWrite p v s
  | .msiWrite off size v => Sys2Proof.Machine.execMsiWrite off size v s
  | .processorDeviceTimeout h id => Sys2Proof.Machine.execProcessorDeviceTimeout h id s
  | .create die q => Sys2Proof.Machine.execCreate die q s
  | .enable die q => Sys2Proof.Machine.execEnable die q s
  | .disable die q => Sys2Proof.Machine.execDisable die q s
  | .destroy die q => Sys2Proof.Machine.execDestroy die q s
  | .resume die q => Sys2Proof.Machine.execResume die q s
  | .doorbellReread die q host => Sys2Proof.Machine.execDoorbellReread die q host s
  | .doorbellPeriodicRead die host => Sys2Proof.Machine.execDoorbellPeriodicRead die host s
  | .descriptorReread die q host => Sys2Proof.Machine.execDescriptorReread die q host s
  | .descriptorAccept die => Sys2Proof.Machine.execDescriptorAccept die s
  | .launch uid => Sys2Proof.Machine.execLaunch uid s
  | .launchRecipe uid => Sys2Proof.Machine.execLaunchRecipe uid s
  | .recipeNodeStart uid node => Sys2Proof.Machine.execRecipeNodeStart uid node s
  | .inlineWrite uid => Sys2Proof.Machine.execInlineWrite uid s
  | .signal uid => Sys2Proof.Machine.execSignal uid s
  | .wait uid dev => Sys2Proof.Machine.execWait uid dev s
  | .waitReread uid dev => Sys2Proof.Machine.execWaitReread uid dev s
  | .phase uid => Sys2Proof.Machine.execPhase uid s
  | .fence uid => Sys2Proof.Machine.execFence uid s
  | .install uid => Sys2Proof.Machine.execInstall uid s
  | .remove uid => Sys2Proof.Machine.execRemove uid s
  | .invalidateRange uid => Sys2Proof.Machine.execInvalidateRange uid s
  | .peelHint uid => Sys2Proof.Machine.execPeelHint uid s
  | .nop uid => Sys2Proof.Machine.execNop uid s
  | .copy c => Sys2Proof.Machine.execCopy c s
  | .fill c => Sys2Proof.Machine.execFill c s
  | .copy2d c => Sys2Proof.Machine.execCopy2d c s
  | .feHinv die v => Sys2Proof.Machine.execFeHinv die v s
  | .feQquery die v => Sys2Proof.Machine.execFeQquery die v s
  | .feRecipeQuery die v => Sys2Proof.Machine.execFeRecipeQuery die v s
  | .operationComplete uid act => Sys2Proof.Machine.execOperationComplete uid act s
  | .completionWriteFail uid cause => Sys2Proof.Machine.execCompletionWriteFail uid cause s
  | .intrHoldoffExpiry q => Sys2Proof.Machine.execIntrHoldoffExpiry q s
  | .queueTimeout uid => Sys2Proof.Machine.execQueueTimeout uid s
  | .coreStopTimeout c => Sys2Proof.Machine.execCoreStopTimeout c s
  | .hangDetect c => Sys2Proof.Machine.execHangDetect c s
  | .replayTimeout die => Sys2Proof.Machine.execReplayTimeout die s
  | .contextReset v => Sys2Proof.Machine.execContextReset v s
  | .rasCtxQuery v => Sys2Proof.Machine.execRasCtxQuery v s
  | .pointDecision => Sys2Proof.Machine.execPointDecision s
  | .voltageSettled die => Sys2Proof.Machine.execVoltageSettled die s
  | .railExcess x => Sys2Proof.Machine.execRailExcess x s
  | .limiterRatioStep rail amps => Sys2Proof.Machine.execLimiterRatioStep rail amps s
  | .inputExcess amps => Sys2Proof.Machine.execInputExcess amps s
  | .gate path wfi => Sys2Proof.Machine.execGate path wfi s
  | .ungate path => Sys2Proof.Machine.execUngate path s
  | .query path => Sys2Proof.Machine.execQuery path s
  | .gatingComplete path => Sys2Proof.Machine.execGatingComplete path s
  | .domainWake path => Sys2Proof.Machine.execDomainWake path s
  | .sensorRead temps => Sys2Proof.Machine.execSensorRead temps s
  | .thermalTrip die => Sys2Proof.Machine.execThermalTrip die s
  | .inputUndervoltage => Sys2Proof.Machine.execInputUndervoltage s
  | .inputPowerOn => Sys2Proof.Machine.execInputPowerOn s
  | .proofSubmit v => Sys2Proof.Machine.execProofSubmit v s
  | .proofStart idx => Sys2Proof.Machine.execProofStart idx s
  | .proofEnd idx d => Sys2Proof.Machine.execProofEnd idx d s
  | .proofSkip idx => Sys2Proof.Machine.execProofSkip idx s
  | .suspect path seq => Sys2Proof.Machine.execSuspect path seq s
  | .release path seq => Sys2Proof.Machine.execRelease path seq s
  | .quarantine path seq => Sys2Proof.Machine.execQuarantine path seq s
  | .coreReset path seq => Sys2Proof.Machine.execCoreReset path seq s
  | .coreResetExecute c => Sys2Proof.Machine.execCoreResetExecute c s
  | .quarantineApply => Sys2Proof.Machine.execQuarantineApply s
  | .rasUnitQuery v => Sys2Proof.Machine.execRasUnitQuery v s
  | .rasProofQuery v => Sys2Proof.Machine.execRasProofQuery v s
  | .adlFlitCrcFail link md again => Sys2Proof.Machine.execAdlFlitCrcFail link md again s
  | .laserLow oe => Sys2Proof.Machine.execLaserLow oe s
  | .laserRecover oe => Sys2Proof.Machine.execLaserRecover oe s
  | .rufenFlitReceive port flit sym crcOk => Sys2Proof.Machine.execRufenFlitReceive port flit sym crcOk s
  | .rufenReplayTimeout port => Sys2Proof.Machine.execRufenReplayTimeout port s
  | .nodeIsolate node => Sys2Proof.Machine.execNodeIsolate node s
  | .remoteRequest r => Sys2Proof.Machine.execRemoteRequest r s
  | .stepIssue v => Sys2Proof.Machine.execStepIssue v s
  | .stepReceive src gate line value => Sys2Proof.Machine.execStepReceive src gate line value s
  | .stepGateWrite gate => Sys2Proof.Machine.execStepGateWrite gate s
  | .fresetIssue v => Sys2Proof.Machine.execFresetIssue v s
  | .fresetReceive line => Sys2Proof.Machine.execFresetReceive line s
  | .fresetAction => Sys2Proof.Machine.execFresetAction s
  | .fresetEnd reach => Sys2Proof.Machine.execFresetEnd reach s
  | .d2dQuery v => Sys2Proof.Machine.execD2dQuery v s
  | .cxlRecoveryEnter => Sys2Proof.Machine.execCxlRecoveryEnter s
  | .cxlRetrainLimit => Sys2Proof.Machine.execCxlRetrainLimit s
  | .cxlLinkDown cause => Sys2Proof.Machine.execCxlLinkDown cause s
  | .cxlSessionStart => Sys2Proof.Machine.execCxlSessionStart s
  | .memrdShared dpa e => Sys2Proof.Machine.execMemrdShared dpa e s
  | .memrdAny dpa e => Sys2Proof.Machine.execMemrdAny dpa e s
  | .memrdInvalid dpa e => Sys2Proof.Machine.execMemrdInvalid dpa e s
  | .meminvAny dpa => Sys2Proof.Machine.execMeminvAny dpa s
  | .meminvInvalid dpa => Sys2Proof.Machine.execMeminvInvalid dpa s
  | .memwrOwner dpa bytes w => Sys2Proof.Machine.execMemwrOwner dpa bytes w s
  | .memwrNonOwner dpa bytes w => Sys2Proof.Machine.execMemwrNonOwner dpa bytes w s
  | .snpinv hpa => Sys2Proof.Machine.execSnpinv hpa s
  | .snpdata hpa => Sys2Proof.Machine.execSnpdata hpa s
  | .snpcur hpa => Sys2Proof.Machine.execSnpcur hpa s
  | .globalObservation c tag => Sys2Proof.Machine.execGlobalObservation c tag s
  | .bar0Access off size wr => Sys2Proof.Machine.execBar0Access off size wr s
  | .bar2Access off n wr => Sys2Proof.Machine.execBar2Access off n wr s
  | .hdmDecoderCommit base ways => Sys2Proof.Machine.execHdmDecoderCommit base ways s
  | .msixSend vec => Sys2Proof.Machine.execMsixSend vec s
  | .moduleColdReset cause => Sys2Proof.Machine.execModuleColdReset cause s
  | .moduleWarmReset us => Sys2Proof.Machine.execModuleWarmReset us s
  | .resetRelease env => Sys2Proof.Machine.execResetRelease env s
  | .hartBootRelease => Sys2Proof.Machine.execHartBootRelease s
  | .recordWriteStart v => Sys2Proof.Machine.execRecordWriteStart v s
  | .recordWriteDone verified => Sys2Proof.Machine.execRecordWriteDone verified s
  | .debugTokenSubmit v => Sys2Proof.Machine.execDebugTokenSubmit v s
  | .managementChunk bytes => Sys2Proof.Machine.execManagementChunk bytes s
  | .mctpControl body => Sys2Proof.Machine.execMctpControl body s
  | .pldmType0 body => Sys2Proof.Machine.execPldmType0 body s
  | .pldmType2 sensor => Sys2Proof.Machine.execPldmType2 sensor s
  | .pldmType5 region image => Sys2Proof.Machine.execPldmType5 region image s
  | .getVersion body => Sys2Proof.Machine.execGetVersion body s
  | .getCapabilities body => Sys2Proof.Machine.execGetCapabilities body s
  | .negotiateAlgorithms body => Sys2Proof.Machine.execNegotiateAlgorithms body s
  | .getDigests body => Sys2Proof.Machine.execGetDigests body s
  | .getCertificate body => Sys2Proof.Machine.execGetCertificate body s
  | .challenge body => Sys2Proof.Machine.execChallenge body s
  | .getMeasurements index => Sys2Proof.Machine.execGetMeasurements index s
  | .unitQuery path => Sys2Proof.Machine.execUnitQuery path s
  | .unitCmd path op => Sys2Proof.Machine.execUnitCmd path op s
  | .serviceClear paths => Sys2Proof.Machine.execServiceClear paths s
  | .debugToken body => Sys2Proof.Machine.execDebugToken body s
  | .scanSelect path => Sys2Proof.Machine.execScanSelect path s
  | .logRead index => Sys2Proof.Machine.execLogRead index s
  | .scanInPacket bits data crcOk => Sys2Proof.Machine.execScanInPacket bits data crcOk s
  | .moduleFrameSend => Sys2Proof.Machine.execModuleFrameSend s
  | .registerWrite off size v => Sys2Proof.Machine.execRegisterWrite off size v s
  | .readoutComplete c eng x => Sys2Proof.Machine.execReadoutComplete c eng x s
  | .waitvDeadlineExpiry c => Sys2Proof.Machine.execWaitvDeadlineExpiry c s
  | .proofRunDue idx => Sys2Proof.Machine.execProofRunDue idx s
  | .adlModuleRetrainDone link md res => Sys2Proof.Machine.execAdlModuleRetrainDone link md res s
  | .rufenPortTrained port ok => Sys2Proof.Machine.execRufenPortTrained port ok s
  | .cxlLinkTrainingEnd ok width rate => Sys2Proof.Machine.execCxlLinkTrainingEnd ok width rate s
  | .hostBisnpResponse line bytes => Sys2Proof.Machine.execHostBisnpResponse line bytes s
  | .hartFence h w => Sys2Proof.Machine.execHartFence h w s
  | .hartStore h pa src pbmt => Sys2Proof.Machine.execHartStore h pa src pbmt s
  | .hartAmo h pa op wide v pbmt => Sys2Proof.Machine.execHartAmo h pa op wide v pbmt s

end Sys2Proof.Machine
end

