-- ==== Sys2Proof/Machine/Step.lean ====
section
/-! DEFINITION. Machine/Step.lean: one step: the command at the front of the queue, or, on an empty queue, the passing of a
stroke. -/

namespace Sys2Proof.Machine

/-- What happens while no command waits: in a module that has power and is not held in reset, the next stroke of the line
begins, up to the last one, which LINE_BOUNDARY ends (DESIGN CHOICE, assumption log 2; R20). -/
def State.idle (s : State) : State :=
  if s.power.input && s.boot.phase != 0 && s.ruling.stroke < 15 then
    s.withRuling { s.ruling with stroke := s.ruling.stroke + 1, tick := 0 }
  else s

/-- One step of the module: the command at the front of the queue acts on the module with the rest of the queue. -/
def step (s : State) : Host.Outcome State Fault Refusal :=
  match s.pending with
  | [] => .next s.idle
  | i :: rest => exec i (s.withPending rest)

/-- The module with a table word's command put at the front of its queue; unchanged where the word spells none. -/
def State.withFetchWord (s : State) (nbits w : Nat) : State :=
  match Sys2Proof.decodeTableWord nbits w with
  | some i => s.withPending (i :: s.pending)
  | none => s

end Sys2Proof.Machine
end

