-- ==== Sys2Proof/Safety.lean ====
section
/-! DEFINITION. Safety.lean: the states a run stays in (memory in its canonical form, ruled time within its fields, no queue
of the hub beyond its length), and the terms claims are stated in: when a core can issue, what an instruction leaves. -/

namespace Sys2Proof.Machine

/-! ### States a run stays in -/

/-- Memory is in its canonical form: bytes, poison and bad words rise strictly and hold no entry equal to what an unlisted
place reads as; modified bytes and directory entries rise strictly. -/
def Mem.wf (m : Mem) : Bool :=
  Tbl.wf m.blank m.bytes && Tbl.wf (fun _ => false) m.poison && Tbl.wf (fun _ => false) m.badWords && Tbl.rising m.dirty
    && Tbl.rising m.dir

/-- Ruled time lies within its fields: 48 bits of line, 16 strokes, 4,096 ticks (R17, R20, R21). -/
def Ruling.inFields (r : Ruling) : Bool := decide (r.line < 2 ^ 48) && decide (r.stroke < 16) && decide (r.tick < 4096)

/-- No more than 8 commits are pending (R35), 256 error records wait in the hub (R554), and 8 packets are held (R654). -/
def State.queuesFit (s : State) : Bool :=
  decide (s.regs.commits.length ≤ 8) && decide (s.ras.waiting.length ≤ 256) && decide (s.hatch.rx.length ≤ 8)

/-- A run is safe so far: it has met neither a fault nor a command that could not happen. -/
def safeRun (k : Nat) (s : State) : Prop := ∃ t, Host.Core.run Sys2Proof.core k s = .next t

/-- The module has power and its rails are on. -/
def State.running (s : State) : Prop := s.power.input = true ∧ s.power.tripped = false

/-! ### Homes that can act at once -/

/-- No record is written: neither the error log nor the hot-block ring takes one, and none waits for the ring (R266, R554). -/
def State.recordsOff (s : State) : Prop := s.logUsable = false ∧ s.hotRoom = false ∧ s.peel.hot = []

/-- The home of a tiered line takes a request for it and can perform it at once: the line is not BUSY, the home has room, no
waiting request can go on, the directory has room, its check bits are good, no access counter wraps, no record waits, and no
domain is gated (R339, R262, R316, R554). -/
def State.homeFree (s : State) (line : Nat) : Prop :=
  s.tieredLine line = true ∧ s.busy line = false ∧ s.homeTakes line = true ∧ (∀ r ∈ s.mem.waitq, s.lineBusy r.line = true)
    ∧ s.mem.dir.length + s.mem.txns.length < 16 ∧ (∀ f ∈ s.mem.flaws, f.sector / 4 ≠ line)
    ∧ (s.remap (blockOf (line * 128))).subs.getD (fun _ => 0) (s.homeOf (line * 128)).1 < 63
    ∧ s.ras.waiting = [] ∧ s.peel.hot = [] ∧ s.power.gated = []

/-- The module's engines find every line idle and good, and leave no record: no transaction is in progress, no block is on its
way to another frame, no check bits are bad, and no record is written (R339, R254, R316, R266, R554). -/
def State.calm (s : State) : Prop :=
  s.mem.txns = [] ∧ (∀ m ∈ s.peel.moves, m.switched = true) ∧ s.mem.flaws = [] ∧ s.recordsOff

/-- No line has a holder whose data a run leaves open: the CXL host holds none, and no processor die has lost a line it owns;
modified bytes rise and lie in the address space. -/
def State.plainLines (s : State) : Prop :=
  (∀ l, (s.dirOf l).owner ≠ some 22 ∧ (s.dirOf l).sharers.getLsbD 22 = false) ∧ s.mem.lost = []
    ∧ Tbl.rising s.mem.dirty = true ∧ ∀ e ∈ s.mem.dirty, e.1 < 2 ^ 49

/-! ### Registers and frames of cores -/

/-- The registers of a core that a running program names: scalars, descriptors, PC, loop and return stacks, S (R155, R169,
R170, R179). -/
def Core.regs (k : Core) : Tbl Word × Tbl (BitVec 128) × Word × List LoopEnt × List Word × Word :=
  (k.s, k.t, k.pc, k.loops, k.rets, k.rnd)

/-- Every core's registers are the same in two states. -/
def State.sameRegs (s t : State) : Prop := ∀ d, (t.core d).regs = (s.core d).regs

/-- Core `c` has nothing in flight that an event lets go on, and no core is draining. -/
def State.quiet (s : State) (c : Nat) : Prop :=
  (s.core c).jobs = [] ∧ (s.core c).writes = [] ∧ (s.core c).block = .none ∧ ∀ e ∈ s.cores, e.2.block ≠ .draining

/-- Nothing but core `c` differs between two states. -/
def State.onlyCore (s t : State) (c : Nat) : Prop := t.withCores [] = s.withCores [] ∧ ∀ d, d ≠ c → t.core d = s.core d

/-! ### Issue: R119, R120, R164 -/

/-- The tile instruction a command is: its core and its header. -/
def tileOf (i : Instr) : Option (Nat × Hdr) :=
  match i with
  | .sclAdd c f => some (c, f.h)
  | .sclSub c f => some (c, f.h)
  | .sclMul c f => some (c, f.h)
  | .sclAnd c f => some (c, f.h)
  | .sclOr c f => some (c, f.h)
  | .sclXor c f => some (c, f.h)
  | .sclShl c f => some (c, f.h)
  | .sclShr c f => some (c, f.h)
  | .sclSar c f => some (c, f.h)
  | .sclMin c f => some (c, f.h)
  | .sclMax c f => some (c, f.h)
  | .sclMinu c f => some (c, f.h)
  | .sclMaxu c f => some (c, f.h)
  | .sclCmpeq c f => some (c, f.h)
  | .sclCmpne c f => some (c, f.h)
  | .sclCmplt c f => some (c, f.h)
  | .sclCmpltu c f => some (c, f.h)
  | .sclCmpge c f => some (c, f.h)
  | .sclCmpgeu c f => some (c, f.h)
  | .sclPand c f => some (c, f.h)
  | .sclPor c f => some (c, f.h)
  | .sclPxor c f => some (c, f.h)
  | .sclPandn c f => some (c, f.h)
  | .sclLds c f => some (c, f.h)
  | .sclSts c f => some (c, f.h)
  | .sclTdset c f => some (c, f.h)
  | .sclTdget0 c f => some (c, f.h)
  | .sclTdget1 c f => some (c, f.h)
  | .sclTdadj c f => some (c, f.h)
  | .sclRdsr c f => some (c, f.h)
  | .ctlNop c f => some (c, f.h)
  | .ctlB c f => some (c, f.h)
  | .ctlLoop c f => some (c, f.h)
  | .ctlCall c f => some (c, f.h)
  | .ctlRet c f => some (c, f.h)
  | .ctlEnd c f => some (c, f.h)
  | .ctlTrap c f => some (c, f.h)
  | .tmma c f => some (c, f.h)
  | .tmmaP c f => some (c, f.h)
  | .vopAdd c f => some (c, f.h)
  | .vopSub c f => some (c, f.h)
  | .vopMul c f => some (c, f.h)
  | .vopFma c f => some (c, f.h)
  | .vopMin c f => some (c, f.h)
  | .vopMax c f => some (c, f.h)
  | .vopCmplt c f => some (c, f.h)
  | .vopCmple c f => some (c, f.h)
  | .vopCmpeq c f => some (c, f.h)
  | .vopSel c f => some (c, f.h)
  | .vopSqrt c f => some (c, f.h)
  | .vopRcp c f => some (c, f.h)
  | .vopRsq c f => some (c, f.h)
  | .vopExp c f => some (c, f.h)
  | .vopExp2 c f => some (c, f.h)
  | .vopLog c f => some (c, f.h)
  | .vopLog2 c f => some (c, f.h)
  | .vopRsum c f => some (c, f.h)
  | .vopRmax c f => some (c, f.h)
  | .vopIadd c f => some (c, f.h)
  | .vopIsub c f => some (c, f.h)
  | .vopImin c f => some (c, f.h)
  | .vopImax c f => some (c, f.h)
  | .vopShl c f => some (c, f.h)
  | .vopShr c f => some (c, f.h)
  | .vopSar c f => some (c, f.h)
  | .vopCvt c f => some (c, f.h)
  | .vopCopy c f => some (c, f.h)
  | .vopSeed c f => some (c, f.h)
  | .tld c f => some (c, f.h)
  | .tldSc c f => some (c, f.h)
  | .tst c f => some (c, f.h)
  | .tstSc c f => some (c, f.h)
  | .tstAdd c f => some (c, f.h)
  | .tstAcc c f => some (c, f.h)
  | .gath c f => some (c, f.h)
  | .atomAdd c f => some (c, f.h)
  | .atomMin c f => some (c, f.h)
  | .atomMax c f => some (c, f.h)
  | .atomSwap c f => some (c, f.h)
  | .atomCompareSwap c f => some (c, f.h)
  | .sigWrite c f => some (c, f.h)
  | .sigAdd c f => some (c, f.h)
  | .waitv c f => some (c, f.h)
  | .syncFence c f => some (c, f.h)
  | .syncBar c f => some (c, f.h)
  | _ => none

/-- The instruction buffer of core `c` holds the line of its PC, and that of an extension word in the next line (R119). -/
def State.buffered (s : State) (c : Nat) (h : Hdr) : Prop :=
  (s.core c).ibuf.contains ((s.core c).pc.toNat / 128) = true
    ∧ (h.x = true → (s.core c).pc.toNat % 128 = 120 → (s.core c).ibuf.contains (((s.core c).pc.toNat + 8) / 128) = true)

/-- Core `c` runs launch `l` and nothing holds its issue: its PC is a multiple of 8, the instruction is in its buffer, and the
predicate PRED names has its final value. -/
def State.canIssue (s : State) (c : Nat) (h : Hdr) (l : Launch) : Prop :=
  s.running ∧ (s.core c).launch = some l ∧ (s.core c).block = .none ∧ (s.core c).pc.toNat % 8 = 0 ∧ s.buffered c h
    ∧ (s.core c).pendP h.pred.toNat = false

/-- Core `c` can issue, the word is its row's, and the predicate lets the instruction execute. -/
def State.canRun (s : State) (c : Nat) (h : Hdr) (l : Launch) : Prop :=
  s.canIssue c h l ∧ (s.core c).executes h = true ∧ h.reserved = false

/-- Scalar registers have their final values. -/
def Core.readyS (k : Core) (rs : List Nat) : Prop := ∀ r ∈ rs, k.pendS r = false

/-- The core as it moves past an instruction with header `h`: the next instruction, or back to the first of a loop body. -/
def Core.past (k : Core) (h : Hdr) : Core := k.advance (hdrLen h)

/-- Two states read alike everywhere. -/
def State.alike (s t : State) : Prop := t.withCores [] = s.withCores [] ∧ ∀ d, t.core d = s.core d

/-- What follows an event on core `c` leaves every core's registers alone; with nothing in flight it changes nothing. -/
def State.settles (u : State) (c : Nat) : Prop := u.sameRegs (u.after c) ∧ (u.quiet c → u.alike (u.after c))

/-- Core `c` issues `i` and becomes `k`: nothing else changes before the units go on, and what they then do leaves the
registers as `k` has them, and everything, memory too, when nothing is in flight. -/
def State.issuesTo (s : State) (i : Instr) (c : Nat) (k : Core) : Prop :=
  ∃ u, exec i s = .next (u.after c) ∧ u.core c = k ∧ s.onlyCore u c ∧ u.settles c

/-- Core `c` issues `i`, which raises an exception: the core moves nowhere, records it, and drains (R197, R199). -/
def State.raises (s : State) (i : Instr) (c code va trap : Nat) : Prop :=
  ∃ u, exec i s = .next (u.after c) ∧ s.onlyCore u c ∧ u.settles c
    ∧ u.core c = { s.core c with
        exc := some { code := code, pc := (s.core c).pc.toNat, va := va, trap := trap }, block := .draining, waiting := false }

/-- A new instruction of a unit's queue as core `k` issues it: its number, its PC, its operation, and the descriptors it
reads and writes; it has not begun (R121). -/
def Core.job (k : Core) (unit : Nat) (kind : JobKind) (reads writes : List Nat) : Job :=
  { seq := k.nextSeq, pc := k.pc.toNat, unit := unit, kind := kind, begun := false, reads := reads, writes := writes
    rd := none, lp := none, release := false, acquire := false, scope := 0, deadline := none, todo := [], planned := false
    tainted := false }

/-- The core with one more instruction in a unit's queue. -/
def Core.queued (k : Core) (j : Job) : Core := { k with nextSeq := k.nextSeq + 1, jobs := k.jobs ++ [j] }

/-- The core with issue halted behind an acquire (R212). -/
def Core.acquiring (k : Core) (j : Job) : Core := if j.acquire then { k with block := .acquire j.seq } else k

/-- An SCL word that raises no ILLEGAL_INSTRUCTION: its reserved bit is zero, and an extension word comes with the
immediate (R163, R166). -/
def sclLegal (f : SclF) : Prop := f.rsv = false ∧ (f.h.x = true → f.imm = true)

/-- The scalar sources of an SCL have their final values: RA, and RB when it is used (R120). -/
def Core.sclReady (k : Core) (f : SclF) : Prop := k.pendS f.ra.toNat = false ∧ (f.imm = false → k.pendS f.rb.toNat = false)

/-- Descriptors and a queue entry are free for an instruction (R121, R122). -/
def Core.free (k : Core) (unit : Nat) (reads writes : List Nat) : Prop :=
  k.hazard reads writes = false ∧ k.room unit = true

end Sys2Proof.Machine
end

