-- ==== Sys2Proof/Certificates/Slice0/Obligations.lean ====
section
/-! DEFINITION. Certificates/Slice0/Obligations.lean: what is claimed of the module, for the provers. -/

open Sys2Proof Sys2Proof.Machine

/-- Commands are taken first in, first out: a step on a queue with `i` in front is `exec i` on the state with the queue's
rest. The queue is the model's, not the spec's (assumption log 2). -/
def Obligations.StepRunsFrontCommand : Prop :=
  ∀ (s : State) (i : Instr) (rest : List Instr), s.pending = i :: rest → step s = exec i (s.withPending rest)

/-- A step on an empty queue begins the next stroke (the model's choice, assumption log 2; R20 gives the fields). -/
def Obligations.EmptyQueueAdvancesStroke : Prop :=
  ∀ s : State, s.pending = [] →
    (s.power.input = true → s.boot.phase ≠ 0 → s.ruling.stroke < 15 →
      step s = .next (s.withRuling { s.ruling with stroke := s.ruling.stroke + 1, tick := 0 }))
    ∧ (s.power.input = false ∨ s.boot.phase = 0 ∨ 15 ≤ s.ruling.stroke → step s = .next s)

/-- Reset (R24, R693, RULE_CTL): the tracker, memory, the pitch, the cores. That a core's registers are zero before its
first launch is the model's choice (assumption log 1). -/
def Obligations.ResetState : Prop :=
  State.reset.ruling.state = .acquiring ∧ State.reset.now = 0 ∧ State.reset.regN rRuleCtl = 2
    ∧ (∀ a, State.reset.sysByte a = 0) ∧ (∀ x, State.reset.poisoned x = false) ∧ State.reset.mem.dir = []
    ∧ (∀ c r, (State.reset.core c).launch = none ∧ (State.reset.core c).sreg r = 0 ∧ (State.reset.core c).rnd = 1)
    ∧ State.reset.pending = []
    ∧ State.reset.mem.wf = true ∧ State.reset.ruling.inFields = true ∧ State.reset.queuesFit = true

/-- An undervoltage turns every regulator off (R52): nothing acts until power returns. -/
def Obligations.NoPowerNothingHappens : Prop :=
  (∀ (s t : State) (i : Instr), s.power.input = false → exec i s = .next t →
      i = .inputPowerOn ∨ i = .moduleColdReset .power)
  ∧ (∀ s : State, s.power.input = false → ∃ t : State, exec .inputPowerOn s = .next t ∧ t.power.input = true)
  ∧ ∀ (s : State) (i : Instr) (f : Fault), s.power.input = true → exec i s ≠ .fault f

/-- No bit of a tile instruction's encoding is dropped (R162 and the field tables of R166 to R193); every word is read as some
row's, or as one with a reserved class or code (R163; that it stands under CTL_NOP is the model's choice, assumption log 49). -/
def Obligations.TileWordsRoundTrip : Prop :=
  (∀ (i : Instr) (c : Nat) (h : Hdr), wellFormed i = true → tileOf i = some (c, h) → h.reserved = false →
    ∃ w e, encodeTile i = some (w, e) ∧ decodeTile c w e = i)
  ∧ ∀ (c : Nat) (w e : BitVec 64), ∃ h, tileOf (decodeTile c w e) = some (c, h)
      ∧ (h.reserved = true ↔ tileRow c w e = none)
      ∧ (12 ≤ (w.extractLsb' 60 4).toNat → h.reserved = true)
      ∧ ((w.extractLsb' 60 4).toNat = 8 → (h.reserved = true ↔ 5 ≤ (w.extractLsb' 52 3).toNat))
      ∧ ((w.extractLsb' 60 4).toNat = 9 → (h.reserved = true ↔ 2 ≤ (w.extractLsb' 53 2).toNat))

/-- The example of R175, and words written out bit by bit from R166, R168 and R193. -/
def Obligations.SpecWordsDecode : Prop :=
  let h : Hdr := { x := false, pred := 0, pneg := false }
  decodeTile 0 0x2020963E00000000 0
      = .tmma 0 { h := h, eng := 1, acc := 0, ta := 2, tb := 5, rpt := 143, zero := true, sk := 0, rsv := 0 }
    ∧ decodeTile 7 0x0000308800000000 0
      = .sclAdd 7 { h := h, rd := 3, ra := 1, rb := 2, imm := false, rsv := false, imm32 := 0, ext := 0 }
    ∧ decodeTile 7 0x1014000000000000 0 = .ctlEnd 7 { h := h, ra := 0, rsv := 0, offset := 0 }
    ∧ decodeTile 7 0x9010000000000000 0 = .syncFence 7 { h := h, scope := 2, bid := 0, rn := 0, sp := 0, rsv := 0 }

/-- The results of the SCL arithmetic (R166) as numbers, on every operand form; a write to s0 is ignored (R155). -/
def Obligations.ScalarArithmetic : Prop :=
  ∀ (s : State) (c : Nat) (l : Launch) (f : SclF) (i : Instr) (op : Word → Word → Word),
    (i, op) ∈ [(Instr.sclAdd c f, fun a b => BitVec.ofNat 64 (a.toNat + b.toNat)),
      (.sclSub c f, fun a b => BitVec.ofInt 64 (a.toInt - b.toInt)),
      (.sclMul c f, fun a b => BitVec.ofNat 64 (a.toNat * b.toNat)),
      (.sclAnd c f, fun a b => BitVec.ofNat 64 (a.toNat &&& b.toNat)),
      (.sclOr c f, fun a b => BitVec.ofNat 64 (a.toNat ||| b.toNat)),
      (.sclXor c f, fun a b => BitVec.ofNat 64 (a.toNat ^^^ b.toNat)),
      (.sclShl c f, fun a b => BitVec.ofNat 64 (a.toNat * 2 ^ (b.toNat % 64))),
      (.sclShr c f, fun a b => BitVec.ofNat 64 (a.toNat / 2 ^ (b.toNat % 64))),
      (.sclSar c f, fun a b => BitVec.ofInt 64 (a.toInt / 2 ^ (b.toNat % 64))),
      (.sclMin c f, fun a b => if a.toInt ≤ b.toInt then a else b),
      (.sclMax c f, fun a b => if a.toInt ≤ b.toInt then b else a),
      (.sclMinu c f, fun a b => if a.toNat ≤ b.toNat then a else b),
      (.sclMaxu c f, fun a b => if a.toNat ≤ b.toNat then b else a)] →
    s.canRun c f.h l → sclLegal f → (s.core c).sclReady f →
    s.issuesTo i c (((s.core c).past f.h).setS f.rd.toNat (op ((s.core c).sreg f.ra.toNat)
        (if f.imm then (if f.h.x then f.ext else BitVec.ofInt 64 f.imm32.toInt) else (s.core c).sreg f.rb.toNat)))
      ∧ (f.rd = 0 → s.issuesTo i c ((s.core c).past f.h))

/-- The SCL operations whose result is a predicate (R166); p0 reads as 1 and writes to it are ignored (R155). -/
def Obligations.ScalarPredicates : Prop :=
  (∀ (s : State) (c : Nat) (l : Launch) (f : SclF) (i : Instr) (op : Word → Word → Bool),
    (i, op) ∈ [(Instr.sclCmpeq c f, fun a b => decide (a.toNat = b.toNat)),
      (.sclCmpne c f, fun a b => decide (a.toNat ≠ b.toNat)),
      (.sclCmplt c f, fun a b => decide (a.toInt < b.toInt)),
      (.sclCmpltu c f, fun a b => decide (a.toNat < b.toNat)),
      (.sclCmpge c f, fun a b => decide (b.toInt ≤ a.toInt)),
      (.sclCmpgeu c f, fun a b => decide (b.toNat ≤ a.toNat))] →
    s.canRun c f.h l → sclLegal f → (s.core c).sclReady f →
    s.issuesTo i c (((s.core c).past f.h).setP (f.rd.toNat % 8) (op ((s.core c).sreg f.ra.toNat) ((s.core c).sclB f))))
  ∧ (∀ (s : State) (c : Nat) (l : Launch) (f : SclF) (i : Instr) (op : Bool → Bool → Bool),
    (i, op) ∈ [(Instr.sclPand c f, fun a b => a && b), (.sclPor c f, fun a b => a || b),
      (.sclPxor c f, fun a b => a != b), (.sclPandn c f, fun a b => a && !b)] →
    s.canRun c f.h l → sclLegal f → (s.core c).pendP (f.ra.toNat % 8) = false → (s.core c).pendP (f.rb.toNat % 8) = false →
    s.issuesTo i c (((s.core c).past f.h).setP (f.rd.toNat % 8)
      (op ((s.core c).preg (f.ra.toNat % 8)) ((s.core c).preg (f.rb.toNat % 8)))))
  ∧ ∀ (k : Core) (b : Bool), k.preg 0 = true ∧ k.setP 0 b = k ∧ ∀ p q, p < 8 → q < 8 → p ≠ 0 →
      (k.setP p b).preg q = if q = p then b else k.preg q

/-- The SCL operations on descriptors (R166) and RDSR (R157). -/
def Obligations.ScalarDescriptors : Prop :=
  ∀ (s : State) (c : Nat) (l : Launch) (f : SclF), s.canRun c f.h l → sclLegal f →
    let k := s.core c
    let k' := k.past f.h
    ((s.core c).pendS f.ra.toNat = false → (s.core c).pendS f.rb.toNat = false →
      s.issuesTo (.sclTdset c f) c (k'.setT (f.rd.toNat % 16) (k.sreg f.rb.toNat ++ k.sreg f.ra.toNat)))
    ∧ s.issuesTo (.sclTdget0 c f) c (k'.setS f.rd.toNat (BitVec.ofNat 64 (k.treg (f.ra.toNat % 16)).toNat))
    ∧ s.issuesTo (.sclTdget1 c f) c (k'.setS f.rd.toNat (BitVec.ofNat 64 ((k.treg (f.ra.toNat % 16)).toNat / 2 ^ 64)))
    ∧ ((f.imm = false → k.pendS f.rb.toNat = false) →
        (∃ d : BitVec 128, s.issuesTo (.sclTdadj c f) c (k'.setT (f.rd.toNat % 16) d)
          ∧ d.toNat % 2 ^ 22 = ((k.treg (f.rd.toNat % 16)).toNat + (k.sclB f).toNat) % 2 ^ 22
          ∧ d.toNat / 2 ^ 22 = (k.treg (f.rd.toNat % 16)).toNat / 2 ^ 22)
        ∧ ((k.sclB f).toNat % 32 ≠ 6 → ∀ v : Word,
            ((k.sclB f).toNat % 32, v) ∈ [(1, BitVec.ofNat 64 l.rank), (2, BitVec.ofNat 64 l.cores),
                (3, BitVec.ofNat 64 (l.ctx % 2 ^ 12 + l.gen % 2 ^ 8 * 2 ^ 12)), (4, s.now), (5, k.status)]
              ∨ 7 ≤ (k.sclB f).toNat % 32 ∧ v = 0 ∨ (k.sclB f).toNat % 32 = 0 ∧ v = s.corePath c 0xC 0 →
            s.issuesTo (.sclRdsr c f) c (k'.setS f.rd.toNat v))
        ∧ ((k.sclB f).toNat % 32 = 6 → ∃ (u : State) (v : Word), exec (.sclRdsr c f) s = .next (u.after c)
            ∧ u.core c = k'.setS f.rd.toNat v ∧ (s.withFresh u.fresh).onlyCore u c ∧ u.settles c))

/-- Loads and stores of the scratchpad by SCL (R166, R167). -/
def Obligations.ScratchLoadStore : Prop :=
  ∀ (s : State) (c : Nat) (l : Launch) (f : SclF), s.canRun c f.h l → sclLegal f → (s.core c).sclReady f →
    let k := s.core c
    let a := (k.sreg f.ra.toNat + k.sclB f).toNat
    (a % 8 = 0 → a ≤ 0x3FFFF8 →
      (s.scrBad c a 8 = false →
        s.issuesTo (.sclLds c f) c ((k.past f.h).setS f.rd.toNat (BitVec.ofNat 64 (ofBytes (s.scrRead c a 8)))))
      ∧ (c < 128 → k.pendS f.rd.toNat = false → ∃ u : State, exec (.sclSts c f) s = .next (u.after c)
          ∧ { u.core c with wrote := k.wrote } = k.past f.h ∧ (k.jobs = [] → u.core c = k.past f.h)
          ∧ (s.withMem u.mem).onlyCore u c ∧ u.settles c
          ∧ u.scrRead c a 8 = toBytes 8 (k.sreg f.rd.toNat).toNat
          ∧ (∀ x, localPart x < windowBase c + a ∨ windowBase c + a + 8 ≤ localPart x → u.rawByte x = s.rawByte x)
          ∧ u.mem.poison = s.mem.poison ∧ u.mem.dir = s.mem.dir ∧ u.mem.dirty = s.mem.dirty))
    ∧ (a % 8 ≠ 0 → s.raises (.sclLds c f) c excAlign a 0
        ∧ (k.pendS f.rd.toNat = false → s.raises (.sclSts c f) c excAlign a 0))
    ∧ (a % 8 = 0 → 0x3FFFF8 < a → s.raises (.sclLds c f) c excBounds 0 0
        ∧ (k.pendS f.rd.toNat = false → s.raises (.sclSts c f) c excBounds 0 0))

/-- The branches and loops of CTL (R168 to R170). -/
def Obligations.ControlFlow : Prop :=
  ∀ (s : State) (c : Nat) (l : Launch) (f : CtlF), s.canRun c f.h l → f.h.x = false → f.rsv = 0 →
    let k := s.core c
    let k' := k.past f.h
    let dest := BitVec.ofInt 64 (k.pc.toInt + 8 * f.offset.toInt)
    s.issuesTo (.ctlNop c f) c k'
    ∧ s.issuesTo (.ctlB c f) c { k' with pc := dest, loops := leaveLoops k.loops dest.toNat }
    ∧ (k.rets.length < 8 →
        s.issuesTo (.ctlCall c f) c { k' with pc := dest, loops := k.loops, rets := (k.pc + 8) :: k.rets })
    ∧ (8 ≤ k.rets.length → s.raises (.ctlCall c f) c excStack 0 0)
    ∧ (∀ r rs, k.rets = r :: rs → s.issuesTo (.ctlRet c f) c { k' with pc := r, loops := k.loops, rets := rs })
    ∧ (k.rets = [] → s.raises (.ctlRet c f) c excStack 0 0)
    ∧ (k.pendS f.ra.toNat = false →
        (f.offset.toInt < 1 ∨ 4 ≤ k.loops.length → s.raises (.ctlLoop c f) c excStack 0 0)
        ∧ (1 ≤ f.offset.toInt → k.loops.length < 4 → (k.sreg f.ra.toNat).toNat ≠ 0 →
            s.issuesTo (.ctlLoop c f) c { k' with
              pc := k.pc + 8
              loops := { first := (k.pc + 8).toNat, last := dest.toNat, left := (k.sreg f.ra.toNat).toNat } :: k.loops })
        ∧ (1 ≤ f.offset.toInt → k.loops = [] → (k.sreg f.ra.toNat).toNat = 0 →
            s.issuesTo (.ctlLoop c f) c { k' with pc := dest + 8, loops := [] }))

/-- The branch back from the last word of a loop body (R168, R169), over every instruction length. -/
def Obligations.LoopBranchBack : Prop :=
  ∀ (k : Core) (h : Hdr) (e : LoopEnt) (rest : List LoopEnt), k.loops = e :: rest → k.pc.toNat + 16 < 2 ^ 64 →
    let lastWord := k.pc.toNat + (if h.x then 8 else 0)
    (e.last = lastWord → 2 ≤ e.left → e.first < 2 ^ 64 →
      (k.past h).loops = { e with left := e.left - 1 } :: rest ∧ (k.past h).pc.toNat = e.first)
    ∧ (e.last = lastWord → e.left ≤ 1 → (∀ o ∈ rest, o.last ≠ lastWord ∧ o.last ≠ k.pc.toNat) →
        (k.past h).loops = rest ∧ (k.past h).pc.toNat = k.pc.toNat + (if h.x then 16 else 8))
    ∧ (e.last ≠ lastWord → e.last ≠ k.pc.toNat →
        (k.past h).loops = e :: rest ∧ (k.past h).pc.toNat = k.pc.toNat + (if h.x then 16 else 8))

/-- END and TRAP (R168, R171, R199). -/
def Obligations.EndAndTrap : Prop :=
  ∀ (s : State) (c : Nat) (l : Launch) (f : CtlF), s.canRun c f.h l → f.h.x = false → f.rsv = 0 →
    s.issuesTo (.ctlEnd c f) c { s.core c with block := .ending, waiting := false, still := 0 }
    ∧ (∃ t : State, exec (.ctlEnd c f) s = .next t ∧ s.sameRegs t)
    ∧ ((s.core c).jobs = [] → (s.core c).writes = [] → (∀ h ∈ (s.cluster (c / 8)).held, h.core ≠ c) →
        ∃ t : State, exec (.ctlEnd c f) s = .next t ∧ (t.core c).launch = none)
    ∧ s.raises (.ctlTrap c f) c excTrap 0 (f.offset.toNat % 2 ^ 16)

/-- R164 for every tile instruction: one that does not execute is passed over, or raises ILLEGAL_INSTRUCTION, and has no
other effect; PRED 0 with PNEG 0 always executes. Issue that is halted stays where it is (R120), and a word with a reserved
class or operation code raises ILLEGAL_INSTRUCTION, whatever its predicate (R163). -/
def Obligations.PredicatedIssue : Prop :=
  (∀ (s : State) (i : Instr) (c : Nat) (h : Hdr) (l : Launch), tileOf i = some (c, h) → s.canIssue c h l →
    ((s.core c).executes h = ((s.core c).preg h.pred.toNat != h.pneg))
    ∧ (h.pred = 0 → h.pneg = false → (s.core c).executes h = true)
    ∧ ((s.core c).executes h = false → s.issuesTo i c ((s.core c).past h) ∨ s.raises i c excIllegal 0 0))
  ∧ (∀ (s : State) (i : Instr) (c : Nat) (h : Hdr), tileOf i = some (c, h) → s.running → (s.core c).launch.isSome →
    (s.core c).block ≠ .none → exec i s = .next (s.setCore c { s.core c with waiting := true }))
  ∧ (∀ (s : State) (i : Instr) (c : Nat) (h : Hdr) (l : Launch), tileOf i = some (c, h) → s.canIssue c h l →
    h.reserved = true → s.raises i c excIllegal 0 0)

/-- Issue of TMMA and TMMA.P (R172 to R175, R79, R121). -/
def Obligations.TmmaIssue : Prop :=
  ∀ (s : State) (c : Nat) (l : Launch) (f : TmmaF), s.canRun c f.h l → f.h.x = false → f.rsv = 0 →
    let k := s.core c
    let e := f.eng.toNat
    k.pendS f.sk.toNat = false → k.free e [f.ta.toNat, f.tb.toNat] [] → k.accHold e f.acc.toNat true = false →
    (s.enginePresent c e = false →
      s.raises (.tmma c f) c excEngine 0 0 ∧ (f.zero = false → s.raises (.tmmaP c f) c excEngine 0 0))
    ∧ ((s.tmmaFaults c f k l).first = none →
        s.issuesTo (.tmma c f) c ((k.past f.h).queued (k.job e
          (.tmma f (k.treg f.ta.toNat) (k.treg f.tb.toNat) (k.sreg f.sk.toNat).toNat) [f.ta.toNat, f.tb.toNat] [])))
    ∧ (f.zero = false → (s.tmmapFaults c f k l).first = none →
        s.rowsBad c (k.sreg f.sk.toNat).toNat 0 1 256 = none →
        s.issuesTo (.tmmaP c f) c ((k.past f.h).queued (k.job e
          (.tmmap f (k.treg f.ta.toNat) (k.treg f.tb.toNat) (s.scrRead c (k.sreg f.sk.toNat).toNat 256))
          [f.ta.toNat, f.tb.toNat] [])))

/-- Issue of the VOPs (R176, R179, R121, R122): the operation codes are those of the table of R176. -/
def Obligations.VopIssue : Prop :=
  (∀ (s : State) (c : Nat) (l : Launch) (f : VopF) (op : Nat) (i : Instr),
    (op, i) ∈ [(0x00, Instr.vopAdd c f), (0x01, .vopSub c f), (0x02, .vopMul c f), (0x03, .vopFma c f), (0x04, .vopMin c f),
      (0x05, .vopMax c f), (0x06, .vopCmplt c f), (0x07, .vopCmple c f), (0x08, .vopCmpeq c f), (0x09, .vopSel c f),
      (0x10, .vopSqrt c f), (0x11, .vopRcp c f), (0x12, .vopRsq c f), (0x13, .vopExp c f), (0x14, .vopExp2 c f),
      (0x15, .vopLog c f), (0x16, .vopLog2 c f), (0x18, .vopRsum c f), (0x19, .vopRmax c f), (0x20, .vopIadd c f),
      (0x21, .vopIsub c f), (0x22, .vopImin c f), (0x23, .vopImax c f), (0x24, .vopShl c f), (0x25, .vopShr c f),
      (0x26, .vopSar c f), (0x30, .vopCvt c f), (0x31, .vopCopy c f)] →
    s.canRun c f.h l → vopIllegal op f = false →
    let k := s.core c
    let d := tdOf (k.treg f.td.toNat)
    let a := tdOf (k.treg f.ts1.toNat)
    let b := tdOf (k.treg f.ts2.toNat)
    let t := tdOf (k.treg f.ts3.toNat)
    (f.bc = 3 → k.pendS f.rs.toNat = false) → k.free 4 (vopIns op f).reads [f.td.toNat] →
    vopFormatBad op f d a b t = false → vopShapeBad op f d a b t = false → vopBoundsBad op f d a b t = false →
    s.issuesTo i c ({ k.past f.h with
        rnd := if f.sr = true ∧ ¬(a.fmt = 10 ∧ d.fmt = 9) then stochAdvance k.rnd (d.rows * d.elems) else k.rnd }.queued
      (k.job 4 (.vop op f (k.treg f.td.toNat) (k.treg f.ts1.toNat) (k.treg f.ts2.toNat) (k.treg f.ts3.toNat)
        (k.sreg f.rs.toNat) k.rnd) (vopIns op f).reads [f.td.toNat])))
  ∧ (∀ (s : State) (c : Nat) (l : Launch) (f : VopF), s.canRun c f.h l → vopIllegal 0x3F f = false →
    (s.core c).pendS f.rs.toNat = false → (s.core c).room 4 = true →
    s.issuesTo (.vopSeed c f) c { (s.core c).past f.h with rnd := (s.core c).sreg f.rs.toNat })

/-- Issue of TLD, TST, TST.ADD and GATH (R180, R182, R184, R189), their deadlines (R186) and acquires (R212). -/
def Obligations.StreamMoveIssue : Prop :=
  (∀ (s : State) (c : Nat) (l : Launch) (f : TldF) (sc : Bool) (i : Instr),
    (sc, i) ∈ [(false, Instr.tld c f), (true, .tldSc c f)] → s.canRun c f.h l →
    let k := s.core c
    let d := k.treg f.td.toNat
    let g : TldF := { f with sc := sc }
    f.add = false → f.acc = false → f.eng = 0 → f.atile = 0 → f.rsv = 0 → f.mark ≠ 2 → f.scope ≠ 3 →
    extBad f.h f.ext false = false → k.pendS f.ra.toNat = false → k.pendS f.rs.toNat = false →
    (∀ r ∈ extSrc f.h f.ext, k.pendS r = false) → k.free 5 [] [f.td.toNat] →
    (tldFaults g k l).first = none →
    (s.latePast k f.h f.ext = false →
      let j : Job := { k.job 5 (.tld g d (k.sreg f.ra.toNat).toNat
          (if f.rs = 0 then (if sc then (tdOf d).scaleBytes else (tdOf d).rowBytes) else (k.sreg f.rs.toNat).toNat))
          [] [f.td.toNat] with
        lp := lpOf f.h f.ext, acquire := f.mark = 1, scope := f.scope.toNat, deadline := s.deadlineOf k f.h f.ext }
      s.issuesTo i c (((k.past f.h).queued j).acquiring j))
    ∧ (s.latePast k f.h f.ext = true →
      s.issuesTo i c ((k.past f.h).noteLate.setP (extOf f.ext).lp true)))
  ∧ (∀ (s : State) (c : Nat) (l : Launch) (f : GathF), s.canRun c f.h l →
    let k := s.core c
    f.rsv = 0 → f.mark ≠ 2 → f.scope ≠ 3 → extBad f.h f.ext true = false → k.pendS f.rp.toNat = false →
    k.pendS f.rl.toNat = false → (∀ r ∈ extSrc f.h f.ext, k.pendS r = false) → k.free 5 [f.ti.toNat] [f.td.toNat] →
    (gathFaults f k l).first = none →
    (s.latePast k f.h f.ext = false →
      let j : Job := { k.job 5 (.gath f (k.treg f.td.toNat) (k.treg f.ti.toNat) (k.sreg f.rp.toNat).toNat
          (k.sreg f.rl.toNat).toNat) [f.ti.toNat] [f.td.toNat] with
        lp := lpOf f.h f.ext, acquire := f.mark = 1, scope := f.scope.toNat, deadline := s.deadlineOf k f.h f.ext }
      s.issuesTo (.gath c f) c (((k.past f.h).queued j).acquiring j))
    ∧ (s.latePast k f.h f.ext = true →
      s.issuesTo (.gath c f) c ((k.past f.h).noteLate.setP (extOf f.ext).lp true)))
  ∧ (∀ (s : State) (c : Nat) (l : Launch) (f g : TldF) (i : Instr),
    (g, i) ∈ [({ f with sc := false, add := false, acc := false }, Instr.tst c f),
      ({ f with sc := true, add := false, acc := false }, .tstSc c f),
      ({ f with add := true, acc := false }, .tstAdd c f)] → s.canRun c f.h l →
    let k := s.core c
    let d := k.treg f.td.toNat
    f.h.x = false → f.eng = 0 → f.atile = 0 → f.rsv = 0 → f.mark ≠ 1 → f.scope ≠ 3 →
    k.pendS f.ra.toNat = false → k.pendS f.rs.toNat = false → k.free 5 [f.td.toNat] [] →
    (tldFaults g k l).first = none →
    (g.add = true → g.sc = false ∧ addFormat (tdOf d) = true
      ∧ (k.sreg f.ra.toNat).toNat % ((tdOf d).width / 8) = 0 ∧ k.rowDist g (tdOf d) % ((tdOf d).width / 8) = 0) →
    s.issuesTo i c ((k.past f.h).queued { k.job 5 (.tst g d (k.sreg f.ra.toNat).toNat (k.rowDist g (tdOf d)))
      [f.td.toNat] [] with release := f.mark = 2, scope := f.scope.toNat }))

/-- Issue of ATOM (R190), SIG (R191) and the accumulator form of TST (R183). -/
def Obligations.AtomSigIssue : Prop :=
  (∀ (s : State) (c : Nat) (l : Launch) (f : AtomF) (op : AtomOp) (i : Instr),
    (op, i) ∈ [(AtomOp.add, Instr.atomAdd c f), (.min, .atomMin c f), (.max, .atomMax c f), (.swap, .atomSwap c f),
      (.cas, .atomCompareSwap c f)] → s.canRun c f.h l →
    let k := s.core c
    let a := (k.sreg f.ra.toNat).toNat
    f.h.x = false → f.rsv = 0 → f.fmt.toNat < 5 → f.scope ≠ 3 → k.pendS f.ra.toNat = false →
    k.pendS f.rb.toNat = false → (op = .cas → k.pendS f.rc.toNat = false) → k.room 5 = true →
    (op ≠ .add → f.fmt.toNat < 2) →
    (a % atomBytes (atomFmt f) = 0 →
      let j : Job := { k.job 5 (.atom op f a (k.sreg f.rb.toNat).toNat (k.sreg f.rc.toNat).toNat) [] [] with
        rd := if f.rd = 0 then none else some f.rd.toNat, release := f.mark = 2 ∨ f.mark = 3
        acquire := f.mark = 1 ∨ f.mark = 3, scope := f.scope.toNat }
      s.issuesTo i c (((k.past f.h).queued j).acquiring j))
    ∧ (a % atomBytes (atomFmt f) ≠ 0 → s.raises i c excAlign a 0))
  ∧ (∀ (s : State) (c : Nat) (l : Launch) (f : SigF) (add : Bool) (i : Instr),
    (add, i) ∈ [(false, Instr.sigWrite c f), (true, .sigAdd c f)] → s.canRun c f.h l →
    let k := s.core c
    let a := (k.sreg f.ra.toNat).toNat
    f.h.x = false → f.rsv = 0 → f.mark = 0 ∨ f.mark = 2 → f.scope ≠ 3 → k.pendS f.ra.toNat = false →
    k.pendS f.rb.toNat = false → k.room 5 = true →
    (a % (if f.w then 8 else 4) = 0 →
      s.issuesTo i c ((k.past f.h).queued { k.job 5 (.sig add f a (k.sreg f.rb.toNat).toNat) [] [] with
        release := f.mark = 2, scope := f.scope.toNat }))
    ∧ (a % (if f.w then 8 else 4) ≠ 0 → s.raises i c excAlign a 0))
  ∧ (∀ (s : State) (c : Nat) (l : Launch) (f : TldF), s.canRun c f.h l →
    let k := s.core c
    let t := tdOf (k.treg f.td.toNat)
    f.h.x = false → f.rsv = 0 → f.add = false → f.sc = false → k.free f.eng.toNat [] [f.td.toNat] →
    k.accHold f.eng.toNat f.atile.toNat false = false → s.engineOk c l.twin f.eng.toNat = true →
    t.fmt = 9 ∨ t.fmt = 10 → t.badShape = false → t.rows ≤ 32 → t.elems ≤ 32 → t.fits = true →
    s.issuesTo (.tstAcc c f) c ((k.past f.h).queued
      (k.job f.eng.toNat (.readout f (k.treg f.td.toNat)) [] [f.td.toNat])))

/-- WAITV (R192) and SYNC (R193). -/
def Obligations.WaitIssue : Prop :=
  (∀ (s : State) (c : Nat) (l : Launch) (f : SyncF), s.canRun c f.h l → f.h.x = false → f.rsv = 0 →
    let k := s.core c
    (f.scope ≠ 3 → s.issuesTo (.syncFence c f) c
      { k.past f.h with block := .fence f.scope.toNat f.sp.toNat, syncTimeout := false })
    ∧ (f.scope = 0 → k.jobs = [] → k.writes = [] → (∀ e ∈ s.cores, e.2.block ≠ .draining) →
        ∃ t : State, exec (.syncFence c f) s = .next t ∧ (t.core c).block = .none
          ∧ (f.sp ≠ 0 → (t.core c).preg f.sp.toNat = false))
    ∧ (f.scope = 1 → k.pendS f.rn.toNat = false → s.issuesTo (.syncBar c f) c
        { k.past f.h with block := .bar f.bid.toNat (k.sreg f.rn.toNat).toNat f.sp.toNat, syncTimeout := false })
    ∧ (f.scope ≠ 1 → s.raises (.syncBar c f) c excIllegal 0 0))
  ∧ (∀ (s : State) (c : Nat) (l : Launch) (f : WaitvF), s.canRun c f.h l → f.rsv = 0 → f.cond.toNat < 6 →
    f.mark.toNat < 2 → f.scope ≠ 3 → extBad f.h f.ext false = false →
    let k := s.core c
    let va := (k.sreg f.ra.toNat).toNat
    k.pendS f.ra.toNat = false → k.pendS f.rb.toNat = false → (∀ r ∈ extSrc f.h f.ext, k.pendS r = false) →
    (va % (waitvBits f / 8) ≠ 0 → s.raises (.waitv c f) c excAlign va 0)
    ∧ (va % (waitvBits f / 8) = 0 → s.latePast k f.h f.ext = true →
        s.issuesTo (.waitv c f) c ((k.past f.h).endWaitv f true true))
    ∧ (va % (waitvBits f / 8) = 0 → s.latePast k f.h f.ext = false →
        exec (.waitv c f) s = .next (((s.setCore c (k.past f.h)).waitvLook c f va k.pc.toNat (s.deadlineOf k f.h f.ext) l).after
          c)))

/-- TMMA_RETIRE of a TMMA (R61, R64): the elements written and those kept. -/
def Obligations.TmmaRetires : Prop :=
  ∀ (s : State) (c : Nat) (l : Launch) (eng : Nat) (j : Job) (f : TmmaF) (da db : BitVec 128) (koff : Nat) (fa fb : Fmt),
    s.running → (s.core c).launch = some l → (s.core c).onEngine eng false = some j → j.kind = .tmma f da db koff →
    f.eng.toNat = eng → j.tainted = false → j.lp = none →
    pairOf (tdOf da) (tdOf db) = some (fa, fb) → (tdOf da).rows ≤ 32 → (tdOf db).rows ≤ 32 →
    (s.engineRun c j).1 = none →
    let kk := kTotal fa fb f.rpt.toNat
    let a := tdOf da
    let b := tdOf db
    ∃ u : State, exec (.tmmaRetire c eng none) s = .next (u.after c) ∧ u.settles c ∧ (s.withFresh u.fresh).onlyCore u c
      ∧ (u.core c).regs = (s.core c).regs ∧ (u.core c).jobs = (s.core c).jobs.filter (fun x => x.seq != j.seq)
      ∧ (∀ e x y, e = eng ∨ (l.twin = true ∧ e = eng + 1) → x < a.rows → y < b.rows →
          (u.core c).accAt e f.acc.toNat x y = BitVec.ofNat 32 (outElem fa fb kk f.zero
            ((s.core c).accAt eng f.acc.toNat x y).toNat
            (s.rowBits c fa (a.base + x * a.stride + koff * fa.width / 8) kk)
            (s.rowBits c fb (b.base + y * b.stride + koff * fb.width / 8) kk)
            (fun t => s.tileScale c a x (koff / 32 + t / 4)) (fun t => s.tileScale c b y (koff / 32 + t / 4))))
      ∧ (∀ e t x y, t < 8 → x < 32 → y < 32 →
          ¬ ((e = eng ∨ (l.twin = true ∧ e = eng + 1)) ∧ t = f.acc.toNat ∧ x < a.rows ∧ y < b.rows) →
          (u.core c).accAt e t x y = (s.core c).accAt e t x y)

/-- VOP_FINISH and READOUT_COMPLETE (R176, R183): what they write, and the frame. -/
def Obligations.TileResultsWritten : Prop :=
  (∀ (s : State) (c : Nat) (j : Job) (op : Nat) (f : VopF) (d a b t : BitVec 128) (rs st : Word),
    s.running → (s.core c).jobs.find? (fun j => j.unit == 4 && j.begun) = some j → j.kind = .vop op f d a b t rs st →
    j.tainted = false → s.vopBad c op f (tdOf d) (tdOf a) (tdOf b) (tdOf t) = none →
    let out := s.vopRows c op f (tdOf d) (tdOf a) (tdOf b) (tdOf t) rs st
    let w := (s.putRows c (tdOf d) 0 out.1).putScales c (tdOf d) 0 out.2
    exec (.vopFinish c) s = .next ((w.finishJob c j false).after c)
      ∧ (w.finishJob c j false).mem = w.mem ∧ s.sameRegs (w.finishJob c j false) ∧ (w.finishJob c j false).settles c
      ∧ ((w.finishJob c j false).core c).jobs = (s.core c).jobs.filter (fun x => x.seq != j.seq)
      ∧ (c < 128 → (tdOf d).fits = true → (tdOf d).rowBytes ≤ (tdOf d).stride → ∀ r es, r < (tdOf d).rows → out.1[r]? = some es →
          (∀ q bs, out.2[q]? = some bs →
            (tdOf d).sbase + q * (tdOf d).sstride + bs.length ≤ (tdOf d).base + r * (tdOf d).stride
              ∨ (tdOf d).base + r * (tdOf d).stride + (tdOf d).rowBytes ≤ (tdOf d).sbase + q * (tdOf d).sstride) →
          w.tileElems c (tdOf d) r = (upFrom 0 (tdOf d).elems).map (fun y => es.getD y 0 % 2 ^ (tdOf d).width))
      ∧ (∀ x, (∀ r, r < out.1.length → localPart x < windowBase c + (tdOf d).base + r * (tdOf d).stride
            ∨ windowBase c + (tdOf d).base + r * (tdOf d).stride + (tdOf d).rowBytes ≤ localPart x) →
          (∀ r bs, out.2[r]? = some bs → localPart x < windowBase c + (tdOf d).sbase + r * (tdOf d).sstride
            ∨ windowBase c + (tdOf d).sbase + r * (tdOf d).sstride + bs.length ≤ localPart x) →
          w.rawByte x = s.rawByte x))
  ∧ (∀ (s : State) (c eng : Nat) (j : Job) (f : TldF) (d : BitVec 128),
    s.running → (s.core c).onEngine eng true = some j → j.kind = .readout f d → j.tainted = false →
    let w := s.putRows c (tdOf d) 0 ((upFrom 0 (tdOf d).rows).map (fun r => (upFrom 0 (tdOf d).elems).map (fun y =>
      ((s.core c).accAt f.eng.toNat f.atile.toNat r y).toNat)))
    exec (.readoutComplete c eng none) s = .next ((w.finishJob c j false).after c)
      ∧ (w.finishJob c j false).mem = w.mem ∧ s.sameRegs (w.finishJob c j false) ∧ (w.finishJob c j false).settles c
      ∧ ((w.finishJob c j false).core c).jobs = (s.core c).jobs.filter (fun x => x.seq != j.seq)
      ∧ (c < 128 → (tdOf d).fits = true → (tdOf d).rowBytes ≤ (tdOf d).stride → (tdOf d).fmt = 9 ∨ (tdOf d).fmt = 10 →
          ∀ r, r < (tdOf d).rows → w.tileElems c (tdOf d) r = (upFrom 0 (tdOf d).elems).map (fun y =>
            ((s.core c).accAt f.eng.toNat f.atile.toNat r y).toNat))
      ∧ (∀ x, (∀ r, r < (tdOf d).rows → localPart x < windowBase c + (tdOf d).base + r * (tdOf d).stride
            ∨ windowBase c + (tdOf d).base + r * (tdOf d).stride + (tdOf d).rowBytes ≤ localPart x) →
          w.rawByte x = s.rawByte x))

/-- Data and timeouts of reads (R133, R187, R236). -/
def Obligations.ReadData : Prop :=
  (∀ (s : State) (c tag : Nat) (t : RTag) (bs : List Byte), s.running → s.rtag c tag = some t → t.target = .tiered →
    c < 128 → t.off + t.len ≤ scratchSize →
    t.served = some (bs, []) → bs.length = t.len → (∀ j ∈ (s.core c).jobs, j.seq = t.job → j.tainted = false ∧ ∀ g, j.kind ≠ .builtin g) →
    (∀ j ∈ (s.core c).jobs, j.seq = t.job → j.deadline.all (fun d => !s.reached d) = true) → t.dead = false → t.early = false →
    ∃ u : State, exec (.streamDataArrival c tag none) s = .next (u.after c) ∧ u.settles c ∧ s.sameRegs u
      ∧ u.scrRead c t.off t.len = bs ∧ u.mem.poison = s.mem.poison
      ∧ (∀ x, localPart x < windowBase c + t.off ∨ windowBase c + t.off + t.len ≤ localPart x → u.rawByte x = s.rawByte x)
      ∧ (u.core c).reads = (s.core c).reads.filter (fun x => x.tag != tag))
  ∧ (∀ (s : State) (c tag : Nat) (t : RTag) (bs : List Byte) (j : Job) (g : Prog), s.running → s.rtag c tag = some t →
    t.target = .tiered → t.served = some (bs, []) → t.dead = false → t.early = false →
    (s.core c).jobs.find? (fun j => j.seq == t.job) = some j → j.kind = .builtin g → j.deadline = none → g.step ≠ 0 →
    ∃ u : State, exec (.streamDataArrival c tag none) s = .next (u.after c) ∧ u.settles c ∧ s.onlyCore u c ∧ s.sameRegs u
      ∧ (u.core c).reads = (s.core c).reads.filter (fun x => x.tag != tag)
      ∧ (u.core c).jobs.find? (fun j => j.seq == t.job) = some { j with kind := .builtin (g.put t.off
          ((g.moves.filter (fun m => m.dst == t.off)).map (fun m => { m with src := none, bytes := bs }))) })
  ∧ (∀ (s : State) (c tag : Nat) (t : RTag), s.running → s.rtag c tag = some t → t.dead = true →
    (∀ j ∈ (s.core c).jobs, j.seq ≠ t.job) →
    ∃ u : State, exec (.streamDataArrival c tag none) s = .next (u.after c) ∧ u.settles c ∧ s.onlyCore u c
      ∧ (u.core c).reads = (s.core c).reads.filter (fun x => x.tag != tag))
  ∧ (∀ (s : State) (c tag : Nat) (t : RTag), s.running → s.rtag c tag = some t → s.timedOut t.target t.sent = true →
    t.early = false → t.dead = false → t.past = false →
    (∀ j ∈ (s.core c).jobs, j.seq = t.job → j.deadline = none ∧ j.tainted = false ∧ ∀ g, j.kind ≠ .builtin g) →
    c < 128 → t.off + t.len ≤ scratchSize →
    ∃ u : State, exec (.deviceReadTimeout c tag) s = .next (u.after c) ∧ u.settles c ∧ (u.core c).devTimeout = true
      ∧ u.scrRead c t.off t.len = (upFrom 0 t.len).map (fun _ => 0xFF) ∧ s.sameRegs u
      ∧ (u.core c).reads = (s.core c).reads.filter (fun x => x.tag != tag))

/-- The ends of writes (R133, R190, R203, R234, R606). -/
def Obligations.WriteEnds : Prop :=
  (∀ (s : State) (c tag : Nat) (w : WTag), s.running → c < 256 → s.wtag c tag = some w → w.target = .tiered →
    w.stage = .performed → (2 ≤ w.scope → s.heldDone c tag = true) →
    (∀ j ∈ (s.core c).jobs, j.seq = w.job → j.tainted = false) →
    ∃ u : State, exec (.writeAck c tag none) s = .next (u.after c) ∧ u.settles c ∧ s.onlyCore u c
      ∧ (u.core c).writes = (s.core c).writes.filter (fun x => x.tag != tag)
      ∧ (∀ j r v, (s.core c).jobs.find? (fun j => j.seq == w.job) = some j → j.rd = some r → w.old = some v →
          (u.core c).s = (s.core c).s.setD (fun _ => 0) r (BitVec.ofNat 64 v))
      ∧ (w.old = none → (u.core c).regs = (s.core c).regs))
  ∧ (∀ (s : State) (c tag : Nat) (w : WTag), s.running → c < 256 → s.cxl.session = true → s.wtag c tag = some w →
    w.target = .host → w.stage = .sent → s.timedOut .host w.sent = false →
    ∃ u : State, exec (.globalObservation c tag) s = .next (u.after c) ∧ u.settles c ∧ s.onlyCore u c
      ∧ (u.core c).regs = (s.core c).regs
      ∧ (u.core c).writes = (s.core c).writes.map (fun x =>
          if x.tag == tag then { x with stage := .performed, old := none } else x))
  ∧ (∀ (s : State) (c tag : Nat) (w : WTag), s.running → c < 1024 → s.wtag c tag = some w → w.stage = .sent →
    s.timedOut w.target w.sent = true → s.recordsOff → s.regN (rFe (c / 32) 0xA00) < 2 ^ 32 →
    ∃ u : State, exec (.deviceWriteTimeout c tag) s = .next (u.after c) ∧ u.settles c
      ∧ (u.core c).writes = (s.core c).writes.filter (fun x => x.tag != tag)
      ∧ u.regN (rFe (c / 32) 0xA00) = min (s.regN (rFe (c / 32) 0xA00) + 1) (2 ^ 32 - 1)
      ∧ (∀ a, u.rawByte a = s.rawByte a))

/-- The ends of waits and deadlines (R192, R187, R380). -/
def Obligations.WaitsEnd : Prop :=
  (∀ (s u : State) (c : Nat) (f : WaitvF) (va pc pa : Nat) (dl : Option Nat) (l : Launch) (t : Target),
    s.lookup c (c / 8) (c / 32) l.asid va .watch = (u, .ok pa t) → u.waitOver dl = false →
    let n := waitvBits f / 8
    let v := u.modCore c (fun k => { k with block := .waitv f va pc dl none })
    let tests (w : State) (x : Nat) : Prop := w.waitOver dl = false → s.sameRegs w
      ∧ (condHolds f.cond.toNat (waitvBits f) x ((s.core c).sreg f.rb.toNat).toNat = true →
          ∃ x tp, s.waitvLook c f va pc dl l = (w.withFresh x).setCore c ((w.core c).endWaitv f false tp))
      ∧ (condHolds f.cond.toNat (waitvBits f) x ((s.core c).sreg f.rb.toNat).toNat = false → s.waitvLook c f va pc dl l = w)
    v.waitvReady c pa t = true →
    (t = .tiered → (v.homeRead pa n).anyPoison pa n = false → tests (v.homeRead pa n) ((v.homeRead pa n).sysNat pa n))
    ∧ (∀ x, t = .window x →
        let r := v.windowLoad x (localPart pa - windowBase x) n (.tile 0xB 0 (v.core c).launch)
        r.2.2 = false → tests r.1 (ofBytes r.2.1))
    ∧ (t = .host ∨ t = .hostDevice ∨ (∃ k, t = .remote k) →
        ∃ w : State, s.waitvLook c f va pc dl l = w ∧ s.sameRegs w ∧ w.mem = u.mem
          ∧ (w.core c).block = .waitv f va pc dl (some { pa := pa, target := t, sent := v.strokeNow })))
  ∧ (∀ (s : State) (c : Nat) (f : WaitvF) (va pc : Nat) (dl : Option Nat) (l : Launch) (o : Option WaitRead) (dev : Option Reply),
    s.running → (s.core c).launch = some l → (s.core c).block = .waitv f va pc dl o →
    (s.waitOver dl = true → exec (.waitvReread c dev) s = .next ((s.setCore c ((s.core c).endWaitv f true true)).after c))
    ∧ (s.waitOver dl = false → o = none → exec (.waitvReread c dev) s = .next ((s.waitvLook c f va pc dl l).after c))
    ∧ (∀ (x : WaitRead) (k : Nat) (bs : List Byte), s.waitOver dl = false → o = some x → x.target = .remote k →
        s.timedOut x.target x.sent = false → bs.length = waitvBits f / 8 →
        ∃ u : State, exec (.waitvReread c (some (.data bs))) s = .next (u.after c) ∧ u.settles c
          ∧ (s.withFresh u.fresh).onlyCore u c
          ∧ (u.core c).regs = (s.core c).regs
          ∧ ((u.core c).block = .none ↔
              condHolds f.cond.toNat (waitvBits f) (ofBytes bs) ((s.core c).sreg f.rb.toNat).toNat = true))
    ∧ (∀ x : WaitRead, s.waitOver dl = false → o = some x → s.timedOut x.target x.sent = true →
        ∃ u : State, exec (.waitvReread c dev) s = .next (u.after c) ∧ u.settles c ∧ s.sameRegs u
          ∧ (u.core c).devTimeout = true))
  ∧ (∀ (s : State) (c : Nat) (f : WaitvF) (va pc d : Nat) (o : Option WaitRead), s.running →
    (s.core c).block = .waitv f va pc (some d) o → s.reached d = true → f.h.x = true → (extOf f.ext).dlm ≠ 0 →
    (s.core c).lateCount ≤ 65535 →
    ∃ u : State, exec (.waitvDeadlineExpiry c) s = .next (u.after c) ∧ u.settles c ∧ s.onlyCore u c
      ∧ (u.core c).regs = (s.core c).regs ∧ (u.core c).block = .none ∧ (u.core c).preg f.tp.toNat = true
      ∧ (u.core c).preg (extOf f.ext).lp = true ∧ (u.core c).late = true
      ∧ (u.core c).lateCount = min ((s.core c).lateCount + 1) 65535)
  ∧ (∀ (s : State) (c : Nat) (j : Job) (d : Nat), s.running →
    (s.core c).jobs.find? (fun x => x.seq == j.seq) = some j → j.deadline = some d → s.reached d = true →
    (s.core c).lateCount ≤ 65535 → s.recordsOff →
    ∃ u : State, exec (.streamDeadlineExpiry c j.seq) s = .next (u.after c) ∧ u.settles c ∧ s.sameRegs u
      ∧ (u.core c).late = true ∧ (u.core c).lateCount = min ((s.core c).lateCount + 1) 65535
      ∧ (∀ x ∈ (u.core c).jobs, x.seq ≠ j.seq) ∧ u.mem = s.mem)
  ∧ (∀ (s : State) (c va : Nat) (l : Launch) (j : Job), s.running → (s.core c).launch = some l →
    (∀ f v p d, (s.core c).block ≠ .waitvWalk f v p d) → (s.core c).walk = some va → (s.core c).streamHead = some j →
    ∃ u : State, exec (.walkComplete c) s = .next (u.after c) ∧ u.settles c ∧ (u.core c).walk = none ∧ s.sameRegs u)

/-- LAUNCH_START (R156), and its frame. -/
def Obligations.LaunchStartRegisters : Prop :=
  ∀ (s : State) (c : Nat) (g : Staged) (rest : List Staged), s.running → (s.core c).staged = g :: rest →
    (∀ o ∈ s.work.ops, ∀ w ∈ o.waitSlot, w.1 ≠ c) → s.coreFree c = true → s.hangHolds c g.launch.ctx = false →
    s.rowsDone g.launch.uid = true → g.args.length = 15 → g.tds.length = 16 →
    ∃ t : State, exec (.launchStart c) s = .next t
      ∧ (t.core c).staged = rest ∧ ((t.core c).launch.map Launch.uid) = some g.launch.uid
      ∧ (∀ r, 1 ≤ r → r ≤ 15 → some ((t.core c).sreg r) = g.args[r - 1]?)
      ∧ (∀ n, n < 16 → some ((t.core c).treg n) = g.tds[n]?)
      ∧ (∀ r, 16 ≤ r → r < 32 → (t.core c).sreg r = 0) ∧ (∀ p, 1 ≤ p → p < 8 → (t.core c).preg p = false)
      ∧ (t.core c).loops = [] ∧ (t.core c).rets = [] ∧ (t.core c).pc = g.entry ∧ (t.core c).rnd = 1
      ∧ (∀ d, d ≠ c → (t.core d) = s.core d) ∧ (s.power.gated = [] → t.mem = s.mem)

/-- Scratchpad windows (R147 to R150) and patrol scrub (R128). -/
def Obligations.WindowPorts : Prop :=
  (∀ (s : State) (who : Agent) (pa n c o : Nat), s.running → s.power.gated = [] → s.windowOf pa = some (c, o) →
    (∀ bs : List Byte, 1 ≤ bs.length → bs.length ≤ 128 → o + bs.length ≤ scratchSize →
      s.hartMay who pa bs.length false true = true →
      ∃ t : State, exec (.windowAccess who pa n (some bs)) s = .next t ∧ t.scrRead c o bs.length = bs ∧ s.sameRegs t
        ∧ (∀ x, localPart x < windowBase c + o ∨ windowBase c + o + bs.length ≤ localPart x → t.rawByte x = s.rawByte x))
    ∧ (1 ≤ n → n ≤ 128 → o + n ≤ scratchSize → s.rowsBad c o 0 1 n = none → s.hartMay who pa n true false = true →
      ∃ t : State, exec (.windowAccess who pa n none) s = .next t ∧ t.mem = s.mem ∧ s.sameRegs t
        ∧ t.out = { kind := .data, args := [agentId who, pa, 0], bytes := s.scrRead c o n } :: s.out))
  ∧ (∀ (s : State) (h : Nat) (a : HartAcc) (pa n : Nat) (wr : Option (List Byte)), s.running → s.windowOf pa = none →
    nodePart pa = s.node → inWindows pa = true → s.hartMay (.hart h a) pa n wr.isNone wr.isSome = true →
    exec (.windowAccess (.hart h a) pa n wr) s = .next (s.hartTrap h (if wr.isSome then 7 else 5) none))
  ∧ (∀ (s : State) (h : Nat) (a : HartAcc) (pa n c o : Nat), s.running → s.power.gated = [] → s.windowOf pa = some (c, o) →
    1 ≤ n → n ≤ 128 → o + n ≤ scratchSize → s.hartMay (.hart h a) pa n true false = true →
    (s.rowsBad c o 0 1 n ≠ none →
      ∃ t : State, exec (.windowAccess (.hart h a) pa n none) s = .next t
        ∧ (t.hart h).trap = some { cause := 19, tval := some pa })
    ∧ (∀ v, s.rowsBad c o 0 1 n = none → a.vec = some v → n ≤ 64 →
      ∃ t : State, exec (.windowAccess (.hart h a) pa n none) s = .next t
        ∧ (((t.hart h).v.getD (fun _ => 0) v).toNat % 2 ^ (8 * n)) = ofBytes (s.scrRead c o n)
        ∧ ∀ r, r ≠ v → (t.hart h).v.getD (fun _ => 0) r = (s.hart h).v.getD (fun _ => 0) r))
  ∧ (∀ (s : State) (who : Agent) (pa c o : Nat) (op : AtomOp) (fmt : AtomFmt) (v cmp : BitVec 64), s.running →
    s.power.gated = [] → s.windowOf pa = some (c, o) → fmt = .i32 ∨ fmt = .i64 → pa % atomBytes fmt = 0 →
    s.rowsBad c o 0 1 (atomBytes fmt) = none → s.hartMay who pa (atomBytes fmt) true true = true →
    let old := ofBytes (s.scrRead c o (atomBytes fmt))
    ∃ t : State, exec (.windowAtomic who pa op fmt v cmp) s = .next t ∧ s.sameRegs t
      ∧ t.out = { kind := .data, args := [agentId who, pa, old], bytes := [] } :: s.out
      ∧ t.scrRead c o (atomBytes fmt) = toBytes (atomBytes fmt) (atomNew op fmt old v.toNat cmp.toNat)
      ∧ (∀ x, localPart x < windowBase c + o ∨ windowBase c + o + atomBytes fmt ≤ localPart x →
          t.rawByte x = s.rawByte x))
  ∧ (∀ (s : State) (c row : Nat) (errs : List EccHit), s.running → s.corePresent c = true → row < 32768 →
    (∀ e ∈ errs, e.place < 16) →
    ∃ t : State, exec (.scratchScrub c row errs) s = .next t ∧ s.sameRegs t ∧ ((∀ e ∈ errs, e.hard = false) → t = s)
      ∧ (s.recordsOff → ∀ x, t.rawByte x = s.rawByte x))

/-- Requests of agents at the homes (R338 to R340, R224, R317, R319), where nobody must be asked. -/
def Obligations.HomeRequests : Prop :=
  ∀ (s : State) (line : Nat), s.running → s.homeFree line → (s.dirOf line).owner = none →
    (∀ e ∈ s.mem.dirty, e.1 / 128 ≠ line) →
    (∀ (who : Agent) (i : Nat), (∃ p, who = .pd p ∧ i = 16 + p ∧ s.dieAsks p = true)
        ∨ (∃ h a, who = .hart h a ∧ i = 16 + h / 48 ∧ s.hartAsks h a line = true ∧ a.slc = .none ∧ a.sram = none)
        ∨ (∃ d, who = .fe d ∧ i = 18 + d ∧ s.adPresent d = true ∧ s.watchesLine d line = true)
        ∨ (who = .host ∧ i = 22 ∧ s.cxl.session = true) →
      (∃ u : State, exec (.readShared who line []) s = .next u.afterAll
        ∧ u.dirOf line = { owner := none, sharers := sharer (s.dirOf line).sharers i true }
        ∧ (∀ a, u.sysByte a = s.sysByte a) ∧ u.mem.poison = s.mem.poison
        ∧ u.out.head? = some { kind := .data, args := [agentId who, line * 128, s.poisonMask (line * 128) 128]
                               bytes := s.sysRead (line * 128) 128 })
      ∧ ((∀ d, who ≠ .fe d) → (s.dirOf line).sharers = 0 →
        ∃ u : State, exec (.readOwn who line []) s = .next u.afterAll
          ∧ u.dirOf line = { owner := some i, sharers := 0 }
          ∧ (∀ a, u.sysByte a = s.sysByte a) ∧ u.mem.poison = s.mem.poison
          ∧ u.out.head? = some { kind := .data, args := [agentId who, line * 128, s.poisonMask (line * 128) 128]
                                 bytes := s.sysRead (line * 128) 128 }))
    ∧ (∀ k c : Nat, s.clusterPresent k = true → c / 8 = k → (s.cluster k).has line = false →
      (∀ t ∈ (s.core c).reads, t.early = false) → (∃ t ∈ (s.core c).reads, t.missed = true ∧ t.served = none ∧ localPart t.pa / 128 = line) →
      ∃ u : State, exec (.readShared (.cluster k) line []) s = .next u.afterAll
        ∧ u.dirOf line = { owner := none, sharers := sharer (s.dirOf line).sharers k true }
        ∧ (∀ a, u.sysByte a = s.sysByte a) ∧ s.sameRegs u
        ∧ (∀ t ∈ (u.core c).reads, t.missed = true → localPart t.pa / 128 = line → t.served.isSome = true))
    ∧ (∀ (who : Agent) (pa n : Nat), (∀ h a, who ≠ .hart h a) → 1 ≤ n → pa % 128 + n ≤ 128 → s.inTiered pa n = true →
      localPart pa / 128 = line →
      ∃ u : State, exec (.nonAllocatingRead (.agent who pa n) []) s = .next u.afterAll ∧ u.mem = s.mem
        ∧ ((∀ k, who ≠ .remote k) →
            u.out.head? = some { kind := .data, args := [agentId who, pa, s.poisonMask pa n], bytes := s.sysRead pa n }))
    ∧ (∀ (who : Agent) (pa n sec : Nat) (row : BitVec 32), (∀ h a, who ≠ .hart h a) → 1 ≤ n → pa % 128 + n ≤ 128 →
      s.inTiered pa n = true → localPart pa / 128 = line → sec / 4 = line → s.mem.flaws = [] → s.recordsOff →
      ∃ u : State, exec (.nonAllocatingRead (.agent who pa n) [{ sector := sec, row := row, hard := true }]) s = .next u.afterAll
        ∧ u.poisoned sec = true ∧ (∀ x, x ≠ sec → u.poisoned x = s.poisoned x) ∧ ∀ a, u.sysByte a = s.sysByte a)
    ∧ ((s.dirOf line).sharers = 0 → ∀ (who : Agent) (pa n : Nat) (bs : List Byte), 1 ≤ bs.length →
      pa % 128 + bs.length ≤ 128 → s.inTiered pa bs.length = true → localPart pa / 128 = line →
      s.hartMay who pa bs.length false true = true →
      ∃ u : State, exec (.nonAllocatingWrite ⟨.agent who pa n, []⟩ bs) s = .next u.afterAll
        ∧ u.sysRead pa bs.length = bs ∧ u.dirOf line = { owner := none, sharers := 0 }
        ∧ (∀ x, localPart x < localPart pa ∨ localPart pa + bs.length ≤ localPart x → u.sysByte x = s.sysByte x))
    ∧ ((s.dirOf line).sharers = 0 → ∀ (who : Agent) (pa n : Nat) (op : AtomOp) (fmt : AtomFmt) (v cmp : BitVec 64),
      pa % atomBytes fmt = 0 → s.inTiered pa (atomBytes fmt) = true → localPart pa / 128 = line →
      s.hartMay who pa (atomBytes fmt) true true = true →
      let old := s.sysNat pa (atomBytes fmt)
      (s.anyPoison pa (atomBytes fmt) = false →
        ∃ u : State, exec (.farAtomic ⟨.agent who pa n, []⟩ op fmt v cmp) s = .next u.afterAll
          ∧ u.sysRead pa (atomBytes fmt) = toBytes (atomBytes fmt) (atomNew op fmt old v.toNat cmp.toNat)
          ∧ u.dirOf line = { owner := none, sharers := 0 }
          ∧ ((∀ k, who ≠ .remote k) → u.out.head? = some { kind := .data, args := [agentId who, pa, old], bytes := [] })
          ∧ (∀ x, localPart x < localPart pa ∨ localPart pa + atomBytes fmt ≤ localPart x → u.sysByte x = s.sysByte x))
      ∧ (s.anyPoison pa (atomBytes fmt) = true → s.recordsOff → (∀ k, who ≠ .remote k) →
        ∃ u : State, exec (.farAtomic ⟨.agent who pa n, []⟩ op fmt v cmp) s = .next u.afterAll ∧ (∀ x, u.sysByte x = s.sysByte x)
          ∧ u.out.head? = some { kind := .data, args := [agentId who, pa, 2 ^ 64 - 1], bytes := [] }))

/-- The ends of transactions (R339 to R344, R349, R356, R359, R602): write-backs, notices and answers. -/
def Obligations.HomeAnswers : Prop :=
  (∀ (s : State) (line : Nat) (bs : List (Nat × Byte)) (e : SlcErr), s.running → line < 2 ^ 42 → s.busy line = false →
    s.ownsLine 22 line = true → s.power.gated = [] → (∀ x ∈ s.mem.dirty, x.1 < 2 ^ 49) → s.recordsOff →
    ∃ t : State, exec (.writeback 22 line bs e) s = .next t ∧ t.dirOf line = { owner := none, sharers := 0 }
      ∧ (∀ l, l ≠ line → t.dirOf l = s.dirOf l) ∧ ∀ a, localPart a / 128 ≠ line → t.sysByte a = s.sysByte a)
  ∧ (∀ (s : State) (line p : Nat) (bs : List (Nat × Byte)), s.running → p < 2 → s.busy line = false →
    s.ownsLine (16 + p) line = true → s.mem.lost.contains line = false → s.power.gated = [] → s.recordsOff →
    (s.tracked line = none → (∀ x ∈ s.mem.dirty, x.1 < 2 ^ 49) → Tbl.rising s.mem.dirty = true →
      (∃ t : State, exec (.writeback (16 + p) line bs .none) s = .next t ∧ t.dirOf line = { owner := none, sharers := 0 }
        ∧ (∀ l, l ≠ line → t.dirOf l = s.dirOf l) ∧ ∀ a, t.sysByte a = s.sysByte a)
      ∧ (∀ off secs, s.modifiedBy p line = true →
        ∃ t : State, exec (.writeback (16 + p) line bs (.data off secs)) s = .next t ∧ (∀ n ∈ secs, t.poisoned (line * 4 + n % 4) = true)
          ∧ t.dirOf line = { owner := none, sharers := 0 }))
    ∧ ((s.tracked line).isSome = true →
      ∃ t : State, exec (.writeback (16 + p) line bs .none) s = .next t ∧ t.tracked line = none ∧ t.mem.bytes = s.mem.bytes))
  ∧ (∀ (s : State) (line who : Nat), s.running → s.busy line = false → (who < 16 → (s.cluster who).has line = false) →
    ((∀ x ∈ s.mem.dirty, x.1 / 128 ≠ line) ∧ s.mem.lost.contains line = false ∨ s.ownsLine who line = false) →
    (s.tracked line = none →
      ∃ t : State, exec (.evictionNotice who line .none) s = .next t
        ∧ t.dirOf line = { owner := if (s.dirOf line).owner = some who then none else (s.dirOf line).owner
                           sharers := sharer (s.dirOf line).sharers who false }
        ∧ t.mem.bytes = s.mem.bytes ∧ t.mem.dirty = s.mem.dirty ∧ (∀ l, l ≠ line → t.dirOf l = s.dirOf l))
    ∧ ((s.tracked line).isSome = true →
      ∃ t : State, exec (.evictionNotice who line .none) s = .next t ∧ t.mem.bytes = s.mem.bytes ∧ t.mem.dirty = s.mem.dirty
        ∧ t.mem.dir = s.mem.dir ∧ ∀ e, t.tracked line = some e → e.owner ≠ some who))
  ∧ (∀ (s : State) (line i : Nat) (x : Txn) (cmd : Instr), s.running →
    s.mem.txns.find? (fun t => t.req.line == line && t.waits.contains i) = some x →
    (∀ t ∈ s.mem.txns, t.req.line = line → t = x) →
    (cmd = .clusterInvalidation i line ∧ i < 16) ∨ (∃ bs, cmd = .hostBisnpResponse line bs ∧ i = 22)
      ∨ (cmd = .bisnpTimeout line ∧ i = 22)
      ∨ (∃ b, cmd = .ownerForward line b ∧ (s.dirOf line).owner = some i ∧ (i = 16 ∨ i = 17)) →
    (x.waits.filter (fun w => w != i) ≠ [] →
      ∃ u : State, exec cmd s = .next u.afterAll
        ∧ (∀ t ∈ u.mem.txns, t.req.line = line → t.waits = x.waits.filter (fun w => w != i))
        ∧ (∀ t, t.req.line ≠ line → (t ∈ u.mem.txns ↔ t ∈ s.mem.txns)) ∧ u.mem.waitq = s.mem.waitq
        ∧ ((cmd = .ownerForward line false ∧ (s.modifiedBy (i - 16) line = true ∨ s.mem.lost.contains line = true))
            ∨ (cmd = .bisnpTimeout line ∧ (s.dirOf line).owner = some 22) →
          s.recordsOff → ∀ n, n < 4 → u.poisoned (line * 4 + n) = true))
    ∧ (x.waits.filter (fun w => w != i) = [] → s.mem.waitq = [] → (∀ k, (s.cluster k).victims.length < 512) →
      ∃ u : State, exec cmd s = .next u.afterAll ∧ u.mem.waitq = []
        ∧ u.mem.txns = s.mem.txns.filter (fun t => t.req.line != line)))

/-- What the homes do to take copies back (R338, R340) loses no data of a holder on the module. -/
def Obligations.RecallKeepsBytes : Prop :=
  ∀ (s : State) (line : Nat), line < 2 ^ 42 → Tbl.rising s.mem.dirty = true → (∀ e ∈ s.mem.dirty, e.1 < 2 ^ 49) →
    ((s.dirOf line).owner ≠ some 22 → (s.dirOf line).sharers.getLsbD 22 = false → s.mem.lost.contains line = false →
      (∀ a, (s.recall line).sysByte a = s.sysByte a) ∧ (s.recall line).mem.poison = s.mem.poison
      ∧ (s.recall line).dirOf line = { owner := none, sharers := 0 }
      ∧ (∀ l, l ≠ line → (s.recall line).dirOf l = s.dirOf l)
      ∧ (∀ e ∈ (s.recall line).mem.dirty, e.1 / 128 ≠ line))
    ∧ (s.recordsOff →
      (s.recall line).dirOf line = { owner := none, sharers := 0 }
      ∧ (∀ l, l ≠ line → (s.recall line).dirOf l = s.dirOf l)
      ∧ (∀ a, localPart a / 128 ≠ line → (s.recall line).sysByte a = s.sysByte a))

/-- The peel engine's move commands (R252 to R261), and the completion of a command (R271). -/
def Obligations.PeelMoveCommands : Prop :=
  (∀ (s : State) (i op : Nat) (c : PeelCmd) (cmd : Instr), s.running →
    (op, cmd) ∈ [(1, Instr.promote i), (2, .evict i), (3, .pin i), (4, .unpin i)] →
    s.cmdNext i op = some c →
    let b := c.operand
    let r := s.remap b
    let up := op = 1 ∨ (op = 3 ∧ bitOf c.flags 1 = false)
    let there := r.tier = 0 ↔ up
    let wait := s.peel.cmds.any (fun x => x.phase == 1 && x.operand == b && decide (x.op ≤ 3))
    let ends := fun st => exec cmd s = .next (s.endCmd c st none).cmdsOn
    (c.bad = true ∨ s.isBlock c.operand = false → ends stBad)
    ∧ (c.bad = false → s.isBlock c.operand = true →
    (r.state = 7 → ends stUnbacked)
    ∧ (op ≤ 3 → r.state = 4 → ¬(op = 3 ∧ there) → ends stPinned)
    ∧ (op ≤ 3 → r.state ≠ 7 → (r.state = 4 → op = 3 ∧ there) → r.ticket = true →
        (bitOf c.flags 0 = false ∨ wait = true → ends stTicket)
        ∧ (bitOf c.flags 0 = true → wait = false → exec cmd s = .next (s.setCmd { c with phase := 1 }).cmdsOn))
    ∧ (op ≤ 2 → r.state ≠ 7 → r.state ≠ 4 → r.ticket = false → there → ends stNoop)
    ∧ (op = 3 → r.state ≠ 7 → r.ticket = false → there →
        exec cmd s = .next ((s.setRemap b { r with state := 4 }).endCmd c stDone none).cmdsOn)
    ∧ (op = 4 → r.state ≠ 7 → r.state ≠ 4 → ends stNoop)
    ∧ (op = 4 → r.state = 4 →
        exec cmd s = .next ((s.setRemap b { r with state := r.tier }).endCmd c stDone none).cmdsOn)
    ∧ (∀ k, op ≤ 3 → r.state ≠ 7 → r.state ≠ 4 → r.ticket = false → ¬there → s.freeSlot = some k →
        let q := s.readQuota r.owner
        let v := q.pickVictim 16 q.peel.pointer
        (up → q.fitsQuota r.owner 1 1 = false → exec cmd s = .next (q.endCmd c stQuota none).cmdsOn)
        ∧ (up → q.fitsQuota r.owner 1 1 = true → q.freeFrames true = [] → v.1 = none →
            exec cmd s = .next ((q.withPeel { q.peel with pointer := v.2 }).endCmd c stNoVictim none).cmdsOn)
        ∧ (s.calm → (up → q.fitsQuota r.owner 1 1 = true) → s.freeFrames (decide up) ≠ [] →
            ∃ (u : State) (f : Nat), exec cmd s = .next u.cmdsOn ∧ f ∈ s.freeFrames (decide up)
              ∧ (u.remap b).state = (if up then 2 else 3) ∧ (u.remap b).ticket = true ∧ (u.remap b).slot = k
              ∧ (u.remap b).tier = r.tier ∧ (u.remap b).frame = r.frame
              ∧ u.peel.vacantHbm = s.peel.vacantHbm ∧ u.peel.vacantDram = s.peel.vacantDram
              ∧ u.peel.moves = s.peel.moves ++ [{ slot := k, block := b, up := decide up, frame := f, pin := decide (op = 3)
                                                  switching := false, switched := false, cmd := c.idx, victim := false }]))))
  ∧ (∀ (s : State) (c : PeelCmd) (st : Nat), s.calm → localPart (s.cmdAddr c.idx) + 32 ≤ 2 ^ 49 →
    (s.endCmd c st none).sysRead (s.cmdAddr c.idx + 16) 2 = toBytes 2 st
      ∧ (s.endCmd c st none).sysRead (s.cmdAddr c.idx + 24) 8 = toBytes 8 s.now.toNat)

/-- The peel engine's commands on owners, charges and batches (R269 to R276). -/
def Obligations.PeelCharges : Prop :=
  (∀ (s : State) (ctx n v : Nat), s.calm → n < 4 → localPart (s.quotaAddr ctx) + 32 ≤ 2 ^ 49 →
    (s.setCharge ctx n v).charge ctx n = v % 2 ^ 32
      ∧ (s.plainLines → ∀ x, localPart x < localPart (s.quotaAddr ctx + 8 * n + 4)
          ∨ localPart (s.quotaAddr ctx + 8 * n + 4) + 4 ≤ localPart x →
          (s.setCharge ctx n v).sysByte x = s.sysByte x))
  ∧ (∀ (s : State) (i : Nat) (c : PeelCmd), s.running →
    (s.cmdNext i 5 = some c →
      let b := c.operand
      let o := (s.remap b).owner
      let n := s.chargedTier b
      let q := (s.readQuota o).readQuota c.ctx
      let w := q.setCharge o n (q.charge o n - 1)
      (c.bad = true ∨ s.isBlock b = false → exec (.setOwner i) s = .next (q.endCmd c stBad none).cmdsOn)
      ∧ (c.bad = false → s.isBlock b = true →
        ((s.remap b).state = 7 → exec (.setOwner i) s = .next (q.endCmd c stUnbacked none).cmdsOn)
        ∧ ((s.remap b).state ≠ 7 → o ≠ c.ctx → q.fitsQuota c.ctx n 1 = false →
          exec (.setOwner i) s = .next (q.endCmd c stQuota none).cmdsOn)
        ∧ ((s.remap b).state ≠ 7 → o = c.ctx ∨ q.fitsQuota c.ctx n 1 = true →
          ∃ u : State, exec (.setOwner i) s = .next (u.endCmd c stDone none).cmdsOn ∧ (u.remap b).owner = c.ctx
            ∧ u.mem = (w.setCharge c.ctx n (w.charge c.ctx n + 1)).mem)))
    ∧ (s.cmdNext i 7 = some c → s.t0Range c = none → exec (.t0Alloc i) s = .next (s.endCmd c stBad none).cmdsOn)
    ∧ (s.cmdNext i 8 = some c → s.t0Range c = none → exec (.t0Free i) s = .next (s.endCmd c stBad none).cmdsOn)
    ∧ (∀ core first n, s.t0Range c = some (core, first, n) →
      let keys := (upFrom first n).map (fun x => core * 64 + x)
      let q := s.readQuota c.ctx
      (s.cmdNext i 7 = some c →
        ((∃ k ∈ keys, (s.peel.t0.get? k).isSome = true) →
          exec (.t0Alloc i) s = .next (s.endCmd c stSlot none).cmdsOn)
        ∧ ((∀ k ∈ keys, s.peel.t0.get? k = none) →
          (q.fitsQuota c.ctx 0 n = false → exec (.t0Alloc i) s = .next (q.endCmd c stQuota none).cmdsOn)
          ∧ (q.fitsQuota c.ctx 0 n = true →
            ∃ u : State, exec (.t0Alloc i) s = .next (u.endCmd c stDone none).cmdsOn
              ∧ u.mem = (q.setCharge c.ctx 0 (q.charge c.ctx 0 + n)).mem
              ∧ (s.calm → ∀ k, u.peel.t0.get? k = if k ∈ keys then some c.ctx else s.peel.t0.get? k))))
      ∧ (s.cmdNext i 8 = some c →
        ((∃ k ∈ keys, s.peel.t0.get? k ≠ some c.ctx) → exec (.t0Free i) s = .next (s.endCmd c stSlot none).cmdsOn)
        ∧ ((∀ k ∈ keys, s.peel.t0.get? k = some c.ctx) →
          ∃ u : State, exec (.t0Free i) s = .next (u.endCmd c stDone none).cmdsOn
            ∧ u.mem = (q.setCharge c.ctx 0 (q.charge c.ctx 0 - n)).mem
            ∧ (s.calm → ∀ k, u.peel.t0.get? k = if k ∈ keys then none else s.peel.t0.get? k))))
    ∧ (s.cmdNext i 9 = some c →
      let q := s.readQuota c.ctx
      let d := signed c.operand 32
      let z : Int := (q.charge c.ctx 3 : Int) + d
      (c.bad = true ∨ z < 0 → exec (.t3Charge i) s = .next (q.endCmd c stBad none).cmdsOn)
      ∧ (c.bad = false → 0 ≤ z → 0 < d → q.fitsQuota c.ctx 3 d.toNat = false →
          exec (.t3Charge i) s = .next (q.endCmd c stQuota none).cmdsOn)
      ∧ (c.bad = false → 0 ≤ z → d ≤ 0 ∨ q.fitsQuota c.ctx 3 d.toNat = true →
          exec (.t3Charge i) s = .next ((q.setCharge c.ctx 3 z.toNat).endCmd c stDone none).cmdsOn))
    ∧ (s.cmdNext i 6 = some c →
      (c.bad = true ∨ c.operand = 0 ∨ 256 < c.operand → exec (.batch i) s = .next (s.endCmd c stBad none).cmdsOn)
      ∧ (c.bad = false → 1 ≤ c.operand → c.operand ≤ 256 →
        (s.reached (strokeOf c.start) = true → exec (.batch i) s = .next (s.endCmd c stDone none).cmdsOn)
        ∧ (s.reached (strokeOf c.start) = false → ∃ u : State, exec (.batch i) s = .next u.cmdsOn ∧ u.withPeel s.peel = s
          ∧ ∀ x ∈ s.peel.cmds, x.phase = 0 → isBatched c.idx c.operand x.idx = true →
              ∃ y ∈ u.peel.cmds, y.idx = x.idx ∧ y.batch = some c.idx)))
    ∧ (s.peel.cmds.find? (fun x => x.idx == i && x.op == 6 && x.phase == 1) = some c →
      s.reached (strokeOf c.start) = true → s.dueFirst s.eventLines (lineOf c.start) = true →
      ∃ u : State, exec (.batchStart i) s = .next (u.endCmd c stDone none).cmdsOn ∧ u.withPeel s.peel = s
        ∧ ∀ x ∈ u.peel.cmds, x.batch ≠ some i))

/-- The end of a move (R253 to R258), the ring's TAIL (R269), and DRAMC_BLOCK_QUERY (R280). -/
def Obligations.PeelMovesEnd : Prop :=
  (∀ (s : State) (m : Move) (e : Ecc), s.running → s.peel.moves.find? (fun x => x.slot == m.slot) = some m →
    m.switching = false →
    ∃ t : State, exec (.moveSwitch ⟨m.slot, e⟩) s = .next t
      ∧ (∀ x ∈ t.peel.moves, x.slot = m.slot → x.switching = true)
      ∧ (∀ l, blockOf (l * 128) = m.block → t.dirOf l = { owner := none, sharers := 0 }
          ∨ (∃ x ∈ t.mem.txns, x.req.line = l) ∨ ∃ r ∈ t.mem.waitq, r.line = l ∧ r.kind = .clear)
      ∧ (s.plainLines → s.mem.waitq = [] → s.mem.flaws = [] → e = [] → (∀ a, t.sysByte a = s.sysByte a) ∧ t.mem.poison = s.mem.poison))
  ∧ (∀ (s : State) (m : Move), s.running → s.peel.moves.find? (fun x => x.slot == m.slot) = some m → m.switching = true →
    m.switched = true ∨ s.switchReady m = true →
    (∃ t : State, exec (.moveSwitchComplete m.slot) s = .next t)
    ∧ ((∀ r ∈ s.mem.waitq, s.lineBusy r.line = true) → (∀ d ∈ s.mem.dir, blockOf (d.1 * 128) ≠ m.block) → s.recordsOff →
      ∃ u : State, u.peel.cmds = s.peel.cmds
        ∧ u.remap m.block = (if m.switched then { s.remap m.block with ticket := false, slot := 0 } else { s.remap m.block with
            state := if m.pin then 4 else if m.up then 0 else 1, tier := if m.up then 0 else 1, frame := m.frame
            ticket := false, slot := 0 })
        ∧ (m.switched = false → m.up = true → u.peel.vacantHbm = s.peel.vacantHbm.erase m.frame
            ∧ u.peel.vacantDram = s.peel.vacantDram ++ [(s.remap m.block).frame])
        ∧ (m.switched = false → m.up = false → u.peel.vacantDram = s.peel.vacantDram.erase m.frame
            ∧ u.peel.vacantHbm = s.peel.vacantHbm ++ [(s.remap m.block).frame])
        ∧ (m.switched = false → ∀ l, blockOf (l * 128) = m.block → u.dirOf l = { owner := none, sharers := 0 })
        ∧ u.peel.moves = s.peel.moves.filter (fun x => x.slot != m.slot)
        ∧ (∀ c, s.peel.cmds.find? (fun x => x.idx == m.cmd) = some c →
            (∀ x ∈ s.peel.cmds, x.phase = 1 → x.operand ≠ m.block ∨ 3 < x.op) →
            exec (.moveSwitchComplete m.slot) s = .next (if m.victim then
                u.beginMove m.slot c.operand true (decide (c.op = 3)) false c.idx
                  (if m.switched then m.kept else some (s.remap m.block).frame)
              else u.endCmd c stDone (if c.victim = 0 then none else some (c.victim - 1))).cmdsOn.afterAll)
        ∧ (s.peel.cmds.find? (fun x => x.idx == m.cmd) = none → ∀ c,
            s.peel.cmds.find? (fun x => x.phase == 1 && decide (x.op ≤ 3) && x.operand == m.block) = some c →
            exec (.moveSwitchComplete m.slot) s = .next (u.restart c).cmdsOn.afterAll)))
  ∧ (∀ (s : State) (v : BitVec 32), s.running →
    let w := s.setReg (rPeel 0x403C) (v.setWidth 64)
    (∃ t : State, exec (.cmdRingTailWrite v) s = .next t ∧ (s.calm → t.regN (rPeel 0x403C) = v.toNat))
    ∧ (bitOf (s.regN (rPeel 0x4008)) 31 = false → exec (.cmdRingTailWrite v) s = .next w.cmdsOn)
    ∧ (s.calm → bitOf (s.regN (rPeel 0x4008)) 31 = true → s.cmdRing ≠ 0 → s.peel.fetched ≠ v.toNat →
        (s.peel.fetched + 1) % 2 ^ 32 = v.toNat →
        ∃ u : State, exec (.cmdRingTailWrite v) s = .next u.cmdsOn ∧ u.peel.fetched = v.toNat
          ∧ ∃ c, u.peel.cmds = s.peel.cmds ++ [c] ∧ c.idx = s.peel.fetched ∧ c.phase = 0
            ∧ (s.plainLines → c.op = leAt (s.sysRead (s.cmdAddr s.peel.fetched) 32) 0 1
                ∧ c.operand = leAt (s.sysRead (s.cmdAddr s.peel.fetched) 32) 4 4))
    ∧ exec (.dramcBlockQuery v) s = .next (s.withPeel { s.peel with query := v.toNat % 2 ^ 21 }))

/-- Cluster caches and the tags of cores at the homes (R204, R206, R340, R347 to R350). -/
def Obligations.CoreTagsAtHomes : Prop :=
  (∀ (s : State) (c tag : Nat) (t : RTag), s.running → s.rtag c tag = some t → t.target = .tiered → t.served = none →
    t.missed = false → t.early = false → (∃ j ∈ (s.core c).jobs, j.seq = t.job ∧ j.kind.vol = false) →
    s.lineOpen c tag t.pa .tiered false = false →
    let line := localPart t.pa / 128
    let x := s.cluster (c / 8)
    (line ∈ x.gone → (∃ h ∈ x.held, localPart h.pa / 128 = line) → ∀ p, exec (.clusterCacheRead c tag p) s = .next s)
    ∧ ((line ∈ x.gone → ∀ h ∈ x.held, localPart h.pa / 128 ≠ line) →
        (x.has line = true → (∀ d ∈ x.disabled, d ≠ cacheSlot line) →
          (∃ u : State, exec (.clusterCacheRead c tag .good) s = .next (u.after c)
            ∧ (x.tags.get? (cacheSlot line) = some line → s.onlyCore u c) ∧ (u.cluster (c / 8)).has line = true
            ∧ (∀ y ∈ (u.core c).reads, y.tag = tag → ∃ z ∈ (s.core c).reads, z.tag = tag ∧ y.served = some
                ((s.core c).ownBytes (s.heldOf c) z (s.clusterBytes (c / 8) c tag t.pa t.len),
                 (sectorsOf (localPart t.pa) t.len).filter s.poisoned)))
          ∧ (∀ p, p ≠ .good → ∃ u : State, exec (.clusterCacheRead c tag p) s = .next u ∧ (u.core c).regs = (s.core c).regs
            ∧ (u.cluster (c / 8)).has line = false ∧ ∀ y ∈ (u.core c).reads, y.tag = tag → y.missed = true))
        ∧ (x.has line = false ∨ cacheSlot line ∈ x.disabled → ∀ p, ∃ u : State, exec (.clusterCacheRead c tag p) s = .next u ∧ s.onlyCore u c
            ∧ (u.core c).regs = (s.core c).regs ∧ ∀ y ∈ (u.core c).reads, y.tag = tag → y.missed = true)))
  ∧ (∀ (s : State) (cl : Nat) (h : Held), s.running → (s.cluster cl).held.find? (fun x => x.wid == h.wid && x.done) = some h →
    ∃ u : State, exec (.heldWriteAck cl h.wid) s = .next u.afterAll ∧ (∀ a, u.sysByte a = s.sysByte a)
      ∧ (u.cluster cl).held = (s.cluster cl).held.filter (fun x => x.wid != h.wid)
      ∧ (∀ y ∈ (u.core h.core).writes, y.tag = h.tag → y.stage ≠ .held)
      ∧ (u.core h.core).regs = (s.core h.core).regs ∧ ∀ d, d ≠ h.core → u.core d = s.core d)
  ∧ (∀ (s : State) (cl : Nat) (h : Held), s.running → (s.cluster cl).held.find? (fun x => x.wid == h.wid) = some h →
    h.done = false → s.heldBefore cl h.wid = false → s.calm → s.mem.waitq = [] → s.mem.dir.length < 16 →
    (∀ e ∈ s.mem.dirty, e.1 / 128 ≠ localPart h.pa / 128) → s.dirOf (localPart h.pa / 128) = { owner := none, sharers := 0 } →
    localPart h.pa % 128 + h.bytes.length ≤ 128 → s.lineOpen h.core h.tag h.pa .tiered true = false →
    ∃ u : State, exec (.writeThroughWrite cl h.wid []) s = .next u.afterAll ∧ u.sysRead h.pa h.bytes.length = h.bytes
      ∧ (∀ a, localPart a < localPart h.pa ∨ localPart h.pa + h.bytes.length ≤ localPart a → u.sysByte a = s.sysByte a)
      ∧ (∀ x ∈ (u.cluster cl).held, x.wid = h.wid → x.done = true))
  ∧ (∀ (s : State) (c tag : Nat), s.running → s.calm → s.mem.waitq = [] → s.mem.dir = [] → s.mem.dirty = [] →
    (∀ t, s.rtag c tag = some t → t.target = .tiered → t.served = none → t.early = false →
      (∀ j ∈ (s.core c).jobs, j.seq = t.job → j.kind.vol = true) → s.readTurn c t = true →
      ∃ u : State, exec (.nonAllocatingRead (.tag c tag) []) s = .next u.afterAll
        ∧ ∀ y ∈ (u.core c).reads, y.tag = tag → ∃ z ∈ (s.core c).reads, z.tag = tag ∧ y.served = some
            ((s.core c).ownBytes (s.heldOf c) z (s.sysRead t.pa t.len), (sectorsOf (localPart t.pa) t.len).filter s.poisoned))
    ∧ (∀ w, s.rtag c tag = none → s.wtag c tag = some w → w.target = .tiered → w.stage = .sent → s.writeTurn c w = true →
      localPart w.pa + w.op.span ≤ 2 ^ 49 →
      let ends := fun (i : Instr) (old : Option Nat) (u : State) => exec i s = .next u.afterAll
        ∧ (∀ y ∈ (u.core c).writes, y.tag = tag → y.stage = .performed ∧ y.old = old)
        ∧ ∀ a, localPart a < localPart w.pa ∨ localPart w.pa + w.op.span ≤ localPart a → u.sysByte a = s.sysByte a
      (∀ bs, w.vol = true → w.op = .store bs →
        ∃ u : State, ends (.nonAllocatingWrite ⟨.tag c tag, []⟩ []) none u ∧ u.sysRead w.pa bs.length = bs)
      ∧ (∀ op f v cmp, w.op = .atom op f v cmp →
        let old := s.sysNat w.pa (atomBytes f)
        (s.anyPoison w.pa (atomBytes f) = false →
          ∃ u : State, ends (.farAtomic ⟨.tag c tag, []⟩ .add .i32 0 0) (some old) u
            ∧ u.sysRead w.pa (atomBytes f) = toBytes (atomBytes f) (atomNew op f old v cmp))
        ∧ (s.anyPoison w.pa (atomBytes f) = true →
          ∃ u : State, ends (.farAtomic ⟨.tag c tag, []⟩ .add .i32 0 0) (some (2 ^ 64 - 1)) u
            ∧ ∀ a, u.sysByte a = s.sysByte a))
      ∧ (∀ f es, w.op = .adds f es →
        ∃ u : State, ends (.farAtomic ⟨.tag c tag, []⟩ .add .i32 0 0) none u
          ∧ ∀ i e, es[i]? = some e →
              let pa := w.pa + i * atomBytes f
              u.sysNat pa (atomBytes f) = if s.anyPoison pa (atomBytes f) then s.sysNat pa (atomBytes f)
                else adderAdd f (s.sysNat pa (atomBytes f)) e % 2 ^ (8 * atomBytes f))))

/-- The memory controllers' commands (R321 to R334, R366). -/
def Obligations.MemoryControllers : Prop :=
  ∀ (s : State) (n : Nat), s.running → s.ctlPresent n = true →
    (bitOf (s.regN (rMc n 0x0)) 31 = true → s.offline n = false →
      (∀ errs, ∃ t : State, exec (.patrolScrubVisit n errs) s = .next t)
      ∧ (s.mem.flaws = [] → exec (.patrolScrubVisit n []) s = .next (s.setCtl n { s.ctl n with
          scrub := if (s.ctl n).scrub + 1 = rowCount n then 0 else ((s.ctl n).scrub + 1) % rowCount n })))
    ∧ (∀ (v : BitVec 32) (e : Ecc), (rowValid n v.toNat = true → (∃ t : State, exec (.remapReq n ⟨v, e⟩) s = .next t)
          ∧ exec (.remapReq n ⟨v, []⟩) s = .next (s.remapRow n v.toNat 2))
      ∧ (rowValid n v.toNat = false → exec (.remapReq n ⟨v, e⟩) s
          = .next (s.setReg (rMc n 0x18) (BitVec.ofNat 64 (3 * 2 ^ 62 + 2 * 2 ^ 58 + v.toNat)))))
    ∧ (∀ temp, temp < 256 → ∃ t : State, exec (.hbmTempRead n temp) s = .next t ∧ (t.ctl n).temp = temp
        ∧ ((t.ctl n).mode = tempBand temp ∨ (t.ctl n).mode = (s.ctl n).mode)
        ∧ ((s.ctl n).mode ≤ tempBand temp → (t.ctl n).mode = tempBand temp)
        ∧ (tempBand temp < (s.ctl n).mode → ((t.ctl n).mode = (s.ctl n).mode ↔ 75 + 10 * (s.ctl n).mode < temp + 3))
        ∧ (105 ≤ temp → (t.diePwr (if n < 16 then n / 4 else 4 + (n - 16) / 8)).hot = true) ∧ t.mem = s.mem)
    ∧ (∀ v : BitVec 32, (s.marginOpen = false ∨ (s.ctl n).margin = true → exec (.marginStart n v) s = .next s)
      ∧ (s.marginOpen = true → (s.ctl n).margin = false → bitOf v.toNat 31 = true →
          (∃ m ∈ marginNeeds n (bitOf v.toNat 30), s.offline m = false) →
          ∃ t : State, exec (.marginStart n v) s = .next t ∧ t.regN (rMc n 0x84) = 2 ^ 29 ∧ (t.ctl n).margin = false)
      ∧ (s.marginOpen = true → (s.ctl n).margin = false → bitOf v.toNat 31 = true →
          (∀ m ∈ marginNeeds n (bitOf v.toNat 30), s.offline m = true) →
          ∃ t : State, exec (.marginStart n v) s = .next t ∧ (t.ctl n).margin = true ∧ t.regN (rMc n 0x84) = 0))
    ∧ ((s.ctl n).margin = true → ∀ e, ∃ t : State, exec (.marginRunDone n e) s = .next t ∧ (t.ctl n).margin = false
        ∧ (s.ctlInUse n = false → t.mem = s.mem)
        ∧ (∀ a, s.tieredEnd ≤ localPart a ∨ (s.channel n (s.marginChan n)).holds (localPart a) = false →
            t.sysByte a = s.sysByte a)
        ∧ bitOf (t.regN (rMc n 0x84)) 30 = decide (e = 0) ∧ t.regN (rMc n 0x84) % 2 ^ 16 = min e 65535)
    ∧ (∀ v : BitVec 64, exec (.hbmcDirQuery n v) s
        = .next (s.setCtl n { s.ctl n with dirQuery := v.toNat % 2 ^ 56 / 128 }))

/-- Invalidations (R386 to R394). -/
def Obligations.Invalidations : Prop :=
  (∀ (s : State) (d : Nat), s.running → s.ringOk d = true → (s.fe d).ringBusy = none →
    s.regN (rAtu d 0x20) ≠ s.regN (rAtu d 0x1C) →
    let u := s.homeRead (s.ringEntry d) 16
    let b := u.sysRead (u.ringEntry d) 16
    (recordBad b = true → exec (.invRingEntry d) s = .next (u.ringDone d 2)
      ∧ (s.calm → (u.ringDone d 2).regN (rAtu d 0x20) = (s.regN (rAtu d 0x20) + 1) % 2 ^ 32))
    ∧ (recordBad b = false → (∃ t : State, exec (.invRingEntry d) s = .next t)
      ∧ (s.calm → s.atuGated (128 + d) = false → (∀ x ∈ s.xlat.invals, x.id ≠ s.xlat.nextInv) →
        ∃ t : State, exec (.invRingEntry d) s = .next t ∧ (t.fe d).ringBusy = some s.xlat.nextInv
          ∧ t.xlat.invals.length = s.xlat.invals.length + 1 ∧ t.mem = u.mem
          ∧ (∀ k ls, (k, ls) ∈ t.xlat.l1 ∨ (k, ls) ∈ t.xlat.l2 → ∀ l ∈ ls, (invalOf b d none).hits l = false)
          ∧ (∀ k ns, (k, ns) ∈ t.xlat.walkCache → ∀ x ∈ ns, (invalOf b d none).hitsNode x = false))))
  ∧ (∀ (s : State) (i : Inval) (a : Nat), s.running → s.xlat.invals.find? (fun x => x.id == i.id) = some i →
    i.waits.contains a = true →
    ((∃ d ∈ i.deps, d.1 = a ∧ s.depOpen d = true) → exec (.invalidationAck i.id a) s = .next s)
    ∧ ((∀ d ∈ i.deps, d.1 = a → s.depOpen d = false) →
      (i.waits.filter (fun x => x != a) ≠ [] → ∃ t : State, exec (.invalidationAck i.id a) s = .next t
          ∧ t.withXlat s.xlat = s ∧ (∀ x ∈ t.xlat.invals, x.id = i.id → x.waits = i.waits.filter (fun y => y != a)))
      ∧ (i.waits.filter (fun x => x != a) = [] → ∃ t : State, exec (.invalidationAck i.id a) s = .next t
          ∧ ∀ x ∈ t.xlat.invals, x.id ≠ i.id)))

/-- Fences, loads, stores, atomics and timeouts of the harts (R403 to R414, R238). -/
def Obligations.HartAccesses : Prop :=
  (∀ (s : State) (h : Nat) (w : BitVec 32) (cmd : Instr), s.running → s.hartRuns h = true → (s.hart h).fence = none →
    cmd ∈ [Instr.hartFence h w, .nwFenceCx h w, .nwFenceRg h w] →
    (isFence w = true → ∃ t : State, exec cmd s = .next t ∧ (t.hart h).stores = (s.hart h).stores ∧ t.mem = s.mem
      ∧ ((t.hart h).fence ≠ none ↔ ∃ x ∈ (s.hart h).stores, x.id < (s.hart h).nextId
          ∧ (((bitOf w.toNat 24 = true ∨ bitOf w.toNat 26 = true) ∧ x.writes = true)
            ∨ ((bitOf w.toNat 25 = true ∨ bitOf w.toNat 27 = true) ∧ x.load = true))))
    ∧ (w.toNat % 128 = 0x0B → xnwIllegal w = true → exec cmd s = .next (s.hartTrap h 2 none))
    ∧ (w.toNat % 128 = 0x0B → xnwIllegal w = false → ∃ t : State, exec cmd s = .next t
        ∧ (t.hart h).stores = (s.hart h).stores ∧ t.mem = s.mem
        ∧ ((t.hart h).fence ≠ none ↔ ∃ x ∈ (s.hart h).stores, x.id < (s.hart h).nextId ∧ x.cacheable = true
            ∧ ((bitOf w.toNat 24 = true ∧ x.writes = true) ∨ (bitOf w.toNat 25 = true ∧ x.load = true)))))
  ∧ (∀ (s : State) (h pa n : Nat) (p : Pbmt) (t : Target), s.running → s.hartRuns h = true → (s.hart h).fence = none →
    (s.hart h).stores = [] → 1 ≤ n → pa % 128 + n ≤ 128 → s.target pa = some t →
    let cmd := fun (v : Option Nat) => Instr.nonAllocatingRead (.agent (.hart h { off := 0, n := 0, pbmt := p, vec := v }) pa n) []
    (∀ v, hartDevice t p = true → 8 < n ∨ v.isSome = true → exec (cmd v) s = .next (s.hartTrap h 5 none))
    ∧ (t = .mmio → n ≤ 8 → exec (cmd none) s = .next ((s.loadMmio n (localPart pa - mmioBase) n).1.emit
        { kind := .data, args := [512 + h, pa, 0], bytes := (s.loadMmio n (localPart pa - mmioBase) n).2 }))
    ∧ (t = .hostDevice ∨ (∃ k, t = .remote k) → n ≤ 8 → ∃ u : State, exec (cmd none) s = .next u
        ∧ ∃ x, (u.hart h).stores = [x] ∧ x.load = true ∧ x.writes = false ∧ x.pa = pa ∧ x.target = t
          ∧ x.device = decide (t = .hostDevice)))
  ∧ (∀ (s : State) (h pa : Nat) (src : HartData) (p : Pbmt) (f : Finds), s.running → s.hartRuns h = true →
    (s.hart h).fence = none → (s.hart h).stores = [] →
    let bs := hartBytes src (s.hart h)
    let n := bs.length
    let line := localPart pa / 128
    1 ≤ n → n ≤ 128 →
    (s.hartTarget pa n = none → exec (.hartStore h pa ⟨src, f⟩ p) s = .next (s.hartTrap h 7 none))
    ∧ (∀ t x, s.hartTarget pa n = some (t, x) → hartDevice t p = true → hartVector src = true ∨ 8 < n →
        exec (.hartStore h pa ⟨src, f⟩ p) s = .next (s.hartTrap h 7 none))
    ∧ (s.hartTarget pa n = some (.tiered, none) → p = .pma → localPart pa % 128 + n ≤ 128 →
      (s.ownsLine (16 + h / 48) line = false → ∃ t : State, exec (.hartStore h pa ⟨src, f⟩ p) s = .next t
        ∧ t.mem = s.mem ∧ ∃ x, (t.hart h).stores = [x] ∧ x.pa = pa ∧ x.bytes = bs ∧ x.cacheable = true ∧ x.load = false)
      ∧ (s.holdsOwned (16 + h / 48) line = true → f.slc = .none → f.sram = none →
        ∃ t : State, exec (.hartStore h pa ⟨src, f⟩ p) s = .next t ∧ t.sysRead pa n = bs ∧ t.mem.bytes = s.mem.bytes
          ∧ (t.hart h).stores = []
          ∧ (∀ a, localPart a < localPart pa ∨ localPart pa + n ≤ localPart a → t.sysByte a = s.sysByte a)))
    ∧ (s.hartTarget pa n = some (.tiered, none) → p = .nc → pa % 128 + n ≤ 128 → f.e = [] → s.homeFree line →
        s.dirOf line = { owner := none, sharers := 0 } →
        ∃ u : State, exec (.hartStore h pa ⟨src, f⟩ p) s = .next u.afterAll ∧ u.sysRead pa n = bs ∧ (u.hart h).stores = [])
    ∧ (∀ c, s.hartTarget pa n = some (.window c, none) →
      exec (.hartStore h pa ⟨src, f⟩ p) s = .next (s.windowStore c (localPart pa - windowBase c) bs))
    ∧ (∀ c b, s.hartTarget pa n = some (.window c, some (b, .window (c + 1))) → exec (.hartStore h pa ⟨src, f⟩ p) s
        = .next ((s.windowStore c (localPart pa - windowBase c) (bs.take (b - pa))).windowStore (c + 1)
            (localPart b - windowBase (c + 1)) (bs.drop (b - pa))))
    ∧ (∀ k, s.hartTarget pa n = some (.remote k, none) → exec (.hartStore h pa ⟨src, f⟩ p) s
        = .next ((s.hartEnter h pa bs (.remote k) false false false true false).sendOut (.remote k) pa [1] bs)))
  ∧ (∀ (s : State) (h pa : Nat) (op : HartAmo) (wide : Bool) (v : BitVec 64) (o : HartOrder) (f : Finds), s.running →
    s.hartRuns h = true → (s.hart h).fence = none → (s.hart h).stores = [] →
    let n := if wide then 8 else 4
    let line := localPart pa / 128
    let x := v.toNat % 2 ^ (8 * n)
    (∀ p, pa % n ≠ 0 → exec (.hartAmo h pa ⟨op, o, f⟩ wide v p) s = .next (s.hartTrap h (if op = .lrsc then 4 else 6) none))
    ∧ (∀ p, pa % n = 0 → s.target pa = none ∨ s.target pa = some .mmio ∨ s.target pa = some .hostDevice →
        exec (.hartAmo h pa ⟨op, o, f⟩ wide v p) s = .next (s.hartTrap h (if op = .lrsc then 5 else 7) none))
    ∧ (∀ p, pa % n = 0 → p ≠ .pma → s.target pa = some .host →
        exec (.hartAmo h pa ⟨op, o, f⟩ wide v p) s = .next (s.hartTrap h (if op = .lrsc then 5 else 7) none))
    ∧ (∀ p, pa % n = 0 → p ≠ .pma → s.target pa = some .tiered → op = .lrsc →
        exec (.hartAmo h pa ⟨op, o, f⟩ wide v p) s = .next (s.hartTrap h 5 none))
    ∧ (∀ c p, pa % n = 0 → s.target pa = some (.window c) → exec (.hartAmo h pa ⟨op, o, f⟩ wide v p) s
        = .next (if op = .lrsc then s.hartTrap h 5 none else s.windowAmo h c pa op n x))
    ∧ (pa % n = 0 → s.target pa = some .tiered → s.holdsOwned (16 + h / 48) line = true → f.slc = .none → f.sram = none →
      (s.anyPoison pa n = true → ∃ t : State, exec (.hartAmo h pa ⟨op, o, f⟩ wide v .pma) s = .next t
        ∧ (t.hart h).trap = some { cause := 19, tval := some pa } ∧ t.mem.bytes = s.mem.bytes ∧ t.mem.dirty = s.mem.dirty)
      ∧ (s.anyPoison pa n = false → ∃ t : State, exec (.hartAmo h pa ⟨op, o, f⟩ wide v .pma) s = .next t
        ∧ t.sysRead pa n = toBytes n (amoNew op (8 * n) (ofBytes (s.sysRead pa n)) x)
        ∧ t.out = { kind := .data, args := [16 + h / 48, pa, 0], bytes := s.sysRead pa n } :: s.out
        ∧ t.mem.bytes = s.mem.bytes)))
  ∧ (∀ (s : State) (h pa : Nat) (src : HartData) (p : Pbmt) (f : Finds) (g : HartFence) (t : Target), s.running →
    s.hartRuns h = true → (s.hart h).fence = some g → 1 ≤ (hartBytes src (s.hart h)).length →
    (hartBytes src (s.hart h)).length ≤ 128 → s.hartTarget pa (hartBytes src (s.hart h)).length = some (t, none) →
    g.holds (hartCacheable t p) false true = true → exec (.hartStore h pa ⟨src, f⟩ p) s = .next s)
  ∧ (∀ (s : State) (h : Nat) (x : HartStore), s.running → (s.hart h).stores.find? (fun y => y.id == x.id) = some x →
    s.timedOut x.target x.sent = true →
    ∃ u : State, exec (.processorDeviceTimeout h x.id) s = .next u.hartDrain ∧ (∀ y ∈ (u.hart h).stores, y.id ≠ x.id)
      ∧ (x.load = true → ∃ o, u.out
          = { kind := .data, args := [16 + h / 48, x.pa, 0], bytes := x.bytes.map (fun _ => 0xFF) } :: o))

/-- Interrupt files, watchdog and warm reset (R416 to R425). -/
def Obligations.ProcessorDies : Prop :=
  (∀ (s : State) (off h x : Nat) (v : BitVec 64), s.running → blockAt off = some (.mfile h, x) →
    s.hartPresent h = true → s.pds.phase = 0 →
    (x = 0 → 1 ≤ v.toNat % 2 ^ 32 → v.toNat % 2 ^ 32 ≤ 511 → ∃ t : State, exec (.msiWrite off 4 v) s = .next t
      ∧ t.withPds s.pds = s
      ∧ t.pds.files.getD (fun _ => 0) (h * 9)
          = (s.pds.files.getD (fun _ => 0) (h * 9) ||| BitVec.ofNat 512 (2 ^ (v.toNat % 2 ^ 32)))
      ∧ (∀ k, k ≠ h * 9 → t.pds.files.getD (fun _ => 0) k = s.pds.files.getD (fun _ => 0) k))
    ∧ (x = 0 → v.toNat % 2 ^ 32 = 0 ∨ 511 < v.toNat % 2 ^ 32 → exec (.msiWrite off 4 v) s = .next s))
  ∧ (∀ (s : State) (p : Nat), s.running → s.pdPresent p = true →
    (s.wdogLines p ≠ 0 → s.wdogLines p ≤ s.regN (rPd p 0x1C) → s.pds.wdogHeld.getLsbD p = false →
      ∃ t : State, exec (.pdWdogExpire p) s = .next t ∧ t.pds.wdogHeld.getLsbD p = true ∧ t.hatch.alert = true)
    ∧ (∀ v, ∃ t : State, exec (.pdWdogCountWrite p v) s = .next t ∧ t.regN (rPd p 0x1C) = 0
        ∧ t.pds.wdogHeld.getLsbD p = false ∧ t.mem = s.mem))
  ∧ (∀ (s : State) (v : BitVec 32), s.running →
    (s.pds.phase ≠ 0 → ∃ t : State, exec (.pdWarmReset v) s = .next t ∧ t.pds = s.pds ∧ t.mem = s.mem
      ∧ ∀ p, p < 2 → s.pdPresent p = true → bitOf (t.regN (rPd p 0xC)) 31 = true)
    ∧ (s.pds.phase = 0 → (∀ p, p < 2 → bitOf v.toNat p = true → s.pdPresent p = false) →
        exec (.pdWarmReset v) s = .next s)
    ∧ (s.pds.phase = 0 → ∀ p, p < 2 → bitOf v.toNat p = true → s.pdPresent p = true →
        ∃ t : State, exec (.pdWarmReset v) s = .next t ∧ t.pds.phase ≠ 0
          ∧ ∀ h, h / 48 = p → (t.hart h).stopped = true))
  ∧ (∀ (s : State), s.running → s.pds.phase = 2 → s.ruling.stroke = 0 → s.ruling.line ≠ s.pds.since → s.ras.cmd = none →
    ∃ t : State, exec .warmResetRelease s = .next t ∧ t.pds.phase = 0 ∧ t.pds.resetDies = 0 ∧ t.mem = s.mem
      ∧ ∀ h, h / 48 < 2 → bitOf s.pds.resetDies (h / 48) = true →
          (t.hart h).stores = [] ∧ (t.hart h).stopped = false)

/-- The queue commands (R430 to R432, R489, R503). -/
def Obligations.QueueCommands : Prop :=
  ∀ (s : State) (d q : Nat), s.running → s.adPresent d = true → q < 1024 →
    (∀ x, s.queue? q = some x → x.die ≠ d →
      ∀ cmd ∈ [Instr.create d q, .enable d q, .disable d q, .destroy d q, .resume d q],
        exec cmd s = .next (s.qctlDone d q 3))
    ∧ (s.queue? q = none →
      (∀ cmd ∈ [Instr.enable d q, .disable d q, .destroy d q, .resume d q], exec cmd s = .next (s.qctlDone d q 3))
      ∧ (∀ u, s.readQctx d q = (u, none) → exec (.create d q) s = .next (u.qctlDone d q 2))
      ∧ (∀ u c, s.readQctx d q = (u, some c) → ∃ t y, exec (.create d q) s = .next t ∧ t.queue? q = some y
          ∧ y.die = d ∧ y.state = .disabled ∧ y.cfg = c ∧ y.head = 0 ∧ y.tail = 0 ∧ y.cqCount = 0
          ∧ t.regN (rFe d 0x14) = 2 ^ 30 + q
          ∧ (s.calm → s.mem.dir.length < 16 → ∀ p, p ≠ q → t.queue? p = s.queue? p)))
    ∧ (∀ x, s.queue? q = some x → x.die = d →
      exec (.create d q) s = .next (s.qctlDone d q 1)
      ∧ (x.state ≠ .disabled → exec (.enable d q) s = .next (s.qctlDone d q 1))
      ∧ (x.state = .disabled → (∃ t : State, exec (.enable d q) s = .next t ∧ t.regN (rFe d 0x14) = 2 ^ 30 + q)
          ∧ (x.isLocal = false → ∃ t y, exec (.enable d q) s = .next t ∧ t.queue? q = some y
              ∧ y = { x with state := .running, rereads := 0, dbStale := true } ∧ t.regN (rFe d 0x14) = 2 ^ 30 + q))
      ∧ (x.state = .running ∨ x.state = .parked → exec (.disable d q) s
          = .next ((s.setQueue q { x with state := .disabled, cause := 0 }).qctlDone d q 0))
      ∧ (x.state ≠ .running → x.state ≠ .parked → exec (.disable d q) s = .next (s.qctlDone d q 1))
      ∧ (x.state = .disabled ∨ x.state = .stopped →
          (s.queueOps q ≠ [] → exec (.destroy d q) s = .next (s.qctlDone d q 4))
          ∧ (s.queueOps q = [] → ∃ t : State, exec (.destroy d q) s = .next t ∧ t.queue? q = none
              ∧ ∀ p, p ≠ q → t.queue? p = s.queue? p))
      ∧ (x.state ≠ .disabled → x.state ≠ .stopped → exec (.destroy d q) s = .next (s.qctlDone d q 1))
      ∧ (x.state = .parked → (∃ t : State, exec (.resume d q) s = .next t ∧ t.regN (rFe d 0x14) = 2 ^ 30 + q)
          ∧ (x.isLocal = false → ∃ t y, exec (.resume d q) s = .next t ∧ t.queue? q = some y
              ∧ y.state = .running ∧ y.head = x.head ∧ y.dbStale = true ∧ y.cause = 0 ∧ y.ready = false ∧ y.rereads = 0))
      ∧ (x.state = .completionFault → ∀ u, s.qctxBytes d q = (u, none) → exec (.resume d q) s = .next (u.qctlDone d q 2))
      ∧ (x.state = .hostLost ∨ x.state = .stopped →
          (s.queueOps q ≠ [] → exec (.resume d q) s = .next (s.qctlDone d q 4))
          ∧ (s.queueOps q = [] →
            (∀ u, s.readQctx d q = (u, none) → exec (.resume d q) s = .next (u.qctlDone d q 2))
            ∧ (∀ u c, s.readQctx d q = (u, some c) → exec (.resume d q) s
                = .next ((u.setQueue q { newQueue d 0 c with prefs := x.prefs }).qctlDone d q 0))))
      ∧ (x.state = .running ∨ x.state = .disabled → exec (.resume d q) s = .next (s.qctlDone d q 1)))

/-- Doorbells, ring reads and acceptance (R434 to R440). -/
def Obligations.DoorbellsAndRings : Prop :=
  (∀ (s : State) (d q : Nat) (x : Queue) (b : List Byte), s.running → s.queue? q = some x → x.die = d →
    x.dbStale = true → x.isLocal = false → s.cxl.session = true → 12 ≤ b.length →
    let v := s.underDirty x.cfg.dbAddr b
    let back := (x.tail + 2 ^ 32 - leAt v 0 4) % 2 ^ 32
    let out := (leAt v 0 4 + 2 ^ 32 - x.head % 2 ^ 32) % 2 ^ 32
    (∃ t : State, exec (.doorbellReread d q (some (.data b))) s = .next t)
    ∧ (leAt v 4 4 = x.cfg.dbGen → ∃ t y, exec (.doorbellReread d q (some (.data b))) s = .next t ∧ t.queue? q = some y
        ∧ y.dbStale = false ∧ y.head = x.head
        ∧ (back ≤ 2 ^ x.cfg.sqLog → y.tail = x.tail ∧ y.state = x.state)
        ∧ (2 ^ x.cfg.sqLog < back → out ≤ 2 ^ x.cfg.sqLog → y.tail = leAt v 0 4 ∧ y.state = x.state)
        ∧ (2 ^ x.cfg.sqLog < back → 2 ^ x.cfg.sqLog < out → x.state = .running → y.state = .parked ∧ y.cause = 2)))
  ∧ (∀ (s : State) (d : Nat) (r : List (Nat × Reply)), s.running → s.adPresent d = true →
    (∃ t : State, exec (.doorbellPeriodicRead d r) s = .next t)
    ∧ ((∀ e ∈ s.work.queues, e.2.die ≠ d) → exec (.doorbellPeriodicRead d r) s = .next s))
  ∧ (∀ (s : State) (d q : Nat) (x : Queue), s.running → s.queue? q = some x → x.die = d → x.state = .running →
    x.ready = false → x.waiting ≠ 0 → x.isLocal = true →
    let u := s.homeRead x.slot 64
    let b := u.sysRead x.slot 64
    let u' := u.homeRead (x.slot + 64) 192
    let b' := u'.sysRead x.slot 256
    (u.anyPoison x.slot 64 = true → x.rereads < 65 → exec (.descriptorReread d q none) s
      = .next (u.setQueue q { x with ready := true, desc := b, poison := true }))
    ∧ (u.anyPoison x.slot 64 = false →
      (bitOf (leAt b 1 1) 0 = x.phase → bitOf (leAt b 1 1) 4 = false ∨ x.head % 4 ≠ 0 → x.rereads < 65 →
        exec (.descriptorReread d q none) s = .next (u.setQueue q { x with ready := true, desc := b, poison := false }))
      ∧ (bitOf (leAt b 1 1) 0 = x.phase → bitOf (leAt b 1 1) 4 = true → x.head % 4 = 0 → x.waiting < 4 → x.rereads < 65 →
        exec (.descriptorReread d q none) s = .next (u.setQueue q x))
      ∧ (bitOf (leAt b 1 1) 0 = x.phase → bitOf (leAt b 1 1) 4 = true → x.head % 4 = 0 → 4 ≤ x.waiting → x.rereads < 65 →
        (u'.anyPoison x.slot 256 = true → exec (.descriptorReread d q none) s
          = .next (u'.setQueue q { x with ready := true, desc := b', poison := true }))
        ∧ (u'.anyPoison x.slot 256 = false → bitOf (leAt b' 1 1) 0 = x.phase → bitOf (leAt b' 1 1) 4 = true →
          exec (.descriptorReread d q none) s = .next (u'.setQueue q { x with ready := true, desc := b', poison := false })))
      ∧ (bitOf (leAt b 1 1) 0 ≠ x.phase →
        (x.rereads + 1 < 65 → exec (.descriptorReread d q none) s
            = .next (u.setQueue q { x with rereads := x.rereads + 1 }))
        ∧ (65 ≤ x.rereads + 1 → ∃ t y, exec (.descriptorReread d q none) s = .next t ∧ t.queue? q = some y
            ∧ y.state = .parked ∧ y.cause = 1))))
  ∧ (∀ (s : State) (d q : Nat) (x : Queue), s.running → s.adPresent d = true → s.work.oos = false →
    (s.fe d).shares = [] → s.dieOps d < 1024 → s.nextQueue d = some (q, x) →
    (∃ t : State, exec (.descriptorAccept d) s = .next t)
    ∧ (s.calm → (∀ k, (s.cluster k).held = []) →
      ∃ t : State, exec (.descriptorAccept d) s = .next t ∧ t.work.ops.length = s.work.ops.length + 1
        ∧ t.work.nextUid = s.work.nextUid + 1 ∧ (t.fe d).lastQueue = q))

/-- The operations that put work on cores (R304 to R306, R451, R452, R471, R472). -/
def Obligations.WorkReachesCores : Prop :=
  (∀ (s s' : State) (uid c asid root : Nat) (o : Op), s.running → s.op? uid = some o → s.startable o = true →
    (o.opcode = 0x02 → exec (.launchRecipe uid) s = .next (s.modOp uid (fun o => { o with phase := .running })))
    ∧ (o.opcode = 0x01 → ∃ t : State, exec (.launch uid) s = .next t)
    ∧ (o.opcode = 0x01 → o.placed = [c] → c / 32 = o.die → bitOf o.flags 1 = false →
      s.feCtx o.die o.opcode o.ctx = (s', .ok (asid, root)) → s'.cores = s.cores → s'.work = s.work → s'.coreState c = 0 →
      s.hangHolds c o.ctx = false → (s.core c).staged.length < 3 → (∀ p ∈ s.work.ops, ∀ w ∈ p.waitSlot, w.1 ≠ c) →
      ∃ t o', exec (.launch uid) s = .next t ∧ t.op? uid = some o' ∧ o'.phase = .running
        ∧ (t.core c).staged.map (fun g => g.launch.uid) = (s.core c).staged.map (fun g => g.launch.uid) ++ [uid]
        ∧ ∀ d, d ≠ c → t.core d = s.core d)
    ∧ (o.opcode = 0x0A → s.dspTurn o = true → ∀ (reuse : Bool) (cmd : Instr), dspReuse o.desc = reuse →
      (reuse, cmd) ∈ [(false, Instr.dispatchDecide uid), (true, .dispatchReuse uid)] →
      let hands := fun (r : State) (plan : List Part) => ∃ t : State, exec cmd s = .next t ∧ ∀ e, e < 4 → e ≠ o.die →
        (t.fe e).shares.length = (r.fe e).shares.length + (if plan.any (fun p => p.core / 32 == e) then 1 else 0)
      (∀ e, s.feCtx o.die o.opcode o.ctx = (s', .error e) → exec cmd s = .next (s.causing uid (s'.opFail uid e)))
      ∧ (s.feCtx o.die o.opcode o.ctx = (s', .ok (asid, root)) →
          (o.plan ≠ [] → hands s' o.plan)
          ∧ (o.plan = [] → ∀ r e plan, s'.runDispatch o asid root = (r, e, plan) →
            (∀ k, e = some k → exec cmd s = .next (s.causing uid (r.opFail uid k))) ∧ (e = none → hands r plan)))))
  ∧ (∀ (s s' : State) (uid node e : Nat) (o : Op) (body : List Byte), s.running → s.op? uid = some o →
    s.recipeBody o = some body → o.opcode = 0x02 → o.phase = .running → o.excOrTimeout = none → o.stopping = false →
    node < leAt body 0 2 → o.nodesStarted.contains node = false → o.predsDone body node = true →
    (s.nodeBlock o body node = (s', .error e) → exec (.recipeNodeStart uid node) s = .next (s.causing uid (s'.nodeFail uid node e)))
    ∧ ∀ l cores, s.nodeBlock o body node = (s', .ok (l, cores)) → ∃ t : State, exec (.recipeNodeStart uid node) s = .next t)
  ∧ (∀ (s s' : State) (d asid root : Nat) (h : Share) (rest : List Share) (o : Op), s.running → s.adPresent d = true →
    (s.fe d).shares = h :: rest → (∃ t : State, exec (.dispatchShare d) s = .next t)
    ∧ (s.op? h.uid = some o → o.opcode = 0x0A →
      (s.setFe d { s.fe d with shares := rest }).feCtx d o.opcode o.ctx = (s', .ok (asid, root)) →
      ∃ t : State, exec (.dispatchShare d) s = .next t ∧ t.withWork s'.work = s' ∧ t.work.fes = s'.work.fes
        ∧ ∀ o' ∈ t.work.ops, o'.uid = h.uid → ∀ p ∈ o'.parts, p.core / 32 = d → p.taken = true))
  ∧ (∀ (s : State) (c : Nat) (o : Op) (p : Part), s.running → (∀ x ∈ s.work.ops, ∀ w ∈ x.waitSlot, w.1 ≠ c) →
    s.nextPart c = some (o, p) → s.coreState c = 0 → (s.core c).staged.length < 3 →
    s.sameWork c (dspWorkOff o.desc) = false → s.hangHolds c o.ctx = false →
    let bs := packetBytes o.desc o.seq p.items
    ∃ t : State, exec (.dispatchPacketWrite (c / 32) c) s = .next t
      ∧ (∀ o' ∈ t.work.ops, o'.uid = o.uid → ∀ x ∈ o'.parts, x ≠ p)
      ∧ (t.core c).staged.map (fun g => g.launch.uid) = (s.core c).staged.map (fun g => g.launch.uid) ++ [o.uid]
      ∧ (dspWorkOff o.desc + bs.length ≤ 0x400000 → t.scrRead c (dspWorkOff o.desc) bs.length = bs))

/-- Operations that use no core (R390, R456 to R470). -/
def Obligations.DescriptorEffects : Prop :=
  ∀ (s : State) (uid : Nat) (o : Op), s.running → s.op? uid = some o →
    let n := flagBytes o.desc
    let v := flagValue o.desc
    let holds := fun (x : Nat) => condHolds (leAt o.desc 16 1) (8 * n) x v
    let away := fun (t : Target) => t = .host ∨ t = .hostDevice ∨ ∃ k, t = .remote k
    let u := s.homeRead o.pa n
    (s.startable o = true →
      (o.opcode = 0x0C → exec (.nop uid) s = .next (s.opEnd uid))
      ∧ (o.opcode = 0x06 → ∀ x, s.queue? o.queue = some x → x.prefs.length = 4 → ∃ t y, exec (.phase uid) s = .next t
          ∧ t.queue? o.queue = some y ∧ ∀ d, d < 4 → y.prefs[d]? =
            if leAt o.desc 17 1 = 0 ∨ bitOf (leAt o.desc 17 1) d = true then some (leAt o.desc 16 1) else x.prefs[d]?)
      ∧ (o.opcode = 0x03 → (∃ t : State, exec (.inlineWrite uid) s = .next t)
          ∧ (s.opHeld o = true → exec (.inlineWrite uid) s = .next s)
          ∧ (s.opHeld o = false → o.va % 4096 + (descInline o.desc).length ≤ 4096 →
            (s.calm → localPart o.pa + (descInline o.desc).length ≤ 2 ^ 49 → s.target o.pa = some .tiered →
              ∃ t : State, exec (.inlineWrite uid) s = .next t
                ∧ t.sysRead o.pa (descInline o.desc).length = descInline o.desc)
            ∧ (∀ g, s.target o.pa = some g → away g → s.targetLost g = false →
              ∃ t : State, exec (.inlineWrite uid) s = .next t
                ∧ ∃ w ∈ (t.fe o.die).writes, w.uid = some uid ∧ w.pa = o.pa ∧ w.target = g ∧ w.sent = s.strokeNow)))
      ∧ (o.opcode = 0x04 → (∃ t : State, exec (.signal uid) s = .next t)
          ∧ (s.calm → s.opHeld o = false → localPart o.pa + 8 ≤ 2 ^ 49 → s.target o.pa = some .tiered →
            (leAt o.desc 16 1 ≠ 1 → ∃ t : State, exec (.signal uid) s = .next t ∧ t.sysNat o.pa n = v)
            ∧ (leAt o.desc 16 1 = 1 → s.plainLines → s.anyPoison o.pa n = false →
                ∃ t : State, exec (.signal uid) s = .next t ∧ t.sysNat o.pa n = (s.sysNat o.pa n + v) % 2 ^ (8 * n))))
      ∧ (o.opcode = 0x07 → s.earlier o = [] →
          exec (.fence uid) s = .next (s.modOp uid (fun o => { o with phase := .ended })))
      ∧ (o.opcode = 0x05 → (∃ t : State, exec (.wait uid none) s = .next t)
          ∧ (s.calm → s.opHeld o = false → s.target o.pa = some .tiered → ∃ t o', exec (.wait uid none) s = .next t
              ∧ t.op? uid = some o' ∧ o'.phase = (if holds (u.sysNat o.pa n) then .ended else .running) ∧ t.mem = u.mem)
          ∧ (∀ g, s.target o.pa = some g → away g → s.opHeld o = false → s.timedOut g s.strokeNow = false →
              ∃ t o', exec (.wait uid none) s = .next t ∧ t.op? uid = some o' ∧ o'.phase = .running
                ∧ o'.asked = some s.strokeNow))
      ∧ (o.opcode = 0x08 → leAt o.desc 17 1 = 0 → o.recipe = none →
          (bodyBad o.block = true → exec (.install uid) s = .next (s.opFail uid 0x207))
          ∧ (bodyBad o.block = false → s.rslot o.die (leAt o.desc 16 1) = RSlot.init → ∃ t,
              exec (.install uid) s = .next t
              ∧ (t.rslot o.die (leAt o.desc 16 1)).state = 1 ∧ (t.rslot o.die (leAt o.desc 16 1)).ctx = o.ctx
              ∧ (t.rslot o.die (leAt o.desc 16 1)).current = none
              ∧ (t.rslot o.die (leAt o.desc 16 1)).live = [{ num := 0, va := o.va, asid := o.asid, root := o.root,
                                                              body := o.block, runs := 0, arriving := some uid }]
              ∧ ∃ o', t.op? uid = some o' ∧ o'.phase = .ended ∧ o'.recipe = some (leAt o.desc 16 1, 0)))
      ∧ (o.opcode = 0x08 → leAt o.desc 17 1 = 1 → (s.rslot o.die (leAt o.desc 16 1)).state = 0 →
          exec (.remove uid) s = .next (s.opFail uid 0x209))
      ∧ (o.opcode = 0x08 → leAt o.desc 17 1 = 1 → (s.rslot o.die (leAt o.desc 16 1)).state = 1 →
          (s.rslot o.die (leAt o.desc 16 1)).ctx = o.ctx → ∃ t : State, exec (.remove uid) s = .next t)
      ∧ (∀ s' asid root, s.feCtx o.die o.opcode o.ctx = (s', .ok (asid, root)) →
          (o.opcode = 0x09 → (∀ i ∈ s.xlat.invals, i.uid = none) → (∃ t : State, exec (.invalidateRange uid) s = .next t)
            ∧ (s'.adPresent o.die = true → s'.atuGated (128 + o.die) = false →
              (∀ i ∈ s'.xlat.invals, i.id ≠ s'.xlat.nextInv) → ∃ t : State, exec (.invalidateRange uid) s = .next t
                ∧ t.xlat.invals.length = s'.xlat.invals.length + 1))
          ∧ (o.opcode = 0x0B → ∃ t : State, exec (.peelHint uid) s = .next t))
      ∧ (∀ s' e, s.feCtx o.die o.opcode o.ctx = (s', .error e) →
          (o.opcode = 0x09 → (∀ i ∈ s.xlat.invals, i.uid = none) →
            exec (.invalidateRange uid) s = .next (s.causing uid (s'.opFail uid e)))
          ∧ (o.opcode = 0x0B → exec (.peelHint uid) s = .next (s.causing uid (s'.opFail uid e)))))
    ∧ (o.opcode = 0x05 → o.phase = .running →
        (s.calm → o.asked = none → s.opHeld o = false → s.target o.pa = some .tiered → ∃ t o',
          exec (.waitReread uid none) s = .next t ∧ t.op? uid = some o'
          ∧ o'.phase = (if holds (u.sysNat o.pa n) then .ended else .running))
        ∧ (∀ g sent r b, o.asked = some sent → s.target o.pa = some g → away g →
          (s.timedOut g sent = true → exec (.waitReread uid r) s
              = .next (s.causing uid ((s.feLost o.die o.opcode o.ctx o.pa g).waitTest o (2 ^ (8 * n) - 1))))
          ∧ (s.timedOut g sent = false → b.length = n → exec (.waitReread uid (some (.data b))) s
              = .next (s.waitTest o (ofBytes (if g = .host ∨ g = .hostDevice then s.underDirty o.pa b else b))))
          ∧ (s.timedOut g sent = false → exec (.waitReread uid none) s = .next s)))

/-- COPY, FILL and COPY_2D (R455). -/
def Obligations.BuiltinPrograms : Prop :=
  (∀ (s : State) (c : Nat) (l : Launch) (idx : Nat) (cmd : Instr), s.running → (s.core c).launch = some l →
    (idx, cmd) ∈ [(1, Instr.copy c), (2, .fill c), (3, .copy2d c)] → (s.core c).block = .none →
    ((s.core c).pc.toNat = 2 ^ 63 + idx →
        ∃ u : State, exec cmd s = .next (u.after c) ∧ s.onlyCore u c ∧ u.sameRegs (u.after c) ∧ (u.core c).block = .ending
          ∧ (u.core c).regs = (s.core c).regs
          ∧ ∃ j, (u.core c).jobs = (s.core c).jobs ++ [j] ∧ j.unit = 5 ∧ j.begun = true
            ∧ j.kind = .builtin { idx := idx, args := (upFrom 1 6).map (fun r => ((s.core c).sreg r).toNat), next := l.rank
                                  step := max 1 l.cores, moves := [] })
    ∧ ((s.core c).pc.toNat ≠ 2 ^ 63 + idx → exec cmd s = .next s))
  ∧ (∀ (g : Prog) (i : Nat), g.idx = 1 ∨ g.idx = 2 →
    let n := if g.idx = 1 then g.arg 3 else g.arg 2
    ((g.piece i).map Move1.len).sum = min 4096 (n - i * 4096)
      ∧ ∀ m ∈ g.piece i, 1 ≤ m.len ∧ m.len ≤ 128 ∧ (g.idx = 2 → m.src = none ∧ m.bytes.length = m.len)
          ∧ (g.idx = 1 → ∃ x, m.src = some ((g.arg 1 + x) % 2 ^ 64) ∧ m.dst = (g.arg 2 + x) % 2 ^ 64
              ∧ i * 4096 ≤ x ∧ x + m.len ≤ g.arg 3))

/-- The query commands, and what their views then show (R449, R476, R505, R506, R560, R587). -/
def Obligations.Queries : Prop :=
  ∀ (s : State), s.running →
    (∀ (d : Nat) (v : BitVec 32), s.adPresent d = true →
      (let q := v.toNat % 1024
       let t := s.setFe d { s.fe d with qquery := q }
       exec (.feQquery d v) s = .next t
        ∧ ((∀ x, s.queue? q = some x → x.die ≠ d) → t.liveView (.fe d) 0x20 = 2 ^ 59)
        ∧ ∀ x, s.queue? q = some x → x.die = d → t.liveView (.fe d) 0x20
            = x.state.code * 2 ^ 61 + b2n x.phase * 2 ^ 60 + x.cause * 2 ^ 56 + x.head % 2 ^ 16 * 2 ^ 32 + (s.queueOps q).length)
      ∧ (let r := s.rslot d (v.toNat % 256)
         let t := s.setFe d { s.fe d with rquery := v.toNat % 256 }
         exec (.feRecipeQuery d v) s = .next t
          ∧ t.liveView (.fe d) 0x40 = r.state * 2 ^ 62 + r.ctx * 2 ^ 50 + r.alive.length * 2 ^ 47
              + (r.live.map RVersion.runs).foldl (· + ·) 0 * 2 ^ 32 + r.current.getD 0)
      ∧ exec (.feHinv d v) s = .next (s.setFe d { s.fe d with
          handles := (s.fe d).handles.filter (fun h => h.1 != v.toNat % 4096) }))
    ∧ (∀ v : BitVec 32,
      let c := v.toNat % 4096
      let t := s.withWork { s.work with ctxQuery := c }
      exec (.rasCtxQuery v) s = .next t ∧ t.liveView .ras 0x10C = b2n (s.work.resetting.contains c) * 256 + s.gen c)
    ∧ (∀ v : BitVec 64,
      let t := s.withRas { s.ras with unitQuery := v }
      exec (.rasUnitQuery v) s = .next t
        ∧ ∃ p l, p ≤ 1 ∧ l < 2 ^ 48 ∧ t.liveView .ras 0x28 = s.pathState v * 2 ^ 62 + p * 2 ^ 61 + l
          ∧ (p = 1 ↔ ∃ c, s.ras.cmd = some c ∧ c.path = v))
    ∧ (∀ v : BitVec 32,
      let t := s.withRas { s.ras with proofQuery := v.toNat % 128 }
      exec (.rasProofQuery v) s = .next t
        ∧ t.liveView .ras 0x228 = (s.ras.lastPass.getD (fun _ => 0) (v.toNat % 128)).toNat)
    ∧ (∀ v : BitVec 32,
      let l := v.toNat % 32
      let t := s.withLinks { s.links with query := l }
      exec (.d2dQuery v) s = .next t
        ∧ (s.linkPresent l = false → t.liveView .d2d 0x10 = 0)
        ∧ (s.linkPresent l = true → ∃ k, t.liveView .d2d 0x10 = k * 2 ^ 32
            + s.links.retrains.getD (fun _ => 0) l * 2 ^ 16 + s.links.replays.getD (fun _ => 0) l))
    ∧ s.cxlFunction.classCode = 0x120000 ∧ s.cxlFunction.device = s.liveView .cxl 0 / 2 ^ 16
    ∧ s.hartIds = { mvendorid := 0, marchid := BitVec.ofNat 64 (s.liveView .hub 0x8)
                    mimpid := BitVec.ofNat 64 (s.liveView .hub 0x10) }

/-- Completions, failed completion writes and the interrupt hold-off (R480 to R487). -/
def Obligations.Completions : Prop :=
  (∀ (o : Op) (q c n : Nat), o.seq < 2 ^ 32 → o.status < 2 ^ 16 → q < 1024 →
    (o.entry q c n).length = 32 ∧ leAt (o.entry q c n) 0 4 = o.seq ∧ leAt (o.entry q c n) 4 2 = o.status
      ∧ leAt (o.entry q c n) 6 2 = q + (1 - c / 2 ^ n % 2) * 2 ^ 15)
  ∧ (∀ (s : State) (uid : Nat) (act : List (Nat × Nat)) (o : Op) (x : Queue), s.running → s.op? uid = some o → s.queue? o.queue = some x →
    let slot := x.cfg.cqBase + x.cqCount % 2 ^ x.cfg.cqLog * 32
    (∃ t : State, exec (.operationComplete uid act) s = .next t)
    ∧ (o.phase = .ended → s.feOpen o = true → exec (.operationComplete uid act) s = .next s)
    ∧ (o.phase = .held → s.turn x o.queue uid = true →
      (s.calm → s.feOpen o = false → s.target slot = some .tiered →
        (∀ d, (s.fe d).hang = none) → s.work.hangs = [] → s.work.resetting = [] →
        ∃ t y, exec (.operationComplete uid act) s = .next t ∧ t.op? uid = none ∧ t.queue? o.queue = some y
          ∧ y.cqCount = (if x.cfg.cqLog = 0 then x.cqCount else (x.cqCount + 1) % 2 ^ 32) ∧ x.heldCq = uid :: y.heldCq)
      ∧ (s.target slot = some .host → s.cxl.session = true → x.die = o.die →
        ∃ t o', exec (.operationComplete uid act) s = .next t ∧ t.op? uid = some o' ∧ o'.phase = .written
          ∧ ∃ w ∈ (t.fe o.die).writes, w.uid = some uid ∧ w.role = .entry ∧ w.pa = slot)))
  ∧ (∀ (s : State) (d : Nat) (w : FeWrite), s.running → (s.fe d).writes.find? (fun x => x.tag == w.tag) = some w →
    (s.fe d).oldest w = true → s.timedOut w.target w.sent = false →
    let r := if w.target = .mmio then s.writeMmioBytes w.bytes.length (localPart w.pa - mmioBase) w.bytes else s
    let u := r.feFree d w.tag
    let acked := fun (t : State) => (w.target = .host → s.cxl.session = true →
        exec (.globalObservation (1024 + d) w.tag) s = .next t.afterAll)
      ∧ (w.target ≠ .host → exec (.writeAck (1024 + d) w.tag (some .ack)) s = .next t.afterAll)
    (w.role ≠ .entry ∨ w.uid = none → acked u)
    ∧ (∀ k o, w.role = .entry → w.uid = some k → r.op? k = some o → o.phase = .written → acked (u.entryDone o)))
  ∧ (∀ (s : State) (uid : Nat) (cause : WriteFail) (o : Op) (x : Queue) (w : FeWrite), s.running → s.op? uid = some o →
    s.queue? o.queue = some x → x.cfg.cqLog ≠ 0 → o.phase = .written →
    (s.fe x.die).writes.find? (fun y => y.uid == some uid && y.role == .entry) = some w →
    cause.timedOut = s.timedOut w.target w.sent → (cause.timedOut = true ∨ s.cxl.link ≠ .retrain) →
    ∃ t y, exec (.completionWriteFail uid cause) s = .next t ∧ t.queue? o.queue = some y ∧ y.state = .completionFault
      ∧ y.left = (if x.state = .completionFault then x.left else x.state) ∧ y.heldCq = uid :: x.heldCq
      ∧ y.cqCount = x.cqCount)
  ∧ (∀ (s : State) (q u : Nat) (x : Queue), s.running → s.queue? q = some x → x.holdUntil = some u → s.reached u = true →
    (x.holdPend = false → exec (.intrHoldoffExpiry q) s = .next (s.setQueue q { x with holdUntil := none }))
    ∧ (x.holdPend = true → ∃ t r, exec (.intrHoldoffExpiry q) s = .next (t.queueIntr x)
        ∧ t = s.setQueue q { x with holdUntil := r, holdPend := false }
        ∧ r = (if s.regN (rFe x.die 0xD04) % 2 ^ 16 = 0 then none
            else some (s.strokeNow + s.regN (rFe x.die 0xD04) % 2 ^ 16))))

/-- Timeouts, hangs and the reset register (R475, R490 to R496). -/
def Obligations.TimeoutsAndHangs : Prop :=
  (∀ (s : State) (uid : Nat) (o : Op) (x : Queue), s.running → s.op? uid = some o → s.queue? o.queue = some x →
    x.cfg.timeout ≠ 0 → x.cfg.timeout ≤ o.age →
    (o.expired = true ∨ (o.replayed = true ∧ s.inReplay o.ctx = true) → exec (.queueTimeout uid) s = .next s)
    ∧ (s.timeable o = true → s.dueFirst s.timeoutLines (s.timeoutLine o x.cfg.timeout) = false →
        exec (.queueTimeout uid) s = .next s)
    ∧ (s.timeable o = true → s.dueFirst s.timeoutLines (s.timeoutLine o x.cfg.timeout) = true →
      (∃ t : State, exec (.queueTimeout uid) s = .next t)
      ∧ ∀ e, ((o.excOrTimeout = some e) ∨ (o.excOrTimeout = none ∧ s.raised uid = some e)
          ∨ (o.excOrTimeout = none ∧ s.raised uid = none ∧ e = 0x303)) →
        (o.phase = .waiting → ∃ t : State, exec (.queueTimeout uid) s = .next t
            ∧ t.op? uid = some { o with excOrTimeout := some e, expired := true, phase := .ended } ∧ t.withWork s.work = s)
        ∧ ((o.phase = .running ∧ o.opcode = 0x09) ∨ o.phase = .ended → ∃ t : State, exec (.queueTimeout uid) s = .next t
            ∧ t.op? uid = some { o with excOrTimeout := some e, expired := true } ∧ t.withWork s.work = s)))
  ∧ (∀ (s : State) (c t : Nat) (l : Launch) (o : Op), s.running → (s.core c).launch = some l → s.op? l.uid = some o →
    o.stopAt = some t → (s.core c).block = .draining → o.expired = true → s.reached (t + 64) = true →
    s.hangWaits c = false →
    (s.underHang c = false → exec (.coreStopTimeout c) s = .next (s.startHang c))
    ∧ (s.underHang c = true → exec (.coreStopTimeout c) s = .next (s.replayHung (c / 32) (s.runsOn c))))
  ∧ (∀ (s : State) (c : Nat), s.running → s.corePresent c = true → (s.core c).launch ≠ none →
    s.noProgLines (c / 32) ≤ (s.core c).still → (s.core c).onlyWaits = false → (s.core c).block ≠ .stopped →
    s.hangWaits c = false →
    (s.underHang c = false → exec (.hangDetect c) s = .next (s.startHang c))
    ∧ (s.underHang c = true → exec (.hangDetect c) s = .next (s.replayHung (c / 32) (s.runsOn c))))
  ∧ (∀ (s : State) (d ctx : Nat) (h : Hang) (o : Op) (x : Queue), s.running → (s.fe d).hang = some h →
    h.current = some ctx → o ∈ s.work.ops → o.ctx = ctx → (o.phase = .waiting ∨ o.phase = .running) →
    s.queue? o.queue = some x →
    (s.replayLines d ≤ h.lines ∨ x.cfg.timeout ≠ 0 ∧ x.cfg.timeout ≤ h.lines) →
    exec (.replayTimeout d) s = .next (s.replayHung d (s.overReplay d h ctx)))
  ∧ (∀ (s : State) (v : BitVec 32), s.running →
    (bitOf (s.regN (rRas 0x104)) 31 = true → exec (.contextReset v) s = .next (s.setRegBit (rRas 0x104) 30 true))
    ∧ (bitOf (s.regN (rRas 0x104)) 31 = false → ∃ t : State, exec (.contextReset v) s = .next t)
    ∧ (bitOf (s.regN (rRas 0x104)) 31 = false → v.toNat % 4096 ∉ s.work.resetting →
      (∀ d, (s.fe d).hang = none) → s.work.hangs = [] →
      ∃ t : State, exec (.contextReset v) s = .next t ∧ t.gen (v.toNat % 4096) = (s.gen (v.toNat % 4096) + 1) % 256
        ∧ t.work.reqCtx = some (v.toNat % 4096) ∧ ∀ k, k ≠ v.toNat % 4096 → t.gen k = s.gen k))

/-- Points, limiters and temperatures (R507 to R530). -/
def Obligations.PointsAndLimiters : Prop :=
  ∀ (s : State), s.running →
    (s.ruling.stroke = 14 → s.power.decided = false →
      ∃ t : State, exec .pointDecision s = .next t ∧ t.withPower s.power = s ∧ t.power.decided = true
        ∧ ∀ d, d < 4 → s.adPresent d = true →
          (t.diePwr d).point ≤ (s.diePwr d).point ∧ (t.diePwr d).nextPref = s.preference d
          ∧ ((s.diePwr d).hot = true → (t.diePwr d).tlimit = min (s.diePwr d).tlimit 15 - 1)
          ∧ (s.dieLimited d = true → (t.diePwr d).llimit = min (s.diePwr d).llimit 15 - 1)
          ∧ ∀ p, (t.diePwr d).settling = some p →
              (s.diePwr d).point < p ∧ (bitOf (s.regN (rPwr 0x10)) 31 = false → p ≤ 12))
    ∧ (∀ d p, (s.diePwr d).settling = some p → s.power.decided = false →
        exec (.voltageSettled d) s
          = .next (s.setDiePwr d { s.diePwr d with point := p, settling := none }).trimCheck)
    ∧ (∀ r a, r ≤ 16 → s.railLimit r < a → (railDies r = [] → exec (.railExcess ⟨r, a⟩) s = .next (s.railRecord r))
        ∧ (railDies r ≠ [] → s.power.limiter.get? r = none → ∃ t : State, exec (.railExcess ⟨r, a⟩) s = .next t
            ∧ t.power.limiter.get? r = some 2 ∧ (∀ q, q ≠ r → t.power.limiter.get? q = s.power.limiter.get? q)
            ∧ ∀ d ∈ railDies r, (t.diePwr d).acted = true))
    ∧ (∀ r k a, s.power.limiter.get? r = some k → ∃ t : State, exec (.limiterRatioStep r a) s = .next t
        ∧ (r = 17 → exec (.inputExcess a) s = .next t)
        ∧ (s.railLimit r < a → k < 6 → t.power.limiter.get? r = some (k + 1))
        ∧ (s.railLimit r < a → 6 ≤ k → t.power.limiter.get? r =
            some (if k = 6 ∧ r ≤ 16 ∧ ∀ d ∈ railDies r, (s.diePwr d).point = 0 then 7 else k))
        ∧ (a ≤ s.railLimit r → s.railLimit r * 95 ≤ a * 100 → t.power.limiter.get? r = some k)
        ∧ (a * 100 < s.railLimit r * 95 → t.power.limiter.get? r = if k ≤ 1 then none else some (min k 6 - 1))
        ∧ (∀ q, q ≠ r → t.power.limiter.get? q = s.power.limiter.get? q))
    ∧ (∀ a, s.power.limiter.get? 17 = none → s.power.ceilNow < a → ∃ t : State, exec (.inputExcess a) s = .next t
        ∧ t.power.limiter.get? 17 = some 2)
    ∧ (∀ l, (∀ e ∈ l, e.1 < 32 ∧ s.diePresent e.1 = true) → ∃ t : State, exec (.sensorRead l) s = .next t
        ∧ t.withPower s.power = s)
    ∧ (∀ d v, d < 32 → s.diePresent d = true → ∃ t : State, exec (.sensorRead [(d, v)]) s = .next t
        ∧ t.power.temps.getD (fun _ => 0) d = v ∧ (d < 6 → 105 ≤ v → (t.diePwr d).hot = true))

/-- Domains, the trip, and input power (R52, R241, R529, R535). -/
def Obligations.DomainsAndInput : Prop :=
  (∀ (s : State) (p : BitVec 64) (w : Bool), s.running →
    (bitOf (s.regN (rPwr 0x50C)) 31 = true →
      ∀ cmd ∈ [Instr.gate p w, .ungate p, .query p], exec cmd s = .next s)
    ∧ (bitOf (s.regN (rPwr 0x50C)) 31 = false →
      (s.domainOf p = none → ∀ cmd ∈ [Instr.gate p w, .ungate p, .query p], exec cmd s = .next (s.domainDone 2 false))
      ∧ ∀ u k, s.domainOf p = some (u, k) →
        exec (.query p) s = .next (s.domainDone 0 (s.isGated k))
        ∧ (∃ t : State, exec (.ungate p) s = .next t ∧ t.isGated k = false)
        ∧ (s.isGated k = true → exec (.gate p w) s = .next (s.domainDone 0 true))
        ∧ (s.isGated k = false → s.gateRefused u w = true → exec (.gate p w) s = .next (s.domainDone 1 false))
        ∧ (s.isGated k = false → s.gateRefused u w = false → s.gateReady u = true →
            ∃ t : State, exec (.gate p w) s = .next t ∧ t.isGated k = true ∧ t.regN (rPwr 0x50C) = 2 ^ 30 + 1)
        ∧ (s.isGated k = false → s.gateRefused u w = false → s.gateReady u = false →
            ∃ t : State, exec (.gate p w) s = .next t ∧ t.isGated k = false ∧ t.power.gating = [k]
              ∧ bitOf (t.regN (rPwr 0x50C)) 31 = true))
    ∧ ∀ u k, s.domainOf p = some (u, k) →
      (s.power.gating.contains k = true → s.gateReady u = true →
        ∃ t : State, exec (.gatingComplete p) s = .next t ∧ t.isGated k = true ∧ t.power.gating.contains k = false)
      ∧ (s.isGated k = true → s.wakeDue u = true →
        ∃ t : State, exec (.domainWake p) s = .next t ∧ t.isGated k = false))
  ∧ (∀ (s : State) (d : Nat), s.running → d < 32 → s.diePresent d = true →
    115 ≤ s.power.temps.getD (fun _ => 0) d →
    ∃ t w, exec (.thermalTrip d) s = .next t ∧ t.power.tripped = true ∧ t.boot.writer = some w ∧ w.region = 2)
  ∧ (∀ s : State,
    (s.power.input = true → ∃ t : State, exec .inputUndervoltage s = .next t ∧ t.power.input = false
      ∧ t.withPower { t.power with input := true } = s.moduleReset true ∧ t.boot.flash = s.boot.flash)
    ∧ (s.power.input = false → ∃ t : State, exec .inputPowerOn s = .next t ∧ t = s.moduleReset true
      ∧ t.power.input = true ∧ t.boot.flash = s.boot.flash))

/-- Proof runs (R541, R542). -/
def Obligations.ProofRuns : Prop :=
  (∀ (s : State) (v : BitVec 32), s.running →
    let a := v.toNat % 128
    let b := bitsOf v.toNat 14 8
    let bad : Bool := decide (64 ≤ s.ras.runs.length) || !s.corePresent a
      || (!bitOf v.toNat 15 && (a == b || !s.corePresent b))
    (bad = true → exec (.proofSubmit v) s = .next (s.setRegBit (rRas 0x214) 31 true))
    ∧ (bad = false → ∃ t r l m, exec (.proofSubmit v) s = .next t ∧ t.withRas s.ras = s
        ∧ s.ras.runs = l ++ m ∧ t.ras.runs = l ++ r :: m ∧ r.id = s.ras.nextRun ∧ r.seed = s.reg (rRas 0x200)
        ∧ r.whenAt = s.reg (rRas 0x208) ∧ r.a = a ∧ r.b = (if bitOf v.toNat 15 then none else some b)
        ∧ r.started = false ∧ (∀ x ∈ l, strokeOf x.whenAt ≤ strokeOf r.whenAt)
        ∧ ∀ x, m.head? = some x → strokeOf r.whenAt < strokeOf x.whenAt))
  ∧ (∀ (s : State) (i : Nat) (r : ProofRun), s.running → s.run? i = some r →
    (r.due = false → s.reached (strokeOf r.whenAt) = true → s.dueFirst s.eventLines (lineOf r.whenAt) = true →
      ∃ t : State, exec (.proofRunDue i) s = .next t ∧ t.withRas s.ras = s ∧ t.run? i = some { r with due := true })
    ∧ (r.due = true → r.started = false →
      (∀ c ∈ r.cores, s.corePresent c = true ∧ (s.core c).launch = none ∧ s.underHang c = false) →
      (s.reached (strokeOf r.whenAt + s.proofWait) = true → exec (.proofStart i) s = .next s)
      ∧ ((∃ x ∈ runsBefore i s.ras.runs, x.started = false) → exec (.proofStart i) s = .next s)
      ∧ ((∀ x ∈ s.ras.runs, x.id ≠ i → ∀ c ∈ r.cores, x.names c = false) → (∀ x ∈ runsBefore i s.ras.runs, x.started = true) →
        s.reached (strokeOf r.whenAt + s.proofWait) = false →
        ∃ t : State, exec (.proofStart i) s = .next t ∧ t.run? i = some { r with started := true }))
    ∧ (∀ d : ProofDigests, r.started = true → d.a.length = (s.enginesOf r.a).length →
      (∀ b, r.b = some b → d.b.length = (s.enginesOf b).length) →
      (∃ t : State, exec (.proofEnd i d) s = .next t ∧ t.run? i = none)
      ∧ (s.proofOutcome r d = .pass ↔ agree d.a = true
          ∧ (r.b ≠ none → agree d.b = true ∧ d.a.head? = d.b.head? ∧ d.aVec = d.bVec))
      ∧ (s.proofOutcome r d = .pass → ∃ t : State, exec (.proofEnd i d) s = .next t
          ∧ ∀ c ∈ r.cores, t.ras.lastPass.getD (fun _ => 0) c = s.now)
      ∧ (∀ c, s.proofOutcome r d = .core c ∨ (∃ e, s.proofOutcome r d = .engine c e)
            ∨ (s.proofOutcome r d = .diverge ∧ c ∈ r.cores) → s.coreState c = 0 →
          ∃ t : State, exec (.proofEnd i d) s = .next t ∧ t.coreState c = 1))
    ∧ (r.started = false →
      (s.reached (strokeOf r.whenAt + s.proofWait) = true ∨ ∃ c ∈ r.cores, s.corePresent c = false) →
      ∃ t : State, exec (.proofSkip i) s = .next t ∧ t.run? i = none
        ∧ t.regN (rRas 0x214) % 2 ^ 16 = min (s.regN (rRas 0x214) % 2 ^ 16 + 1) 65535))

/-- Unit commands, core reset and quarantine (R153, R545 to R558). -/
def Obligations.UnitCommands : Prop :=
  (∀ (s : State) (p : BitVec 64) (q : BitVec 8), s.running →
    (q.toNat = s.ras.lastSeq → ∀ cmd ∈ [Instr.suspect p q, .release p q, .quarantine p q, .coreReset p q],
      exec cmd s = .next s)
    ∧ (∀ cmd ∈ [Instr.suspect p q, .release p q, .quarantine p q, .coreReset p q], ∃ t : State, exec cmd s = .next t)
    ∧ (q.toNat ≠ s.ras.lastSeq →
      let u := s.withRas { s.ras with lastSeq := q.toNat }
      (s.ras.cmd ≠ none → ∀ cmd ∈ [Instr.suspect p q, .release p q, .quarantine p q, .coreReset p q],
        exec cmd s = .next (u.cmdDone q.toNat 2))
      ∧ (s.ras.cmd = none → s.unitOf p = none →
        ∀ cmd ∈ [Instr.suspect p q, .release p q, .quarantine p q, .coreReset p q],
          exec cmd s = .next (u.cmdDone q.toNat 3))
      ∧ ∀ c, s.ras.cmd = none → s.unitOf p = some (.core c) →
        (s.coreState c = 0 → ∃ t : State, exec (.suspect p q) s = .next t ∧ t.coreState c = 1)
        ∧ (s.coreState c = 1 → ∃ t : State, exec (.release p q) s = .next t ∧ t.coreState c = 0)
        ∧ (s.coreState c = 0 ∨ s.coreState c = 1 →
          (∃ t : State, exec (.coreReset p q) s = .next t ∧ t.ras.cmd = some { path := p, op := 4, seq := q.toNat })
          ∧ ∃ t : State, exec (.quarantine p q) s = .next t ∧ t.ras.cmd = some { path := p, op := 3, seq := q.toNat }
            ∧ t.coreState c = 1)))
  ∧ (∀ (s : State) (c : Nat) (m : UnitCmd), s.running → s.ras.cmd = some m → s.unitOf m.path = some (.core c) →
    (m.op = 4 → (s.core c).launch = none → (s.core c).reads = [] → (s.core c).writes = [] → s.drained c = true →
      ∃ t : State, exec (.coreResetExecute c) s = .next t ∧ t.ras.cmd = none ∧ (t.core c).s = [] ∧ (t.core c).t = []
        ∧ (t.core c).p = 0 ∧ (t.core c).rnd = 1 ∧ (t.core c).ibuf = [] ∧ ((s.core c).staged = [] → (t.core c).staged = []))
    ∧ (m.op = 3 → s.ruling.stroke = 0 → s.ras.waits = [] → s.coreState c < 2 → s.mayQuarantine (.core c) = true →
      ∃ t : State, exec .quarantineApply s = .next t ∧ t.ras.cmd = none ∧ t.coreState c = 2))

/-- Link faults, ports, flits and isolation (R572 to R583). -/
def Obligations.LinkEvents : Prop :=
  (∀ (s : State) (l m : Nat) (x : AdlMod), s.running → s.adlMod l m = some x → x.up = true →
    (x.retraining = false → (l < 14 ∨ 22 ≤ l) → ∀ again : Bool,
      let n := if again then x.streak + 1 else 1
      (n < s.replayLimit → ∃ t : State, exec (.adlFlitCrcFail l m again) s = .next t
        ∧ t.adlMod l m = some { x with streak := n }
        ∧ t.links.replays.getD (fun _ => 0) l = min (s.links.replays.getD (fun _ => 0) l + 1) 65535)
      ∧ (s.replayLimit ≤ n → x.tries < 3 → ∃ t : State, exec (.adlFlitCrcFail l m again) s = .next t
        ∧ t.adlMod l m = some { x with streak := 0, tries := x.tries + 1, retraining := true })
      ∧ (s.replayLimit ≤ n → 3 ≤ x.tries → ∃ t : State, exec (.adlFlitCrcFail l m again) s = .next t
        ∧ t.modWorks l m = false))
    ∧ (x.retraining = true →
      (∃ t : State, exec (.adlModuleRetrainDone l m .full) s = .next t ∧ t.adlMod l m = some { x with retraining := false })
      ∧ (∃ t : State, exec (.adlModuleRetrainDone l m .half) s = .next t
          ∧ t.adlMod l m = some { x with retraining := false, half := true })
      ∧ ∃ t : State, exec (.adlModuleRetrainDone l m .failed) s = .next t ∧ t.modWorks l m = false))
  ∧ (∀ (s : State) (k : Nat), s.running →
    (s.oePresent k = true → s.links.laserLow.getLsbD k = false → ∃ t : State, exec (.laserLow k) s = .next t
      ∧ ∀ j, t.links.laserLow.getLsbD j = (s.links.laserLow.getLsbD j || j == k))
    ∧ (s.links.laserLow.getLsbD k = true → ∃ t : State, exec (.laserRecover k) s = .next t
      ∧ ∀ j, t.links.laserLow.getLsbD j = (s.links.laserLow.getLsbD j && j != k)))
  ∧ (∀ (s : State) (p : Nat), s.running →
    (p < 32 → s.oePresent (p / 4) = true → (s.port p).up = false → (s.port p).dead = false →
      s.links.laserLow.getLsbD (p / 4) = false →
      (∃ t : State, exec (.rufenPortTrained p true) s = .next t ∧ t.port p = { s.port p with up := true, down := 0 })
      ∧ ∃ t : State, exec (.rufenPortTrained p false) s = .next t
          ∧ t.port p = { s.port p with fails := (s.port p).fails + 1, dead := decide (3 ≤ (s.port p).fails) })
    ∧ (s.portUp p = true → (s.port p).replay ≠ [] →
      ((∀ f ∈ (s.port p).replay, f.replays < 16) → ∃ t : State, exec (.rufenReplayTimeout p) s = .next t
        ∧ t.port p = { s.port p with replay := (s.port p).replay.map (fun f => { f with replays := f.replays + 1 }) })
      ∧ ((∃ f ∈ (s.port p).replay, 16 ≤ f.replays) → ∃ t : State, exec (.rufenReplayTimeout p) s = .next t
        ∧ (t.port p).up = false))
    ∧ (∀ (flit : List Byte) (sym : Nat) (ok : Bool), s.portUp p = true →
      (4 < sym ∨ ok = false ∨ flit.length ≠ 256 → ∃ t : State, exec (.rufenFlitReceive p flit sym ok) s = .next t
        ∧ t.port p = { s.port p with nak := true }
        ∧ t.regN (rOpt 0x28) = satInc 32 (s.regN (rOpt 0x28)) % 2 ^ 64)
      ∧ (sym ≤ 4 → ok = true → flit.length = 256 → ∃ t : State, exec (.rufenFlitReceive p flit sym ok) s = .next t
        ∧ (let d := (leAt flit 4 2 + 2 ^ 16 - (s.port p).rxSeq) % 2 ^ 16
           (t.port p).rxSeq = (if d = 1 then leAt flit 4 2 else (s.port p).rxSeq)
           ∧ (1 < d → d < 2 ^ 15 → (t.port p).nak = true)))))
  ∧ (∀ (s : State) (n : Nat), s.running → n < 128 → n ≠ s.node → s.pop.variant ≠ .nwa1640e →
    s.links.isolated.getLsbD n = false → s.mayIsolate n = true → ∃ t : State, exec (.nodeIsolate n) s = .next t
      ∧ ∀ k, t.links.isolated.getLsbD k = (s.links.isolated.getLsbD k || k == n))

/-- Remote requests, steps and fabric resets (R582 to R586). -/
def Obligations.FabricCommands : Prop :=
  (∀ (s : State) (r : RemoteReq), s.running → r.node < 128 → r.node ≠ s.node → nodePart r.pa = s.node →
    s.pop.variant ≠ .nwa1640e → 1 ≤ remoteSize r.op → localPart r.pa % 128 + remoteSize r.op ≤ 128 →
    (s.isolated r.node = true → exec (.remoteRequest r) s = .next (s.bump (rOpt 0x20)))
    ∧ (s.isolated r.node = false →
      (s.inTiered r.pa (remoteSize r.op) = true →
          (s.homeTakes (localPart r.pa / 128) = false → exec (.remoteRequest r) s = .next s)
          ∧ (s.homeTakes (localPart r.pa / 128) = true → exec (.remoteRequest r) s
            = .next ((s.withMem { s.mem with waitq := s.mem.waitq ++
              [{ line := localPart r.pa / 128, kind := remoteKind r.pa r.op, who := .remote r.node, e := r.e,
                 tag := r.tag, ctx := some r.ctx.toNat, held := s.inSwitch (localPart r.pa / 128) }] }).drainAll.afterAll)))
      ∧ (s.inTiered r.pa (remoteSize r.op) = false → s.windowOf r.pa = none →
          exec (.remoteRequest r) s = .next (s.respond r.node r.tag true [] 0))
      ∧ (∀ c o, s.inTiered r.pa (remoteSize r.op) = false → s.windowOf r.pa = some (c, o) →
          (∃ t : State, exec (.remoteRequest r) s = .next t)
          ∧ ∀ bs, r.op = .write bs → exec (.remoteRequest r) s
              = .next ((s.windowStore c o bs).respond r.node r.tag false [] 0))))
  ∧ (∀ (s : State) (v : BitVec 32), s.running →
    (bitOf v.toNat 31 = false → exec (.stepIssue v) s = .next s)
    ∧ (bitOf v.toNat 31 = true → s.pop.variant ≠ .nwa1640e →
      let line := s.regN (rOpt 0x40) % 2 ^ 48
      let d := (line + 2 ^ 48 - s.ruling.line % 2 ^ 48) % 2 ^ 48
      ((d < 2 ∨ 2 ^ 47 ≤ d) → exec (.stepIssue v) s = .next (s.setRegBit (rOpt 0x50) 31 true))
      ∧ (2 ≤ d → d < 2 ^ 47 → ∃ t : State, exec (.stepIssue v) s = .next t
        ∧ (s.gateAddr (v.toNat % 16) ≠ 0 → t.links.steps = s.links.steps
            ++ (if s.stepGroup.contains s.node then
              [{ gate := v.toNat % 16, line := line, value := s.regN (rOpt 0x48) }] else [])))))
  ∧ (∀ (s : State) (src : Nat) (g : BitVec 4) (n : BitVec 48) (v : BitVec 32), s.running → src < 128 → src ≠ s.node →
    s.pop.variant ≠ .nwa1640e → (∃ t : State, exec (.stepReceive src g n v) s = .next t)
    ∧ (s.ruling.state = .unruled → exec (.stepReceive src g n v) s = .next s)
    ∧ (s.ruling.state ≠ .unruled → s.isolated src = false → s.gateAddr g.toNat ≠ 0 →
      1 ≤ (n.toNat + 2 ^ 48 - s.ruling.line % 2 ^ 48) % 2 ^ 48 →
      (n.toNat + 2 ^ 48 - s.ruling.line % 2 ^ 48) % 2 ^ 48 < 2 ^ 47 →
      exec (.stepReceive src g n v) s = .next (s.withLinks { s.links with
        steps := s.links.steps ++ [{ gate := g.toNat, line := n.toNat, value := v.toNat }] })))
  ∧ (∀ (s : State) (g : BitVec 4) (x : Step), s.running →
    s.links.steps.find? (fun x => x.gate == g.toNat && s.dueFirst s.eventLines x.line) = some x →
    (∃ t : State, exec (.stepGateWrite g) s = .next t)
    ∧ (let a := s.gateAddr x.gate
       (a = 0 → exec (.stepGateWrite g) s = .next (s.withLinks { s.links with steps := s.links.steps.erase x }).gateDrop)
       ∧ (a ≠ 0 → a % 4 = 0 → s.inTiered a 4 = true → s.calm →
         ∃ u : State, exec (.stepGateWrite g) s = .next u.afterAll ∧ u.sysRead a 4 = toBytes 4 x.value
           ∧ (s.plainLines → ∀ b, localPart b < localPart a ∨ localPart a + 4 ≤ localPart b →
             u.sysByte b = s.sysByte b))))
  ∧ (∀ (s : State), s.running → s.pop.variant ≠ .nwa1640e → s.ruling.state ≠ .unruled → s.links.fresetAt = none →
    (∀ v : BitVec 32, bitOf v.toNat 31 = true → ∃ t : State, exec (.fresetIssue v) s = .next t
      ∧ t.links.freset.contains (s.regN (rOpt 0x100) % 2 ^ 48) = true)
    ∧ (∀ n : BitVec 48, ∃ t : State, exec (.fresetReceive n) s = .next t ∧ t.links.freset.contains n.toNat = true)
    ∧ (∀ n, s.links.freset.find? (s.dueFirst s.eventLines) = some n → ∃ t : State, exec .fresetAction s = .next t
      ∧ t.links.fresetAt = some n ∧ t.links.fabricGen = (s.links.fabricGen + 1) % 256
      ∧ (localPart (s.regN (rOpt 0x8)) < s.tieredEnd ∨ t.mem = { s.mem with txns := t.mem.txns, waitq := t.mem.waitq })
      ∧ (s.calm → s.plainLines → ∀ a, t.sysByte a = s.sysByte a)
      ∧ (∀ k, k < 128 → t.route k = (let a := s.regN (rOpt 0x8) + 8 * k
          if s.inTiered a 8 then t.sysNat a 8 else 0))
      ∧ (∀ r ∈ t.mem.waitq ++ t.mem.txns.map Txn.req, ∀ k, r.who = .remote k → 128 ≤ k)
      ∧ ∀ p, (t.port p).up = false ∧ (t.port p).replay = []))
  ∧ (∀ (s : State) (n : Nat) (reach : BitVec 128), s.running → s.links.fresetAt = some n →
    s.reached ((n + 64) % 2 ^ 48 * 16) = true → ∃ t : State, exec (.fresetEnd reach) s = .next t ∧ t.links.fresetAt = none
      ∧ ∀ k, k < 128 → t.links.isolated.getLsbD k
          = (k != s.node && !(reach.getLsbD k && bitOf (s.route k) 63)))

/-- The CXL link, sessions, the decoder and MSI-X (R590 to R614). -/
def Obligations.CxlLinkAndSession : Prop :=
  (∀ (s : State), s.running →
    (s.cxl.link = .up → exec .cxlRecoveryEnter s
        = .next (s.withCxl { s.cxl with link := .retrain, recovery := 0, retrainAt := s.strokeNow % 2 ^ 52 }))
    ∧ (s.cxl.link = .retrain → s.retrainLimit ≤ s.cxl.recovery → exec .cxlRetrainLimit s = .next (s.linkDown 1))
    ∧ exec (.cxlLinkDown .hostReset) s = .next (s.linkDown 0)
    ∧ (s.cxl.link = .up ∨ s.cxl.link = .retrain → exec (.cxlLinkDown .linkDown) s = .next (s.linkDown 0)
      ∧ (s.cxl.session = true → exec (.cxlLinkDown .protocolOff) s = .next (s.linkDown 0)))
    ∧ (s.cxl.session = false → ∃ t : State, exec (.cxlLinkDown .hostReset) s = .next t
      ∧ t.cxl = { s.cxl with link := if bitOf (s.regN (rCxl 0x8)) 31 then .training else .down
                             width := 0, rate := 0, recovery := 0, decoder := none, decoderErr := false }
      ∧ ∀ l ∈ s.mem.tracker.map Prod.fst, t.tracked l = none)
    ∧ (∀ w r, (w = 8 ∨ w = 4) → (r = 1 ∨ r = 2) →
      (s.cxl.link = .training ∨ s.cxl.link = .retrain ∨ s.cxl.link = .modeFail) →
      exec (.cxlLinkTrainingEnd true w r) s
        = .next ((if s.cxl.link = .retrain then s.retrained else s).withCxl
            { s.cxl with link := .up, width := w, rate := r, recovery := 0 }))
    ∧ (∀ w r, s.cxl.link = .training ∨ s.cxl.link = .modeFail →
      ∃ t : State, exec (.cxlLinkTrainingEnd false w r) s = .next t ∧ t.cxl.link = .modeFail)
    ∧ (s.cxl.link = .up → s.cxl.session = false → (s.cxl.lost = false ∨ s.cxl.decoder ≠ none) →
      ∃ t : State, exec .cxlSessionStart s = .next t ∧ t.cxl = { s.cxl with session := true, lost := false })
    ∧ (s.cxl.link = .up → ∀ base ways,
      (ways = 1 → exec (.hdmDecoderCommit base ways) s
        = .next (s.withCxl { s.cxl with decoder := some base, decoderErr := false }))
      ∧ (ways ≠ 1 → exec (.hdmDecoderCommit base ways) s = .next (s.withCxl { s.cxl with decoderErr := true }))))
  ∧ (∀ (s : State) (v : Nat), s.running → s.cxl.session = true → v < 2048 →
    let message : Output := { kind := .msix, bytes := []
                              args := [v, s.msixField v 1 * 2 ^ 32 + s.msixField v 0, s.msixField v 2] }
    let masked := bitOf (s.msixField v 3) 0
    (s.cxl.raised.contains v = true → masked = false → ∃ t : State, exec (.msixSend v) s = .next t ∧ t.out = message :: s.out
      ∧ t.cxl = { s.cxl with raised := s.cxl.raised.erase v })
    ∧ (s.cxl.raised.contains v = true → masked = true → ∃ t : State, exec (.msixSend v) s = .next t ∧ t.out = s.out
      ∧ t.cxl.raised = s.cxl.raised.erase v ∧ t.cxl.msixPend.contains v = true)
    ∧ (s.cxl.raised.contains v = false → s.cxl.msixPend.contains v = true → masked = false →
      ∃ t : State, exec (.msixSend v) s = .next t ∧ t.out = message :: s.out ∧ t.cxl.msixPend.contains v = false))

/-- CXL.mem requests and host snoops (R597 to R607). -/
def Obligations.HostMemory : Prop :=
  (∀ (s : State) (dpa pa : Nat) (bs : List (Nat × Byte)) (poison : Bool) (e : Ecc), s.running → s.cxl.session = true →
    s.hdmAddr dpa = some pa →
    let half := halfBytes dpa bs
    (s.inTiered (pa / 128 * 128) 128 = false →
      (∀ cmd ∈ [Instr.memrdShared dpa e, .memrdAny dpa e, .memrdInvalid dpa e], exec cmd s = .next (s.unbackedRead dpa))
      ∧ (∀ cmd ∈ [Instr.meminvAny dpa, .meminvInvalid dpa], exec cmd s = .next s)
      ∧ (∀ cmd ∈ [Instr.memwrOwner dpa bs ⟨poison, e⟩, .memwrNonOwner dpa bs ⟨poison, e⟩],
        exec cmd s = .next s.unbackedWrite))
    ∧ (s.inTiered (pa / 128 * 128) 128 = true →
      let line := localPart pa / 128
      (s.busy line = false →
        (∃ t : State, exec (.meminvInvalid dpa) s = .next t ∧ (t.dirOf line).owner ≠ some 22
          ∧ (t.dirOf line).sharers.getLsbD 22 = false)
        ∧ ((s.dirOf line).owner = some 22 →
          (∃ t : State, exec (.memwrOwner dpa bs ⟨poison, e⟩) s = .next t)
          ∧ (s.recordsOff → Tbl.rising s.mem.dirty = true →
            (half = [] → ∃ t : State, exec (.memwrOwner dpa bs ⟨false, []⟩) s = .next t ∧ (t.dirOf line).owner = some 22
              ∧ ∀ a, t.sysByte a = s.sysByte a)
            ∧ (∀ o b, half = [(o, b)] → ∃ t : State, exec (.memwrOwner dpa bs ⟨poison, []⟩) s = .next t
              ∧ t.sysByte (line * 128 + o) = b ∧ (t.dirOf line).owner = some 22
              ∧ ∀ a, localPart a ≠ line * 128 + o → t.sysByte a = s.sysByte a)
            ∧ ((∀ o, o < 64 → ∃ b, (dpa % 128 / 64 * 64 + o, b) ∈ bs) → ∃ t,
              exec (.memwrOwner dpa bs ⟨poison, []⟩) s = .next t ∧ t.dirOf line = { owner := none, sharers := 0 }))))
      ∧ (s.homeFree line → (s.dirOf line).owner = none → (s.dirOf line).sharers = 0 →
          (∀ x ∈ s.mem.dirty, x.1 / 128 ≠ line) →
          (∃ u : State, exec (.memrdShared dpa []) s = .next u.afterAll
            ∧ u.dirOf line = { owner := none, sharers := sharer 0 22 true } ∧ u.mem.bytes = s.mem.bytes)
          ∧ (∃ u : State, exec (.memrdAny dpa []) s = .next u.afterAll ∧ u.dirOf line = { owner := some 22, sharers := 0 }
            ∧ u.mem.bytes = s.mem.bytes)
          ∧ (∃ u : State, exec (.memrdInvalid dpa []) s = .next u.afterAll ∧ u.mem = s.mem
            ∧ u.out.head? = some { kind := .data, args := [22, pa / 64 * 64, s.poisonMask (pa / 64 * 64) 64]
                                   bytes := s.sysRead (pa / 64 * 64) 64 })
          ∧ (∃ u : State, exec (.meminvAny dpa) s = .next u.afterAll ∧ u.dirOf line = { owner := some 22, sharers := 0 }
            ∧ u.mem.bytes = s.mem.bytes)
          ∧ (∀ o b, half = [(o, b)] → ∃ u : State, exec (.memwrNonOwner dpa bs ⟨false, []⟩) s = .next u.afterAll
            ∧ u.rawByte (line * 128 + o) = b ∧ u.dirOf line = { owner := none, sharers := 0 }
            ∧ ∀ a, localPart a ≠ line * 128 + o → u.rawByte a = s.rawByte a))))
  ∧ (∀ (s : State) (hpa : Nat), s.running → s.cxl.session = true →
    ((s.hpaLine hpa = none ∨ ∃ l, s.hpaLine hpa = some l ∧ s.tracked l = none) →
      ∀ cmd ∈ [Instr.snpinv hpa, .snpdata hpa, .snpcur hpa], exec cmd s = .next (s.emitN .cxl [2, hpa]))
    ∧ ∀ l e, s.hpaLine hpa = some l → s.tracked l = some e →
      (∃ t : State, exec (.snpinv hpa) s = .next t ∧ t.tracked l = none ∧ ∀ x ∈ t.mem.dirty, x.1 / 128 ≠ l)
      ∧ (∃ t x, exec (.snpdata hpa) s = .next t ∧ t.tracked l = some x ∧ x.owner = none
          ∧ ∀ x ∈ t.mem.dirty, x.1 / 128 ≠ l)
      ∧ ∃ t : State, exec (.snpcur hpa) s = .next t ∧ t.mem = s.mem)

/-- Register writes and BAR accesses (R32, R41, R595, R596, R661 to R666). -/
def Obligations.RegisterWrites : Prop :=
  (∀ (s : State) (off size x y : Nat) (b : Block0) (r : RegRow) (st : Bool) (v : BitVec 64), s.running →
    off < 0x10000000 → blockAt off = some (b, x) → regAt b x = some (r, y, st) →
    (r.cls = .rws → ∃ t : State, exec (.stagedWrite off size v) s = .next t ∧ t.regs.live = s.regs.live ∧ t.mem = s.mem
      ∧ (∀ a, a ≠ b.base + y → t.regStaged a = s.regStaged a)
      ∧ (s.blockPresent b = true → accessOk r x size = true → t.regStaged (b.base + y) = BitVec.ofNat 64
          (mergeReg (s.regStaged (b.base + y)).toNat v.toNat (x % 0x8000 - y % 0x8000) size &&& r.wmask)))
    ∧ (s.blockPresent b = false ∨ accessOk r x size = false → exec (.registerWrite off size v) s = .next s)
    ∧ (s.blockPresent b = true → accessOk r x size = true →
      (r.cls = .ro ∨ r.cls = .rwl ∧ s.boot.phase = 2 → ∃ t : State, exec (.registerWrite off size v) s = .next t
        ∧ t.withPower s.power = s)
      ∧ (r.cls = .rw ∨ r.cls = .mixed →
        let old := s.regN (b.base + y)
        let at_ := x % 0x8000 - y % 0x8000
        let full := mergeReg old v.toNat at_ size
        (s.touchMmio off).regCommand b y full = none → ∃ t : State, exec (.registerWrite off size v) s = .next t
          ∧ t.reg (b.base + y) = BitVec.ofNat 64 (takeFields r old full (v.toNat % 2 ^ (8 * size) * 2 ^ (8 * at_)))
          ∧ (∀ a, a ≠ b.base + y → t.reg a = s.reg a) ∧ t.mem = s.mem)))
  ∧ (∀ (s : State) (off size : Nat) (v : BitVec 64), s.running → off < 0x10000000 →
    (∃ t : State, exec (.registerWrite off size v) s = .next t) ∧ (∃ t : State, exec (.stagedWrite off size v) s = .next t)
    ∧ (blockAt off = none → exec (.registerWrite off size v) s = .next s ∧ exec (.stagedWrite off size v) s = .next s)
    ∧ (s.cxl.link = .up → ∀ wr : Option (BitVec 64),
      (s.bar0Ok off size = false → exec (.bar0Access off size wr) s = .next (s.hostDone 0 off 2 []))
      ∧ (s.bar0Ok off size = true → (∃ t : State, exec (.bar0Access off size wr) s = .next t)
        ∧ (exec (.bar0Access off size (some v)) s = .next ((s.writeMmio off size v.toNat).hostDone 0 off 0 [])))))
  ∧ (∀ (s : State) (off n : Nat) (wr : Option (List Byte)), s.running → s.cxl.link = .up →
    (match wr with | some bs => n = bs.length | none => True) → 1 ≤ n → off + n ≤ 0x20000000 →
    (∃ t : State, exec (.bar2Access off n wr) s = .next t)
    ∧ (off % 128 + n ≤ 128 → s.corePresent (off / 0x400000) = false →
      exec (.bar2Access off n wr) s = .next (s.hostDone 2 off 2 []))
    ∧ (∀ bs, wr = some bs → off % 128 + n ≤ 128 → s.corePresent (off / 0x400000) = true →
      ∃ t : State, exec (.bar2Access off n wr) s = .next t ∧ t.scrRead (off / 0x400000) (off % 0x400000) n = bs
        ∧ t.out = { kind := .data, args := [22, 2, off, 0], bytes := [] } :: s.out))

/-- Resets, boot, records and tokens (R622 to R641, R670). -/
def Obligations.ResetsAndBoot : Prop :=
  (∀ (s : State),
    (s.power.input = false → exec (.moduleColdReset .power) s = .next (s.moduleReset true))
    ∧ (s.power.input = true → exec (.moduleColdReset .resetPin) s = .next (s.moduleReset true)
      ∧ ∀ us, (us < 10 → exec (.moduleWarmReset us) s = .next s)
        ∧ (10 ≤ us → exec (.moduleWarmReset us) s = .next (s.moduleReset (decide (10000 ≤ us) || s.power.tripped))))
    ∧ ∀ c : Bool, (s.moduleReset c).mem = State.reset.mem ∧ (s.moduleReset c).cores = []
      ∧ (s.moduleReset c).work = State.reset.work ∧ (s.moduleReset c).boot.flash = s.boot.flash
      ∧ (s.moduleReset c).boot.phase = 0
      ∧ (∀ o, o ∉ warmCounters.map Prod.fst → (s.moduleReset c).reg o = regReset s.pop.variant o)
      ∧ (c = false → (s.moduleReset c).boot.repairs = s.boot.repairs
          ∧ ∀ e ∈ warmCounters, (s.moduleReset c).regN e.1 = s.regN e.1 % 2 ^ e.2))
  ∧ (∀ (s : State) (e : BootEnv), s.power.input = true → s.boot.phase = 0 →
    (∃ t : State, exec (.resetRelease e) s = .next t)
    ∧ (s.validRecs 1 = [] → e.straps.getLsbD 1 = false → ∃ t : State, exec (.resetRelease e) s = .next t
      ∧ t.boot.phase = 3 ∧ t.boot.fail = 1 ∧ t.hatch.alert = true
      ∧ t.ruling.state = (if e.straps.getLsbD 0 then .unruled else .acquiring))
    ∧ (e.straps.getLsbD 1 = true → ∃ t : State, exec (.resetRelease e) s = .next t ∧ t.boot.phase = 3 ∧ t.boot.fw = none))
  ∧ (∀ (s : State), s.running →
    (s.boot.phase = 1 → s.ruling.stroke = 0 → s.ruling.line ≠ s.boot.readyAt → s.ruling.state ≠ .acquiring →
      exec .hartBootRelease s = .next (s.withBoot { s.boot with phase := 2 }))
    ∧ (∀ v : BitVec 32,
      (bitOf v.toNat 31 = false ∨ s.boot.writer ≠ none → exec (.recordWriteStart v) s = .next s)
      ∧ (bitOf v.toNat 31 = true → s.boot.writer = none →
        let region := v.toNat % 4
        let rec? := s.memRecord (s.regN (rHub 0x410)) (region < 2)
        let n := rec?.1
        (rec?.2 = none → exec (.recordWriteStart v) s = .next (n.recStat false true 1 n.lastBank))
        ∧ ∀ r, rec?.2 = some r →
          (∀ res, n.recCheck region r = some res →
            exec (.recordWriteStart v) s = .next (n.recStat false true res n.lastBank))
          ∧ (n.recCheck region r = none → ∃ t w, exec (.recordWriteStart v) s = .next t ∧ t.boot.writer = some w
            ∧ w.region = region ∧ w.image = r
            ∧ ∀ x, pickRec false (n.validRecs region) = some x → w.bank ≠ x.1
              ∧ t.bank region x.1 = n.bank region x.1)))
    ∧ (∀ w, s.boot.writer = some w →
      (∃ t : State, exec (.recordWriteDone true) s = .next t ∧ t.boot.writer = none ∧ t.bank w.region w.bank = w.image)
      ∧ (∃ t : State, exec (.recordWriteDone false) s = .next t ∧ t.boot.writer = none ∧ t.boot.flash = s.boot.flash))
    ∧ (∀ v : BitVec 64,
      let a := v.toNat % 2 ^ 56 / 64 * 64
      let n := s.homeRead a 3208
      (s.inTiered a 3208 = false → exec (.debugTokenSubmit v) s = .next (s.setRegBit (rHub 0x420) 30 true))
      ∧ (s.inTiered a 3208 = true → n.tokenOk (n.sysRead a 3208) = false →
        exec (.debugTokenSubmit v) s = .next (n.setRegBit (rHub 0x420) 30 true))
      ∧ (s.inTiered a 3208 = true → n.tokenOk (n.sysRead a 3208) = true → ∃ t : State, exec (.debugTokenSubmit v) s = .next t
        ∧ bitOf (t.regN (rHub 0x420)) 31 = true
        ∧ t.regN (rHub 0x420) % 8 = leAt (n.sysRead a 3208) 48 4 % 8)))

/-- Messages over the hatch bus (R633 to R658): an answer joins the messages that the module's chunks carry. The layout of
answers is the model's choice (assumption log 41). -/
def Obligations.HatchMessages : Prop :=
  ∀ (s : State), s.power.input = true → s.busOpen = true →
    let u := s.withHatch { s.hatch with rx := s.hatch.rx.drop 1 }
    let answers (t : State) : Prop := ∃ m, t.hatch.tx = s.hatch.tx ++ [m] ∧ m.sent = 0 ∧ m.spoilt = false
      ∧ t.withHatch { t.hatch with tx := s.hatch.tx } = u
    (∀ (b : List Byte) (n : Nat) (p : BitVec 64) (op : BitVec 3) (ps : List (BitVec 64)) (r : Nat) (im : FlashRec),
      (∀ cmd ∈ [Instr.mctpControl b, .pldmType0 b, .pldmType2 n, .pldmType5 r im, .getVersion b, .getCapabilities b,
          .negotiateAlgorithms b, .getDigests b, .getCertificate b, .challenge b, .getMeasurements n, .unitQuery p,
          .unitCmd p op, .serviceClear ps, .debugToken b, .scanSelect p],
        ∃ t : State, exec cmd s = .next t ∧ t.hatch.rx = s.hatch.rx.drop 1 ∧ t.mem = s.mem ∧ t.cores = s.cores)
      ∧ (∃ t : State, exec (.logRead n) s = .next t ∧ t.hatch.rx = s.hatch.rx.drop 1)
      ∧ (s.boot.phase = 3 → ∀ cmd ∈ [Instr.pldmType2 n, .unitQuery p, .unitCmd p op, .serviceClear ps, .debugToken b,
          .scanSelect p, .logRead n], exec cmd s = .next u)
      ∧ (s.boot.phase ≠ 3 →
        (∀ cmd ∈ [Instr.unitQuery p, .pldmType2 n], ∃ t : State, exec cmd s = .next t ∧ answers t)
        ∧ (s.logUsable = false ∨ s.power.tripped = true → ∃ t : State, exec (.logRead n) s = .next t ∧ answers t)
        ∧ (bitOf (s.regN (rHatch 0x0)) 31 = false → ∀ cmd ∈ [Instr.unitCmd p op, .serviceClear ps],
          ∃ t : State, exec cmd s = .next t ∧ answers t)
        ∧ (bitOf (s.regN (rHatch 0x0)) 31 = true →
          ((∀ q ∈ ps, s.unitOf q ≠ none) →
            ∃ t : State, exec (.serviceClear ps) s = .next t ∧ t.boot.clears = s.boot.clears ++ ps)
          ∧ ((∃ q ∈ ps, s.unitOf q = none) → ∃ t : State, exec (.serviceClear ps) s = .next t ∧ answers t)
          ∧ (s.power.tripped = false → s.hatch.asks = [] → s.ras.cmd = none → s.regs.commits.length < 8 →
            ∃ t : State, exec (.unitCmd p op) s = .next t ∧ t.regStaged (rRas 0x30) = p ∧ t.hatch.asks = [s.newSeq]
              ∧ t.regs.live = s.regs.live ∧ ∃ c ∈ t.regs.commits, bitOf c.mask 2 = true))
        ∧ (s.tokenOk b = false → ∃ t : State, exec (.debugToken b) s = .next t ∧ bitOf (t.regN (rHub 0x420)) 30 = true
          ∧ t.hatch.scanNext = s.hatch.scanNext)
        ∧ (s.tokenOk b = true → ∃ t : State, exec (.debugToken b) s = .next t ∧ bitOf (t.regN (rHub 0x420)) 31 = true
          ∧ t.hatch.scanNext = (s.hatch.scanNext || bitOf (leAt b 48 4) 1))
        ∧ ∃ t : State, exec (.scanSelect p) s = .next t
          ∧ t.hatch.chain = (if s.scanAllowed p = true then some p else s.hatch.chain))
      ∧ (s.recoveryOpen = false → ∃ t : State, exec (.pldmType5 3 im) s = .next t ∧ t.boot = s.boot)
      ∧ exec (.getVersion b) s = .next (u.mgmt [0x05, 0x04, 0x13] []))
    ∧ exec (.getMeasurements 0) s = .next (u.mgmt [0x05, 0x60, 6] [])
    ∧ (∀ i, (s.measurement i).length = 48 ∧ (1 ≤ i → i ≤ 6 →
        exec (.getMeasurements i) s = .next (u.mgmt [0x05, 0x60, 1, i] (s.measurement i))))
    ∧ (s.boot.hist = none → s.measurement 4 = toBytes 48 0)

/-- Chunks both ways, frames, scan packets and the hatch clock (R47, R649 to R658). -/
def Obligations.HatchBus : Prop :=
  ∀ (s : State), s.power.input = true →
    (∀ b : List Byte, s.busOpen = true → s.inStroke [4, 6, 8, 10, 12] = true → b.length < s.strokeCycles →
      (∃ t : State, exec (.managementChunk b) s = .next t)
      ∧ (chunkOk s.strokeCycles b = false → ∃ t : State, exec (.managementChunk b) s = .next t ∧ t.hatch.part = none
        ∧ t.hatch.rx = s.hatch.rx ∧ t.regN (rHatch 0x10) = satInc 32 (s.regN (rHatch 0x10)) % 2 ^ 64)
      ∧ (let len := leAt b 0 1 % 128
         let data := (b.drop 1).take len
         chunkOk s.strokeCycles b = true → bitOf (leAt b 0 1) 7 = true → 2 ≤ len → 2 + leAt data 0 2 = data.length →
         s.hatch.rx.length < 8 → ∃ t : State, exec (.managementChunk b) s = .next t
           ∧ t.hatch.rx = s.hatch.rx ++ [data.drop 2] ∧ t.hatch.part = none))
    ∧ (s.hatch.framing ≠ .none → s.inStroke [2] = true →
      (s.busOpen = true → ∃ t o, exec .moduleFrameSend s = .next t ∧ t.out = o :: s.out ∧ t.withOut s.out = s
        ∧ o.kind = .frame ∧ o.bytes.length = 14)
      ∧ (s.busOpen = false → exec .moduleFrameSend s = .next s))
    ∧ (∀ (n : Nat) (data : List Byte), s.busOpen = true → s.hatch.scan = true → s.inStroke [14] = true →
      exec (.scanInPacket n data false) s = .next (s.emitN .data [15, 0])
      ∧ (n ≤ 8 * (s.strokeCycles - 4) → s.hatch.chain ≠ none → ∃ t o, exec (.scanInPacket n data true) s = .next t
        ∧ t.out = o :: s.out ∧ o.args = [15, n] ∧ o.bytes.length = ceilDiv n 8))
    ∧ (∀ b : List Byte, s.hatch.framing ≠ .none →
      (s.ruling.ckLost = true ∨ s.hatch.usable = false → exec (.rackFrame b) s = .next s)
      ∧ (s.busOpen = true → b.length ≠ 14 ∨ rackValid b = false → exec (.rackFrame b) s = .next (s.bump (rHatch 0xC)))
      ∧ (s.busOpen = true → rackValid b = true → ∃ t : State, exec (.rackFrame b) s = .next t
        ∧ t.power.grant = some (bitOf (leAt b 0 1) 6) ∧ (t.power.rackCap.map Prod.fst) = some (leAt b 7 2)
        ∧ (s.hatch.framing ≠ .marks → t.ruling = s.ruling)))
    ∧ (s.ruling.ckLost = false → ∃ t : State, exec .hatchClockLoss s = .next t ∧ t.ruling.ckLost = true ∧ t.busOpen = false
      ∧ t.hatch.part = none ∧ t.power.grant = none
      ∧ t.hatch.tx = (s.hatch.tx.take 1).filterMap OutMsg.discard ++ s.hatch.tx.drop 1
      ∧ (s.power.decided = true → s.ruling.state ≠ .unruled → t.power.burstNext = false))
    ∧ (s.ruling.ckLost = true →
      exec .hatchClockReturn s = .next (s.withRuling { s.ruling with ckLost := false }))

/-- Marks, boundaries, pitch and commits (R18 to R48, R692). -/
def Obligations.RulingCommands : Prop :=
  ∀ (s : State), s.power.input = true →
    (∀ e : Nat,
      (∃ t : State, exec (.markEdge e) s = .next t)
      ∧ (s.ruling.state = .unruled → exec (.markEdge e) s = .next s)
      ∧ (s.ruling.state ≠ .unruled →
        (s.ruling.predicted = none →
          (∀ c, s.ruling.candidate = some c → 200 < apart e (c + s.pitch)) →
          exec (.markEdge e) s = .next (s.withRuling { s.ruling with candidate := some e }))
        ∧ (∀ c, s.ruling.predicted = none → s.ruling.candidate = some c → apart e (c + s.pitch) ≤ 200 →
          ∃ t : State, exec (.markEdge e) s = .next t ∧ t.ruling.predicted = some (e + (e - c)) ∧ t.ruling.marked = true)
        ∧ ∀ p, s.ruling.predicted = some p →
          (200 < apart e p → exec (.markEdge e) s = .next (s.bump rRuleBad))
          ∧ (apart e p ≤ 200 → s.ruling.missed < 4 → ∃ t : State, exec (.markEdge e) s = .next t ∧ t.ruling.marked = true
            ∧ t.ruling.missed = 0 ∧ (s.ruling.state = .flywheel → t.ruling.state = .locked))))
    ∧ (∀ m : LineMeas, (∃ t : State, exec (.lineBoundary m) s = .next t)
      ∧ (s.regs.commits = [] → s.ruling.state ≠ .slew →
        (s.ruling.marked = true → ∃ t : State, exec (.lineBoundary m) s = .next t
          ∧ t.ruling.line = (s.ruling.line + 1 + s.ruling.jump) % 2 ^ 48 ∧ t.ruling.stroke = 0 ∧ t.ruling.tick = 0)
        ∧ (s.ruling.marked = false → s.ruling.state = .locked → s.ruling.predicted ≠ none →
          ∃ t : State, exec (.lineBoundary m) s = .next t ∧ t.ruling.state = .flywheel)))
    ∧ (s.ruling.state = .acquiring → 65536 ≤ s.ruling.sinceStart → ∃ t : State, exec .bootPlateTimeout s = .next t
      ∧ t.ruling.state = .lost ∧ t.hatch.alert = true)
    ∧ (∀ v : BitVec 32,
      (s.boot.phase = 2 ∨ 4 < v.toNat % 8 → exec (.pitchWrite v) s = .next s)
      ∧ (s.boot.phase ≠ 2 → v.toNat % 8 ≤ 4 → v.toNat % 8 = s.regN rRuleCtl % 8 →
        exec (.pitchWrite v) s = .next (s.withRuling { s.ruling with sinceStart := 0 }))
      ∧ (s.boot.phase ≠ 2 → v.toNat % 8 ≤ 4 → v.toNat % 8 ≠ s.regN rRuleCtl % 8 →
        ∃ t : State, exec (.pitchWrite v) s = .next t ∧ t.regN rRuleCtl = v.toNat % 8
          ∧ (s.ruling.state ≠ .unruled → t.ruling.state = .acquiring ∧ t.ruling.line = 0)))
    ∧ (∀ v : BitVec 32,
      let eff := s.effective (v.toNat % 2 ^ 17)
      (v.toNat % 2 ^ 17 = 0 → exec (.commitArm v) s = .next s)
      ∧ (v.toNat % 2 ^ 17 ≠ 0 →
        (eff = 0 → exec (.commitArm v) s = .next (s.commitDone 0 false))
        ∧ (eff ≠ 0 →
          (8 ≤ s.regs.commits.length ∨ (∃ c ∈ s.regs.commits, c.mask &&& eff ≠ 0) →
            exec (.commitArm v) s = .next (s.setRegBit rCommitStat 29 true))
          ∧ (s.regs.commits.length < 8 → (∀ c ∈ s.regs.commits, c.mask &&& eff = 0) →
            let target := s.regN rCommitLine % 2 ^ 48
            let late := !bitOf v.toNat 31 && !s.onTime target
            ∃ t c, exec (.commitArm v) s = .next t ∧ t.regs.commits = s.regs.commits ++ [c] ∧ c.mask = eff
              ∧ c.late = late
              ∧ c.due = (if bitOf v.toNat 31 || late then s.earliestLine else target)))))

/-- Ruled time stays within its fields (R17, R20, R21). -/
def Obligations.RuledTimeStaysInFields : Prop :=
  ∀ s t : State, s.ruling.inFields = true → step s = .next t → t.ruling.inFields = true

/-- Memory keeps its canonical form. -/
def Obligations.MemoryStaysCanonical : Prop :=
  ∀ s t : State, s.mem.wf = true → step s = .next t → t.mem.wf = true
end

