-- ==== Sys2Proof/Laws/State.lean ====
section
/-! SUPPORT. Laws/State.lean: one lemma per field per update, so that no later
proof unfolds a record update. -/

namespace Sys2Proof.Machine

@[simp] theorem State.withPop_pop (s : State) (x : Pop) : (s.withPop x).pop = x := rfl
@[simp] theorem State.withPop_ruling (s : State) (x : Pop) : (s.withPop x).ruling = s.ruling := rfl
@[simp] theorem State.withPop_regs (s : State) (x : Pop) : (s.withPop x).regs = s.regs := rfl
@[simp] theorem State.withPop_cores (s : State) (x : Pop) : (s.withPop x).cores = s.cores := rfl
@[simp] theorem State.withPop_mem (s : State) (x : Pop) : (s.withPop x).mem = s.mem := rfl
@[simp] theorem State.withPop_ctls (s : State) (x : Pop) : (s.withPop x).ctls = s.ctls := rfl
@[simp] theorem State.withPop_peel (s : State) (x : Pop) : (s.withPop x).peel = s.peel := rfl
@[simp] theorem State.withPop_xlat (s : State) (x : Pop) : (s.withPop x).xlat = s.xlat := rfl
@[simp] theorem State.withPop_pds (s : State) (x : Pop) : (s.withPop x).pds = s.pds := rfl
@[simp] theorem State.withPop_work (s : State) (x : Pop) : (s.withPop x).work = s.work := rfl
@[simp] theorem State.withPop_ras (s : State) (x : Pop) : (s.withPop x).ras = s.ras := rfl
@[simp] theorem State.withPop_power (s : State) (x : Pop) : (s.withPop x).power = s.power := rfl
@[simp] theorem State.withPop_links (s : State) (x : Pop) : (s.withPop x).links = s.links := rfl
@[simp] theorem State.withPop_cxl (s : State) (x : Pop) : (s.withPop x).cxl = s.cxl := rfl
@[simp] theorem State.withPop_boot (s : State) (x : Pop) : (s.withPop x).boot = s.boot := rfl
@[simp] theorem State.withPop_hatch (s : State) (x : Pop) : (s.withPop x).hatch = s.hatch := rfl
@[simp] theorem State.withPop_out (s : State) (x : Pop) : (s.withPop x).out = s.out := rfl
@[simp] theorem State.withPop_fresh (s : State) (x : Pop) : (s.withPop x).fresh = s.fresh := rfl
@[simp] theorem State.withPop_pending (s : State) (x : Pop) : (s.withPop x).pending = s.pending := rfl

@[simp] theorem State.withRuling_pop (s : State) (x : Ruling) : (s.withRuling x).pop = s.pop := rfl
@[simp] theorem State.withRuling_ruling (s : State) (x : Ruling) : (s.withRuling x).ruling = x := rfl
@[simp] theorem State.withRuling_regs (s : State) (x : Ruling) : (s.withRuling x).regs = s.regs := rfl
@[simp] theorem State.withRuling_cores (s : State) (x : Ruling) : (s.withRuling x).cores = s.cores := rfl
@[simp] theorem State.withRuling_mem (s : State) (x : Ruling) : (s.withRuling x).mem = s.mem := rfl
@[simp] theorem State.withRuling_ctls (s : State) (x : Ruling) : (s.withRuling x).ctls = s.ctls := rfl
@[simp] theorem State.withRuling_peel (s : State) (x : Ruling) : (s.withRuling x).peel = s.peel := rfl
@[simp] theorem State.withRuling_xlat (s : State) (x : Ruling) : (s.withRuling x).xlat = s.xlat := rfl
@[simp] theorem State.withRuling_pds (s : State) (x : Ruling) : (s.withRuling x).pds = s.pds := rfl
@[simp] theorem State.withRuling_work (s : State) (x : Ruling) : (s.withRuling x).work = s.work := rfl
@[simp] theorem State.withRuling_ras (s : State) (x : Ruling) : (s.withRuling x).ras = s.ras := rfl
@[simp] theorem State.withRuling_power (s : State) (x : Ruling) : (s.withRuling x).power = s.power := rfl
@[simp] theorem State.withRuling_links (s : State) (x : Ruling) : (s.withRuling x).links = s.links := rfl
@[simp] theorem State.withRuling_cxl (s : State) (x : Ruling) : (s.withRuling x).cxl = s.cxl := rfl
@[simp] theorem State.withRuling_boot (s : State) (x : Ruling) : (s.withRuling x).boot = s.boot := rfl
@[simp] theorem State.withRuling_hatch (s : State) (x : Ruling) : (s.withRuling x).hatch = s.hatch := rfl
@[simp] theorem State.withRuling_out (s : State) (x : Ruling) : (s.withRuling x).out = s.out := rfl
@[simp] theorem State.withRuling_fresh (s : State) (x : Ruling) : (s.withRuling x).fresh = s.fresh := rfl
@[simp] theorem State.withRuling_pending (s : State) (x : Ruling) : (s.withRuling x).pending = s.pending := rfl

@[simp] theorem State.withRegs_pop (s : State) (x : Regs) : (s.withRegs x).pop = s.pop := rfl
@[simp] theorem State.withRegs_ruling (s : State) (x : Regs) : (s.withRegs x).ruling = s.ruling := rfl
@[simp] theorem State.withRegs_regs (s : State) (x : Regs) : (s.withRegs x).regs = x := rfl
@[simp] theorem State.withRegs_cores (s : State) (x : Regs) : (s.withRegs x).cores = s.cores := rfl
@[simp] theorem State.withRegs_mem (s : State) (x : Regs) : (s.withRegs x).mem = s.mem := rfl
@[simp] theorem State.withRegs_ctls (s : State) (x : Regs) : (s.withRegs x).ctls = s.ctls := rfl
@[simp] theorem State.withRegs_peel (s : State) (x : Regs) : (s.withRegs x).peel = s.peel := rfl
@[simp] theorem State.withRegs_xlat (s : State) (x : Regs) : (s.withRegs x).xlat = s.xlat := rfl
@[simp] theorem State.withRegs_pds (s : State) (x : Regs) : (s.withRegs x).pds = s.pds := rfl
@[simp] theorem State.withRegs_work (s : State) (x : Regs) : (s.withRegs x).work = s.work := rfl
@[simp] theorem State.withRegs_ras (s : State) (x : Regs) : (s.withRegs x).ras = s.ras := rfl
@[simp] theorem State.withRegs_power (s : State) (x : Regs) : (s.withRegs x).power = s.power := rfl
@[simp] theorem State.withRegs_links (s : State) (x : Regs) : (s.withRegs x).links = s.links := rfl
@[simp] theorem State.withRegs_cxl (s : State) (x : Regs) : (s.withRegs x).cxl = s.cxl := rfl
@[simp] theorem State.withRegs_boot (s : State) (x : Regs) : (s.withRegs x).boot = s.boot := rfl
@[simp] theorem State.withRegs_hatch (s : State) (x : Regs) : (s.withRegs x).hatch = s.hatch := rfl
@[simp] theorem State.withRegs_out (s : State) (x : Regs) : (s.withRegs x).out = s.out := rfl
@[simp] theorem State.withRegs_fresh (s : State) (x : Regs) : (s.withRegs x).fresh = s.fresh := rfl
@[simp] theorem State.withRegs_pending (s : State) (x : Regs) : (s.withRegs x).pending = s.pending := rfl

@[simp] theorem State.withCores_pop (s : State) (x : Tbl Core) : (s.withCores x).pop = s.pop := rfl
@[simp] theorem State.withCores_ruling (s : State) (x : Tbl Core) : (s.withCores x).ruling = s.ruling := rfl
@[simp] theorem State.withCores_regs (s : State) (x : Tbl Core) : (s.withCores x).regs = s.regs := rfl
@[simp] theorem State.withCores_cores (s : State) (x : Tbl Core) : (s.withCores x).cores = x := rfl
@[simp] theorem State.withCores_mem (s : State) (x : Tbl Core) : (s.withCores x).mem = s.mem := rfl
@[simp] theorem State.withCores_ctls (s : State) (x : Tbl Core) : (s.withCores x).ctls = s.ctls := rfl
@[simp] theorem State.withCores_peel (s : State) (x : Tbl Core) : (s.withCores x).peel = s.peel := rfl
@[simp] theorem State.withCores_xlat (s : State) (x : Tbl Core) : (s.withCores x).xlat = s.xlat := rfl
@[simp] theorem State.withCores_pds (s : State) (x : Tbl Core) : (s.withCores x).pds = s.pds := rfl
@[simp] theorem State.withCores_work (s : State) (x : Tbl Core) : (s.withCores x).work = s.work := rfl
@[simp] theorem State.withCores_ras (s : State) (x : Tbl Core) : (s.withCores x).ras = s.ras := rfl
@[simp] theorem State.withCores_power (s : State) (x : Tbl Core) : (s.withCores x).power = s.power := rfl
@[simp] theorem State.withCores_links (s : State) (x : Tbl Core) : (s.withCores x).links = s.links := rfl
@[simp] theorem State.withCores_cxl (s : State) (x : Tbl Core) : (s.withCores x).cxl = s.cxl := rfl
@[simp] theorem State.withCores_boot (s : State) (x : Tbl Core) : (s.withCores x).boot = s.boot := rfl
@[simp] theorem State.withCores_hatch (s : State) (x : Tbl Core) : (s.withCores x).hatch = s.hatch := rfl
@[simp] theorem State.withCores_out (s : State) (x : Tbl Core) : (s.withCores x).out = s.out := rfl
@[simp] theorem State.withCores_fresh (s : State) (x : Tbl Core) : (s.withCores x).fresh = s.fresh := rfl
@[simp] theorem State.withCores_pending (s : State) (x : Tbl Core) : (s.withCores x).pending = s.pending := rfl

@[simp] theorem State.withMem_pop (s : State) (x : Mem) : (s.withMem x).pop = s.pop := rfl
@[simp] theorem State.withMem_ruling (s : State) (x : Mem) : (s.withMem x).ruling = s.ruling := rfl
@[simp] theorem State.withMem_regs (s : State) (x : Mem) : (s.withMem x).regs = s.regs := rfl
@[simp] theorem State.withMem_cores (s : State) (x : Mem) : (s.withMem x).cores = s.cores := rfl
@[simp] theorem State.withMem_mem (s : State) (x : Mem) : (s.withMem x).mem = x := rfl
@[simp] theorem State.withMem_ctls (s : State) (x : Mem) : (s.withMem x).ctls = s.ctls := rfl
@[simp] theorem State.withMem_peel (s : State) (x : Mem) : (s.withMem x).peel = s.peel := rfl
@[simp] theorem State.withMem_xlat (s : State) (x : Mem) : (s.withMem x).xlat = s.xlat := rfl
@[simp] theorem State.withMem_pds (s : State) (x : Mem) : (s.withMem x).pds = s.pds := rfl
@[simp] theorem State.withMem_work (s : State) (x : Mem) : (s.withMem x).work = s.work := rfl
@[simp] theorem State.withMem_ras (s : State) (x : Mem) : (s.withMem x).ras = s.ras := rfl
@[simp] theorem State.withMem_power (s : State) (x : Mem) : (s.withMem x).power = s.power := rfl
@[simp] theorem State.withMem_links (s : State) (x : Mem) : (s.withMem x).links = s.links := rfl
@[simp] theorem State.withMem_cxl (s : State) (x : Mem) : (s.withMem x).cxl = s.cxl := rfl
@[simp] theorem State.withMem_boot (s : State) (x : Mem) : (s.withMem x).boot = s.boot := rfl
@[simp] theorem State.withMem_hatch (s : State) (x : Mem) : (s.withMem x).hatch = s.hatch := rfl
@[simp] theorem State.withMem_out (s : State) (x : Mem) : (s.withMem x).out = s.out := rfl
@[simp] theorem State.withMem_fresh (s : State) (x : Mem) : (s.withMem x).fresh = s.fresh := rfl
@[simp] theorem State.withMem_pending (s : State) (x : Mem) : (s.withMem x).pending = s.pending := rfl

@[simp] theorem State.withCtls_pop (s : State) (x : Tbl MemCtl) : (s.withCtls x).pop = s.pop := rfl
@[simp] theorem State.withCtls_ruling (s : State) (x : Tbl MemCtl) : (s.withCtls x).ruling = s.ruling := rfl
@[simp] theorem State.withCtls_regs (s : State) (x : Tbl MemCtl) : (s.withCtls x).regs = s.regs := rfl
@[simp] theorem State.withCtls_cores (s : State) (x : Tbl MemCtl) : (s.withCtls x).cores = s.cores := rfl
@[simp] theorem State.withCtls_mem (s : State) (x : Tbl MemCtl) : (s.withCtls x).mem = s.mem := rfl
@[simp] theorem State.withCtls_ctls (s : State) (x : Tbl MemCtl) : (s.withCtls x).ctls = x := rfl
@[simp] theorem State.withCtls_peel (s : State) (x : Tbl MemCtl) : (s.withCtls x).peel = s.peel := rfl
@[simp] theorem State.withCtls_xlat (s : State) (x : Tbl MemCtl) : (s.withCtls x).xlat = s.xlat := rfl
@[simp] theorem State.withCtls_pds (s : State) (x : Tbl MemCtl) : (s.withCtls x).pds = s.pds := rfl
@[simp] theorem State.withCtls_work (s : State) (x : Tbl MemCtl) : (s.withCtls x).work = s.work := rfl
@[simp] theorem State.withCtls_ras (s : State) (x : Tbl MemCtl) : (s.withCtls x).ras = s.ras := rfl
@[simp] theorem State.withCtls_power (s : State) (x : Tbl MemCtl) : (s.withCtls x).power = s.power := rfl
@[simp] theorem State.withCtls_links (s : State) (x : Tbl MemCtl) : (s.withCtls x).links = s.links := rfl
@[simp] theorem State.withCtls_cxl (s : State) (x : Tbl MemCtl) : (s.withCtls x).cxl = s.cxl := rfl
@[simp] theorem State.withCtls_boot (s : State) (x : Tbl MemCtl) : (s.withCtls x).boot = s.boot := rfl
@[simp] theorem State.withCtls_hatch (s : State) (x : Tbl MemCtl) : (s.withCtls x).hatch = s.hatch := rfl
@[simp] theorem State.withCtls_out (s : State) (x : Tbl MemCtl) : (s.withCtls x).out = s.out := rfl
@[simp] theorem State.withCtls_fresh (s : State) (x : Tbl MemCtl) : (s.withCtls x).fresh = s.fresh := rfl
@[simp] theorem State.withCtls_pending (s : State) (x : Tbl MemCtl) : (s.withCtls x).pending = s.pending := rfl

@[simp] theorem State.withPeel_pop (s : State) (x : Peel) : (s.withPeel x).pop = s.pop := rfl
@[simp] theorem State.withPeel_ruling (s : State) (x : Peel) : (s.withPeel x).ruling = s.ruling := rfl
@[simp] theorem State.withPeel_regs (s : State) (x : Peel) : (s.withPeel x).regs = s.regs := rfl
@[simp] theorem State.withPeel_cores (s : State) (x : Peel) : (s.withPeel x).cores = s.cores := rfl
@[simp] theorem State.withPeel_mem (s : State) (x : Peel) : (s.withPeel x).mem = s.mem := rfl
@[simp] theorem State.withPeel_ctls (s : State) (x : Peel) : (s.withPeel x).ctls = s.ctls := rfl
@[simp] theorem State.withPeel_peel (s : State) (x : Peel) : (s.withPeel x).peel = x := rfl
@[simp] theorem State.withPeel_xlat (s : State) (x : Peel) : (s.withPeel x).xlat = s.xlat := rfl
@[simp] theorem State.withPeel_pds (s : State) (x : Peel) : (s.withPeel x).pds = s.pds := rfl
@[simp] theorem State.withPeel_work (s : State) (x : Peel) : (s.withPeel x).work = s.work := rfl
@[simp] theorem State.withPeel_ras (s : State) (x : Peel) : (s.withPeel x).ras = s.ras := rfl
@[simp] theorem State.withPeel_power (s : State) (x : Peel) : (s.withPeel x).power = s.power := rfl
@[simp] theorem State.withPeel_links (s : State) (x : Peel) : (s.withPeel x).links = s.links := rfl
@[simp] theorem State.withPeel_cxl (s : State) (x : Peel) : (s.withPeel x).cxl = s.cxl := rfl
@[simp] theorem State.withPeel_boot (s : State) (x : Peel) : (s.withPeel x).boot = s.boot := rfl
@[simp] theorem State.withPeel_hatch (s : State) (x : Peel) : (s.withPeel x).hatch = s.hatch := rfl
@[simp] theorem State.withPeel_out (s : State) (x : Peel) : (s.withPeel x).out = s.out := rfl
@[simp] theorem State.withPeel_fresh (s : State) (x : Peel) : (s.withPeel x).fresh = s.fresh := rfl
@[simp] theorem State.withPeel_pending (s : State) (x : Peel) : (s.withPeel x).pending = s.pending := rfl

@[simp] theorem State.withXlat_pop (s : State) (x : Xlat) : (s.withXlat x).pop = s.pop := rfl
@[simp] theorem State.withXlat_ruling (s : State) (x : Xlat) : (s.withXlat x).ruling = s.ruling := rfl
@[simp] theorem State.withXlat_regs (s : State) (x : Xlat) : (s.withXlat x).regs = s.regs := rfl
@[simp] theorem State.withXlat_cores (s : State) (x : Xlat) : (s.withXlat x).cores = s.cores := rfl
@[simp] theorem State.withXlat_mem (s : State) (x : Xlat) : (s.withXlat x).mem = s.mem := rfl
@[simp] theorem State.withXlat_ctls (s : State) (x : Xlat) : (s.withXlat x).ctls = s.ctls := rfl
@[simp] theorem State.withXlat_peel (s : State) (x : Xlat) : (s.withXlat x).peel = s.peel := rfl
@[simp] theorem State.withXlat_xlat (s : State) (x : Xlat) : (s.withXlat x).xlat = x := rfl
@[simp] theorem State.withXlat_pds (s : State) (x : Xlat) : (s.withXlat x).pds = s.pds := rfl
@[simp] theorem State.withXlat_work (s : State) (x : Xlat) : (s.withXlat x).work = s.work := rfl
@[simp] theorem State.withXlat_ras (s : State) (x : Xlat) : (s.withXlat x).ras = s.ras := rfl
@[simp] theorem State.withXlat_power (s : State) (x : Xlat) : (s.withXlat x).power = s.power := rfl
@[simp] theorem State.withXlat_links (s : State) (x : Xlat) : (s.withXlat x).links = s.links := rfl
@[simp] theorem State.withXlat_cxl (s : State) (x : Xlat) : (s.withXlat x).cxl = s.cxl := rfl
@[simp] theorem State.withXlat_boot (s : State) (x : Xlat) : (s.withXlat x).boot = s.boot := rfl
@[simp] theorem State.withXlat_hatch (s : State) (x : Xlat) : (s.withXlat x).hatch = s.hatch := rfl
@[simp] theorem State.withXlat_out (s : State) (x : Xlat) : (s.withXlat x).out = s.out := rfl
@[simp] theorem State.withXlat_fresh (s : State) (x : Xlat) : (s.withXlat x).fresh = s.fresh := rfl
@[simp] theorem State.withXlat_pending (s : State) (x : Xlat) : (s.withXlat x).pending = s.pending := rfl

@[simp] theorem State.withPds_pop (s : State) (x : Pds) : (s.withPds x).pop = s.pop := rfl
@[simp] theorem State.withPds_ruling (s : State) (x : Pds) : (s.withPds x).ruling = s.ruling := rfl
@[simp] theorem State.withPds_regs (s : State) (x : Pds) : (s.withPds x).regs = s.regs := rfl
@[simp] theorem State.withPds_cores (s : State) (x : Pds) : (s.withPds x).cores = s.cores := rfl
@[simp] theorem State.withPds_mem (s : State) (x : Pds) : (s.withPds x).mem = s.mem := rfl
@[simp] theorem State.withPds_ctls (s : State) (x : Pds) : (s.withPds x).ctls = s.ctls := rfl
@[simp] theorem State.withPds_peel (s : State) (x : Pds) : (s.withPds x).peel = s.peel := rfl
@[simp] theorem State.withPds_xlat (s : State) (x : Pds) : (s.withPds x).xlat = s.xlat := rfl
@[simp] theorem State.withPds_pds (s : State) (x : Pds) : (s.withPds x).pds = x := rfl
@[simp] theorem State.withPds_work (s : State) (x : Pds) : (s.withPds x).work = s.work := rfl
@[simp] theorem State.withPds_ras (s : State) (x : Pds) : (s.withPds x).ras = s.ras := rfl
@[simp] theorem State.withPds_power (s : State) (x : Pds) : (s.withPds x).power = s.power := rfl
@[simp] theorem State.withPds_links (s : State) (x : Pds) : (s.withPds x).links = s.links := rfl
@[simp] theorem State.withPds_cxl (s : State) (x : Pds) : (s.withPds x).cxl = s.cxl := rfl
@[simp] theorem State.withPds_boot (s : State) (x : Pds) : (s.withPds x).boot = s.boot := rfl
@[simp] theorem State.withPds_hatch (s : State) (x : Pds) : (s.withPds x).hatch = s.hatch := rfl
@[simp] theorem State.withPds_out (s : State) (x : Pds) : (s.withPds x).out = s.out := rfl
@[simp] theorem State.withPds_fresh (s : State) (x : Pds) : (s.withPds x).fresh = s.fresh := rfl
@[simp] theorem State.withPds_pending (s : State) (x : Pds) : (s.withPds x).pending = s.pending := rfl

@[simp] theorem State.withWork_pop (s : State) (x : Work) : (s.withWork x).pop = s.pop := rfl
@[simp] theorem State.withWork_ruling (s : State) (x : Work) : (s.withWork x).ruling = s.ruling := rfl
@[simp] theorem State.withWork_regs (s : State) (x : Work) : (s.withWork x).regs = s.regs := rfl
@[simp] theorem State.withWork_cores (s : State) (x : Work) : (s.withWork x).cores = s.cores := rfl
@[simp] theorem State.withWork_mem (s : State) (x : Work) : (s.withWork x).mem = s.mem := rfl
@[simp] theorem State.withWork_ctls (s : State) (x : Work) : (s.withWork x).ctls = s.ctls := rfl
@[simp] theorem State.withWork_peel (s : State) (x : Work) : (s.withWork x).peel = s.peel := rfl
@[simp] theorem State.withWork_xlat (s : State) (x : Work) : (s.withWork x).xlat = s.xlat := rfl
@[simp] theorem State.withWork_pds (s : State) (x : Work) : (s.withWork x).pds = s.pds := rfl
@[simp] theorem State.withWork_work (s : State) (x : Work) : (s.withWork x).work = x := rfl
@[simp] theorem State.withWork_ras (s : State) (x : Work) : (s.withWork x).ras = s.ras := rfl
@[simp] theorem State.withWork_power (s : State) (x : Work) : (s.withWork x).power = s.power := rfl
@[simp] theorem State.withWork_links (s : State) (x : Work) : (s.withWork x).links = s.links := rfl
@[simp] theorem State.withWork_cxl (s : State) (x : Work) : (s.withWork x).cxl = s.cxl := rfl
@[simp] theorem State.withWork_boot (s : State) (x : Work) : (s.withWork x).boot = s.boot := rfl
@[simp] theorem State.withWork_hatch (s : State) (x : Work) : (s.withWork x).hatch = s.hatch := rfl
@[simp] theorem State.withWork_out (s : State) (x : Work) : (s.withWork x).out = s.out := rfl
@[simp] theorem State.withWork_fresh (s : State) (x : Work) : (s.withWork x).fresh = s.fresh := rfl
@[simp] theorem State.withWork_pending (s : State) (x : Work) : (s.withWork x).pending = s.pending := rfl

@[simp] theorem State.withRas_pop (s : State) (x : Ras) : (s.withRas x).pop = s.pop := rfl
@[simp] theorem State.withRas_ruling (s : State) (x : Ras) : (s.withRas x).ruling = s.ruling := rfl
@[simp] theorem State.withRas_regs (s : State) (x : Ras) : (s.withRas x).regs = s.regs := rfl
@[simp] theorem State.withRas_cores (s : State) (x : Ras) : (s.withRas x).cores = s.cores := rfl
@[simp] theorem State.withRas_mem (s : State) (x : Ras) : (s.withRas x).mem = s.mem := rfl
@[simp] theorem State.withRas_ctls (s : State) (x : Ras) : (s.withRas x).ctls = s.ctls := rfl
@[simp] theorem State.withRas_peel (s : State) (x : Ras) : (s.withRas x).peel = s.peel := rfl
@[simp] theorem State.withRas_xlat (s : State) (x : Ras) : (s.withRas x).xlat = s.xlat := rfl
@[simp] theorem State.withRas_pds (s : State) (x : Ras) : (s.withRas x).pds = s.pds := rfl
@[simp] theorem State.withRas_work (s : State) (x : Ras) : (s.withRas x).work = s.work := rfl
@[simp] theorem State.withRas_ras (s : State) (x : Ras) : (s.withRas x).ras = x := rfl
@[simp] theorem State.withRas_power (s : State) (x : Ras) : (s.withRas x).power = s.power := rfl
@[simp] theorem State.withRas_links (s : State) (x : Ras) : (s.withRas x).links = s.links := rfl
@[simp] theorem State.withRas_cxl (s : State) (x : Ras) : (s.withRas x).cxl = s.cxl := rfl
@[simp] theorem State.withRas_boot (s : State) (x : Ras) : (s.withRas x).boot = s.boot := rfl
@[simp] theorem State.withRas_hatch (s : State) (x : Ras) : (s.withRas x).hatch = s.hatch := rfl
@[simp] theorem State.withRas_out (s : State) (x : Ras) : (s.withRas x).out = s.out := rfl
@[simp] theorem State.withRas_fresh (s : State) (x : Ras) : (s.withRas x).fresh = s.fresh := rfl
@[simp] theorem State.withRas_pending (s : State) (x : Ras) : (s.withRas x).pending = s.pending := rfl

@[simp] theorem State.withPower_pop (s : State) (x : Power) : (s.withPower x).pop = s.pop := rfl
@[simp] theorem State.withPower_ruling (s : State) (x : Power) : (s.withPower x).ruling = s.ruling := rfl
@[simp] theorem State.withPower_regs (s : State) (x : Power) : (s.withPower x).regs = s.regs := rfl
@[simp] theorem State.withPower_cores (s : State) (x : Power) : (s.withPower x).cores = s.cores := rfl
@[simp] theorem State.withPower_mem (s : State) (x : Power) : (s.withPower x).mem = s.mem := rfl
@[simp] theorem State.withPower_ctls (s : State) (x : Power) : (s.withPower x).ctls = s.ctls := rfl
@[simp] theorem State.withPower_peel (s : State) (x : Power) : (s.withPower x).peel = s.peel := rfl
@[simp] theorem State.withPower_xlat (s : State) (x : Power) : (s.withPower x).xlat = s.xlat := rfl
@[simp] theorem State.withPower_pds (s : State) (x : Power) : (s.withPower x).pds = s.pds := rfl
@[simp] theorem State.withPower_work (s : State) (x : Power) : (s.withPower x).work = s.work := rfl
@[simp] theorem State.withPower_ras (s : State) (x : Power) : (s.withPower x).ras = s.ras := rfl
@[simp] theorem State.withPower_power (s : State) (x : Power) : (s.withPower x).power = x := rfl
@[simp] theorem State.withPower_links (s : State) (x : Power) : (s.withPower x).links = s.links := rfl
@[simp] theorem State.withPower_cxl (s : State) (x : Power) : (s.withPower x).cxl = s.cxl := rfl
@[simp] theorem State.withPower_boot (s : State) (x : Power) : (s.withPower x).boot = s.boot := rfl
@[simp] theorem State.withPower_hatch (s : State) (x : Power) : (s.withPower x).hatch = s.hatch := rfl
@[simp] theorem State.withPower_out (s : State) (x : Power) : (s.withPower x).out = s.out := rfl
@[simp] theorem State.withPower_fresh (s : State) (x : Power) : (s.withPower x).fresh = s.fresh := rfl
@[simp] theorem State.withPower_pending (s : State) (x : Power) : (s.withPower x).pending = s.pending := rfl

@[simp] theorem State.withLinks_pop (s : State) (x : Links) : (s.withLinks x).pop = s.pop := rfl
@[simp] theorem State.withLinks_ruling (s : State) (x : Links) : (s.withLinks x).ruling = s.ruling := rfl
@[simp] theorem State.withLinks_regs (s : State) (x : Links) : (s.withLinks x).regs = s.regs := rfl
@[simp] theorem State.withLinks_cores (s : State) (x : Links) : (s.withLinks x).cores = s.cores := rfl
@[simp] theorem State.withLinks_mem (s : State) (x : Links) : (s.withLinks x).mem = s.mem := rfl
@[simp] theorem State.withLinks_ctls (s : State) (x : Links) : (s.withLinks x).ctls = s.ctls := rfl
@[simp] theorem State.withLinks_peel (s : State) (x : Links) : (s.withLinks x).peel = s.peel := rfl
@[simp] theorem State.withLinks_xlat (s : State) (x : Links) : (s.withLinks x).xlat = s.xlat := rfl
@[simp] theorem State.withLinks_pds (s : State) (x : Links) : (s.withLinks x).pds = s.pds := rfl
@[simp] theorem State.withLinks_work (s : State) (x : Links) : (s.withLinks x).work = s.work := rfl
@[simp] theorem State.withLinks_ras (s : State) (x : Links) : (s.withLinks x).ras = s.ras := rfl
@[simp] theorem State.withLinks_power (s : State) (x : Links) : (s.withLinks x).power = s.power := rfl
@[simp] theorem State.withLinks_links (s : State) (x : Links) : (s.withLinks x).links = x := rfl
@[simp] theorem State.withLinks_cxl (s : State) (x : Links) : (s.withLinks x).cxl = s.cxl := rfl
@[simp] theorem State.withLinks_boot (s : State) (x : Links) : (s.withLinks x).boot = s.boot := rfl
@[simp] theorem State.withLinks_hatch (s : State) (x : Links) : (s.withLinks x).hatch = s.hatch := rfl
@[simp] theorem State.withLinks_out (s : State) (x : Links) : (s.withLinks x).out = s.out := rfl
@[simp] theorem State.withLinks_fresh (s : State) (x : Links) : (s.withLinks x).fresh = s.fresh := rfl
@[simp] theorem State.withLinks_pending (s : State) (x : Links) : (s.withLinks x).pending = s.pending := rfl

@[simp] theorem State.withCxl_pop (s : State) (x : Cxl) : (s.withCxl x).pop = s.pop := rfl
@[simp] theorem State.withCxl_ruling (s : State) (x : Cxl) : (s.withCxl x).ruling = s.ruling := rfl
@[simp] theorem State.withCxl_regs (s : State) (x : Cxl) : (s.withCxl x).regs = s.regs := rfl
@[simp] theorem State.withCxl_cores (s : State) (x : Cxl) : (s.withCxl x).cores = s.cores := rfl
@[simp] theorem State.withCxl_mem (s : State) (x : Cxl) : (s.withCxl x).mem = s.mem := rfl
@[simp] theorem State.withCxl_ctls (s : State) (x : Cxl) : (s.withCxl x).ctls = s.ctls := rfl
@[simp] theorem State.withCxl_peel (s : State) (x : Cxl) : (s.withCxl x).peel = s.peel := rfl
@[simp] theorem State.withCxl_xlat (s : State) (x : Cxl) : (s.withCxl x).xlat = s.xlat := rfl
@[simp] theorem State.withCxl_pds (s : State) (x : Cxl) : (s.withCxl x).pds = s.pds := rfl
@[simp] theorem State.withCxl_work (s : State) (x : Cxl) : (s.withCxl x).work = s.work := rfl
@[simp] theorem State.withCxl_ras (s : State) (x : Cxl) : (s.withCxl x).ras = s.ras := rfl
@[simp] theorem State.withCxl_power (s : State) (x : Cxl) : (s.withCxl x).power = s.power := rfl
@[simp] theorem State.withCxl_links (s : State) (x : Cxl) : (s.withCxl x).links = s.links := rfl
@[simp] theorem State.withCxl_cxl (s : State) (x : Cxl) : (s.withCxl x).cxl = x := rfl
@[simp] theorem State.withCxl_boot (s : State) (x : Cxl) : (s.withCxl x).boot = s.boot := rfl
@[simp] theorem State.withCxl_hatch (s : State) (x : Cxl) : (s.withCxl x).hatch = s.hatch := rfl
@[simp] theorem State.withCxl_out (s : State) (x : Cxl) : (s.withCxl x).out = s.out := rfl
@[simp] theorem State.withCxl_fresh (s : State) (x : Cxl) : (s.withCxl x).fresh = s.fresh := rfl
@[simp] theorem State.withCxl_pending (s : State) (x : Cxl) : (s.withCxl x).pending = s.pending := rfl

@[simp] theorem State.withBoot_pop (s : State) (x : Boot) : (s.withBoot x).pop = s.pop := rfl
@[simp] theorem State.withBoot_ruling (s : State) (x : Boot) : (s.withBoot x).ruling = s.ruling := rfl
@[simp] theorem State.withBoot_regs (s : State) (x : Boot) : (s.withBoot x).regs = s.regs := rfl
@[simp] theorem State.withBoot_cores (s : State) (x : Boot) : (s.withBoot x).cores = s.cores := rfl
@[simp] theorem State.withBoot_mem (s : State) (x : Boot) : (s.withBoot x).mem = s.mem := rfl
@[simp] theorem State.withBoot_ctls (s : State) (x : Boot) : (s.withBoot x).ctls = s.ctls := rfl
@[simp] theorem State.withBoot_peel (s : State) (x : Boot) : (s.withBoot x).peel = s.peel := rfl
@[simp] theorem State.withBoot_xlat (s : State) (x : Boot) : (s.withBoot x).xlat = s.xlat := rfl
@[simp] theorem State.withBoot_pds (s : State) (x : Boot) : (s.withBoot x).pds = s.pds := rfl
@[simp] theorem State.withBoot_work (s : State) (x : Boot) : (s.withBoot x).work = s.work := rfl
@[simp] theorem State.withBoot_ras (s : State) (x : Boot) : (s.withBoot x).ras = s.ras := rfl
@[simp] theorem State.withBoot_power (s : State) (x : Boot) : (s.withBoot x).power = s.power := rfl
@[simp] theorem State.withBoot_links (s : State) (x : Boot) : (s.withBoot x).links = s.links := rfl
@[simp] theorem State.withBoot_cxl (s : State) (x : Boot) : (s.withBoot x).cxl = s.cxl := rfl
@[simp] theorem State.withBoot_boot (s : State) (x : Boot) : (s.withBoot x).boot = x := rfl
@[simp] theorem State.withBoot_hatch (s : State) (x : Boot) : (s.withBoot x).hatch = s.hatch := rfl
@[simp] theorem State.withBoot_out (s : State) (x : Boot) : (s.withBoot x).out = s.out := rfl
@[simp] theorem State.withBoot_fresh (s : State) (x : Boot) : (s.withBoot x).fresh = s.fresh := rfl
@[simp] theorem State.withBoot_pending (s : State) (x : Boot) : (s.withBoot x).pending = s.pending := rfl

@[simp] theorem State.withHatch_pop (s : State) (x : Hatch) : (s.withHatch x).pop = s.pop := rfl
@[simp] theorem State.withHatch_ruling (s : State) (x : Hatch) : (s.withHatch x).ruling = s.ruling := rfl
@[simp] theorem State.withHatch_regs (s : State) (x : Hatch) : (s.withHatch x).regs = s.regs := rfl
@[simp] theorem State.withHatch_cores (s : State) (x : Hatch) : (s.withHatch x).cores = s.cores := rfl
@[simp] theorem State.withHatch_mem (s : State) (x : Hatch) : (s.withHatch x).mem = s.mem := rfl
@[simp] theorem State.withHatch_ctls (s : State) (x : Hatch) : (s.withHatch x).ctls = s.ctls := rfl
@[simp] theorem State.withHatch_peel (s : State) (x : Hatch) : (s.withHatch x).peel = s.peel := rfl
@[simp] theorem State.withHatch_xlat (s : State) (x : Hatch) : (s.withHatch x).xlat = s.xlat := rfl
@[simp] theorem State.withHatch_pds (s : State) (x : Hatch) : (s.withHatch x).pds = s.pds := rfl
@[simp] theorem State.withHatch_work (s : State) (x : Hatch) : (s.withHatch x).work = s.work := rfl
@[simp] theorem State.withHatch_ras (s : State) (x : Hatch) : (s.withHatch x).ras = s.ras := rfl
@[simp] theorem State.withHatch_power (s : State) (x : Hatch) : (s.withHatch x).power = s.power := rfl
@[simp] theorem State.withHatch_links (s : State) (x : Hatch) : (s.withHatch x).links = s.links := rfl
@[simp] theorem State.withHatch_cxl (s : State) (x : Hatch) : (s.withHatch x).cxl = s.cxl := rfl
@[simp] theorem State.withHatch_boot (s : State) (x : Hatch) : (s.withHatch x).boot = s.boot := rfl
@[simp] theorem State.withHatch_hatch (s : State) (x : Hatch) : (s.withHatch x).hatch = x := rfl
@[simp] theorem State.withHatch_out (s : State) (x : Hatch) : (s.withHatch x).out = s.out := rfl
@[simp] theorem State.withHatch_fresh (s : State) (x : Hatch) : (s.withHatch x).fresh = s.fresh := rfl
@[simp] theorem State.withHatch_pending (s : State) (x : Hatch) : (s.withHatch x).pending = s.pending := rfl

@[simp] theorem State.withOut_pop (s : State) (x : List Output) : (s.withOut x).pop = s.pop := rfl
@[simp] theorem State.withOut_ruling (s : State) (x : List Output) : (s.withOut x).ruling = s.ruling := rfl
@[simp] theorem State.withOut_regs (s : State) (x : List Output) : (s.withOut x).regs = s.regs := rfl
@[simp] theorem State.withOut_cores (s : State) (x : List Output) : (s.withOut x).cores = s.cores := rfl
@[simp] theorem State.withOut_mem (s : State) (x : List Output) : (s.withOut x).mem = s.mem := rfl
@[simp] theorem State.withOut_ctls (s : State) (x : List Output) : (s.withOut x).ctls = s.ctls := rfl
@[simp] theorem State.withOut_peel (s : State) (x : List Output) : (s.withOut x).peel = s.peel := rfl
@[simp] theorem State.withOut_xlat (s : State) (x : List Output) : (s.withOut x).xlat = s.xlat := rfl
@[simp] theorem State.withOut_pds (s : State) (x : List Output) : (s.withOut x).pds = s.pds := rfl
@[simp] theorem State.withOut_work (s : State) (x : List Output) : (s.withOut x).work = s.work := rfl
@[simp] theorem State.withOut_ras (s : State) (x : List Output) : (s.withOut x).ras = s.ras := rfl
@[simp] theorem State.withOut_power (s : State) (x : List Output) : (s.withOut x).power = s.power := rfl
@[simp] theorem State.withOut_links (s : State) (x : List Output) : (s.withOut x).links = s.links := rfl
@[simp] theorem State.withOut_cxl (s : State) (x : List Output) : (s.withOut x).cxl = s.cxl := rfl
@[simp] theorem State.withOut_boot (s : State) (x : List Output) : (s.withOut x).boot = s.boot := rfl
@[simp] theorem State.withOut_hatch (s : State) (x : List Output) : (s.withOut x).hatch = s.hatch := rfl
@[simp] theorem State.withOut_out (s : State) (x : List Output) : (s.withOut x).out = x := rfl
@[simp] theorem State.withOut_fresh (s : State) (x : List Output) : (s.withOut x).fresh = s.fresh := rfl
@[simp] theorem State.withOut_pending (s : State) (x : List Output) : (s.withOut x).pending = s.pending := rfl

@[simp] theorem State.withFresh_pop (s : State) (x : Nat) : (s.withFresh x).pop = s.pop := rfl
@[simp] theorem State.withFresh_ruling (s : State) (x : Nat) : (s.withFresh x).ruling = s.ruling := rfl
@[simp] theorem State.withFresh_regs (s : State) (x : Nat) : (s.withFresh x).regs = s.regs := rfl
@[simp] theorem State.withFresh_cores (s : State) (x : Nat) : (s.withFresh x).cores = s.cores := rfl
@[simp] theorem State.withFresh_mem (s : State) (x : Nat) : (s.withFresh x).mem = s.mem := rfl
@[simp] theorem State.withFresh_ctls (s : State) (x : Nat) : (s.withFresh x).ctls = s.ctls := rfl
@[simp] theorem State.withFresh_peel (s : State) (x : Nat) : (s.withFresh x).peel = s.peel := rfl
@[simp] theorem State.withFresh_xlat (s : State) (x : Nat) : (s.withFresh x).xlat = s.xlat := rfl
@[simp] theorem State.withFresh_pds (s : State) (x : Nat) : (s.withFresh x).pds = s.pds := rfl
@[simp] theorem State.withFresh_work (s : State) (x : Nat) : (s.withFresh x).work = s.work := rfl
@[simp] theorem State.withFresh_ras (s : State) (x : Nat) : (s.withFresh x).ras = s.ras := rfl
@[simp] theorem State.withFresh_power (s : State) (x : Nat) : (s.withFresh x).power = s.power := rfl
@[simp] theorem State.withFresh_links (s : State) (x : Nat) : (s.withFresh x).links = s.links := rfl
@[simp] theorem State.withFresh_cxl (s : State) (x : Nat) : (s.withFresh x).cxl = s.cxl := rfl
@[simp] theorem State.withFresh_boot (s : State) (x : Nat) : (s.withFresh x).boot = s.boot := rfl
@[simp] theorem State.withFresh_hatch (s : State) (x : Nat) : (s.withFresh x).hatch = s.hatch := rfl
@[simp] theorem State.withFresh_out (s : State) (x : Nat) : (s.withFresh x).out = s.out := rfl
@[simp] theorem State.withFresh_fresh (s : State) (x : Nat) : (s.withFresh x).fresh = x := rfl
@[simp] theorem State.withFresh_pending (s : State) (x : Nat) : (s.withFresh x).pending = s.pending := rfl

@[simp] theorem State.withPending_pop (s : State) (x : List Instr) : (s.withPending x).pop = s.pop := rfl
@[simp] theorem State.withPending_ruling (s : State) (x : List Instr) : (s.withPending x).ruling = s.ruling := rfl
@[simp] theorem State.withPending_regs (s : State) (x : List Instr) : (s.withPending x).regs = s.regs := rfl
@[simp] theorem State.withPending_cores (s : State) (x : List Instr) : (s.withPending x).cores = s.cores := rfl
@[simp] theorem State.withPending_mem (s : State) (x : List Instr) : (s.withPending x).mem = s.mem := rfl
@[simp] theorem State.withPending_ctls (s : State) (x : List Instr) : (s.withPending x).ctls = s.ctls := rfl
@[simp] theorem State.withPending_peel (s : State) (x : List Instr) : (s.withPending x).peel = s.peel := rfl
@[simp] theorem State.withPending_xlat (s : State) (x : List Instr) : (s.withPending x).xlat = s.xlat := rfl
@[simp] theorem State.withPending_pds (s : State) (x : List Instr) : (s.withPending x).pds = s.pds := rfl
@[simp] theorem State.withPending_work (s : State) (x : List Instr) : (s.withPending x).work = s.work := rfl
@[simp] theorem State.withPending_ras (s : State) (x : List Instr) : (s.withPending x).ras = s.ras := rfl
@[simp] theorem State.withPending_power (s : State) (x : List Instr) : (s.withPending x).power = s.power := rfl
@[simp] theorem State.withPending_links (s : State) (x : List Instr) : (s.withPending x).links = s.links := rfl
@[simp] theorem State.withPending_cxl (s : State) (x : List Instr) : (s.withPending x).cxl = s.cxl := rfl
@[simp] theorem State.withPending_boot (s : State) (x : List Instr) : (s.withPending x).boot = s.boot := rfl
@[simp] theorem State.withPending_hatch (s : State) (x : List Instr) : (s.withPending x).hatch = s.hatch := rfl
@[simp] theorem State.withPending_out (s : State) (x : List Instr) : (s.withPending x).out = s.out := rfl
@[simp] theorem State.withPending_fresh (s : State) (x : List Instr) : (s.withPending x).fresh = s.fresh := rfl
@[simp] theorem State.withPending_pending (s : State) (x : List Instr) : (s.withPending x).pending = x := rfl

end Sys2Proof.Machine
end

