-- ==== Sys2Proof/Laws/Tbl.lean ====
section
/-! SUPPORT. Laws/Tbl.lean: the read-after-write laws of sparse tables, and that every table operation keeps
the canonical form. -/

namespace Sys2Proof.Machine

theorem Tbl.get?_put_same {β : Type} (t : Tbl β) (k : Nat) (v : β) : (t.put k v).get? k = some v := by
  induction t with
  | nil => simp [Tbl.put, Tbl.get?]
  | cons e t ih =>
    obtain ⟨k', v'⟩ := e
    simp only [Tbl.put]
    split
    · simp [Tbl.get?]
    · split
      · simp [Tbl.get?]
      · have h : ¬ k' = k := by omega
        simp [Tbl.get?, h, ih]

theorem Tbl.get?_put_other {β : Type} (t : Tbl β) (k j : Nat) (v : β) (h : j ≠ k) :
    (t.put k v).get? j = t.get? j := by
  induction t with
  | nil => simp [Tbl.put, Tbl.get?, Ne.symm h]
  | cons e t ih =>
    obtain ⟨k', v'⟩ := e
    simp only [Tbl.put]
    split
    · simp [Tbl.get?, Ne.symm h]
    · split
      · rename_i hk; subst hk; simp [Tbl.get?, Ne.symm h]
      · simp [Tbl.get?, ih]

theorem Tbl.get?_erase_same {β : Type} (t : Tbl β) (k : Nat) : (t.erase k).get? k = none := by
  induction t with
  | nil => rfl
  | cons e t ih =>
    obtain ⟨k', v'⟩ := e
    simp only [Tbl.erase]
    split
    · exact ih
    · rename_i h; simp only [Tbl.get?, h, if_false]; exact ih

theorem Tbl.get?_erase_other {β : Type} (t : Tbl β) (k j : Nat) (h : j ≠ k) :
    (t.erase k).get? j = t.get? j := by
  induction t with
  | nil => rfl
  | cons e t ih =>
    obtain ⟨k', v'⟩ := e
    simp only [Tbl.erase]
    split
    · rename_i hk; subst hk; simp [Tbl.get?, Ne.symm h, ih]
    · simp [Tbl.get?, ih]

theorem Tbl.risingFrom_mono {β : Type} (t : Tbl β) (lo lo' : Nat) (h : lo' ≤ lo)
    (hr : Tbl.risingFrom lo t = true) : Tbl.risingFrom lo' t = true := by
  cases t with
  | nil => rfl
  | cons e t =>
    obtain ⟨k', v'⟩ := e
    simp only [Tbl.risingFrom, Bool.and_eq_true, decide_eq_true_eq] at hr ⊢
    exact ⟨by omega, hr.2⟩

theorem Tbl.risingFrom_put {β : Type} (t : Tbl β) (lo k : Nat) (v : β) (hk : lo ≤ k)
    (hr : Tbl.risingFrom lo t = true) : Tbl.risingFrom lo (t.put k v) = true := by
  induction t generalizing lo with
  | nil => simp [Tbl.put, Tbl.risingFrom, hk]
  | cons e t ih =>
    obtain ⟨k', v'⟩ := e
    simp only [Tbl.risingFrom, Bool.and_eq_true, decide_eq_true_eq] at hr
    simp only [Tbl.put]
    split
    · simp only [Tbl.risingFrom, Bool.and_eq_true, decide_eq_true_eq]
      exact ⟨hk, by omega, hr.2⟩
    · split
      · rename_i h; subst h
        simp only [Tbl.risingFrom, Bool.and_eq_true, decide_eq_true_eq]; exact hr
      · simp only [Tbl.risingFrom, Bool.and_eq_true, decide_eq_true_eq]
        exact ⟨hr.1, ih _ (by omega) hr.2⟩

theorem Tbl.risingFrom_erase {β : Type} (t : Tbl β) (lo k : Nat)
    (hr : Tbl.risingFrom lo t = true) : Tbl.risingFrom lo (t.erase k) = true := by
  induction t generalizing lo with
  | nil => rfl
  | cons e t ih =>
    obtain ⟨k', v'⟩ := e
    simp only [Tbl.risingFrom, Bool.and_eq_true, decide_eq_true_eq] at hr
    simp only [Tbl.erase]
    split
    · exact Tbl.risingFrom_mono _ _ _ (by omega) (ih _ hr.2)
    · simp only [Tbl.risingFrom, Bool.and_eq_true, decide_eq_true_eq]
      exact ⟨hr.1, ih _ hr.2⟩

theorem Tbl.proper_put {β : Type} [DecidableEq β] (d : Nat → β) (t : Tbl β) (k : Nat) (v : β)
    (hv : v ≠ d k) (hp : Tbl.proper d t = true) : Tbl.proper d (t.put k v) = true := by
  induction t with
  | nil => simp [Tbl.put, Tbl.proper, hv]
  | cons e t ih =>
    obtain ⟨k', v'⟩ := e
    simp only [Tbl.proper, Bool.and_eq_true, decide_eq_true_eq] at hp
    simp only [Tbl.put]
    split
    · simp [Tbl.proper, hv, hp.1, hp.2]
    · split
      · simp [Tbl.proper, hv, hp.2]
      · simp [Tbl.proper, hp.1, ih hp.2]

theorem Tbl.proper_erase {β : Type} [DecidableEq β] (d : Nat → β) (t : Tbl β) (k : Nat)
    (hp : Tbl.proper d t = true) : Tbl.proper d (t.erase k) = true := by
  induction t with
  | nil => rfl
  | cons e t ih =>
    obtain ⟨k', v'⟩ := e
    simp only [Tbl.proper, Bool.and_eq_true, decide_eq_true_eq] at hp
    simp only [Tbl.erase]
    split
    · exact ih hp.2
    · simp [Tbl.proper, hp.1, ih hp.2]

/-- Writing keeps the canonical form. -/
theorem Tbl.wf_setD {β : Type} [DecidableEq β] (d : Nat → β) (t : Tbl β) (k : Nat) (v : β)
    (h : Tbl.wf d t = true) : Tbl.wf d (t.setD d k v) = true := by
  simp only [Tbl.wf, Tbl.rising, Bool.and_eq_true] at h ⊢
  simp only [Tbl.setD]
  split
  · exact ⟨Tbl.risingFrom_erase t 0 k h.1, Tbl.proper_erase d t k h.2⟩
  · rename_i hv
    exact ⟨Tbl.risingFrom_put t 0 k v (Nat.zero_le _) h.1, Tbl.proper_put d t k v hv h.2⟩

/-- A read after a write to the same key gives the value written. -/
theorem Tbl.getD_setD_same {β : Type} [DecidableEq β] (d : Nat → β) (t : Tbl β) (k : Nat) (v : β) :
    (t.setD d k v).getD d k = v := by
  simp only [Tbl.setD]
  split
  · rename_i hv; simp [Tbl.getD, Tbl.get?_erase_same t k, hv]
  · simp [Tbl.getD, Tbl.get?_put_same]

/-- A write leaves every other key alone. -/
theorem Tbl.getD_setD_other {β : Type} [DecidableEq β] (d : Nat → β) (t : Tbl β) (k j : Nat) (v : β)
    (h : j ≠ k) : (t.setD d k v).getD d j = t.getD d j := by
  simp only [Tbl.setD]
  split
  · simp [Tbl.getD, Tbl.get?_erase_other t k j h]
  · simp [Tbl.getD, Tbl.get?_put_other t k j v h]

end Sys2Proof.Machine
end

