-- ==== Sys2Proof/Laws/After.lean ====
section
/-! SUPPORT. Laws/After.lean: what follows an event on a core (its units begin, send and complete) leaves every core's
registers alone; and on a core with nothing in flight it changes nothing. -/

namespace Sys2Proof.Machine

/-! ### Reading a core after a write -/

@[simp] theorem State.core_setCore_same (s : State) (c : Nat) (k : Core) : (s.setCore c k).core c = k := by
  simp [State.core, State.setCore, Tbl.getD_setD_same]

theorem State.core_setCore_other (s : State) (c d : Nat) (k : Core) (h : d ≠ c) : (s.setCore c k).core d = s.core d := by
  simp [State.core, State.setCore, Tbl.getD_setD_other _ _ _ _ _ h]

theorem State.core_setCore (s : State) (c d : Nat) (k : Core) :
    (s.setCore c k).core d = if d = c then k else s.core d := by
  split
  · rename_i h; subst h; simp
  · rename_i h; exact State.core_setCore_other s c d k h

theorem State.core_of_cores (s t : State) (h : t.cores = s.cores) (d : Nat) : t.core d = s.core d := by
  simp [State.core, h]

/-! ### Operations that leave the cores alone -/

@[simp] theorem State.setReg_cores (s : State) (o : Nat) (v : BitVec 64) : (s.setReg o v).cores = s.cores := by
  simp [State.setReg]
@[simp] theorem State.bump_cores (s : State) (o : Nat) : (s.bump o).cores = s.cores := by
  simp [State.bump]
@[simp] theorem State.emit_cores (s : State) (o : Output) : (s.emit o).cores = s.cores := by
  simp [State.emit]
@[simp] theorem State.emitN_cores (s : State) (k : OutKind) (l : List Nat) : (s.emitN k l).cores = s.cores := by
  simp [State.emitN]
@[simp] theorem State.draw_cores (s : State) : s.draw.1.cores = s.cores := by
  simp [State.draw]
@[simp] theorem State.alert_cores (s : State) (n : Nat) : (s.alert n).cores = s.cores := by
  simp [State.alert]
@[simp] theorem State.homeWrite_cores (s : State) (a : Nat) (bs : List Byte) : (s.homeWrite a bs).cores = s.cores := by
  simp [State.homeWrite]
@[simp] theorem State.scrWrite_cores (s : State) (c o : Nat) (bs : List Byte) : (s.scrWrite c o bs).cores = s.cores := by
  simp [State.scrWrite]
@[simp] theorem State.scrClear_cores (s : State) (c : Nat) : (s.scrClear c).cores = s.cores := by
  simp [State.scrClear]
@[simp] theorem State.setCluster_cores (s : State) (k : Nat) (x : Cluster) : (s.setCluster k x).cores = s.cores := by
  simp [State.setCluster]
@[simp] theorem State.setRemap_cores (s : State) (b : Nat) (r : Remap) : (s.setRemap b r).cores = s.cores := by
  simp [State.setRemap]
@[simp] theorem State.modOp_cores (s : State) (u : Nat) (f : Op → Op) : (s.modOp u f).cores = s.cores := by
  simp [State.modOp]
@[simp] theorem State.setPort_cores (s : State) (p : Nat) (x : Port) : (s.setPort p x).cores = s.cores := by
  simp [State.setPort]
@[simp] theorem State.noteFault_cores (s : State) (d x va : Nat) (f : XFault) : (s.noteFault d x va f).cores = s.cores := by
  simp [State.noteFault]

@[simp] theorem State.msi_cores (s : State) (h f i : Nat) : (s.msi h f i).cores = s.cores := by
  simp only [State.msi]; split
  · simp
  · split <;> simp

@[simp] theorem State.msiTarget_cores (s : State) (t : Nat) : (s.msiTarget t).cores = s.cores := by
  simp only [State.msiTarget]; split <;> simp

@[simp] theorem State.rasIntr_cores (s : State) (v : Nat) : (s.rasIntr v).cores = s.cores := by
  simp only [State.rasIntr]
  split <;> split <;> simp

theorem State.foldl_cores {α : Type} (g : State → α → State) (hg : ∀ u x, (g u x).cores = u.cores) (l : List α) (s : State) :
    (l.foldl g s).cores = s.cores := by
  induction l generalizing s with
  | nil => rfl
  | cons x l ih => rw [List.foldl_cons, ih, hg]

@[simp] theorem State.setDir_cores (s : State) (l : Nat) (e : DirEntry) : (s.setDir l e).cores = s.cores := by
  rw [State.setDir, State.withMem_cores]

@[simp] theorem State.wakeCtl_cores (s : State) (n : Nat) : (s.wakeCtl n).cores = s.cores := by
  simp only [State.wakeCtl]; split <;> simp

@[simp] theorem State.mirror_cores (s : State) (p n : Nat) : (s.mirror p n).cores = s.cores := by
  simp only [State.mirror]; repeat' split
  all_goals simp [State.draw]

@[simp] theorem State.homeStore_cores (s : State) (p : Nat) (b : List Byte) : (s.homeStore p b).cores = s.cores := by
  simp [State.homeStore]

@[simp] theorem State.overwrite_cores (s : State) (l : List Nat) : (s.overwrite l).cores = s.cores := by
  simp only [State.overwrite]; split <;> simp

@[simp] theorem State.enrol_cores (s : State) (b x c : Nat) : (s.enrol b x c).cores = s.cores := by
  simp only [State.enrol]; repeat' split
  all_goals simp

@[simp] theorem State.count_cores (s : State) (p : Nat) : (s.count p).cores = s.cores := by
  simp only [State.count]; repeat' split
  all_goals simp

@[simp] theorem State.notice_cores (s : State) (l i : Nat) : (s.notice l i).cores = s.cores := by simp [State.notice]

@[simp] theorem State.setPoison_cores (s : State) (l : List Nat) : (s.setPoison l).cores = s.cores := by simp [State.setPoison]

@[simp] theorem State.clusterInval_cores (s : State) (k l : Nat) : (s.clusterInval k l).cores = s.cores := by
  simp [State.clusterInval]

@[simp] theorem State.doorbellLost_cores (s : State) (d l : Nat) : (s.doorbellLost d l).cores = s.cores := by
  simp [State.doorbellLost]

@[simp] theorem State.slcDrop_cores (s : State) (p l : Nat) : (s.slcDrop p l).cores = s.cores := by
  simp only [State.slcDrop, State.setSlc]; split <;> simp

@[simp] theorem State.dieDrop_cores (s : State) (p l : Nat) : (s.dieDrop p l).cores = s.cores := by
  simp [State.dieDrop, State.upperDrop]

@[simp] theorem State.dropCopy_cores (s : State) (l i : Nat) : (s.dropCopy l i).cores = s.cores := by
  simp only [State.dropCopy]; repeat' split
  all_goals simp

@[simp] theorem State.flush_cores (s : State) (l : Nat) : (s.flush l).cores = s.cores := by
  simp only [State.flush]; split
  · rfl
  · simp only [State.mirror_cores, State.overwrite_cores, State.withMem_cores]
    exact State.foldl_cores _ (fun u x => State.homeWrite_cores _ _ _) _ _

@[simp] theorem State.hostSilent_cores (s : State) (l : Nat) : (s.hostSilent l).1.cores = s.cores := by
  simp only [State.hostSilent]; split <;> simp

@[simp] theorem State.hostShows_cores (s : State) (l : Nat) (b : List (Nat × Byte)) : (s.hostShows l b).cores = s.cores := by
  simp [State.hostShows]

@[simp] theorem State.snoopNow_cores (s : State) (l : Nat) : (s.snoopNow l).1.cores = s.cores := by
  simp only [State.snoopNow]; repeat' split
  all_goals simp

@[simp] theorem State.lostCopy_cores (s : State) (l i : Nat) : (s.lostCopy l i).1.cores = s.cores := by
  simp [State.lostCopy]

@[simp] theorem State.askOwner_cores (s : State) (l : Nat) : (s.askOwner l).1.cores = s.cores := by
  simp only [State.askOwner]; repeat' split
  all_goals simp

@[simp] theorem State.reclaim_cores (s : State) (l : Nat) : (s.reclaim l).1.cores = s.cores := by
  simp only [State.reclaim, State.setDir_cores]
  have h : ((setBitsBelow 32 (s.dirOf l).sharers.toNat).foldl (fun s i => s.dropCopy l i)
      ((if (s.dirOf l).sharers.getLsbD 22 = true then s.snoopNow l else s.askOwner l).1.flush l)).cores = s.cores := by
    rw [State.foldl_cores _ (fun u x => State.dropCopy_cores _ _ _)]
    split <;> simp
  split
  · rw [State.dropCopy_cores, h]
  · exact h

@[simp] theorem State.ownWrite_cores (s : State) (a : Nat) (b : List Byte) : (s.ownWrite a b).1.cores = s.cores := by
  simp only [State.ownWrite, State.homeStore_cores]
  suffices h : ∀ (l : List Nat) (r : Noted), (l.foldl (fun (r : Noted) x =>
      ((r.1.reclaim x).1, r.2 ++ (r.1.reclaim x).2)) r).1.cores = r.1.cores from h _ (s, [])
  intro l
  induction l with
  | nil => intro r; rfl
  | cons x l ih => intro r; rw [List.foldl_cons, ih]; simp

@[simp] theorem State.logDrop_cores (s : State) (v : Nat) : (s.logDrop v).cores = s.cores := by simp [State.logDrop]

@[simp] theorem State.logKeep_cores (s : State) (r : ErrRec) (w : Word) : (s.logKeep r w).cores = s.cores := by
  simp [State.logKeep, State.nextIndex, State.mgmt, apply_ite State.cores]

@[simp] theorem State.logPut_cores (s : State) (e : LogEnt) : (s.logPut e).cores = s.cores := by
  simp only [State.logPut]; split
  · simp
  · rw [State.foldl_cores _ (fun u x => State.logKeep_cores _ _ _)]; simp

@[simp] theorem State.logWaiting_cores (n : Nat) (s : State) : (s.logWaiting n).cores = s.cores := by
  induction n generalizing s with
  | zero => rfl
  | succ n ih =>
    simp only [State.logWaiting]; repeat' split
    · rfl
    · rfl
    · rw [ih]; simp

@[simp] theorem State.logFlush_cores (s : State) : s.logFlush.cores = s.cores := by
  simp only [State.logFlush]; split <;> simp

@[simp] theorem State.hotPut_cores (s : State) (r : HotRec) : (s.hotPut r).cores = s.cores := by
  simp only [State.hotPut, State.setReg_cores]
  rw [State.foldl_cores _ (fun u x => State.logKeep_cores _ _ _)]; simp

@[simp] theorem State.hotFlush_cores (n : Nat) (s : State) : (s.hotFlush n).cores = s.cores := by
  induction n generalizing s with
  | zero => rfl
  | succ n ih =>
    simp only [State.hotFlush]; repeat' split
    · rfl
    · rfl
    · rw [ih]; simp

@[simp] theorem State.recordsOut_cores (s : State) : s.recordsOut.cores = s.cores := by
  simp only [State.recordsOut, State.hotFlush_cores]; split <;> simp

@[simp] theorem State.logAt_cores (s : State) (r : ErrRec) (w : Word) : (s.logAt r w).cores = s.cores := by
  simp [State.logAt]

@[simp] theorem State.log_cores (s : State) (r : ErrRec) : (s.log r).cores = s.cores := by simp [State.log]

@[simp] theorem State.logOp_cores (s : State) (u : Nat) (r : ErrRec) : (s.logOp u r).cores = s.cores := by
  simp [State.logOp]

@[simp] theorem State.nominate_cores (s : State) (b x c : Nat) : (s.nominate b x c).cores = s.cores := by
  simp [State.nominate]

@[simp] theorem State.setUnit_cores (s : State) (k n q : Nat) (i : Bool) : (s.setUnit k n q i).cores = s.cores := by
  simp only [State.setUnit]; split <;> simp

@[simp] theorem State.trimCheck_cores (s : State) : s.trimCheck.cores = s.cores := by
  simp only [State.trimCheck]; split <;> simp [State.setRegBit]

@[simp] theorem State.wakeCore_cores (s : State) (c : Nat) : (s.wakeCore c).cores = s.cores := by
  simp only [State.wakeCore]; split <;> simp

@[simp] theorem State.writeInline_cores (s : State) (c : Nat) (g : Staged) : (s.writeInline c g).cores = s.cores := by
  simp only [State.writeInline]; split <;> simp

@[simp] theorem State.sendOn_cores (s : State) (p t d r h g e : Nat) (b : List Byte) (i : List Nat) :
    (s.sendOn p t d r h g e b i).cores = s.cores := by simp [State.sendOn]

@[simp] theorem State.sendFlit_cores (s : State) (n t : Nat) (b : List Byte) (i : List Nat) :
    (s.sendFlit n t b i).cores = s.cores := by
  simp only [State.sendFlit]; split <;> simp

@[simp] theorem State.sendMsg_cores (s : State) (n : Nat) (b : List Byte) (i : List Nat) :
    (s.sendMsg n b i).cores = s.cores := by
  simp [State.sendMsg]

@[simp] theorem State.dirtyOut_cores (s : State) (l : Nat) : (s.dirtyOut l).cores = s.cores := by
  simp only [State.dirtyOut]; split <;> simp

@[simp] theorem State.hostYield_cores (s : State) (l i : Nat) (e : DirEntry) : (s.hostYield l i e).cores = s.cores := by
  simp only [State.hostYield]
  refine State.foldl_cores _ (fun u x => ?_) _ _
  split <;> simp

@[simp] theorem State.hostDrop_cores (s : State) (l : Nat) : (s.hostDrop l).cores = s.cores := by
  simp only [State.hostDrop, State.withMem_cores]; split <;> simp

@[simp] theorem State.hostClear_cores (s : State) (a n : Nat) : (s.hostClear a n).cores = s.cores := by
  simp only [State.hostClear]
  refine State.foldl_cores _ (fun u x => ?_) _ _
  split <;> simp

@[simp] theorem State.sendOut_cores (s : State) (t : Target) (pa : Nat) (w : List Nat) (b : List Byte) :
    (s.sendOut t pa w b).cores = s.cores := by
  simp only [State.sendOut]; repeat' split
  all_goals simp

@[simp] theorem State.fillL1_cores (s : State) (u : Nat) (l : Leaf) : (s.fillL1 u l).cores = s.cores := by
  simp [State.fillL1]

@[simp] theorem State.lookup_cores (s : State) (u k d a v : Nat) (x : Acc) : (s.lookup u k d a v x).1.cores = s.cores := by
  simp only [State.lookup]; repeat' split
  all_goals simp

@[simp] theorem State.spillRows_cores (s : State) (c b t r n : Nat) : (s.spillRows c b t r n).cores = s.cores := by
  simp only [State.spillRows]
  suffices h : ∀ (l : List Nat) (s : State), (l.foldl (fun (s : State) r => ((s.draw.1).withMem
      (s.draw.1.mem.forget (windowBase c + b + r * t) n (some s.draw.2)))) s).cores = s.cores from h _ s
  intro l
  induction l with
  | nil => intro s; rfl
  | cons x l ih => intro s; rw [List.foldl_cons, ih]; rfl

@[simp] theorem State.logBy_cores (s : State) (w : Cause) (r : ErrRec) : (s.logBy w r).cores = s.cores := by
  simp only [State.logBy]; split <;> simp

@[simp] theorem State.scratchRecord_cores (s : State) (c o : Nat) (w : Cause) : (s.scratchRecord c o w).cores = s.cores :=
  State.logBy_cores _ _ _

@[simp] theorem State.opCheck_cores (s : State) (u : Nat) : (s.opCheck u).cores = s.cores := by
  simp only [State.opCheck]; repeat' split
  all_goals simp

/-! ### What keeps every core's registers -/

theorem State.sameRegs_refl (s : State) : s.sameRegs s := fun _ => rfl

theorem State.sameRegs_trans {s t u : State} (h : s.sameRegs t) (g : t.sameRegs u) : s.sameRegs u :=
  fun d => (g d).trans (h d)

theorem State.sameRegs_cores {s t u : State} (h : s.sameRegs t) (e : u.cores = t.cores) : s.sameRegs u := fun d => by
  rw [State.core_of_cores t u e]; exact h d

theorem State.sameRegs_modCore {s t : State} (h : s.sameRegs t) (c : Nat) (f : Core → Core)
    (hf : ∀ k, (f k).regs = k.regs) : s.sameRegs (t.modCore c f) := by
  intro d
  simp only [State.modCore, State.core_setCore]
  split
  · rename_i e; subst e; exact (hf _).trans (h _)
  · exact h d

theorem State.sameRegs_setCore {s t : State} (h : s.sameRegs t) (c : Nat) (k : Core) (hk : k.regs = (t.core c).regs) :
    s.sameRegs (t.setCore c k) := by
  intro d
  simp only [State.core_setCore]
  split
  · rename_i e; subst e; exact hk.trans (h _)
  · exact h d

theorem State.sameRegs_foldl {α : Type} {s t : State} (h : s.sameRegs t) (g : State → α → State)
    (hg : ∀ u x, State.sameRegs u (g u x)) (l : List α) : s.sameRegs (l.foldl g t) := by
  induction l generalizing t with
  | nil => exact h
  | cons x l ih => exact ih (State.sameRegs_trans h (hg t x))

theorem State.sameRegs_ite {s t u : State} {p : Prop} [Decidable p] (h : s.sameRegs t) (g : s.sameRegs u) :
    s.sameRegs (if p then t else u) := by
  split
  · exact h
  · exact g

theorem Tbl.get?_mapVals {β : Type} (f : β → β) (t : Tbl β) (k : Nat) : (t.mapVals f).get? k = (t.get? k).map f := by
  induction t with
  | nil => rfl
  | cons e t ih =>
    obtain ⟨k', v⟩ := e
    show Tbl.get? ((k', f v) :: Tbl.mapVals f t) k = _
    simp only [Tbl.get?]
    split
    · rfl
    · exact ih

theorem State.sameRegs_mapVals {s t : State} (h : s.sameRegs t) (f : Core → Core) (hf : ∀ k, (f k).regs = k.regs) :
    s.sameRegs (t.withCores (t.cores.mapVals f)) := by
  refine State.sameRegs_trans h fun d => ?_
  simp only [State.core, State.withCores_cores, Tbl.getD, Tbl.get?_mapVals]
  cases t.cores.get? d with
  | none => rfl
  | some k => exact hf k

theorem Core.setP_regs (k : Core) (p : Nat) (b : Bool) : (k.setP p b).regs = k.regs := by
  simp only [Core.setP]; split <;> rfl

theorem State.acceptWrite_sameRegs (s : State) (c : Nat) (w : WTag) : s.sameRegs (s.acceptWrite c w) := by
  simp only [State.acceptWrite]
  split
  · refine State.sameRegs_ite ?_ (State.sameRegs_refl s)
    refine State.sameRegs_modCore ?_ _ _ (fun _ => rfl)
    exact State.sameRegs_cores (State.sameRegs_refl s) (State.setCluster_cores _ _ _)
  · exact State.sameRegs_refl s

theorem State.acceptWrites_sameRegs (s : State) (c : Nat) : s.sameRegs (s.acceptWrites c) :=
  State.sameRegs_foldl (State.sameRegs_refl s) _ (fun u w => State.acceptWrite_sameRegs u c w) _

theorem State.beginUnits_sameRegs (s : State) (c : Nat) : s.sameRegs (s.beginUnits c) :=
  State.sameRegs_modCore (State.sameRegs_refl s) _ _ (fun _ => rfl)

theorem State.writeInline_sameRegs (s : State) (c : Nat) (g : Staged) : s.sameRegs (s.writeInline c g) :=
  State.sameRegs_ite (State.sameRegs_refl s) (State.sameRegs_cores (State.sameRegs_refl s) (by simp))

theorem State.fillSlots_sameRegs (s : State) (c : Nat) : s.sameRegs (s.fillSlots c) := by
  simp only [State.fillSlots]
  refine State.sameRegs_ite (State.sameRegs_refl s) ?_
  split
  · exact State.sameRegs_refl s
  · split
    · exact State.sameRegs_refl s
    · refine State.sameRegs_cores ?_ (State.modOp_cores _ _ _)
      exact State.sameRegs_modCore (State.writeInline_sameRegs s c _) _ _ (fun _ => rfl)

theorem State.stage_sameRegs (s : State) (c : Nat) (g : Staged) : s.sameRegs (s.stage c g) := by
  refine State.sameRegs_trans ?_ (State.fillSlots_sameRegs _ c)
  exact State.sameRegs_cores (State.sameRegs_refl s) (by simp)

theorem State.placeAgain_sameRegs (s : State) (c : Nat) (g : Staged) : s.sameRegs (s.placeAgain c g) := by
  simp only [State.placeAgain]
  split
  · refine State.sameRegs_trans ?_ (State.stage_sameRegs _ _ _)
    exact State.sameRegs_cores (State.sameRegs_refl s) (State.modOp_cores _ _ _)
  · exact State.sameRegs_cores (State.sameRegs_refl s) (State.modOp_cores _ _ _)

theorem State.returnStaged_sameRegs (s : State) (c : Nat) : s.sameRegs (s.returnStaged c) := by
  simp only [State.returnStaged]
  refine State.sameRegs_foldl ?_ _ (fun u g => State.placeAgain_sameRegs u c g) _
  exact State.sameRegs_modCore (State.sameRegs_refl s) _ _ (fun _ => rfl)

theorem State.suspectCore_sameRegs (s : State) (c q : Nat) (i : Bool) : s.sameRegs (s.suspectCore c q i) := by
  simp only [State.suspectCore]
  refine State.sameRegs_ite ?_ (State.sameRegs_refl s)
  refine State.sameRegs_trans ?_ (State.returnStaged_sameRegs _ c)
  exact State.sameRegs_cores (State.sameRegs_refl s) (State.setUnit_cores _ _ _ _ _)

theorem State.foldSpill_cores (c : Nat) (l : List (Nat × Nat × Nat × Nat)) (s : State) :
    (l.foldl (fun (s : State) r => s.spillRows c r.1 r.2.1 r.2.2.1 r.2.2.2) s).cores = s.cores := by
  induction l generalizing s with
  | nil => rfl
  | cons x l ih => rw [List.foldl_cons, ih, State.spillRows_cores]

theorem State.taint_sameRegs (s : State) (c : Nat) (j : Job) : s.sameRegs (s.taint c j) := by
  have h : s.sameRegs (j.kind.dest.foldl (fun (s : State) r => s.spillRows c r.1 r.2.1 r.2.2.1 r.2.2.2) s).draw.1 :=
    State.sameRegs_cores (State.sameRegs_refl s) (by rw [State.draw_cores, State.foldSpill_cores])
  simp only [State.taint]
  refine State.sameRegs_modCore ?_ _ _ (fun _ => rfl)
  split
  · exact State.sameRegs_modCore h _ _ (fun _ => rfl)
  · exact h

theorem State.spoilSent_sameRegs (s : State) (c n : Nat) : s.sameRegs (s.spoilSent c n) :=
  State.sameRegs_modCore (State.sameRegs_cores (State.sameRegs_refl s) (State.draw_cores _)) _ _ (fun _ => rfl)

theorem State.spoilBytes_sameRegs (s : State) (a n : Nat) : s.sameRegs (s.spoilBytes a n) :=
  State.sameRegs_cores (State.sameRegs_refl s) (by simp [State.spoilBytes])

theorem State.spoilDone_sameRegs (s : State) (c n : Nat) : s.sameRegs (s.spoilDone c n) := by
  simp only [State.spoilDone]
  refine State.sameRegs_cores ?_ (State.setCluster_cores _ _ _)
  refine State.sameRegs_cores ?_ (State.draw_cores _)
  exact State.sameRegs_foldl (State.sameRegs_refl s) _ (fun u x => State.spoilBytes_sameRegs u _ _) _

theorem State.overtake_sameRegs (s : State) (c n : Nat) : s.sameRegs (s.overtake c n) := by
  simp only [State.overtake]
  refine State.sameRegs_modCore ?_ _ _ (fun _ => rfl)
  refine State.sameRegs_foldl ?_ _ (fun u x => State.taint_sameRegs u c x) _
  refine State.sameRegs_trans ?_ (State.spoilSent_sameRegs _ _ _)
  refine State.sameRegs_trans ?_ (State.spoilDone_sameRegs _ _ _)
  exact State.sameRegs_modCore (State.sameRegs_refl s) _ _ (fun _ => rfl)

theorem State.execFault_sameRegs (s : State) (c : Nat) (j : Job) (n v : Nat) : s.sameRegs (s.execFault c j n v) := by
  have h := State.overtake_sameRegs s c j.seq
  simp only [State.execFault, State.faultAt]
  refine State.sameRegs_ite h ?_
  refine State.sameRegs_ite (State.sameRegs_trans ?_ (State.suspectCore_sameRegs _ _ _ _)) ?_
  all_goals exact State.sameRegs_modCore h _ _ (fun _ => rfl)

theorem State.issueFault_sameRegs (s : State) (c : Nat) (e : Exc) : s.sameRegs (s.issueFault c e) := by
  simp only [State.issueFault]
  refine State.sameRegs_ite (State.sameRegs_trans ?_ (State.suspectCore_sameRegs _ _ _ _)) ?_
  all_goals exact State.sameRegs_modCore (State.sameRegs_refl s) _ _ (fun _ => rfl)

theorem State.noteWrote_sameRegs (s : State) (c q a n : Nat) : s.sameRegs (s.noteWrote c q a n) := by
  simp only [State.noteWrote]
  exact State.sameRegs_ite (State.sameRegs_modCore (State.sameRegs_refl s) _ _ (fun _ => rfl)) (State.sameRegs_refl s)

theorem State.finishJob_sameRegs (s : State) (c : Nat) (j : Job) (b : Bool) : s.sameRegs (s.finishJob c j b) := by
  refine State.sameRegs_modCore ?_ _ _ (fun k => ?_)
  · refine State.sameRegs_foldl (State.sameRegs_refl s) _ (fun u d => ?_) _
    exact State.sameRegs_foldl (State.sameRegs_refl u) _ (fun v r => State.noteWrote_sameRegs v _ _ _ _) _
  · cases j.lp with
    | none => rfl
    | some p => exact Core.setP_regs k p b

theorem State.setJob_sameRegs (s : State) (c : Nat) (j : Job) : s.sameRegs (s.setJob c j) :=
  State.sameRegs_modCore (State.sameRegs_refl s) _ _ (fun _ => rfl)

/-- What may come of the stream unit leaves the registers alone, when something comes of it. -/
def State.keeps (s : State) (o : Option State) : Prop := ∀ t, o = some t → s.sameRegs t

theorem State.keeps_none (s : State) : s.keeps none := by simp [State.keeps]

theorem State.keeps_some {s t : State} (h : s.sameRegs t) : s.keeps (some t) := fun _ e => Option.some.inj e ▸ h

theorem State.keeps_ite {s : State} {p : Prop} [Decidable p] {a b : Option State} (h : s.keeps a) (g : s.keeps b) :
    s.keeps (if p then a else b) := by
  by_cases q : p <;> simpa [q]

theorem State.keeps_after {s u : State} {o : Option State} (h : s.sameRegs u) (g : u.keeps o) : s.keeps o :=
  fun t e => State.sameRegs_trans h (g t e)

theorem State.keeps_bind {α : Type} {s : State} {o : Option α} {f : α → Option State} (h : ∀ x, s.keeps (f x)) :
    s.keeps (o.bind f) := fun t e => by
  obtain ⟨x, -, hx⟩ := Option.bind_eq_some_iff.mp e
  exact h x t hx

theorem State.keeps_or {s : State} {a b : Option State} (h : s.keeps a) (g : s.keeps b) : s.keeps (a.or b) := by
  cases a with
  | none => simpa using g
  | some t => simpa using h

/-- An access leaves the registers alone when what it goes on with does. -/
theorem State.translated_keeps (s : State) (c : Nat) (l : Launch) (j : Job) (va : Nat) (a : Acc)
    (f : State → Nat → Target → Option State) (h : ∀ u pa t, State.keeps u (f u pa t)) :
    s.keeps (s.translated c l j va a f) := by
  have hl := State.sameRegs_cores (State.sameRegs_refl s) (State.lookup_cores s c (c / 8) (c / 32) l.asid va a)
  unfold State.translated
  match s.lookup c (c / 8) (c / 32) l.asid va a, hl with
  | (u, .miss), hl => exact State.keeps_some (State.sameRegs_modCore hl _ _ (fun _ => rfl))
  | (u, .fault f), hl =>
    exact State.keeps_some (State.sameRegs_trans (State.sameRegs_cores hl (State.noteFault_cores _ _ _ _ _))
      (State.execFault_sameRegs _ _ _ _ _))
  | (u, .ok pa t), hl => exact State.keeps_after hl (h u pa t)

theorem State.beginStream_keeps (s : State) (c : Nat) (j : Job) : s.keeps (s.beginStream c j) := by
  have set (x : Job) := State.setJob_sameRegs s c x
  refine State.keeps_ite (State.keeps_none s) ?_
  split
  case h_5 =>
    dsimp only
    split
    · exact State.keeps_some (State.sameRegs_trans (State.sameRegs_cores (set _) (State.scratchRecord_cores _ _ _ _))
        (State.execFault_sameRegs _ _ _ _ _))
    · refine State.keeps_ite (State.keeps_some (State.sameRegs_trans (set _) (State.execFault_sameRegs _ _ _ _ _))) ?_
      refine State.keeps_some (State.sameRegs_trans (State.sameRegs_foldl (State.sameRegs_refl s) _ (fun u p => ?_) _)
        (State.setJob_sameRegs _ c _))
      exact State.sameRegs_ite (State.sameRegs_cores (State.sameRegs_refl u) (State.scrWrite_cores _ _ _ _))
        (State.sameRegs_refl u)
  all_goals first
    | exact State.keeps_some (set _)
    | exact State.keeps_none s

theorem State.openRead_keeps (s : State) (c : Nat) (j : Job) (pa n o : Nat) (g : Target) :
    s.keeps (s.openRead c j pa n o g) := by
  refine State.keeps_ite (State.keeps_none s) (State.keeps_some (State.sameRegs_cores ?_ (State.sendOut_cores _ _ _ _ _)))
  exact State.sameRegs_modCore (State.setJob_sameRegs s c _) _ _ (fun _ => rfl)

theorem State.openWrite_keeps (s : State) (c : Nat) (j : Job) (pa : Nat) (o : WOp) (g : Target) :
    s.keeps (s.openWrite c j pa o g) := by
  refine State.keeps_ite (State.keeps_none s) (State.keeps_some (State.sameRegs_cores ?_ (State.sendOut_cores _ _ _ _ _)))
  exact State.sameRegs_modCore (State.setJob_sameRegs s c _) _ _ (fun _ => rfl)

theorem State.sameRegs_draw (s : State) : s.sameRegs s.draw.1 :=
  State.sameRegs_cores (State.sameRegs_refl s) (State.draw_cores s)

theorem State.sendPiece_keeps (s : State) (c : Nat) (j : Job) (p : Piece) (rest : List Piece) (pa : Nat) (g : Target) :
    s.keeps (s.sendPiece c j p rest pa g) := by
  refine State.keeps_ite (State.keeps_none s) (State.keeps_ite (State.openRead_keeps s _ _ _ _ _ _)
    (State.keeps_ite (State.keeps_none s) ?_))
  dsimp only
  split
  · exact State.keeps_some (State.sameRegs_trans
      (State.sameRegs_cores (State.sameRegs_refl s) (State.scratchRecord_cores _ _ _ _)) (State.execFault_sameRegs _ _ _ _ _))
  · exact State.keeps_after (State.sameRegs_ite (State.sameRegs_draw s) (State.sameRegs_refl s))
      (State.openWrite_keeps _ _ _ _ _ _)

theorem State.sendMove_keeps (s : State) (c : Nat) (j : Job) (g : Prog) (m : Move1) (va pa : Nat) (x : Target) :
    s.keeps (s.sendMove c j g m va pa x) :=
  State.keeps_ite (State.keeps_none s) (State.keeps_ite (State.openRead_keeps s _ _ _ _ _ _)
    (State.keeps_ite (State.keeps_after (State.sameRegs_draw s) (State.openWrite_keeps _ _ _ _ _ _))
      (State.openWrite_keeps s _ _ _ _ _)))

theorem State.tryMove_keeps (s : State) (c : Nat) (l : Launch) (j : Job) (g : Prog) (m : Move1) :
    s.keeps (s.tryMove c l j g m) :=
  State.translated_keeps s c l j _ _ _ (fun u _ _ => State.sendMove_keeps u _ _ _ _ _ _ _)

theorem State.pumpProg_keeps (s : State) (c : Nat) (l : Launch) (j : Job) (g : Prog) : s.keeps (s.pumpProg c l j g) :=
  have move (o : Option Move1) := State.keeps_bind (o := o) (State.tryMove_keeps s c l j g)
  State.keeps_or (move _) (State.keeps_or (move _)
    (State.keeps_ite (State.keeps_some (State.setJob_sameRegs s c _)) (State.keeps_none s)))

theorem State.pumpPiece_keeps (s : State) (c : Nat) (l : Launch) (j : Job) : s.keeps (s.pumpPiece c l j) := by
  unfold State.pumpPiece
  split
  · exact State.keeps_none s
  · exact State.translated_keeps s c l j _ _ _ (fun u _ _ =>
      State.keeps_ite (State.keeps_some (State.execFault_sameRegs u _ _ _ _)) (State.sendPiece_keeps u _ _ _ _ _ _))

theorem State.pumpOne_keeps (s : State) (c : Nat) : s.keeps (s.pumpOne c) := by
  refine State.keeps_ite (State.keeps_none s) (State.keeps_bind fun l => State.keeps_bind fun j =>
    State.keeps_ite (State.beginStream_keeps s c j) ?_)
  split
  · exact State.pumpProg_keeps s c l j _
  · exact State.pumpPiece_keeps s c l j

theorem State.pump_sameRegs (s : State) (c n : Nat) : s.sameRegs (s.pump c n) := by
  induction n generalizing s with
  | zero => exact State.sameRegs_refl s
  | succ n ih =>
    simp only [State.pump]
    split
    · exact State.sameRegs_refl s
    · rename_i t h; exact State.sameRegs_trans (State.pumpOne_keeps s c t h) (ih t)

theorem State.lateJob_sameRegs (s : State) (c : Nat) (j : Job) : s.sameRegs (s.lateJob c j) := by
  simp only [State.lateJob]
  refine State.sameRegs_trans ?_ (State.finishJob_sameRegs _ _ _ _)
  refine State.sameRegs_modCore ?_ _ _ (fun _ => rfl)
  refine State.sameRegs_foldl (State.sameRegs_refl s) _ (fun u t => ?_) _
  exact State.sameRegs_ite (State.sameRegs_cores (State.sameRegs_refl u) (State.nominate_cores _ _ _ _))
    (State.sameRegs_refl u)

theorem State.endStreams_sameRegs (s : State) (c : Nat) : s.sameRegs (s.endStreams c) := by
  refine State.sameRegs_foldl (State.sameRegs_refl s) _ (fun u j => ?_) _
  refine State.sameRegs_ite (State.finishJob_sameRegs _ _ _ _) ?_
  exact State.sameRegs_ite (State.lateJob_sameRegs _ _ _) (State.sameRegs_refl u)

theorem Core.stop_regs (k : Core) : k.stop.regs = k.regs := by
  simp only [Core.stop]; split <;> rfl

theorem State.stopLaunch_sameRegs (s : State) (u n : Nat) : s.sameRegs (s.stopLaunch u n) := by
  simp only [State.stopLaunch]
  refine State.sameRegs_cores (State.sameRegs_mapVals (State.sameRegs_refl s) ?_ ?_) (u := State.modOp _ _ _) ?_
  case refine_3 => rw [State.modOp_cores, State.withWork_cores]
  intro k
  cases hk : k.launch with
  | none => rfl
  | some l =>
    dsimp only
    split
    · exact Core.stop_regs _
    · rfl

theorem State.partEnd_sameRegs (s : State) (c : Nat) : s.sameRegs (s.partEnd c) := by
  simp only [State.partEnd]
  split
  · exact State.sameRegs_refl s
  · refine State.sameRegs_cores ?_ (State.opCheck_cores _ _)
    refine State.sameRegs_ite (State.sameRegs_trans ?_ (State.stopLaunch_sameRegs _ _ _)) ?_
    all_goals
      refine State.sameRegs_cores ?_ (State.modOp_cores _ _ _)
      exact State.sameRegs_setCore (State.sameRegs_refl s) c _ rfl

theorem Core.endSync_regs (k : Core) (p : Nat) : (k.endSync p).regs = k.regs := Core.setP_regs k p _

theorem State.barCheck_sameRegs (s : State) (c : Nat) : s.sameRegs (s.barCheck c) := by
  simp only [State.barCheck]
  split
  · refine State.sameRegs_ite ?_ (State.sameRegs_refl s)
    refine State.sameRegs_foldl (State.sameRegs_refl s) _ (fun u d => ?_) _
    refine State.sameRegs_modCore (State.sameRegs_refl u) _ _ (fun k => ?_)
    split
    · exact Core.endSync_regs k _
    · rfl
  · exact State.sameRegs_refl s

theorem State.unblock_sameRegs (s : State) (c : Nat) : s.sameRegs (s.unblock c) := by
  simp only [State.unblock]
  split
  · refine State.sameRegs_ite ?_ (State.sameRegs_refl s)
    exact State.sameRegs_setCore (State.sameRegs_refl s) _ _ (Core.endSync_regs _ _)
  · exact State.barCheck_sameRegs s c
  · refine State.sameRegs_ite (State.sameRegs_trans ?_ (State.partEnd_sameRegs _ _)) (State.sameRegs_refl s)
    exact State.sameRegs_modCore (State.sameRegs_refl s) _ _ (fun _ => rfl)
  · refine State.sameRegs_ite (State.sameRegs_trans ?_ (State.partEnd_sameRegs _ _)) (State.sameRegs_refl s)
    exact State.sameRegs_modCore (State.sameRegs_refl s) _ _ (fun _ => rfl)
  · exact State.sameRegs_refl s

theorem State.settle_sameRegs (s : State) (c n : Nat) : s.sameRegs (s.settle c n) := by
  induction n generalizing s with
  | zero => exact State.unblock_sameRegs s c
  | succ n ih =>
    refine State.sameRegs_trans ?_ (ih _)
    exact State.sameRegs_trans (State.sameRegs_trans (State.sameRegs_trans (State.acceptWrites_sameRegs s c)
      (State.beginUnits_sameRegs _ c)) (State.pump_sameRegs _ c 4096)) (State.endStreams_sameRegs _ c)

/-- What follows an event on a core leaves every core's registers alone. -/
theorem State.after_sameRegs (s : State) (c : Nat) : s.sameRegs (s.after c) :=
  State.sameRegs_foldl (State.settle_sameRegs s c 8) _ State.unblock_sameRegs _

/-! ### On a core with nothing in flight nothing follows -/

theorem State.alike_setCore (s : State) (c : Nat) : s.alike (s.setCore c (s.core c)) := by
  refine ⟨rfl, fun d => ?_⟩
  rw [State.core_setCore]
  split
  · rename_i h; rw [h]
  · rfl

theorem Tbl.mem_erase {β : Type} (t : Tbl β) (k : Nat) (e : Nat × β) (h : e ∈ t.erase k) : e ∈ t := by
  induction t with
  | nil => exact h
  | cons x t ih =>
    obtain ⟨k', v⟩ := x
    simp only [Tbl.erase] at h
    split at h
    · exact List.mem_cons_of_mem _ (ih h)
    · cases h with
      | head => exact List.mem_cons_self
      | tail _ h => exact List.mem_cons_of_mem _ (ih h)

theorem Tbl.mem_put {β : Type} (t : Tbl β) (k : Nat) (v : β) (e : Nat × β) (h : e ∈ t.put k v) : e = (k, v) ∨ e ∈ t := by
  induction t with
  | nil => simpa [Tbl.put] using h
  | cons x t ih =>
    obtain ⟨k', v'⟩ := x
    simp only [Tbl.put] at h
    split at h
    · simpa using h
    · split at h
      · cases h with
        | head => exact .inl rfl
        | tail _ h => exact .inr (List.mem_cons_of_mem _ h)
      · cases h with
        | head => exact .inr List.mem_cons_self
        | tail _ h => exact (ih h).imp id (List.mem_cons_of_mem _)

/-- A core written keeps the module free of draining cores. -/
theorem State.quiet_setCore (s : State) (c : Nat) (k : Core) (h : s.quiet c) (hj : k.jobs = []) (hw : k.writes = [])
    (hb : k.block = .none) : (s.setCore c k).quiet c := by
  refine ⟨by simp [hj], by simp [hw], by simp [hb], fun e he => ?_⟩
  simp only [State.setCore, State.withCores_cores, Tbl.setD] at he
  split at he
  · exact h.2.2.2 e (Tbl.mem_erase _ _ _ he)
  · cases Tbl.mem_put _ _ _ _ he with
    | inl e => rw [e, hb]; exact fun h => by cases h
    | inr e => exact h.2.2.2 _ e

theorem State.quiet_self (s : State) (c : Nat) (h : s.quiet c) : (s.setCore c (s.core c)).quiet c :=
  State.quiet_setCore s c _ h h.1 h.2.1 h.2.2.1

theorem State.round_quiet (s : State) (c : Nat) (h : s.quiet c) :
    (((s.acceptWrites c).beginUnits c).pump c 4096).endStreams c = s.setCore c (s.core c) := by
  have h1 : s.acceptWrites c = s := by simp [State.acceptWrites, h.2.1]
  have h2 : s.beginUnits c = s.setCore c (s.core c) := by
    simp only [State.beginUnits, State.modCore, h.1, List.map_nil]
    conv_rhs => rw [show s.core c = { s.core c with jobs := (s.core c).jobs } from rfl, h.1]
  have hq := State.quiet_self s c h
  have h3 : (s.setCore c (s.core c)).pumpOne c = none := by
    have hh : ((s.setCore c (s.core c)).core c).streamHead = none := by simp only [Core.streamHead, hq.1, List.find?_nil]
    simp only [State.pumpOne, hh, Option.bind_none, Option.bind_fun_none, ite_self]
  have h4 : (s.setCore c (s.core c)).pump c 4096 = s.setCore c (s.core c) := by
    rw [show (4096 : Nat) = 4095 + 1 from rfl]; simp only [State.pump, h3]
  rw [h1, h2, h4]
  simp [State.endStreams, h.1]

theorem State.settle_quiet (s : State) (c n : Nat) (h : s.quiet c) :
    s.alike (s.settle c n) ∧ (s.settle c n).quiet c := by
  induction n generalizing s with
  | zero =>
    have e : s.settle c 0 = s := by simp [State.settle, State.unblock, h.2.2.1]
    rw [e]; exact ⟨⟨rfl, fun _ => rfl⟩, h⟩
  | succ n ih =>
    simp only [State.settle, State.round_quiet s c h]
    have i := ih _ (State.quiet_self s c h)
    have a := State.alike_setCore s c
    exact ⟨⟨i.1.1.trans a.1, fun d => (i.1.2 d).trans (a.2 d)⟩, i.2⟩

/-- After an event on a core with nothing in flight the module reads as before. -/
theorem State.after_quiet (s : State) (c : Nat) (h : s.quiet c) : s.alike (s.after c) := by
  have q := State.settle_quiet s c 8 h
  have e : (s.settle c 8).sweep = s.settle c 8 := by
    have hf : (s.settle c 8).cores.filter (fun _ k => k.block == .draining) = [] := by
      simp only [Tbl.filter, List.filter_eq_nil_iff]
      intro x hx
      simpa using q.2.2.2.2 x hx
    simp [State.sweep, hf]
  simp only [State.after, e]
  exact q.1

theorem State.settles_self (s : State) (c : Nat) : s.settles c := ⟨State.after_sameRegs s c, State.after_quiet s c⟩

end Sys2Proof.Machine
end

