-- ==== Sys2Proof/Laws/Issue.lean ====
section
/-! SUPPORT. Laws/Issue.lean: what the issue of a tile instruction can do, once for all instructions: a running core with
the instruction in its buffer waits, passes it over, raises, or runs it. -/

namespace Sys2Proof.Machine

@[simp] theorem Act.out_next (s t : State) : (Act.next t).out s = .next t := rfl

@[simp] theorem Act.out_stay (s : State) : Act.stay.out s = .next s := rfl

@[simp] theorem Act.out_ite (s : State) (p : Prop) [Decidable p] (a b : Act) :
    (if p then a else b).out s = if p then a.out s else b.out s := apply_ite (Act.out s) p a b

theorem whenPowered_running {s : State} (h : s.running) (k : Act) : whenPowered s k = k.out s := by
  simp [whenPowered, h.1, h.2]

/-- A unit whose rails are off does nothing. -/
theorem whenPowered_tripped {s : State} (hi : s.power.input = true) (ht : s.power.tripped = true) (k : Act) :
    whenPowered s k = .next s := by simp [whenPowered, hi, ht]

theorem whenHub_input {s : State} (h : s.power.input = true) (k : Act) : whenHub s k = k.out s := by simp [whenHub, h]

@[simp] theorem whenIt_true (k : Act) : whenIt true k = k := rfl

@[simp] theorem whenIt_false (k : Act) : whenIt false k = .stay := rfl

@[simp] theorem withSome_some {α : Type} (a : α) (k : α → Act) : withSome (some a) k = k a := rfl

@[simp] theorem withSome_none {α : Type} (k : α → Act) : withSome none k = .stay := rfl

/-- A buffered line is fetched without any effect. -/
theorem State.fetchLine_buffered (s : State) (c va : Nat) (l : Launch) (h : (s.core c).ibuf.contains (va / 128) = true) :
    s.fetchLine c va l = (s, none) := by
  simp only [State.fetchLine, h, if_true]

/-- A buffered instruction is fetched without any effect. -/
theorem State.fetch_buffered (s : State) (c : Nat) (h : Hdr) (l : Launch) (hb : s.buffered c h) :
    s.fetch c h l = (s, none) := by
  unfold State.fetch
  simp only [State.fetchLine_buffered s c _ l hb.1]
  split
  · rename_i hx
    simp only [Bool.and_eq_true, decide_eq_true_eq] at hx
    simp only [State.fetchLine_buffered s c _ l (hb.2 hx.1 hx.2)]
  · rfl

/-- Issue on a core that can issue: the choices that remain after the fetch. -/
theorem State.issue_can {s : State} {c : Nat} {l : Launch} (i : Ins) (faults : Core → Launch → IssueFaults)
    (body : State → Core → Launch → State) (h : s.canIssue c i.h l) :
    s.issue c i faults body =
      if i.illegal || i.h.reserved then
        .next ((s.issueFault c { code := excIllegal, pc := (s.core c).pc.toNat, va := 0, trap := 0 }).after c)
      else if !(s.core c).executes i.h then .next ((s.setCore c ((s.core c).past i.h)).after c)
      else if (s.core c).mustWait i then .next (s.hold c)
      else match (faults (s.core c) l).first with
        | some code => .next ((s.issueFault c
            { code := code, pc := (s.core c).pc.toNat
              va := if code = excAlign then (faults (s.core c) l).va else 0
              trap := if code = excTrap then (faults (s.core c) l).code else 0 }).after c)
        | none => .next ((body (s.setCore c ((s.core c).past i.h)) (s.core c) l).after c) := by
  obtain ⟨hp, hl, hb, ha, hbuf, hpr⟩ := h
  simp only [State.issue, whenPowered_running hp, hl, withSome_some, hb, State.fetch_buffered s c i.h l hbuf, hpr, ha,
    Core.past]
  cases (faults (s.core c) l).first <;> simp

/-- A core that can issue and whose instruction executes runs it when nothing is missing and nothing is wrong. -/
theorem State.issue_runs {s : State} {c : Nat} {l : Launch} (i : Ins) (faults : Core → Launch → IssueFaults)
    (body : State → Core → Launch → State) (h : s.canRun c i.h l) (hi : i.illegal = false)
    (hw : (s.core c).mustWait i = false) (hf : (faults (s.core c) l).first = none) :
    s.issue c i faults body = .next ((body (s.setCore c ((s.core c).past i.h)) (s.core c) l).after c) := by
  rw [State.issue_can i faults body h.1]
  simp [hi, h.2.1, h.2.2, hw, hf]

/-- A core whose issue is held stays where it is, whatever the instruction. -/
theorem State.issue_blocked {s : State} {c : Nat} (i : Ins) (faults : Core → Launch → IssueFaults)
    (body : State → Core → Launch → State) (hp : s.running) (hl : ((s.core c).launch).isSome)
    (hb : (s.core c).block ≠ .none) : s.issue c i faults body = .next (s.hold c) := by
  obtain ⟨l, hl⟩ := Option.isSome_iff_exists.mp hl
  simp [State.issue, whenPowered_running hp, hl, hb]

theorem State.onlyCore_refl (s : State) (c : Nat) : s.onlyCore s c := ⟨rfl, fun _ _ => rfl⟩

theorem State.onlyCore_setCore {s t : State} {c : Nat} (h : s.onlyCore t c) (k : Core) : s.onlyCore (t.setCore c k) c :=
  ⟨by simpa [State.setCore, State.withCores] using h.1, fun d hd => by
    rw [State.core_setCore_other _ _ _ _ hd, h.2 d hd]⟩

theorem State.onlyCore_modCore {s t : State} {c : Nat} (h : s.onlyCore t c) (f : Core → Core) :
    s.onlyCore (t.modCore c f) c := State.onlyCore_setCore h _

theorem State.core_modCore_same (s : State) (c : Nat) (f : Core → Core) : (s.modCore c f).core c = f (s.core c) := by
  simp [State.modCore]

/-- An instruction whose effect is on its own core alone. -/
theorem State.issuesTo_of {s : State} {c : Nat} {l : Launch} {k : Core} (x : Instr) (i : Ins)
    (faults : Core → Launch → IssueFaults) (body : State → Core → Launch → State) (hx : exec x s = s.issue c i faults body)
    (h : s.canRun c i.h l) (hi : i.illegal = false) (hw : (s.core c).mustWait i = false)
    (hf : (faults (s.core c) l).first = none)
    (hk : (body (s.setCore c ((s.core c).past i.h)) (s.core c) l).core c = k)
    (ho : s.onlyCore (body (s.setCore c ((s.core c).past i.h)) (s.core c) l) c) : s.issuesTo x c k := by
  refine ⟨_, ?_, hk, ho, State.settles_self _ c⟩
  rw [hx, State.issue_runs i faults body h hi hw hf]

/-- An instruction that raises at issue an exception its words or operands make (R695). -/
theorem State.raises_of {s : State} {c : Nat} {l : Launch} {code : Nat} (x : Instr) (i : Ins)
    (faults : Core → Launch → IssueFaults) (body : State → Core → Launch → State) (hx : exec x s = s.issue c i faults body)
    (h : s.canRun c i.h l) (hi : i.illegal = false) (hw : (s.core c).mustWait i = false)
    (hf : (faults (s.core c) l).first = some code) (hc : code ≠ excUncorrectable) :
    s.raises x c code (if code = excAlign then (faults (s.core c) l).va else 0)
      (if code = excTrap then (faults (s.core c) l).code else 0) := by
  refine ⟨s.issueFault c { code := code, pc := (s.core c).pc.toNat
                           va := if code = excAlign then (faults (s.core c) l).va else 0
                           trap := if code = excTrap then (faults (s.core c) l).code else 0 },
    ?_, ?_, State.settles_self _ c, ?_⟩
  · rw [hx, State.issue_can i faults body h.1]
    simp only [hi, h.2.1, h.2.2, hw, hf, Bool.or_false, Bool.not_true, Bool.false_eq_true, if_false]
  · simp only [State.issueFault, hc, if_false]
    exact State.onlyCore_modCore (State.onlyCore_refl s c) _
  · simp only [State.issueFault, hc, if_false, State.core_modCore_same]

end Sys2Proof.Machine
end

