-- ==== Sys2Proof/Laws/Mem.lean ====
section
/-! SUPPORT. Laws/Mem.lean: every memory operation keeps the canonical form of memory, and reads after writes. -/

namespace Sys2Proof.Machine

theorem Tbl.wf_filter {β : Type} [DecidableEq β] (d : Nat → β) (p : Nat → β → Bool) (t : Tbl β)
    (h : Tbl.wf d t = true) : Tbl.wf d (t.filter p) = true := by
  have key : ∀ (t : Tbl β) (lo : Nat), Tbl.risingFrom lo t = true → Tbl.proper d t = true →
      Tbl.risingFrom lo (t.filter p) = true ∧ Tbl.proper d (t.filter p) = true := by
    intro t
    induction t with
    | nil => intro lo _ _; exact ⟨rfl, rfl⟩
    | cons e t ih =>
      intro lo hr hp
      obtain ⟨k, v⟩ := e
      simp only [Tbl.risingFrom, Tbl.proper, Bool.and_eq_true, decide_eq_true_eq] at hr hp
      have h := ih (k + 1) hr.2 hp.2
      by_cases hk : p k v = true
      · have e : Tbl.filter p ((k, v) :: t) = (k, v) :: Tbl.filter p t := by simp [Tbl.filter, hk]
        rw [e]
        simp only [Tbl.risingFrom, Tbl.proper, Bool.and_eq_true, decide_eq_true_eq]
        exact ⟨⟨hr.1, h.1⟩, hp.1, h.2⟩
      · have e : Tbl.filter p ((k, v) :: t) = Tbl.filter p t := by simp [Tbl.filter, hk]
        rw [e]
        exact ⟨Tbl.risingFrom_mono _ _ _ (by omega) h.1, h.2⟩
  simp only [Tbl.wf, Tbl.rising, Bool.and_eq_true] at h ⊢
  exact key t 0 h.1 h.2

theorem Tbl.rising_filter {β : Type} (p : Nat → β → Bool) (t : Tbl β) (lo : Nat)
    (h : Tbl.risingFrom lo t = true) : Tbl.risingFrom lo (t.filter p) = true := by
  induction t generalizing lo with
  | nil => rfl
  | cons e t ih =>
    obtain ⟨k, v⟩ := e
    simp only [Tbl.risingFrom, Bool.and_eq_true, decide_eq_true_eq] at h
    by_cases hk : p k v = true
    · have e : Tbl.filter p ((k, v) :: t) = (k, v) :: Tbl.filter p t := by simp [Tbl.filter, hk]
      rw [e]
      simp only [Tbl.risingFrom, Bool.and_eq_true, decide_eq_true_eq]
      exact ⟨h.1, ih _ h.2⟩
    · have e : Tbl.filter p ((k, v) :: t) = Tbl.filter p t := by simp [Tbl.filter, hk]
      rw [e]
      exact Tbl.risingFrom_mono _ _ _ (by omega) (ih _ h.2)

theorem putBytes_wf (d : Nat → Byte) (t : Tbl Byte) (a : Nat) (bs : List Byte) (h : Tbl.wf d t = true) :
    Tbl.wf d (putBytes d t a bs) = true := by
  induction bs generalizing t a with
  | nil => exact h
  | cons b bs ih => exact ih _ _ (Tbl.wf_setD d t a b h)

theorem putPoison_wf (t : Tbl Bool) (xs : List Nat) (b : Bool) (h : Tbl.wf (fun _ => false) t = true) :
    Tbl.wf (fun _ => false) (putPoison t xs b) = true := by
  induction xs generalizing t with
  | nil => exact h
  | cons x xs ih => exact ih _ (Tbl.wf_setD _ t x b h)

theorem putBytes_getD_other (d : Nat → Byte) (t : Tbl Byte) (a x : Nat) (bs : List Byte)
    (h : x < a ∨ a + bs.length ≤ x) : (putBytes d t a bs).getD d x = t.getD d x := by
  induction bs generalizing t a with
  | nil => rfl
  | cons b bs ih =>
    simp only [List.length_cons] at h
    simp only [putBytes]
    rw [ih _ _ (by omega), Tbl.getD_setD_other d t a x b (by omega)]

theorem putBytes_getD_same (d : Nat → Byte) (t : Tbl Byte) (a i : Nat) (bs : List Byte) (h : i < bs.length) :
    (putBytes d t a bs).getD d (a + i) = bs[i] := by
  induction bs generalizing t a i with
  | nil => simp at h
  | cons b bs ih =>
    simp only [putBytes]
    cases i with
    | zero =>
      show (putBytes d (t.setD d a b) (a + 1) bs).getD d a = b
      rw [putBytes_getD_other d _ (a + 1) a bs (by omega), Tbl.getD_setD_same d t a b]
    | succ i =>
      have e : a + (i + 1) = a + 1 + i := by omega
      rw [e, ih _ _ _ (by simpa using h)]
      rfl

/-- The parts of the canonical form. -/
theorem Mem.wf_iff (m : Mem) : m.wf = true ↔ Tbl.wf m.blank m.bytes = true ∧ Tbl.wf (fun _ => false) m.poison = true
    ∧ Tbl.wf (fun _ => false) m.badWords = true ∧ Tbl.rising m.dirty = true ∧ Tbl.rising m.dir = true := by
  simp only [Mem.wf, Bool.and_eq_true]
  tauto

theorem State.homeWrite_wf (s : State) (pa : Nat) (bs : List Byte) (h : s.mem.wf = true) :
    (s.homeWrite pa bs).mem.wf = true := by
  rw [Mem.wf_iff] at h ⊢
  exact ⟨putBytes_wf _ _ _ _ h.1, putPoison_wf _ _ _ h.2.1, h.2.2.1, h.2.2.2⟩

theorem State.setPoison_wf (s : State) (secs : List Nat) (h : s.mem.wf = true) : (s.setPoison secs).mem.wf = true := by
  rw [Mem.wf_iff] at h ⊢
  exact ⟨h.1, putPoison_wf _ _ _ h.2.1, h.2.2⟩

theorem State.scrWrite_wf (s : State) (c o : Nat) (bs : List Byte) (h : s.mem.wf = true) :
    (s.scrWrite c o bs).mem.wf = true := by
  rw [Mem.wf_iff] at h ⊢
  exact ⟨putBytes_wf _ _ _ _ h.1, h.2.1, putPoison_wf _ _ _ h.2.2.1, h.2.2.2⟩

theorem State.scrSpoil_wf (s : State) (c o n : Nat) (h : s.mem.wf = true) : (s.scrSpoil c o n).mem.wf = true := by
  rw [Mem.wf_iff] at h ⊢
  exact ⟨h.1, h.2.1, putPoison_wf _ _ _ h.2.2.1, h.2.2.2⟩

theorem Tbl.proper_congr {β : Type} [DecidableEq β] (d e : Nat → β) (t : Tbl β)
    (h : ∀ k v, (k, v) ∈ t → d k = e k) (hp : Tbl.proper d t = true) : Tbl.proper e t = true := by
  induction t with
  | nil => rfl
  | cons x t ih =>
    obtain ⟨k, v⟩ := x
    simp only [Tbl.proper, Bool.and_eq_true, decide_eq_true_eq] at hp ⊢
    rw [← h k v (by simp)]
    exact ⟨hp.1, ih (fun k v m => h k v (by simp [m])) hp.2⟩

/-- Outside what is forgotten, an unlisted byte reads as before. -/
theorem Mem.forgetIn_blank (m : Mem) (u : Undef) (x : Nat) (h : u.covers x = false) :
    (m.forgetIn u).blank x = m.blank x := by
  have hf : ∀ l : List Undef,
      (l.filter (fun r => !(u.chan.isNone && u.first ≤ r.first && r.first + r.len ≤ u.first + u.len))).find?
        (fun r => r.covers x) = l.find? (fun r => r.covers x) := by
    intro l
    induction l with
    | nil => rfl
    | cons r l ih =>
      cases hr : (u.chan.isNone && decide (u.first ≤ r.first) && decide (r.first + r.len ≤ u.first + u.len)) with
      | true =>
        have hx : r.covers x = false := by
          simp only [Bool.and_eq_true, decide_eq_true_eq, Option.isNone_iff_eq_none] at hr
          simp only [Undef.covers, hr.1.1, Bool.and_true, Bool.and_eq_false_iff, decide_eq_false_iff_not] at h
          have : ¬ (r.first ≤ x ∧ x < r.first + r.len) := by omega
          simp only [Undef.covers, Bool.and_eq_false_iff, decide_eq_false_iff_not]
          exact .inl (by omega)
        rw [List.filter_cons_of_neg (by simp [hr]), List.find?_cons_of_neg (by simp [hx]), ih]
      | false =>
        rw [List.filter_cons_of_pos (by simp [hr]), List.find?_cons, List.find?_cons, ih]
  have hu : ((m.forgetIn u).undef).find? (fun r => r.covers x) = m.undef.find? (fun r => r.covers x) := by
    simp only [Mem.forgetIn]
    split
    · rfl
    · rw [List.find?_cons_of_neg (by simp [h])]
      exact hf m.undef
  simp only [Mem.blank, hu]

theorem Mem.forgetIn_wf (m : Mem) (u : Undef) (h : m.wf = true) : (m.forgetIn u).wf = true := by
  rw [Mem.wf_iff] at h ⊢
  refine ⟨?_, h.2.1, h.2.2.1, h.2.2.2⟩
  have hw := Tbl.wf_filter m.blank (fun x _ => !u.covers x) m.bytes h.1
  simp only [Tbl.wf, Bool.and_eq_true] at hw ⊢
  refine ⟨hw.1, Tbl.proper_congr m.blank _ _ ?_ hw.2⟩
  intro x v hx
  have hx := (List.mem_filter.mp hx).2
  exact (Mem.forgetIn_blank m u x (by simpa using hx)).symm

theorem Mem.forget_wf (m : Mem) (a n : Nat) (k : Option Nat) (h : m.wf = true) : (m.forget a n k).wf = true :=
  Mem.forgetIn_wf m _ h

theorem State.scrClear_wf (s : State) (c : Nat) (h : s.mem.wf = true) : (s.scrClear c).mem.wf = true := by
  have hf := Mem.forget_wf s.mem (windowBase c) 0x400000 none h
  rw [Mem.wf_iff] at hf ⊢
  exact ⟨hf.1, hf.2.1, Tbl.wf_filter _ (fun k _ => k < windowBase c / 8 || windowBase c / 8 + 0x80000 ≤ k) _ hf.2.2.1, hf.2.2.2⟩

/-- What a home write leaves of a byte of memory. -/
theorem State.homeWrite_rawByte_other (s : State) (pa x : Nat) (bs : List Byte)
    (h : localPart x < localPart pa ∨ localPart pa + bs.length ≤ localPart x) :
    (s.homeWrite pa bs).rawByte x = s.rawByte x := by
  simp only [State.rawByte, State.homeWrite, State.withMem_mem]
  exact putBytes_getD_other _ _ _ _ _ h

theorem State.homeWrite_rawByte_same (s : State) (pa i : Nat) (bs : List Byte) (h : i < bs.length)
    (hl : localPart (pa + i) = localPart pa + i) : (s.homeWrite pa bs).rawByte (pa + i) = bs[i] := by
  simp only [State.rawByte, State.homeWrite, State.withMem_mem, hl]
  exact putBytes_getD_same _ _ _ _ _ h

end Sys2Proof.Machine
end

