-- ==== Sys2Proof/Laws/Proof.lean ====
section
/-! SUPPORT. Laws/Proof.lean: the outcome of a proof run does not depend on the digest that all its units would form without a
fault (R540, R541). -/

namespace Sys2Proof.Machine

theorem bitVec_xor_left_beq (m x y : BitVec 64) : (m ^^^ x == m ^^^ y) = (x == y) := by
  rw [Bool.eq_iff_iff]
  simp

theorem option_xor_beq (m : BitVec 64) (x y : Option (BitVec 64)) :
    (x.map (m ^^^ ·) == y.map (m ^^^ ·)) = (x == y) := by
  cases x <;> cases y <;> simp [bitVec_xor_left_beq]

/-- Digests agree when what faults change in them does. -/
@[simp] theorem agree_digestsOf (seed : BitVec 64) (ds : List (BitVec 64)) : agree (digestsOf seed ds) = agree ds := by
  have h : ∀ d : BitVec 64, (((digestsOf seed ds).head? == some (proofDigest seed ^^^ d)) = (ds.head? == some d)) := by
    intro d
    rw [digestsOf, List.head?_map]
    exact option_xor_beq (proofDigest seed) ds.head? (some d)
  unfold agree
  have e : (digestsOf seed ds).all (fun d => (digestsOf seed ds).head? == some d)
      = ds.all (fun d => (digestsOf seed ds).head? == some (proofDigest seed ^^^ d)) := by
    rw [show digestsOf seed ds = ds.map (proofDigest seed ^^^ ·) from rfl, List.all_map]
    rfl
  rw [e]
  congr 1
  funext d
  exact h d

/-- The odd engine is the one that a fault changes otherwise than the others. -/
@[simp] theorem oddEngine_digestsOf (seed : BitVec 64) (ds : List (BitVec 64)) :
    oddEngine (digestsOf seed ds) = oddEngine ds := by
  have h : ∀ i j : Nat, ((digestsOf seed ds)[i]? == (digestsOf seed ds)[j]?) = (ds[i]? == ds[j]?) := by
    intro i j
    have := option_xor_beq (proofDigest seed) ds[i]? ds[j]?
    simpa [digestsOf] using this
  have n : ∀ i j : Nat, ((digestsOf seed ds)[i]? != (digestsOf seed ds)[j]?) = (ds[i]? != ds[j]?) := by
    intro i j
    simp only [bne, h]
  have l : (digestsOf seed ds).length = ds.length := by simp [digestsOf]
  unfold oddEngine
  simp only [h, n, l]

@[simp] theorem coreOutcome_digestsOf (s : State) (c : Nat) (seed : BitVec 64) (ds : List (BitVec 64)) :
    s.coreOutcome c (digestsOf seed ds) = s.coreOutcome c ds := by
  simp [State.coreOutcome]

theorem head_digestsOf (seed : BitVec 64) (a b : List (BitVec 64)) :
    ((digestsOf seed a).head? == (digestsOf seed b).head?) = (a.head? == b.head?) := by
  have := option_xor_beq (proofDigest seed) a.head? b.head?
  simpa [digestsOf] using this

/-- The outcome of a run is that of what faults change in its digests: the seed alone decides nothing. -/
theorem proofOutcome_eq (s : State) (r : ProofRun) (d : ProofDigests) : s.proofOutcome r d = s.outcomeOf r d := by
  unfold State.proofOutcome State.outcomeOf formedDigests
  simp only [coreOutcome_digestsOf, head_digestsOf, bitVec_xor_left_beq]

end Sys2Proof.Machine
end

