-- ==== Sys2Proof/Tests/Slice0.lean ====
section
/-! SUPPORT. Tests/Slice0.lean: tests of well-formedness, of decoding and of single steps, with results taken from the spec's
rules; and a witness for every statement that has hypotheses, clause by clause. -/

open Sys2Proof Sys2Proof.Machine

namespace Sys2Proof.Tests

-- One test after another: many at once would each hold a thread's stack.
set_option Elab.async false

/-! ### States the tests start from -/

/-- A launch in context 5. -/
def launchA : Launch :=
  { uid := 1, rank := 3, cores := 4, ctx := 5, gen := 7, node := 0, asid := 1, root := 0, twin := false }

/-- A module that has booted with every unit present: 512 GiB of HBM, 2 TiB of DRAM. -/
def base : State :=
  { State.reset with
    pop := { variant := .nwa1640, ad := 15, pd := 3, hs := 0xFFFF, dram := 0xFFFF, oe := 0xFF }
    peel := { State.reset.peel with h := 262144, d := 1048576 }
    boot := { State.reset.boot with phase := 2 } }

/-- The module without input power. -/
def off : State := base.withPower { base.power with input := false }

/-- `base` at a line and stroke. -/
def atTime (line stroke : Nat) : State := base.withRuling { base.ruling with line := line, stroke := stroke }

/-- `base` with registers as written. -/
def withReg (s : State) (rs : List (Nat × BitVec 64)) : State := rs.foldl (fun s r => s.setReg r.1 r.2) s

/-- A core that runs a launch, with the first lines of its program in its buffer. -/
def coreA : Core := { Core.init with launch := some launchA, ibuf := [0, 1, 2] }

/-- Core 0 in `base`. -/
def withCore (k : Core) : State := base.withCores [(0, k)]

/-- Scalar registers of a core. -/
def regsOf (rs : List (Nat × Word)) : Tbl Word := rs

/-- PRED 0, PNEG 0, no extension word: always executes. -/
def hdr : Hdr := { x := false, pred := 0, pneg := false }

/-- The header of an instruction with an extension word. -/
def hdrX : Hdr := { x := true, pred := 0, pneg := false }

/-- SCL with two registers. -/
def sclR (rd ra rb : BitVec 5) : SclF :=
  { h := hdr, rd := rd, ra := ra, rb := rb, imm := false, rsv := false, imm32 := 0, ext := 0 }

/-- SCL with an immediate. -/
def sclI (rd ra : BitVec 5) (b : BitVec 32) : SclF :=
  { h := hdr, rd := rd, ra := ra, rb := 0, imm := true, rsv := false, imm32 := b, ext := 0 }

/-- SCL with a 64-bit immediate in its extension word. -/
def sclX (rd ra : BitVec 5) (e : BitVec 64) : SclF :=
  { h := hdrX, rd := rd, ra := ra, rb := 0, imm := true, rsv := false, imm32 := 0, ext := e }

/-- CTL. -/
def ctl (ra : BitVec 5) (o : BitVec 24) : CtlF := { h := hdr, ra := ra, rsv := 0, offset := o }

/-- A descriptor (R158): format code, rows, elements, base and stride in bytes; the scales lie at `sb`. -/
def desc (fmt rows elems base stride sb : Nat) : BitVec 128 :=
  BitVec.ofNat 128 (fmt * 2 ^ 60 + (rows - 1) * 2 ^ 43 + (elems - 1) * 2 ^ 27 + base
    + (stride / 16 * 2 ^ 46 + sb) * 2 ^ 64)

/-- What a step leaves, or `false` where it stops. -/
def after (i : Instr) (s : State) (p : State → Bool) : Bool :=
  match exec i s with
  | .next t => p t
  | _ => false

/-- The number in a register of core 0. -/
def sNum (t : State) (r : Nat) : Nat := ((t.core 0).sreg r).toNat

/-- An operation of queue 0 on cores 0 and 1 that runs as launch `launchA`. -/
def opA : Op :=
  { uid := 1, die := 0, queue := 0, opcode := 1, flags := 0, ctx := 5, gen := 7, seq := 0, desc := [], phase := .running, accepted := 0,
    start := none, fin := none, pa := 0, va := 0, pa2 := 0, asid := 0, root := 0, block := [], cores := [0, 1], placed := [0, 1], waitSlot := [], check := none,
    excOrTimeout := none, exc := none, removed := none, poison := false, devTimeout := false, replayed := false, stopping := false,
    stopAt := none, subst := 0, errIndex := none, age := 0, energy := 0, openEnergy := 0, recipe := none, nodesStarted := [], nodesDone := []
    nodeCores := [], nodePlaced := [], parts := [], plan := [], dspTotal := 0, dspDeadline := 0, decided := false,
    signalled := false, hung := false, asked := none, expired := false }

/-- `base` with operations in flight. -/
def withOps (os : List Op) : State := base.withWork { base.work with ops := os, nextUid := 9 }

/-- The exception status core 0's operation has received. -/
def excNum (t : State) : Option Nat := (t.op? 1).bind Op.excOrTimeout

/-! ### Well-formedness -/

/-- One ill-formed command for each check, and a well-formed one beside it. -/
theorem smoke_ill_formed :
    (wellFormed (.sclAdd 128 (sclI 1 1 1)) = false ∧ wellFormed (.sclAdd 127 (sclI 1 1 1)) = true)
      ∧ (wellFormed (.sclAdd 0 { sclI 1 1 1 with ext := 1 }) = false ∧ wellFormed (.sclAdd 0 (sclX 1 1 1)) = true)
      ∧ (wellFormed (.stagedWrite 0x10000 3 0) = false ∧ wellFormed (.stagedWrite 0x10000 8 0) = true)
      ∧ (wellFormed (.stagedWrite 0x10000000 4 0) = false ∧ wellFormed (.rackFrame []) = false)
      ∧ (wellFormed (.windowAccess (.core 128) 0 1 none) = false ∧ wellFormed (.windowAccess .host 0 1 none) = true)
      ∧ (wellFormed (.windowAccess (.pd 2) 0 1 none) = false ∧ wellFormed (.windowAccess (.fe 4) 0 1 none) = false)
      ∧ (wellFormed (.windowAccess (.cluster 16) 0 1 none) = false ∧ wellFormed (.windowAccess (.remote 128) 0 1 none) = false)
      ∧ (wellFormed (.nonAllocatingRead (.tag 128 0) []) = false ∧ wellFormed (.nonAllocatingRead (.tag 127 0) []) = true)
      ∧ (wellFormed (.tmmaRetire 0 4 none) = false ∧ wellFormed (.tmmaRetire 0 3 none) = true)
      ∧ (wellFormed (.writeback 0 0 [(128, 0)] .none) = false ∧ wellFormed (.writeback 16 0 [(127, 0)] (.data 8 [4])) = false
      ∧ wellFormed (.evictionNotice 0 0 (.tag 8)) = false ∧ wellFormed (.writeback 21 0 [(127, 0)] .none) = true) := by
  decide +kernel

/-! ### Decoding: words written out from the tables of chapters 05 and 06 -/

/-- R166: class 0, OP 01H, RD 3, RA 1, RB 2; and OP 1BH with PRED 5 and PNEG. -/
theorem test_decode_scl :
    (decodeTile 0 0x0002308800000000 0 = (.sclSub 0 (sclR 3 1 2)))
      ∧ (decodeTile 0 0x05B6308800000000 0 = (.sclPandn 0 { sclR 3 1 2 with h := { x := false, pred := 5, pneg := true } })) := by
  decide +kernel

/-- R168: OP 01H with OFFSET −1; OP 02H with RA 4 and OFFSET 1. -/
theorem test_decode_ctl :
    (decodeTile 0 0x1004000000FFFFFF 0 = (.ctlB 0 (ctl 0 (-1))))
      ∧ (decodeTile 0 0x1008800000000001 0 = (.ctlLoop 0 (ctl 4 1))) := by
  decide +kernel

/-- R163: reserved classes and operation codes are no row's. -/
theorem test_decode_reserved :
    (tileRow 0 0xC000000000000000 0 = none ∧ tileRow 0 0xF000000000000000 0 = none)
      ∧ (tileRow 0 0x0006000000000000 0 = none ∧ tileRow 0 0x101C000000000000 0 = none)
      ∧ (tileRow 0 0x8050000000000000 0 = none ∧ tileRow 0 0x9040000000000000 0 = none) := by
  decide +kernel

/-! ### Scalar and control instructions -/

/-- Core 0 with s1 = −1, s2 = 5, s3 = 2^63. -/
def coreB : Core := { coreA with s := regsOf [(1, -1), (2, 5), (3, 0x8000000000000000)] }

/-- R166: sums are modulo 2^64; the PC moves on 8. -/
theorem test_add_wraps :
    after (.sclAdd 0 (sclR 4 1 2)) (withCore coreB) (fun t => sNum t 4 == 4 && (t.core 0).pc == 8) = true := by
  decide +kernel

theorem test_sub_borrows :
    after (.sclSub 0 (sclR 4 2 1)) (withCore coreB) (fun t => sNum t 4 == 6) = true := by
  decide +kernel

theorem test_mul_low_half :
    after (.sclMul 0 (sclR 4 1 1)) (withCore coreB) (fun t => sNum t 4 == 1) = true := by
  decide +kernel

/-- R166: the sign comes in from the left; counts are taken modulo 64. -/
theorem test_sar_sign :
    after (.sclSar 0 (sclI 4 3 127)) (withCore coreB) (fun t => sNum t 4 == 2 ^ 64 - 1) = true := by
  decide +kernel

theorem test_shl_count_mod_64 :
    after (.sclShl 0 (sclI 4 2 64)) (withCore coreB) (fun t => sNum t 4 == 5) = true := by
  decide +kernel

theorem test_min_signed :
    after (.sclMin 0 (sclR 4 2 1)) (withCore coreB) (fun t => sNum t 4 == 2 ^ 64 - 1) = true := by
  decide +kernel

theorem test_minu_unsigned :
    after (.sclMinu 0 (sclR 4 2 1)) (withCore coreB) (fun t => sNum t 4 == 5) = true := by
  decide +kernel

theorem test_immediate_sign_extends :
    after (.sclOr 0 (sclI 4 0 0x80000000)) (withCore coreB) (fun t => sNum t 4 == 0xFFFFFFFF80000000) = true := by
  decide +kernel

/-- R163: with X 1 the immediate is the extension word, and the instruction is 16 B long. -/
theorem test_extension_immediate :
    after (.sclAdd 0 (sclX 4 0 0x123456789ABCDEF0)) (withCore coreB) (fun t => sNum t 4 == 0x123456789ABCDEF0 && (t.core 0).pc == 16) = true := by
  decide +kernel

/-- R155: a write to s0 is ignored. -/
theorem test_s0_reads_zero :
    after (.sclAdd 0 (sclR 0 1 2)) (withCore coreB) (fun t => sNum t 0 == 0 && (t.core 0).s == coreB.s) = true := by
  decide +kernel

theorem test_cmplt_signed :
    after (.sclCmplt 0 (sclR 1 1 2)) (withCore coreB) (fun t => (t.core 0).preg 1) = true := by
  decide +kernel

theorem test_cmpltu_unsigned :
    after (.sclCmpltu 0 (sclR 1 1 2)) (withCore coreB) (fun t => !(t.core 0).preg 1) = true := by
  decide +kernel

/-- R157: register 4 is the ruled time: line in bits 63 to 16, stroke 15 to 12. -/
theorem test_rdsr_status_time :
    after (.sclRdsr 0 (sclI 4 0 4)) ((atTime 9 3).withCores [(0, coreA)]) (fun t => sNum t 4 == 9 * 65536 + 3 * 4096) = true := by
  decide +kernel

/-- R166: TDADJ adds modulo 2^22 and leaves the other fields. -/
theorem test_tdadj_wraps_base :
    after (.sclTdadj 0 (sclI 2 0 16)) (withCore { coreA with t := [(2, desc 0 2 3 0x3FFFF0 16 0)] })
      (fun t => (t.core 0).treg 2 == desc 0 2 3 0 16 0) = true := by
  decide +kernel

/-- R166: LDS of an address that is no multiple of 8 raises MISALIGNED. -/
theorem test_lds_misaligned :
    after (.sclLds 0 (sclI 4 0 4)) ((withOps [opA]).withCores [(0, coreB)]) (fun t => excNum t == some (0x100 + excAlign)) = true := by
  decide +kernel

theorem test_sts_then_lds :
    after (.sclSts 0 (sclI 2 0 8)) (withCore coreB) (fun t => t.scrRead 0 8 8 == [5, 0, 0, 0, 0, 0, 0, 0]) = true := by
  decide +kernel

/-- R164: p1 is 0, so the instruction has no effect and the PC moves on. -/
theorem test_predicate_skips :
    after (.sclAdd 0 { sclR 4 1 2 with h := { x := false, pred := 1, pneg := false } }) (withCore coreB)
      (fun t => sNum t 4 == 0 && (t.core 0).pc == 8) = true := by
  decide +kernel

/-- R168: the offset counts words from the branch itself. -/
theorem test_branch_back :
    after (.ctlB 0 (ctl 0 (-2))) (withCore { coreA with pc := 32 }) (fun t => (t.core 0).pc == 16) = true := by
  decide +kernel

/-- R170: the return stack holds eight addresses. -/
theorem test_call_ninth_level :
    after (.ctlCall 0 (ctl 0 4)) ((withOps [opA]).withCores [(0, { coreA with rets := [1, 2, 3, 4, 5, 6, 7, 8] })])
      (fun t => excNum t == some (0x100 + excStack)) = true := by
  decide +kernel

/-- R169: from the last word of the body the PC goes back to the first while passes are left. -/
theorem test_loop_body_runs_again :
    after (.ctlNop 0 (ctl 0 0)) (withCore { coreA with pc := 16, loops := [{ first := 8, last := 16, left := 2 }] })
      (fun t => (t.core 0).pc == 8 && (t.core 0).loops == [{ first := 8, last := 16, left := 1 }]) = true := by
  decide +kernel

/-- R163: a reserved bit that is not zero. -/
theorem test_reserved_bit_is_illegal :
    after (.ctlNop 0 { ctl 0 0 with rsv := 1 }) ((withOps [opA]).withCores [(0, coreA)]) (fun t => excNum t == some (0x100 + excIllegal)) = true := by
  decide +kernel

/-- R52, R510: without input power nothing acts. -/
theorem test_unpowered :
    (match exec (.sclAdd 0 (sclR 4 1 2)) (off.withCores [(0, coreA)]) with | .fault .noPower => true | _ => false) = true := by
  decide +kernel

/-! ### Witnesses: statements 1 to 6 -/

theorem witness_StepRunsFrontCommand :
    (base.withPending [.markEdge 0, .bootPlateTimeout]).pending = .markEdge 0 :: [.bootPlateTimeout] := by
  decide +kernel

/-- Stroke 14, the last that has a next one; stroke 15; no power; held in reset. -/
theorem witness_EmptyQueueAdvancesStroke :
    ((atTime 5 14).pending = [] ∧ (atTime 5 14).power.input = true ∧ (atTime 5 14).boot.phase ≠ 0 ∧ (atTime 5 14).ruling.stroke < 15)
      ∧ ((atTime 5 15).pending = [] ∧ 15 ≤ (atTime 5 15).ruling.stroke)
      ∧ (off.pending = [] ∧ off.power.input = false)
      ∧ (State.reset.pending = [] ∧ State.reset.boot.phase = 0) := by
  decide +kernel

theorem witness_NoPowerNothingHappens :
    (off.power.input = false ∧ base.power.input = true)
      ∧ (after .inputPowerOn off (fun t => t.power.input) = true) := by
  decide +kernel

theorem witness_TileWordsRoundTrip :
    wellFormed (.sclAdd 127 (sclX 31 31 (-1))) = true ∧ tileOf (.sclAdd 127 (sclX 31 31 (-1))) = some (127, hdrX)
      ∧ hdrX.reserved = false := by
  decide +kernel

/-! ### Witnesses: instructions of the cores -/

/-- A register, an immediate and an extension word; RD s0. -/
theorem witness_ScalarArithmetic :
    ((withCore coreB).canRun 0 hdr launchA ∧ sclLegal (sclR 4 1 2) ∧ ((withCore coreB).core 0).sclReady (sclR 4 1 2))
      ∧ ((withCore coreB).canRun 0 hdrX launchA ∧ sclLegal (sclX 31 31 (-1)) ∧ ((withCore coreB).core 0).sclReady (sclX 31 31 (-1)))
      ∧ (sclLegal (sclI 0 1 7) ∧ ((withCore coreB).core 0).sclReady (sclI 0 1 7) ∧ (sclI 0 1 7).rd = 0) := by
  unfold State.canRun State.canIssue State.running State.buffered sclLegal Core.sclReady; decide +kernel

/-- PNEG with a predicate that is 0, too. -/
theorem witness_ScalarPredicates :
    ((withCore coreB).canRun 0 hdr launchA ∧ sclLegal (sclR 7 1 2) ∧ ((withCore coreB).core 0).sclReady (sclR 7 1 2))
      ∧ ((withCore coreB).canRun 0 { x := false, pred := 7, pneg := true } launchA)
      ∧ (((withCore coreB).core 0).pendP 1 = false ∧ ((withCore coreB).core 0).pendP 2 = false) := by
  unfold State.canRun State.canIssue State.running State.buffered sclLegal Core.sclReady; decide +kernel

theorem witness_ScalarDescriptors :
    ((withCore coreB).canRun 0 hdr launchA ∧ sclLegal (sclI 15 0 5))
      ∧ (((withCore coreB).core 0).pendS 1 = false ∧ ((withCore coreB).core 0).pendS 2 = false)
      ∧ ((((withCore coreB).core 0).sclB (sclI 15 0 5)).toNat % 32 = 5 ∧ (((withCore coreB).core 0).sclB (sclI 15 0 31)).toNat % 32 = 31)
      ∧ ((((withCore coreB).core 0).sclB (sclI 15 0 6)).toNat % 32 = 6) := by
  unfold State.canRun State.canIssue State.running State.buffered sclLegal; decide +kernel

/-- The last word of the scratchpad, the first address beyond it, and a misaligned one. -/
theorem witness_ScratchLoadStore :
    ((withCore coreB).canRun 0 hdr launchA ∧ sclLegal (sclI 4 0 0x3FFFF8) ∧ ((withCore coreB).core 0).sclReady (sclI 4 0 0x3FFFF8))
      ∧ ((((withCore coreB).core 0).sreg 0 + ((withCore coreB).core 0).sclB (sclI 4 0 0x3FFFF8)).toNat = 0x3FFFF8)
      ∧ ((withCore coreB).scrBad 0 0x3FFFF8 8 = false ∧ ((withCore coreB).core 0).pendS 4 = false)
      ∧ ((((withCore coreB).core 0).sreg 0 + ((withCore coreB).core 0).sclB (sclI 4 0 0x400000)).toNat = 0x400000)
      ∧ ((((withCore coreB).core 0).sreg 0 + ((withCore coreB).core 0).sclB (sclI 4 0 1)).toNat % 8 ≠ 0) := by
  unfold State.canRun State.canIssue State.running State.buffered sclLegal Core.sclReady; decide +kernel

/-- Seven and eight return addresses; an empty loop stack and a full one; counts 0 and 1 of a loop. -/
theorem witness_ControlFlow :
    ((withCore coreB).canRun 0 hdr launchA ∧ (ctl 2 1).h.x = false ∧ (ctl 2 1).rsv = 0)
      ∧ ((withCore { coreA with rets := [1, 2, 3, 4, 5, 6, 7] }).canRun 0 hdr launchA
      ∧ (withCore { coreA with rets := [1, 2, 3, 4, 5, 6, 7, 8] }).canRun 0 hdr launchA)
      ∧ (((withCore coreB).core 0).rets = [] ∧ ((withCore coreB).core 0).loops = [] ∧ ((withCore coreB).core 0).pendS 2 = false)
      ∧ ((ctl 2 1).offset.toInt = 1 ∧ (ctl 2 0).offset.toInt < 1)
      ∧ ((((withCore coreB).core 0).sreg 2).toNat ≠ 0 ∧ (((withCore coreB).core 0).sreg 9).toNat = 0) := by
  unfold State.canRun State.canIssue State.running State.buffered; decide +kernel

/-- A body that ends with this word: two passes left, and one. -/
theorem witness_LoopBranchBack :
    (({ coreA with pc := 16, loops := [{ first := 8, last := 16, left := 2 }] } : Core).pc.toNat + 16 < 2 ^ 64)
      ∧ ((16 : Word).toNat + (if hdr.x then 8 else 0) = 16 ∧ (8 : Word).toNat + (if hdrX.x then 8 else 0) = 16)
      ∧ ((∀ o ∈ ([{ first := 0, last := 48, left := 3 }] : List LoopEnt), o.last ≠ 16 ∧ o.last ≠ 8)) := by
  decide +kernel

theorem witness_EndAndTrap :
    ((withCore coreB).canRun 0 hdr launchA)
      ∧ (((withCore coreB).core 0).jobs = [] ∧ ((withCore coreB).core 0).writes = [] ∧ (∀ h ∈ ((withCore coreB).cluster 0).held, h.core ≠ 0)) := by
  unfold State.canRun State.canIssue State.running State.buffered; decide +kernel

theorem witness_PredicatedIssue :
    ((withCore coreB).canIssue 0 { x := false, pred := 3, pneg := false } launchA)
      ∧ (((withCore coreB).core 0).executes { x := false, pred := 3, pneg := false } = false)
      ∧ (tileOf (.tmma 0 (tmmaFields 0x2300000000000000)) = some (0, { x := false, pred := 3, pneg := false }))
      ∧ ((withCore { coreA with block := .ending }).running ∧ ((withCore { coreA with block := .ending }).core 0).launch.isSome)
      ∧ (((withCore { coreA with block := .ending }).core 0).block ≠ .none)
      ∧ (tileOf (.ctlNop 0 { ctl 0 0 with h := { hdr with reserved := true } }) = some (0, { hdr with reserved := true })
      ∧ (withCore coreB).canIssue 0 { hdr with reserved := true } launchA) := by
  unfold State.canIssue State.running State.buffered; decide +kernel

/-- INT8 operands of 32 rows and 64 elements at 0 and 4,096, a readout tile, and a BF16 tile. -/
def coreT : Core :=
  { coreA with s := regsOf [(1, 0x1000), (2, 0x2000)], t := [(1, desc 0 32 64 0 64 0), (2, desc 0 32 64 4096 64 0), (3, desc 10 32 32 8192 128 0),
      (4, desc 9 1 16 0x4000 64 0), (5, desc 9 1 16 0x5000 64 0), (6, desc 7 2 16 0x6000 32 0)] }

/-- TMMA of engine 3, tile 7, operands t1 and t2. -/
def tmF (zero : Bool) (rpt : BitVec 8) : TmmaF :=
  { h := hdr, eng := 3, acc := 7, ta := 1, tb := 2, rpt := rpt, zero := zero, sk := 0, rsv := 0 }

theorem witness_TmmaIssue :
    ((withCore coreT).canRun 0 hdr launchA ∧ ((withCore coreT).core 0).free 3 [1, 2] [] ∧ ((withCore coreT).core 0).accHold 3 7 true = false)
      ∧ (((withCore coreT).core 0).pendS 0 = false ∧ (tmF true 0).rsv = 0)
      ∧ (((withCore coreT).tmmaFaults 0 (tmF true 0) ((withCore coreT).core 0) launchA).first = none)
      ∧ (((withCore coreT).tmmapFaults 0 (tmF false 0) ((withCore coreT).core 0) launchA).first = none)
      ∧ ((withCore coreT).rowsBad 0 0 0 1 256 = none)
      ∧ ((((withCore coreT).withRas { base.ras with units := [(keyOf 0 0 0 3, (2, 0))] }).enginePresent 0 3) = false) := by
  unfold State.canRun State.canIssue State.running State.buffered Core.free; decide +kernel

/-- VOP of FP32 rows: t5 = t4 op t4. -/
def vopF : VopF :=
  { h := hdr, td := 5, ts1 := 4, ts2 := 4, ts3 := 4, bc := 0, rs := 0, sat := false, sr := false, rsv := 0 }

theorem witness_VopIssue :
    ((withCore coreT).canRun 0 hdr launchA ∧ vopIllegal 0 vopF = false ∧ ((withCore coreT).core 0).free 4 (vopIns 0 vopF).reads [5])
      ∧ (vopFormatBad 0 vopF (tdOf (coreT.treg 5)) (tdOf (coreT.treg 4)) (tdOf (coreT.treg 4)) (tdOf (coreT.treg 4)) = false)
      ∧ (vopShapeBad 0 vopF (tdOf (coreT.treg 5)) (tdOf (coreT.treg 4)) (tdOf (coreT.treg 4)) (tdOf (coreT.treg 4)) = false)
      ∧ (vopBoundsBad 0 vopF (tdOf (coreT.treg 5)) (tdOf (coreT.treg 4)) (tdOf (coreT.treg 4)) (tdOf (coreT.treg 4)) = false)
      ∧ (vopIllegal 0x3F { vopF with td := 0, ts1 := 0, ts2 := 0, ts3 := 0, rs := 1 } = false ∧ ((withCore coreT).core 0).pendS 1 = false ∧ ((withCore coreT).core 0).room 4 = true) := by
  unfold State.canRun State.canIssue State.running State.buffered Core.free; decide +kernel

/-- Fields of TLD and TST of tile t6, address s1, rows at the row length. -/
def tldF : TldF :=
  { h := hdr, td := 6, ra := 1, rs := 0, mark := 0, scope := 0, sc := false, add := false, acc := false, eng := 0, atile := 0
    rsv := 0, ext := 0 }

/-- GATH of tile t6 by the indices of t5. -/
def gathF : GathF :=
  { h := hdr, td := 6, ti := 7, rp := 1, rl := 2, bsz := 0, mark := 0, scope := 0, rsv := 0, ext := 0 }

/-- A core with an INT32 index tile in t7 and an MX tile in t8. -/
def coreG : Core := { coreT with t := coreT.t ++ [(7, desc 10 1 2 0x7000 16 0), (8, desc 2 2 32 0x8000 32 0x9000)] }

/-- A row tile and a scale array; a deadline that has passed; every form of TST. -/
theorem witness_StreamMoveIssue :
    ((withCore coreG).canRun 0 hdr launchA ∧ extBad hdr 0 false = false ∧ ((withCore coreG).core 0).free 5 [] [6])
      ∧ (((withCore coreG).core 0).pendS 1 = false ∧ (∀ r ∈ extSrc hdr 0, ((withCore coreG).core 0).pendS r = false))
      ∧ ((tldFaults tldF coreG launchA).first = none ∧ (tldFaults { tldF with td := 8, sc := true } coreG launchA).first = none)
      ∧ ((withCore coreG).latePast coreG hdr 0 = false)
      ∧ ((withCore coreG).canRun 0 hdrX launchA ∧ extBad hdrX 0x8000000000000000 false = false
      ∧ ((atTime 1 0).withCores [(0, coreG)]).latePast coreG hdrX 0x8000000000000000 = true)
      ∧ ((gathFaults gathF coreG launchA).first = none ∧ ((withCore coreG).core 0).free 5 [7] [6] ∧ extBad hdr 0 true = false)
      ∧ (((withCore coreG).core 0).free 5 [6] [] ∧ addFormat (tdOf (coreG.treg 6)) = true
      ∧ (coreG.sreg 1).toNat % ((tdOf (coreG.treg 6)).width / 8) = 0 ∧ coreG.rowDist { tldF with add := true } (tdOf (coreG.treg 6)) % ((tdOf (coreG.treg 6)).width / 8) = 0) := by
  unfold State.canRun State.canIssue State.running State.buffered Core.free; decide +kernel

/-- ATOM on INT64 at s1. -/
def atomF : AtomF :=
  { h := hdr, fmt := 1, rd := 9, ra := 1, rb := 2, rc := 2, mark := 3, scope := 2, rsv := 0 }

/-- SIG of 8 B at s1. -/
def sigF : SigF := { h := hdr, w := true, ra := 1, rb := 2, mark := 2, scope := 2, rsv := 0 }

theorem witness_AtomSigIssue :
    ((withCore coreG).canRun 0 hdr launchA ∧ ((withCore coreG).core 0).room 5 = true ∧ ((withCore coreG).core 0).pendS 1 = false)
      ∧ ((atomF.fmt.toNat < 2 ∧ atomF.scope ≠ 3) ∧ (coreG.sreg 1).toNat % atomBytes (atomFmt atomF) = 0)
      ∧ ((({ coreG with s := regsOf [(1, 4)] } : Core).sreg 1).toNat % atomBytes (atomFmt atomF) ≠ 0)
      ∧ ((sigF.mark = 2 ∧ sigF.scope ≠ 3) ∧ (coreG.sreg 1).toNat % 8 = 0)
      ∧ (((withCore coreG).core 0).free 3 [] [3] ∧ ((withCore coreG).core 0).accHold 3 7 false = false)
      ∧ ((withCore coreG).engineOk 0 false 3 = true ∧ (tdOf (coreG.treg 3)).fmt = 10 ∧ (tdOf (coreG.treg 3)).badShape = false)
      ∧ ((tdOf (coreG.treg 3)).rows = 32 ∧ (tdOf (coreG.treg 3)).elems = 32 ∧ (tdOf (coreG.treg 3)).fits = true) := by
  unfold State.canRun State.canIssue State.running State.buffered Core.free; decide +kernel

/-- ATU CTL of die 0 enabled, with a leaf of ASID 1 that maps page 1 to page 1 for everything. -/
def withLeaf (s : State) : State :=
  (withReg s [(rAtu 0 0x8, 0x80000000)]).withXlat { s.xlat with
    l1 := [(0, [{ asid := 1, vpn := 1, pages := 1, ppn := 1, r := true, w := true, x := true, d := true, g := false }])] }

/-- WAITV of a 4 B word at s1 for a value equal to s2. -/
def waitF (x : Bool) (tp : BitVec 3) : WaitvF :=
  { h := if x then hdrX else hdr, cond := 0, w := false, ra := 1, rb := 2, mark := 0, scope := 0, tp := tp, rsv := 0, ext := 0 }

/-- SYNC. -/
def syncF (scope : BitVec 2) (sp : BitVec 3) : SyncF :=
  { h := hdr, scope := scope, bid := 3, rn := 2, sp := sp, rsv := 0 }

/-- Each scope of SYNC; a WAITV address that is aligned and one that is not; a translation that hits; both outcomes of COND. -/
theorem witness_WaitIssue :
    ((withCore coreT).canRun 0 hdr launchA ∧ (syncF 2 7).scope ≠ 3 ∧ (syncF 0 7).scope = 0 ∧ (syncF 1 7).scope = 1 ∧ (syncF 3 0).scope ≠ 1)
      ∧ (((withCore coreT).core 0).jobs = [] ∧ ((withCore coreT).core 0).pendS 2 = false ∧ (∀ e ∈ (withCore coreT).cores, e.2.block ≠ .draining))
      ∧ ((waitF false 1).cond.toNat < 6 ∧ (waitF false 1).mark.toNat < 2 ∧ extBad hdr 0 false = false)
      ∧ ((coreT.sreg 1).toNat % 4 = 0 ∧ (({ coreT with s := regsOf [(1, 3)] } : Core).sreg 1).toNat % 4 ≠ 0)
      ∧ ((withCore coreT).latePast coreT hdr 0 = false)
      ∧ ((((withLeaf (withCore coreT)).setCore 0 (coreT.past hdr)).lookup 0 0 0 1 0x1000 .watch).2 = .ok 0x1000 .tiered)
      ∧ ((withCore coreT).lineOpen 0 coreT.nextTag 0x1000 .tiered true = false)
      ∧ (condHolds 0 32 0 (coreT.sreg 2).toNat = false ∧ condHolds 0 32 0x2000 (coreT.sreg 2).toNat = true) := by
  unfold State.canRun State.canIssue State.running State.buffered; decide +kernel

/-- The job of a TMMA on the operands of `coreT`, begun. -/
def jobTmma : Job :=
  { coreT.job 3 (.tmma (tmF true 0) (coreT.treg 1) (coreT.treg 2) 0) [1, 2] [] with begun := true }

/-- Core 0 with begun instructions; rows 0 of both operands hold 1, −2 (INT8). -/
def runJobs (js : List Job) : State :=
  let s := withCore { coreT with jobs := js, nextSeq := 9 }
  (s.scrWrite 0 0 [1, 0xFE]).scrWrite 0 4096 [1, 0xFE, 3]

theorem witness_TmmaRetires :
    ((runJobs [jobTmma]).running ∧ ((runJobs [jobTmma]).core 0).launch = some launchA ∧ ((runJobs [jobTmma]).core 0).onEngine 3 false = some jobTmma)
      ∧ (jobTmma.tainted = false ∧ jobTmma.lp = none ∧ pairOf (tdOf (coreT.treg 1)) (tdOf (coreT.treg 2)) = some (.int8, .int8))
      ∧ ((tdOf (coreT.treg 1)).rows ≤ 32 ∧ (tdOf (coreT.treg 2)).rows ≤ 32)
      ∧ (((runJobs [jobTmma]).engineRun 0 jobTmma).1 = none) := by
  unfold State.running; decide +kernel

/-- R61: element (0, 0) is 1 × 1 + (−2) × (−2); ZERO starts from 0. -/
theorem test_tmma_int8_sum :
    after (.tmmaRetire 0 3 none) (runJobs [jobTmma]) (fun t => (t.core 0).accAt 3 7 0 0 == 5 && (t.core 0).jobs.isEmpty) = true := by
  decide +kernel

/-- R61: without ZERO the sum is added to what the tile holds. -/
theorem test_tmma_accumulates :
    after (.tmmaRetire 0 3 none) ((runJobs [{ jobTmma with kind := .tmma (tmF false 0) (coreT.treg 1) (coreT.treg 2) 0 }]).modCore 0
      (fun k => k.accPut 3 7 0 0 (-10))) (fun t => (t.core 0).accAt 3 7 0 0 == -5) = true := by
  decide +kernel

/-- The job of an addition of t4 to itself into t5, begun. -/
def jobVop : Job :=
  { coreT.job 4 (.vop 0 vopF (coreT.treg 5) (coreT.treg 4) (coreT.treg 4) (coreT.treg 4) 0 1) [4] [5] with begun := true }

/-- A readout of engine 3, tile 7, into t3, begun. -/
def jobRead : Job :=
  { coreT.job 3 (.readout { tldF with td := 3, eng := 3, atile := 7, acc := true } (coreT.treg 3)) [] [3] with begun := true }

theorem witness_TileResultsWritten :
    ((runJobs [jobVop]).running ∧ ((runJobs [jobVop]).core 0).jobs.find? (fun j => j.unit == 4 && j.begun) = some jobVop ∧ jobVop.tainted = false)
      ∧ ((runJobs [jobVop]).vopBad 0 0 vopF (tdOf (coreT.treg 5)) (tdOf (coreT.treg 4)) (tdOf (coreT.treg 4)) (tdOf (coreT.treg 4)) = none)
      ∧ ((tdOf (coreT.treg 5)).fits = true ∧ (tdOf (coreT.treg 5)).rowBytes ≤ (tdOf (coreT.treg 5)).stride ∧ (tdOf (coreT.treg 5)).rows = 1)
      ∧ (((runJobs [jobVop]).vopRows 0 0 vopF (tdOf (coreT.treg 5)) (tdOf (coreT.treg 4)) (tdOf (coreT.treg 4)) (tdOf (coreT.treg 4)) 0 1).1.length = 1
      ∧ ((runJobs [jobVop]).vopRows 0 0 vopF (tdOf (coreT.treg 5)) (tdOf (coreT.treg 4)) (tdOf (coreT.treg 4)) (tdOf (coreT.treg 4)) 0 1).2 = [])
      ∧ ((tdOf (coreT.treg 3)).fits = true ∧ (tdOf (coreT.treg 3)).rowBytes ≤ (tdOf (coreT.treg 3)).stride ∧ (tdOf (coreT.treg 3)).fmt = 10)
      ∧ ((runJobs [jobRead]).running ∧ ((runJobs [jobRead]).core 0).onEngine 3 true = some jobRead ∧ jobRead.tainted = false) := by
  unfold State.running; decide +kernel

/-- R113: 1.5 + 1.5 = 3.0 in FP32. -/
theorem test_vop_add_fp32 :
    after (.vopFinish 0) ((runJobs [jobVop]).scrWrite 0 0x4000 [0, 0, 0xC0, 0x3F]) (fun t => t.scrRead 0 0x5000 4 == [0, 0, 0x40, 0x40]) = true := by
  decide +kernel

/-! ### The stream unit's events -/

/-- A read tag of job 4 for 8 B at tiered address 1,024 into offset 64, served or not. -/
def tagR (served : Option (List Byte × List Nat)) : RTag :=
  { tag := 2, job := 4, pa := 1024, len := 8, off := 64, target := .tiered, served := served, missed := false, sent := 0
    dead := false, early := false }

/-- A TLD with number 4. -/
def jobTld : Job := { coreG.job 5 (.tld tldF (coreG.treg 6) 0x1000 32) [] [6] with seq := 4, begun := true, planned := true }

/-- Core 0 with a running TLD and read tags. -/
def reading (ts : List RTag) (js : List Job) : State := withCore { coreG with jobs := js, reads := ts, nextSeq := 9, nextTag := 9 }

/-- Eight bytes. -/
def eight : List Byte := [1, 2, 3, 4, 5, 6, 7, 8]

/-- The program COPY, one piece of which awaits what tag 2 brings. -/
def progA : Prog := { idx := 1, args := [], next := 0, step := 1, moves := [{ src := some 0x1000, dst := 64, len := 8, bytes := [], asked := true }] }

/-- Its job. -/
def jobBlt : Job := { jobTld with kind := .builtin progA, writes := [] }

/-- A tag whose device has not answered since line 0. -/
def tagDev : RTag := { tagR none with target := .remote 9, pa := 9 * 2 ^ 49 }

/-- Data for a live tag, up to the end of the scratchpad; a dead tag; a timeout after 64 strokes. -/
theorem witness_ReadData :
    ((tagR none).target = .tiered ∧ (∀ j ∈ [jobTld], ∀ g, j.kind ≠ .builtin g))
      ∧ ((reading [tagR (some (eight, []))] [jobTld]).running ∧ (reading [tagR (some (eight, []))] [jobTld]).rtag 0 2 = some (tagR (some (eight, []))))
      ∧ ((tagR none).off + (tagR none).len ≤ scratchSize ∧ ({ tagR none with off := 0x3FFFF8 } : RTag).off + 8 = scratchSize)
      ∧ ((∀ j ∈ [jobTld], j.seq = 4 → j.tainted = false) ∧ (∀ j ∈ [jobTld], j.seq = 4 → j.deadline.all (fun d => !base.reached d) = true))
      ∧ ((reading [{ tagR none with dead := true }] []).rtag 0 2 = some { tagR none with dead := true })
      ∧ (((reading [tagDev] [jobTld]).withRuling (atTime 4 0).ruling).rtag 0 2 = some tagDev)
      ∧ (((reading [tagDev] [jobTld]).withRuling (atTime 4 0).ruling).timedOut (.remote 9) 0 = true ∧ jobTld.deadline = none)
      ∧ (((reading [tagR (some (eight, []))] [jobBlt]).core 0).jobs.find? (fun j => j.seq == 4) = some jobBlt ∧ jobBlt.deadline = none)
      ∧ (progA.step ≠ 0 ∧ jobBlt.kind = .builtin progA) := by
  repeat' apply And.intro
  all_goals first
    | decide +kernel
    | (intro j hj g; simp only [List.mem_singleton] at hj; subst hj; exact nofun)

/-- R133: the bytes reach the scratchpad and the tag is free. -/
theorem test_read_data_lands :
    after (.streamDataArrival 0 2 none) (reading [tagR (some (eight, []))] [jobTld])
      (fun t => t.scrRead 0 64 8 == eight && (t.core 0).reads.isEmpty) = true := by
  decide +kernel

/-- A write tag of job 4. -/
def tagW (t : Target) (st : WStage) (old : Option Nat) : WTag :=
  { tag := 3, job := 4, pa := 1024, op := .store eight, target := t, scope := 2, vol := true, ordered := false, stage := st
    sent := 0, old := old }

/-- Core 0 with an ATOM into s9 and a write tag. -/
def writing (w : WTag) : State :=
  withCore { coreG with jobs := [{ jobTld with kind := .atom .add atomF 1024 1 0, rd := some 9 }], writes := [w], nextSeq := 9, nextTag := 9 }

theorem witness_WriteEnds :
    ((writing (tagW .tiered .performed (some 7))).running ∧ (writing (tagW .tiered .performed (some 7))).wtag 0 3 = some (tagW .tiered .performed (some 7)))
      ∧ ((∀ j ∈ ((writing (tagW .tiered .performed (some 7))).core 0).jobs, j.seq = 4 → j.tainted = false))
      ∧ (((writing (tagW .tiered .performed none)).wtag 0 3).map WTag.old = some none)
      ∧ (((writing (tagW .host .sent none)).withCxl { base.cxl with session := true }).wtag 0 3 = some (tagW .host .sent none))
      ∧ ((writing (tagW .tiered .performed (some 7))).heldDone 0 3 = true)
      ∧ ((writing (tagW .host .sent none)).timedOut .host 0 = true ∧ (writing (tagW .host .sent none)).recordsOff
      ∧ (writing (tagW .host .sent none)).regN (rFe 0 0xA00) < 2 ^ 32) := by
  unfold State.running State.recordsOff; decide +kernel

/-- R190: RD receives the old value. -/
theorem test_atom_old_value :
    after (.writeAck 0 3 none) (writing (tagW .tiered .performed (some 7))) (fun t => sNum t 9 == 7) = true := by
  decide +kernel

/-- `base` with a route to node 9. -/
def routed : State := base.withLinks { base.links with routes := [(9, 0x8000000080000000)] }

/-- A read of another node that a WAITV has sent at stroke 0. -/
def readOut : WaitRead := { pa := 9 * 2 ^ 49, target := .remote 9, sent := 0 }

/-- Core 0 in a WAITV with a deadline at stroke 16. -/
def waitingOn (o : Option WaitRead) : State :=
  withCore { coreT with block := .waitv { waitF true 0 with ext := 0x4000000000000000 } 0x1000 0 (some 16) o }

/-- COND reached and not reached; a word in memory, in a window and of another node; reads that wait and that time out; a deadline of a WAITV and of a TLD; a walk. -/
theorem witness_WaitsEnd :
    ((((withLeaf (withCore coreT)).setCore 0 (coreT.past hdr)).lookup 0 0 0 1 0x1000 .watch).2 = .ok 0x1000 .tiered)
      ∧ ((withCore coreT).waitOver none = false ∧ (withCore coreT).waitvReady 0 0x1000 .tiered = true ∧ (withCore coreT).waitvReady 0 0x060000000008 (.window 0) = true)
      ∧ (((withCore coreT).homeRead 0x1000 4).anyPoison 0x1000 4 = false ∧ ((withCore coreT).windowLoad 0 8 4 (.tile 0xB 0 (some launchA))).2.2 = false)
      ∧ (condHolds 0 32 0 (coreT.sreg 2).toNat = false ∧ condHolds 0 32 0x2000 (coreT.sreg 2).toNat = true)
      ∧ ((waitingOn none).waitOver (some 16) = false ∧ ((waitingOn none).withRuling (atTime 1 0).ruling).waitOver (some 16) = true)
      ∧ ((withCore { coreT with writes := [] }).waitvReady 0 (9 * 2 ^ 49) (.remote 9) = true)
      ∧ (((waitingOn (some readOut)).core 0).block = .waitv { waitF true 0 with ext := 0x4000000000000000 } 0x1000 0 (some 16) (some readOut) ∧ (routed.withCores (waitingOn (some readOut)).cores).timedOut (.remote 9) 0 = false)
      ∧ (((waitingOn (some { readOut with sent := 2 ^ 52 - 64 })).timedOut (.remote 9) (2 ^ 52 - 64)) = true ∧ ([1, 2, 3, 4] : List Byte).length = waitvBits (waitF true 0) / 8)
      ∧ ((waitF true 0).h.x = true ∧ (extOf 0x4000000000000000).dlm ≠ 0 ∧ ((waitingOn none).core 0).lateCount ≤ 65535)
      ∧ ((withCore { coreT with block := .waitv (waitF false 0) 0x1000 0 none none }).running)
      ∧ (((withCore { coreT with block := .waitv (waitF false 0) 0x1000 0 none none }).core 0).block = .waitv (waitF false 0) 0x1000 0 none none)
      ∧ ((atTime 1 0).reached 16 = true ∧ (atTime 1 0).reached 17 = false ∧ (extOf 0x4000000000000000).dlm ≠ 0)
      ∧ (((reading [] [{ jobTld with deadline := some 0 }]).core 0).jobs.find? (fun x => x.seq == 4) = some { jobTld with deadline := some 0 })
      ∧ ((reading [] [jobTld]).reached 0 = true ∧ (reading [] [jobTld]).recordsOff ∧ ((reading [] [jobTld]).core 0).lateCount ≤ 65535)
      ∧ (((withCore { coreG with jobs := [{ jobTld with planned := false }], walk := some 0x1000 }).core 0).streamHead = some { jobTld with planned := false }) := by
  unfold State.running State.recordsOff; decide +kernel

/-- A staged launch of fifteen arguments and sixteen descriptors. -/
def stagedA : Staged :=
  { launch := launchA, entry := 0x4000, args := (upFrom 1 15).map (BitVec.ofNat 64), tds := (upFrom 0 16).map (BitVec.ofNat 128)
    set := 1, inlOff := 0, inl := [] }

theorem witness_LaunchStartRegisters :
    ((withCore { Core.init with staged := [stagedA] }).running ∧ ((withCore { Core.init with staged := [stagedA] }).core 0).staged = stagedA :: [])
      ∧ ((withCore { Core.init with staged := [stagedA] }).coreFree 0 = true ∧ (withCore { Core.init with staged := [stagedA] }).hangHolds 0 5 = false)
      ∧ (stagedA.args.length = 15 ∧ stagedA.tds.length = 16 ∧ base.power.gated = [] ∧ (withCore { Core.init with staged := [stagedA] }).rowsDone 1 = true)
      ∧ ((∀ o ∈ (withCore { Core.init with staged := [stagedA] }).work.ops, ∀ w ∈ o.waitSlot, w.1 ≠ 0)) := by
  unfold State.running; decide +kernel

/-- R156: s1 to s15 hold the arguments, s16 is zero, the PC is the entry. -/
theorem test_launch_arguments :
    after (.launchStart 0) (withCore { Core.init with staged := [stagedA] })
      (fun t => sNum t 15 == 15 && sNum t 16 == 0 && (t.core 0).pc == 0x4000 && (t.core 0).treg 15 == 15) = true := by
  decide +kernel

/-! ### Scratchpad windows -/

/-- The first and the last byte of the window of core 127. -/
theorem witness_WindowPorts :
    (base.running ∧ base.power.gated = [] ∧ base.windowOf 0x060000000000 = some (0, 0) ∧ base.windowOf 0x06001FFFFFFF = some (127, 0x3FFFFF))
      ∧ (0x3FFFFF + 1 ≤ scratchSize ∧ base.rowsBad 127 0x3FFFFF 0 1 1 = none)
      ∧ (base.windowOf 0x060000000008 = some (0, 8) ∧ 0x060000000008 % atomBytes .i64 = 0 ∧ base.rowsBad 0 8 0 1 8 = none)
      ∧ ((base.withPop { base.pop with ad := 7 }).windowOf 0x06001FFFFFFF = none ∧ nodePart 0x06001FFFFFFF = base.node ∧ inWindows 0x06001FFFFFFF = true)
      ∧ ((base.withPop { base.pop with ad := 7 }).hartMay (.hart 95 { off := 0, n := 0 }) 0x06001FFFFFFF 1 true false = true)
      ∧ (base.hartMay (.hart 0 { off := 0, n := 0 }) 0x060000000008 8 false true = true ∧ base.hartMay .host 0x060000000008 8 true true = true)
      ∧ (base.hartMay (.hart 0 { off := 0, n := 0, vec := some 31 }) 0x060000000008 8 true false = true)
      ∧ ((base.scrSpoil 0 8 1).rowsBad 0 8 0 1 1 ≠ none ∧ (base.scrSpoil 0 8 1).windowOf 0x060000000008 = some (0, 8)
      ∧ (base.scrSpoil 0 8 1).hartMay (.hart 0 { off := 0, n := 0 }) 0x060000000008 1 true false = true)
      ∧ (base.corePresent 0 = true ∧ 32767 < 32768 ∧ (∀ e ∈ ([] : List EccHit), e.place < 16) ∧ base.recordsOff) := by
  unfold State.running State.recordsOff; decide +kernel

theorem test_window_write :
    after (.windowAccess (.fe 0) 0x060000400010 0 (some eight)) base (fun t => t.scrRead 1 16 8 == eight) = true := by
  decide +kernel

/-- R150: the port answers the old value and stores the sum. -/
theorem test_window_atomic_add :
    after (.windowAtomic .host 0x060000000008 .add .i32 5 0) (base.scrWrite 0 8 [255, 255, 255, 255])
      (fun t => t.scrRead 0 8 4 == [4, 0, 0, 0] && (t.out.head?.map Output.args) == some [22, 0x060000000008, 0xFFFFFFFF]) = true := by
  decide +kernel

/-! ### Homes, caches and the host's copies -/

/-- `base` with a directory entry for line 8. -/
def withDir (o : Option Nat) (sh : BitVec 32) : State := base.withMem { base.mem with dir := [(8, { owner := o, sharers := sh })] }

/-- A queue of die 0 whose doorbell word lies in line 8. -/
def watchQ : Queue :=
  { die := 0, state := .running, cfg := { QCtx.init with dbAddr := 1024 }, head := 0, tail := 0, cause := 0, dbStale := false, rereads := 0
    ready := false, desc := [], poison := false, cqCount := 0, cqHead := 0, fbCount := 0, heldCq := [], left := .free, rearm := false
    holdUntil := none, holdPend := false, prefs := [0, 0, 0, 0] }

/-- The first and the last line of tiered memory; every kind of sender; shared by nobody, and by cluster 2. -/
theorem witness_HomeRequests :
    (base.running ∧ base.tieredLine 0 = true ∧ base.tieredLine (base.tieredEnd / 128 - 1) = true ∧ base.tieredLine (base.tieredEnd / 128) = false)
      ∧ (base.homeFree 8 ∧ (withDir none 4).homeFree 8 ∧ base.recordsOff ∧ base.mem.flaws = [] ∧ (base.poisoned 35 = false ∧ 35 / 4 = 8))
      ∧ (base.watchesLine 0 8 = false ∧ (base.withWork { base.work with queues := [(3, { watchQ with die := 3 })] }).watchesLine 3 8 = true
      ∧ (base.withWork { base.work with queues := [(3, { watchQ with die := 3 })] }).homeFree 8)
      ∧ (base.hartAsks 95 { off := 0, n := 0 } 8 = true ∧ base.hartAsks 95 { off := 8, n := 8 } 8 = true ∧ base.dieAsks 1 = true)
      ∧ (base.clusterPresent 15 = true ∧ (base.cluster 15).has 8 = false)
      ∧ ((reading [{ tagR none with missed := true }] [jobTld]).homeFree 8 ∧ (∀ t ∈ ((reading [{ tagR none with missed := true }] [jobTld]).core 0).reads, t.early = false)
      ∧ (∃ t ∈ ((reading [{ tagR none with missed := true }] [jobTld]).core 0).reads, t.missed = true ∧ t.served = none ∧ localPart t.pa / 128 = 8))
      ∧ ((base.setPoison [35]).anyPoison 1144 8 = true ∧ (base.setPoison [35]).homeFree 8)
      ∧ ((base.dirOf 8).owner = none ∧ (base.dirOf 8).sharers = 0 ∧ (∀ e ∈ base.mem.dirty, e.1 / 128 ≠ 8))
      ∧ (base.adPresent 3 = true ∧ (base.withCxl { base.cxl with session := true }).cxl.session = true)
      ∧ ((withDir none 4).busy 8 = false ∧ (withDir none 4).mem.dir.length < 16 ∧ ((withDir none 4).dirOf 8).owner = none)
      ∧ (base.inTiered 1151 1 = true ∧ localPart 1151 / 128 = 8 ∧ 1151 % 128 + 1 ≤ 128 ∧ base.hartMay (.hart 95 { off := 0, n := 0 }) 1151 1 false true = true)
      ∧ (1144 % atomBytes .i64 = 0 ∧ base.inTiered 1144 8 = true ∧ base.anyPoison 1144 8 = false ∧ base.hartMay .host 1144 8 true true = true) := by
  repeat' apply And.intro
  all_goals decide +kernel

/-- R338: processor die 1 is caching agent 17. -/
theorem test_read_shared_enters_sharer :
    after (.readShared (.pd 1) 8 []) base (fun t => t.dirOf 8 == { owner := none, sharers := 0x20000 }) = true := by
  decide +kernel

/-- R340: a die's modified byte reaches memory when the host takes the line for itself. -/
theorem test_read_own_of_modified_line :
    after (.readOwn .host 8 []) (((withDir (some 16) 0).withMem { (withDir (some 16) 0).mem with dirty := [(1030, 7)] }).withCxl { base.cxl with session := true })
      (fun t => t.mem.txns.length == 1 && after (.ownerForward 8 true) t (fun u => u.rawByte 1030 == 7 && u.dirOf 8 == { owner := some 22, sharers := 0 })) = true := by
  decide +kernel

/-- Line 8 owned by processor die 0, with a transaction that waits for two answers. -/
def withTxn (o : Option Nat) (waits : List Nat) : State :=
  (withDir o 0).withMem { (withDir o 0).mem with txns := [{ req := { line := 8, kind := .readShared, who := .host, e := [] }, waits := waits }] }

/-- Line 8 owned by processor die 1, which has modified byte 1,030. -/
def dirtyS (sh : BitVec 32) : State := (withDir (some 17) sh).withMem { (withDir (some 17) sh).mem with dirty := [(1030, 7)] }

/-- Line 8 as a line of the host, held by an agent. -/
def heldHost (i : Nat) : State := base.withMem { base.mem with tracker := [(8, { owner := some i, sharers := 0 })] }

/-- Cluster 15, the host, and an owner as the one that answers. -/
theorem witness_HomeAnswers :
    ((withDir (some 22) 0).running ∧ (withDir (some 22) 0).busy 8 = false ∧ (withDir (some 22) 0).ownsLine 22 8 = true ∧ 8 < 2 ^ 42)
      ∧ ((dirtyS 0).ownsLine 17 8 = true ∧ (dirtyS 0).busy 8 = false ∧ (dirtyS 0).mem.lost.contains 8 = false ∧ (dirtyS 0).tracked 8 = none)
      ∧ ((∀ x ∈ (dirtyS 0).mem.dirty, x.1 < 2 ^ 49) ∧ Tbl.rising (dirtyS 0).mem.dirty = true ∧ (dirtyS 0).power.gated = [] ∧ (dirtyS 0).recordsOff)
      ∧ ((dirtyS 0).modifiedBy 1 8 = true ∧ (heldHost 16).ownsLine 16 8 = true ∧ ((heldHost 16).tracked 8).isSome = true)
      ∧ ((heldHost 16).busy 8 = false ∧ (heldHost 16).ownsLine 15 8 = false ∧ (withDir none 4).ownsLine 15 8 = false ∧ (withDir none 4).busy 8 = false)
      ∧ (((withDir none 4).cluster 15).has 8 = false ∧ ((withDir none 4).dirOf 8).owner ≠ some 15)
      ∧ ((withTxn none [15, 22]).mem.txns.find? (fun t => t.req.line == 8 && t.waits.contains 15)
      = some { req := { line := 8, kind := .readShared, who := .host, e := [] }, waits := [15, 22] })
      ∧ (([15, 22] : List Nat).filter (fun w => w != 15) ≠ [] ∧ ([15, 22] : List Nat).filter (fun w => w != 22) ≠ [])
      ∧ ((∀ t ∈ (withTxn none [15, 22]).mem.txns, t.req.line = 8 → t = { req := { line := 8, kind := .readShared, who := .host, e := [] }, waits := [15, 22] }))
      ∧ (([16] : List Nat).filter (fun w => w != 16) = [] ∧ (withTxn (some 16) [16]).mem.waitq = []
      ∧ ((withTxn (some 16) [16]).withMem { (withTxn (some 16) [16]).mem with dirty := [(1030, 7)] }).modifiedBy 0 8 = true)
      ∧ (((withTxn (some 16) [3, 16]).dirOf 8).owner = some 16 ∧ ((withTxn (some 22) [3, 22]).dirOf 8).owner = some 22 ∧ (withTxn (some 22) [3, 22]).recordsOff)
      ∧ ((withDir (some 22) 0).recordsOff ∧ (withDir none 4).mem.lost.contains 8 = false ∧ (∀ x ∈ (withDir none 4).mem.dirty, x.1 / 128 ≠ 8)) := by
  unfold State.running State.recordsOff; decide +kernel

/-- The slots of every cluster have room for what they displace. -/
theorem witness_HomeAnswers_victims : ∀ k, ((withTxn (some 16) [16]).cluster k).victims.length < 512 := fun _ => by
  show 0 < 512; decide

theorem witness_RecallKeepsBytes :
    (Tbl.rising ((base.withMem { base.mem with dirty := [(1024, 7), (1151, 9)] }).mem.dirty) = true)
      ∧ ((∀ e ∈ ([(1024, 7), (1151, 9)] : Tbl Byte), e.1 < 2 ^ 49) ∧ base.mem.lost.contains 8 = false)
      ∧ ((base.dirOf 8).owner ≠ some 22 ∧ (base.dirOf 8).sharers.getLsbD 22 = false ∧ base.recordsOff ∧ ((withDir (some 22) 0).dirOf 8).owner = some 22) := by
  unfold State.recordsOff; decide +kernel

/-! ### The peel engine -/

/-- A peel command at index 0. -/
def cmdP (op operand : Nat) : PeelCmd :=
  { idx := 0, op := op, flags := 0, ctx := 5, operand := operand, start := 0, phase := 0, status := 0, victim := 0, batch := none, rsv := false }

/-- The engine with one command fetched and a ring; block 300,000 lies in DRAM, and some entries of the map are given. -/
def peelS (c : PeelCmd) (es : Tbl Remap) : State :=
  (withReg base [(rPeel 0x4030, 0x10000000), (rPeel 0x4038, 6), (rPeel 0x4048, 0x20000000), (rPeel 0x4008, 0x80000010)]).withPeel
    { base.peel with quotaReady := true, cmds := [c], remap := es, vacantHbm := [262130], vacantDram := [1048570] }

/-- An entry of the map in a state and tier. -/
def entry (state tier : Nat) (ticket : Bool) : Remap :=
  { state := state, tier := tier, ticket := ticket, slot := 0, nominated := false, owner := 5, frame := 0, count := 0, subs := [] }

/-- Block 300,000 belongs to a context with quotas. -/
def quotaS (c : PeelCmd) (ctx : Nat) : State :=
  (peelS c [(300000, { entry 1 1 false with owner := ctx })]).sysWrite (0x20000000 + ctx * 32) (toBytes 8 100 ++ toBytes 8 100 ++ toBytes 8 100 ++ toBytes 8 100)

/-- No frame is vacant, and the first 64 hold no block that may go. -/
def fullS (c : PeelCmd) : State :=
  let s := peelS c ((upFrom 0 64).map (fun b => (b, { entry 4 0 false with frame := b })))
  s.withPeel { s.peel with vacantHbm := [], h := 64 }

/-- Every state of a block: unbacked, pinned, ticketed, in HBM, in DRAM; the last block. -/
theorem witness_PeelMoveCommands :
    ((peelS (cmdP 1 300000) []).running ∧ (peelS (cmdP 1 300000) []).cmdNext 0 1 = some (cmdP 1 300000) ∧ (cmdP 1 300000).bad = false)
      ∧ (((peelS (cmdP 1 0x13FFFF) []).remap 0x13FFFF).state = 7 ∧ (peelS (cmdP 1 0x13FFFF) []).isBlock (cmdP 1 0x13FFFF).operand ∧ (peelS (cmdP 2 3) []).isBlock 3)
      ∧ (((peelS (cmdP 2 3) [(3, entry 4 0 false)]).remap 3).state = 4 ∧ ((peelS (cmdP 2 3) [(3, entry 2 1 true)]).remap 3).ticket = true)
      ∧ (bitOf (cmdP 2 3).flags 0 = false ∧ ((peelS (cmdP 2 3) []).remap 3).tier = 0 ∧ ((peelS (cmdP 2 3) []).remap 3).state ≠ 7)
      ∧ (((peelS (cmdP 1 300000) []).remap 300000).tier ≠ 0 ∧ ((peelS (cmdP 1 300000) []).remap 300000).ticket = false)
      ∧ ((peelS (cmdP 1 300000) [(300000, entry 1 1 false)]).withMem { base.mem with bytes := [(0x20000000 + 5 * 32 + 8, 1)] } |>.fitsQuota 5 1 1)
      ∧ ((peelS (cmdP 1 300000) []).peel.vacantHbm ≠ [] ∧ (peelS (cmdP 1 300000) []).peel.vacantDram ≠ [])
      ∧ ((peelS (cmdP 1 300000) []).freeSlot.isSome)
      ∧ (bitOf (cmdP 1 300000).flags 0 = false ∧ bitOf ({ cmdP 3 3 with flags := 3 } : PeelCmd).flags 0 = true ∧ (peelS (cmdP 1 300000) []).calm)
      ∧ ((peelS (cmdP 1 300000) []).freeFrames true ≠ [] ∧ ((peelS (cmdP 1 300000) []).readQuota 0).fitsQuota 0 1 1 = false)
      ∧ ((((fullS (cmdP 1 300000)).readQuota 0).pickVictim 1 0).1 = none ∧ ((fullS (cmdP 1 300000)).readQuota 0).freeFrames true = [])
      ∧ (((quotaS (cmdP 1 300000) 5).readQuota 5).fitsQuota 5 1 1 = true ∧ ((quotaS (cmdP 1 300000) 5).remap 300000).owner = 5)
      ∧ ((peelS (cmdP 1 300000) []).hotRoom = false ∧ localPart ((peelS (cmdP 1 300000) []).cmdAddr 0) + 32 ≤ 2 ^ 49) := by
  unfold State.calm State.recordsOff State.running; decide +kernel

/-- A quota that has room and one that has none; free slots and taken ones; charges that would fall below zero; a batch. -/
theorem witness_PeelCharges :
    ((peelS (cmdP 5 3) [(3, entry 0 0 false)]).cmdNext 0 5 = some (cmdP 5 3) ∧ ((peelS (cmdP 5 3) [(3, entry 0 0 false)]).remap 3).owner = 5)
      ∧ (((peelS (cmdP 5 3) []).remap 3).owner ≠ 5 ∧ (((peelS (cmdP 5 3) []).readQuota 0).readQuota 5).fitsQuota 5 ((peelS (cmdP 5 3) []).chargedTier 3) 1 = false)
      ∧ ((peelS (cmdP 5 3) []).calm ∧ localPart ((peelS (cmdP 5 3) []).quotaAddr 4095) + 32 ≤ 2 ^ 49 ∧ 3 < 4)
      ∧ ((peelS (cmdP 7 0x2000) []).peel.t0.get? 0 = none ∧ ((quotaS (cmdP 7 0x2000) 5).readQuota 5).fitsQuota 5 0 1 = true ∧ ((peelS (cmdP 7 0) []).readQuota 5).fitsQuota 5 0 1 = false)
      ∧ ((peelS (cmdP 7 0x100000) []).t0Range (cmdP 7 0x100000) = none ∧ ((quotaS (cmdP 9 3) 5).readQuota 5).fitsQuota 5 3 3 = true ∧ signed 3 32 = 3)
      ∧ ((peelS (cmdP 7 0x2000) []).t0Range (cmdP 7 0x2000) = some (0, 0, 1) ∧ (peelS (cmdP 7 0x2000) []).cmdNext 0 7 = some (cmdP 7 0x2000))
      ∧ ((peelS (cmdP 7 0) []).t0Range (cmdP 7 (64 * 0x2000 + 127)) = some (127, 0, 64) ∧ (peelS (cmdP 7 0) []).fitsQuota 5 0 0 = true)
      ∧ (((peelS (cmdP 8 0x2000) []).withPeel { (peelS (cmdP 8 0x2000) []).peel with t0 := [(0, 5)] }).peel.t0.get? 0 = some 5)
      ∧ ((peelS (cmdP 9 0xFFFFFFFF) []).cmdNext 0 9 = some (cmdP 9 0xFFFFFFFF) ∧ signed 0xFFFFFFFF 32 = -1 ∧ (peelS (cmdP 9 0) []).charge 5 3 = 0)
      ∧ ((peelS (cmdP 6 256) []).cmdNext 0 6 = some (cmdP 6 256) ∧ (peelS (cmdP 6 256) []).reached (strokeOf (cmdP 6 256).start) = true
      ∧ (peelS (cmdP 6 256) []).dueFirst (peelS (cmdP 6 256) []).eventLines (lineOf (cmdP 6 256).start) = true)
      ∧ ((peelS { cmdP 6 1 with start := 0x100000 } []).reached (strokeOf 0x100000) = false)
      ∧ ((peelS { cmdP 6 1 with phase := 1 } []).peel.cmds.find? (fun x => x.idx == 0 && x.op == 6 && x.phase == 1) = some { cmdP 6 1 with phase := 1 }) := by
  unfold State.calm State.recordsOff; decide +kernel

/-- A state whose directory is empty and in which no line is lost or modified holds no line elsewhere. -/
theorem plain_of (s : State) (hd : s.mem.dir = []) (hl : s.mem.lost = []) (hm : s.mem.dirty = []) : s.plainLines := by
  refine ⟨fun l => ?_, hl, by rw [hm]; rfl, by rw [hm]; exact fun e he => absurd he List.not_mem_nil⟩
  have h : s.dirOf l = { owner := none, sharers := 0 } := by unfold State.dirOf; rw [hd]; rfl
  rw [h]; exact ⟨nofun, rfl⟩

/-- A move of block 300,000 to HBM. -/
def moveA (sw : Bool) : Move :=
  { slot := 0, block := 300000, up := true, frame := 262130, pin := false, switching := sw, switched := false, cmd := 7, victim := false }

/-- A move in progress. -/
def moving (sw : Bool) : State := base.withPeel { base.peel with moves := [moveA sw] }

theorem witness_PeelMovesEnd :
    ((moving false).running ∧ (moving false).peel.moves.find? (fun x => x.slot == 0) = some (moveA false) ∧ (moving false).mem.txns = [])
      ∧ ((moving true).peel.moves.find? (fun x => x.slot == 0) = some (moveA true) ∧ (∀ c ∈ (moving true).peel.cmds, c.idx ≠ 7 ∧ c.phase ≠ 1))
      ∧ (Tbl.rising (moving false).mem.dir = true ∧ Tbl.rising (moving false).mem.dirty = true ∧ (moving true).mem.waitq = [])
      ∧ (bitOf (base.regN (rPeel 0x4008)) 31 = false)
      ∧ ((∀ r ∈ (moving true).mem.waitq, (moving true).lineBusy r.line = true) ∧ (moving true).switchReady (moveA true) = true
      ∧ (∀ d ∈ (moving true).mem.dir, blockOf (d.1 * 128) ≠ 300000) ∧ (moving true).recordsOff)
      ∧ (((base.withPeel { base.peel with moves := [{ moveA true with switched := true }] }).peel.moves.find? (fun x => x.slot == 0)) = some { moveA true with switched := true })
      ∧ (((moving true).withPeel { (moving true).peel with cmds := [{ cmdP 1 300000 with idx := 7, phase := 2 }] }).peel.cmds.find? (fun x => x.idx == 7) = some { cmdP 1 300000 with idx := 7, phase := 2 })
      ∧ (((moving true).withPeel { (moving true).peel with cmds := [{ cmdP 1 300000 with idx := 8, phase := 1 }] }).peel.cmds.find? (fun x => x.phase == 1 && decide (x.op ≤ 3) && x.operand == 300000)
      = some { cmdP 1 300000 with idx := 8, phase := 1 })
      ∧ ((peelS (cmdP 1 3) []).calm ∧ bitOf ((peelS (cmdP 1 3) []).regN (rPeel 0x4008)) 31 = true ∧ (peelS (cmdP 1 3) []).cmdRing ≠ 0
      ∧ (peelS (cmdP 1 3) []).peel.fetched ≠ (1 : BitVec 32).toNat ∧ ((peelS (cmdP 1 3) []).peel.fetched + 1) % 2 ^ 32 = (1 : BitVec 32).toNat)
      ∧ ((moving false).plainLines)
      ∧ ((moving false).mem.waitq = [] ∧ (moving false).mem.flaws = []) := by
  repeat' first | exact plain_of _ rfl rfl rfl | apply And.intro
  all_goals decide +kernel

/-- R258: the block is in HBM, at its new frame, without a ticket. -/
theorem test_move_ends_in_hbm :
    after (.moveSwitchComplete 0) (moving true) (fun t => t.remap 300000 == { initRemap 262144 1048576 300000 with state := 0, tier := 0, frame := 262130, ticket := false, slot := 0 }) = true := by
  decide +kernel

/-- A line in the cache, missing, and held with an invalidation; a held write; tags of uncached accesses. -/
theorem witness_CoreTagsAtHomes :
    ((reading [tagR none] [{ jobTld with kind := .tld { tldF with scope := 1 } (coreG.treg 6) 1024 32 }]).rtag 0 2 = some (tagR none))
      ∧ ((JobKind.tld tldF 0 0 0).vol = false ∧ (JobKind.tld { tldF with mark := 3 } 0 0 0).vol = true)
      ∧ (((base.setCluster 0 { Cluster.init with tags := [(cacheSlot 8, 8)] }).cluster 0).tags.get? (cacheSlot 8) = some 8 ∧ (base.cluster 0).has 8 = false)
      ∧ ((∃ h ∈ ({ Cluster.init with held := [{ wid := 1, core := 0, tag := 3, ctx := 5, gen := 0, seq := 4, pa := 1024, bytes := eight, done := true, inval := true }] } : Cluster).held,
      localPart h.pa / 128 = 8 ∧ h.inval = true) ∧ 8 ∈ ({ Cluster.init with gone := [8] } : Cluster).gone ∧ cacheSlot 8 ∈ ({ Cluster.init with disabled := [cacheSlot 8] } : Cluster).disabled)
      ∧ (((base.setCluster 0 { Cluster.init with held := [{ wid := 1, core := 0, tag := 3, ctx := 5, gen := 0, seq := 4, pa := 1144, bytes := eight, done := false, inval := false }] }).cluster 0).held.find? (fun x => x.wid == 1)
      = some { wid := 1, core := 0, tag := 3, ctx := 5, gen := 0, seq := 4, pa := 1144, bytes := eight, done := false, inval := false })
      ∧ ((reading [tagR none] [jobTld]).lineOpen 0 2 1024 .tiered false = false ∧ (reading [tagR none] [jobTld]).readTurn 0 (tagR none) = true)
      ∧ ((writing (tagW .tiered .sent none)).writeTurn 0 (tagW .tiered .sent none) = true ∧ (writing (tagW .tiered .sent none)).lineOpen 0 4 1024 .tiered true = true)
      ∧ ((base.setCluster 0 { Cluster.init with held := [{ wid := 1, core := 0, tag := 3, ctx := 5, gen := 0, seq := 4, pa := 1144, bytes := eight, done := false, inval := false }] }).lineOpen 0 3 1144 .tiered true = false)
      ∧ (localPart 1144 % 128 + eight.length ≤ 128 ∧ base.mem.txns = [] ∧ base.mem.waitq = [] ∧ base.peel.moves = [] ∧ base.calm ∧ base.mem.dir = [] ∧ (tagR none).early = false)
      ∧ ((base.setCluster 0 { Cluster.init with held := [{ wid := 1, core := 0, tag := 3, ctx := 5, gen := 0, seq := 4, pa := 1144, bytes := eight, done := false, inval := false }] }).heldBefore 0 1 = false)
      ∧ ((base.setCluster 0 { Cluster.init with held := [{ wid := 1, core := 0, tag := 3, ctx := 5, gen := 0, seq := 4, pa := 1144, bytes := eight, done := true, inval := false }] }).cluster 0).held.find? (fun x => x.wid == 1 && x.done)
      = some { wid := 1, core := 0, tag := 3, ctx := 5, gen := 0, seq := 4, pa := 1144, bytes := eight, done := true, inval := false }
      ∧ ((writing (tagW .tiered .sent none)).calm ∧ (writing (tagW .tiered .sent none)).mem.dirty = [])
      ∧ ((writing (tagW .tiered .sent none)).rtag 0 3 = none ∧ (writing (tagW .tiered .sent none)).wtag 0 3 = some (tagW .tiered .sent none) ∧ (tagW .tiered .sent none).op = .store eight)
      ∧ ((writing { tagW .tiered .sent none with op := .atom .add .i32 1 0 }).wtag 0 3 = some { tagW .tiered .sent none with op := .atom .add .i32 1 0 }) := by
  unfold State.calm State.recordsOff; decide +kernel

/-- R224: an INT32 sum wraps. -/
theorem test_far_atomic_saturates_nothing :
    after (.farAtomic ⟨.agent (.remote 1) 1024 4, []⟩ .add .i32 5 0) (base.sysWrite 1024 [255, 255, 255, 255]) (fun t => t.sysRead 1024 5 == [4, 0, 0, 0, 0]) = true := by
  decide +kernel

/-! ### Memory controllers -/

/-- Controller 0 with SCRUB on; margin runs open. -/
def withMc (rs : List (Nat × BitVec 64)) : State :=
  (withReg base (rs ++ [(rHub 0x420, 0x80000001)])).withBoot { base.boot with straps := 8 }

/-- A stack and a package; a row of the table and one beyond it; margin runs turned away and accepted. -/
theorem witness_MemoryControllers :
    (base.running ∧ base.ctlPresent 0 = true ∧ base.ctlPresent 31 = true ∧ (base.withPop { base.pop with hs := 0x0FFF }).ctlInUse 11 = false ∧ (base.withPop { base.pop with hs := 0x0FFF }).ctlPresent 11 = true)
      ∧ (bitOf ((withMc [(rMc 0 0x0, 0x80000000)]).regN (rMc 0 0x0)) 31 = true ∧ (withMc [(rMc 0 0x0, 0x80000000)]).offline 0 = false ∧ (withMc [(rMc 0 0x0, 0x80000000)]).mem.flaws = [])
      ∧ ((base.channel 0 (base.marginChan 0)).holds 0 = true ∧ (base.channel 0 (base.marginChan 0)).holds 4096 = false ∧ base.tieredEnd ≤ localPart base.tieredEnd)
      ∧ (rowValid 0 0 = true ∧ rowValid 0 0xFFFFFFFF = false)
      ∧ (base.marginOpen = false ∧ (withMc []).marginOpen = true ∧ (∃ m ∈ marginNeeds 0 false, (withMc [(rMc 0 0x0, 0x80000000)]).offline m = false))
      ∧ ((∀ m ∈ marginNeeds 0 false, (withMc [(rMc 0 0x0, 0x20000000)]).offline m = true) ∧ bitOf 0x80000000 31 = true)
      ∧ (((base.setCtl 0 { MemCtl.init with margin := true }).ctl 0).margin = true) := by
  unfold State.running; decide +kernel

/-- R330: the band that begins at 95 °C is left at 92 °C, not at 93 °C. -/
theorem test_temperature_band_falls :
    (after (.hbmTempRead 0 93) (base.setCtl 0 { MemCtl.init with mode := 2 }) (fun t => (t.ctl 0).mode == 2) = true)
      ∧ (after (.hbmTempRead 0 92) (base.setCtl 0 { MemCtl.init with mode := 2 }) (fun t => (t.ctl 0).mode == 1) = true) := by
  decide +kernel

/-! ### Invalidations -/

/-- Die 0's ring with one entry, of one page of ASID 1 or a bad one. -/
def ringS (bad : Bool) : State :=
  let s := withReg base [(rAtu 0 0x8, 0x80000000), (rAtu 0 0x10, 0x1000), (rAtu 0 0x18, 4), (rAtu 0 0x1C, 1)]
  if bad then s else s.sysWrite 0x1000 [0, 16, 0, 0, 0, 0, 0, 0, 1, 0, 0, 0, 1, 0]

/-- An invalidation that waits for core 0 and, when `two`, front end 0. -/
def invalA (two : Bool) : Inval :=
  { id := 4, start := 0x1000, pages := 1, asid := 1, allAsids := false, global := false, whole := false, die := 0, uid := none
    waits := if two then [0, 128] else [0], deps := [(0, .read 2)] }

theorem witness_Invalidations :
    ((ringS true).running ∧ (ringS true).ringOk 0 = true ∧ ((ringS true).fe 0).ringBusy = none ∧ (ringS true).regN (rAtu 0 0x20) ≠ (ringS true).regN (rAtu 0 0x1C))
      ∧ ((let u := (ringS true).homeRead ((ringS true).ringEntry 0) 16; recordBad (u.sysRead (u.ringEntry 0) 16)) = true)
      ∧ ((let u := (ringS false).homeRead ((ringS false).ringEntry 0) 16; recordBad (u.sysRead (u.ringEntry 0) 16)) = false)
      ∧ ((ringS false).calm ∧ (ringS false).atuGated 128 = false ∧ (∀ x ∈ (ringS false).xlat.invals, x.id ≠ (ringS false).xlat.nextInv) ∧ (ringS false).ringOk 0 = true)
      ∧ ((∃ d ∈ (invalA true).deps, d.1 = 0 ∧ (reading [tagR none] []).depOpen d = true))
      ∧ ((base.withXlat { base.xlat with invals := [invalA true] }).xlat.invals.find? (fun x => x.id == 4) = some (invalA true))
      ∧ ((invalA true).waits.contains 0 = true ∧ (∀ d ∈ (invalA true).deps, d.1 = 0 → base.depOpen d = false))
      ∧ ((invalA true).waits.filter (fun x => x != 0) ≠ [] ∧ (invalA false).waits.filter (fun x => x != 0) = []) := by
  unfold State.calm State.recordsOff State.running; decide +kernel

/-- R387: the leaf of the page goes at once. -/
theorem test_inv_ring_drops_leaf :
    after (.invRingEntry 0) (withLeaf (ringS false)) (fun t => t.xlat.l1 == []) = true := by
  decide +kernel

/-! ### Processor dies -/

/-- Host window 0 at module address 2^44, cacheable or for devices. -/
def hdmW (device : Bool) : State :=
  withReg base [(rCxl 0x100, 0x100000000000), (rCxl 0x108, 0x100000), (rCxl 0x110, if device then 0xC000000000000001 else 0x8000000000000001)]

/-- Both fences of RV64I and the module's own, legal and illegal; the last hart; a line its die owns; a window; a timeout. -/
theorem witness_HartAccesses :
    (base.running ∧ base.hartRuns 0 = true ∧ base.hartRuns 95 = true ∧ (base.hart 0).fence = none ∧ (base.hart 0).stores = [])
      ∧ (isFence 0x0330000F = true ∧ isFence 0x0000100F = false ∧ xnwIllegal 0x1310000B = false ∧ xnwIllegal 0x3310000B = true ∧ bitsOf 0x1310000B 31 28 = 1)
      ∧ (bitsOf 0x2310000B 31 28 = 2 ∧ (0x1310000B : BitVec 32).toNat % 128 = 0x0B)
      ∧ (base.hartTarget 1024 8 = some (.tiered, none) ∧ (withDir (some 16) 0).ownsLine 16 8 = true ∧ (withDir (some 16) 0).holdsOwned 16 8 = true ∧ base.ownsLine 16 8 = false ∧ localPart 1144 % 128 + 8 ≤ 128)
      ∧ ((hartBytes (.scalar eight) Hart.init).length = 8 ∧ (hartBytes (.vector 3 4 2) Hart.init).length = 8 ∧ hartVector (.vector 3 4 2) = true)
      ∧ (hartDevice .tiered .io = true ∧ base.homeFree 8 ∧ base.dirOf 8 = { owner := none, sharers := 0 } ∧ routed.hartTarget (9 * 2 ^ 49) 8 = some (.remote 9, none))
      ∧ (base.target 0x060000400000 = some (.window 1) ∧ (withDir (some 16) 0).mem.lost.contains 8 = false ∧ (base.setPoison [35]).anyPoison 1144 8 = true)
      ∧ (base.hartTarget 0x060000400000 8 = some (.window 1, none) ∧ base.target 1024 = some .tiered ∧ base.anyPoison 1024 8 = false)
      ∧ (base.hartTarget 0x0600003FFFFC 8 = some (.window 0, some (0x060000400000, .window 1)) ∧ base.hartTarget 0x050000000000 8 = none)
      ∧ (hartDevice .mmio .pma = true ∧ base.target 0x050000000000 = none ∧ base.target (mmioBase + 4) = some .mmio ∧ routed.target (9 * 2 ^ 49) = some (.remote 9))
      ∧ ((hdmW true).target 0x100000000000 = some .hostDevice ∧ (hdmW false).target 0x100000000000 = some .host)
      ∧ (1026 % 4 ≠ 0 ∧ 1024 % 8 = 0)
      ∧ (({ cacheable := false, stores := true, loads := true, upto := 0, thenStores := true, thenLoads := true } : HartFence).holds true false true = true)
      ∧ ((base.setHart 0 { Hart.init with stores := [{ id := 3, pa := 0, bytes := [1], target := .host, cacheable := false, load := false, writes := true, acquire := false, device := false, sent := 0 }] }).timedOut .host 0 = true) := by
  repeat' apply And.intro
  all_goals decide +kernel

/-- R406: AMOSWAP.W stores the word and answers the old one. -/
theorem test_hart_amo_swap :
    after (.hartAmo 0 1024 { op := .swap, o := { aq := false, rl := false }, f := { slc := .none, e := [] } } false 0x11223344 .pma) (withDir (some 16) 0) (fun t => t.sysRead 1024 4 == [0x44, 0x33, 0x22, 0x11]) = true := by
  decide +kernel

/-- Identities 1 and 511; 0 and 512; a watchdog at its limit; both phases of a warm reset. -/
theorem witness_ProcessorDies :
    (base.running ∧ base.hartPresent 0 = true ∧ base.pds.phase = 0 ∧ (base.pdPresent 0 = true ∧ base.pdPresent 1 = true))
      ∧ ((withReg base [(rPd 0 0x18, 5), (rPd 0 0x1C, 5)]).wdogLines 0 = 5 ∧ (withReg base [(rPd 0 0x18, 5), (rPd 0 0x1C, 5)]).regN (rPd 0 0x1C) = 5)
      ∧ (base.pds.wdogHeld.getLsbD 0 = false ∧ bitOf 1 0 = true)
      ∧ ((base.withPds { base.pds with phase := 1, resetDies := 1 }).pds.phase ≠ 0)
      ∧ (((atTime 4 0).withPds { base.pds with phase := 2, resetDies := 1, since := 3 }).ruling.line ≠ 3 ∧ (atTime 4 0).ras.cmd = none) := by
  unfold State.running; decide +kernel

/-- R416: a write of identity 511 to the first register of hart 0's machine file sets pending bit 511. -/
theorem test_msi_sets_pending_bit :
    (blockAt 0x7800000 = some (.mfile 0, 0))
      ∧ (after (.msiWrite 0x7800000 4 511) base (fun t => t.pds.files.getD (fun _ => 0) 0 == BitVec.ofNat 512 (2 ^ 511)) = true) := by
  decide +kernel

/-! ### Queues and the front ends -/

/-- A queue of die 0 with 16 slots at 0x10000 and no completion ring, owned by the harts. -/
def queueA : Queue :=
  { watchQ with cfg := { QCtx.init with sqBase := 0x10000, sqLog := 4, owner := 1, maxInflight := 4, dbAddr := 0x20000, fallback := 0x30000 } }

/-- The same queue in a state. -/
def queueIn (st : QState) : Queue := { queueA with state := st }

/-- A queue in host memory. -/
def queueH (st : QState) : Queue := { queueIn st with cfg := { queueA.cfg with owner := 2 } }

/-- `base` with queue 3. -/
def withQ (x : Queue) : State := base.withWork { base.work with queues := [(3, x)] }

/-- `base` with the link in a state, with a session or without. -/
def cxlS (l : CxlLink) (session : Bool) : State := base.withCxl { base.cxl with link := l, session := session }

/-- A session with 256 MiB of HDM at module address 0, and host window 0 at module address 2^44 for host address 2^20. -/
def hdm : State :=
  withReg (cxlS .up true) [(rCxl 0x10, 0x100000000), (rCxl 0x100, 0x100000000000), (rCxl 0x108, 0x100000), (rCxl 0x110, 0x8000000000000001)]

/-- The queue context of `queueA` in the table at address 0. -/
def withCtx3 : State :=
  base.sysWrite 384 (toBytes 8 0x10000 ++ [4, 0, 4, 0] ++ toBytes 2 5 ++ toBytes 2 4 ++ toBytes 8 0 ++ toBytes 8 0x20000 ++ toBytes 8 0x30000 ++ toBytes 16 0 ++ [1])

/-- A queue of another die; a free one whose context passes and one whose context does not; a queue in each state. -/
theorem witness_QueueCommands :
    (base.running ∧ base.adPresent 0 = true ∧ base.queue? 3 = none ∧ (base.readQctx 0 3).2 = none ∧ (withCtx3.readQctx 0 3).2 = some { queueA.cfg with context := 5, intr := 1 })
      ∧ (withCtx3.running ∧ withCtx3.queue? 3 = none ∧ withCtx3.calm ∧ withCtx3.mem.dir.length < 16)
      ∧ ((withQ { queueA with die := 1 }).queue? 3 = some { queueA with die := 1 } ∧ (withQ queueA).queue? 3 = some queueA ∧ queueA.die = 0)
      ∧ ((queueIn .disabled).isLocal = true ∧ (queueH .disabled).isLocal = false ∧ (queueH .parked).state = .parked)
      ∧ ((withQ (queueIn .stopped)).queueOps 3 = [] ∧ ((withOps [{ opA with queue := 3 }]).queueOps 3) ≠ [])
      ∧ (((withQ (queueIn .stopped)).readQctx 0 3).2 = none ∧ ((withCtx3.withWork (withQ (queueIn .hostLost)).work).readQctx 0 3).2 = some { queueA.cfg with context := 5, intr := 1 })
      ∧ (((withReg (withQ (queueIn .completionFault)) [(rFe 0 0x0, 0x80000000000000)]).qctxBytes 0 3).2 = none) := by
  unfold State.calm State.recordsOff State.running; decide +kernel

/-- R431: DESTROY with an operation in flight ends with its own code and leaves the queue. -/
theorem test_destroy_busy :
    after (.destroy 0 3) ((withQ (queueIn .disabled)).withWork { (withQ (queueIn .disabled)).work with ops := [{ opA with queue := 3 }] })
      (fun t => (t.queue? 3).isSome && t.regN (rFe 0 0x14) == 2 ^ 30 + 4 * 2 ^ 20 + 3) = true := by
  decide +kernel

/-- A host queue whose front end has lost its doorbell line. -/
def queueStale : Queue := { queueH .running with dbStale := true }

/-- That queue with a session. -/
def staleS : State := (withQ queueStale).withCxl { base.cxl with session := true }

/-- A doorbell line that names a tail. -/
def bell (tail : Nat) : List Byte := toBytes 4 tail ++ toBytes 8 0

/-- How far that tail falls back behind the queue's. -/
def backOf (tail : Nat) : Nat := (queueStale.tail + 2 ^ 32 - leAt (bell tail) 0 4) % 2 ^ 32

/-- The slots it names. -/
def outOf (tail : Nat) : Nat := (leAt (bell tail) 0 4 + 2 ^ 32 - queueStale.head % 2 ^ 32) % 2 ^ 32

/-- `queueA` with its slot at the head read through the home: the first two bytes of the slot, and whether it is poisoned. -/
def slotS (b : List Byte) : State := ((withQ { queueA with tail := 4 }).sysWrite 0x10000 b).homeRead queueA.slot 64

/-- Its four slots read. -/
def slotX (b : List Byte) : State := (slotS b).homeRead (queueA.slot + 64) 192

/-- Doorbells that name as many slots as the ring has, one more, and a tail that falls back; a slot of the right and of the wrong phase, extended, poisoned, on its last re-read; a queue that may be served. -/
theorem witness_DoorbellsAndRings :
    (staleS.running ∧ staleS.queue? 3 = some queueStale ∧ queueStale.die = 0 ∧ queueStale.isLocal = false ∧ staleS.cxl.session = true)
      ∧ (12 ≤ (bell 16).length ∧ staleS.underDirty queueStale.cfg.dbAddr (bell 16) = bell 16 ∧ leAt (bell 16) 4 4 = queueStale.cfg.dbGen ∧ queueStale.state = .running)
      ∧ (backOf 0 = 0 ∧ backOf (2 ^ 32 - 16) = 16 ∧ 16 < backOf 16 ∧ outOf 16 = 16 ∧ 16 < backOf 17 ∧ outOf 17 = 17)
      ∧ ((∀ e ∈ base.work.queues, e.2.die ≠ 0) ∧ base.adPresent 0 = true)
      ∧ ((withQ { queueA with tail := 1 }).queue? 3 = some { queueA with tail := 1 } ∧ ({ queueA with tail := 1 } : Queue).waiting ≠ 0 ∧ (withQ queueA).anyPoison queueA.slot 64 = false)
      ∧ (bitOf (leAt ((slotS [12, 1]).sysRead queueA.slot 64) 1 1) 0 = queueA.phase ∧ bitOf (leAt ((slotS [12, 1]).sysRead queueA.slot 64) 1 1) 4 = false)
      ∧ (bitOf (leAt ((slotS []).sysRead queueA.slot 64) 1 1) 0 ≠ queueA.phase ∧ (slotS []).anyPoison queueA.slot 64 = false)
      ∧ (bitOf (leAt ((slotS [1, 17]).sysRead queueA.slot 64) 1 1) 4 = true ∧ ({ queueA with tail := 4 } : Queue).waiting = 4 ∧ queueA.head % 4 = 0
      ∧ bitOf (leAt ((slotX [1, 17]).sysRead queueA.slot 256) 1 1) 0 = queueA.phase ∧ bitOf (leAt ((slotX [1, 17]).sysRead queueA.slot 256) 1 1) 4 = true
      ∧ (slotX [1, 17]).anyPoison queueA.slot 256 = false ∧ ({ queueA with tail := 1 } : Queue).waiting < 4)
      ∧ ((((withQ { queueA with tail := 4 }).withMem { base.mem with poison := [(0x10000 / 32 + 7, true)] }).homeRead queueA.slot 64).anyPoison queueA.slot 64 = false
      ∧ (((withQ { queueA with tail := 4 }).withMem { base.mem with poison := [(0x10000 / 32 + 7, true)] }).homeRead queueA.slot 64 |>.homeRead (queueA.slot + 64) 192).anyPoison queueA.slot 256 = true)
      ∧ ((((withQ { queueA with tail := 4 }).withMem { base.mem with poison := [(0x10000 / 32, true)] }).homeRead queueA.slot 64).anyPoison queueA.slot 64 = true)
      ∧ (63 + 1 < 65 ∧ 65 ≤ 64 + 1)
      ∧ ((withQ { queueA with ready := true, desc := toBytes 64 0 }).nextQueue 0 = some (3, { queueA with ready := true, desc := toBytes 64 0 }))
      ∧ (base.work.oos = false ∧ (base.fe 0).shares = [] ∧ (withQ queueA).dieOps 0 < 1024 ∧ (withQ queueA).calm)
      ∧ (∀ k, ((withQ queueA).cluster k).held = []) := by
  repeat' apply And.intro
  all_goals first
    | decide +kernel
    | (exact fun _ => rfl)

/-- A module whose front end 0 has context 5's entry at 0x100050 (ASID 1) and the leaf of its first megapage. -/
def feBase : State :=
  let s := (withReg base [(rAtu 0 0x0, 0x100000), (rAtu 0 0x8, 0x80000000)]).sysWrite 0x100050 (toBytes 8 (10 * 2 ^ 60 + 2 ^ 44) ++ toBytes 8 (2 ^ 31))
  s.withXlat { s.xlat with
    l1 := [(128, [{ asid := 1, vpn := 0, pages := 512, ppn := 0, r := true, w := true, x := false, d := true, g := false }])] }

/-- `feBase` with operations in flight. -/
def feOps (os : List Op) : State := feBase.withWork { feBase.work with ops := os, queues := [(0, queueA)], nextUid := 9 }

/-- An operation of an opcode that waits to start. -/
def opW (opcode : Nat) : Op := { opA with opcode := opcode, phase := .waiting, cores := [], placed := [], gen := 0 }

/-- The ASID and root page a front end reads for context 5, when it reads an entry. -/
def ctx5 (s : State) : Option (Nat × Nat) :=
  match (s.feCtx 0 1 5).2 with
  | .ok p => some p
  | .error _ => none

/-- A launch on core 2. -/
def opL : Op := { opW 1 with placed := [2] }

/-- A dispatch; REUSE is bit 7 of byte 52. -/
def opD (reuse : Bool) : Op := { opW 10 with desc := toBytes 256 (if reuse then 2 ^ (8 * 52 + 7) else 0) }

/-- A recipe body of one node, whose launch block at 0x2000 names core 0. -/
def bodyA : List Byte := [1] ++ toBytes 63 0 ++ toBytes 32 0x2000

/-- A running recipe. -/
def opR : Op := { opW 2 with phase := .running, recipe := some (4, 1) }

/-- Slot 4 of front end 0 holds `bodyA`. -/
def recipeS : State :=
  ((feOps [opR]).sysWrite 0x2008 ([1, 0] ++ toBytes 6 0 ++ [1])).setFe 0
    { Fe.init with recipes := [(4, { RSlot.init with state := 1, ctx := 5, current := some 1, last := 1, live := [{ num := 1, va := 0, asid := 1, root := 0, body := bodyA, runs := 1, arriving := none }] })] }

/-- A dispatch with one part on core 2, taken. -/
def partA : Part := { core := 2, node := 0, items := [], taken := true, asid := 1, root := 0 }

/-- A launch, a dispatch in both modes and a dispatch without a context entry, a recipe node, a share, a packet. -/
theorem witness_WorkReachesCores :
    ((feOps [opL]).running ∧ (feOps [opL]).op? 1 = some opL ∧ (feOps [opL]).startable opL = true ∧ (feOps [opW 2]).startable (opW 2) = true)
      ∧ ((2 / 32 = opL.die ∧ bitOf opL.flags 1 = false ∧ (feOps [opL]).hangHolds 2 opL.ctx = false) ∧ ctx5 (feOps [opL]) = some (1, 0))
      ∧ (((feOps [opL]).feCtx 0 1 5).1.cores = (feOps [opL]).cores ∧ ((feOps [opL]).feCtx 0 1 5).1.work = (feOps [opL]).work)
      ∧ (((feOps [opL]).feCtx 0 1 5).1.coreState 2 = 0 ∧ ((feOps [opL]).core 2).staged.length < 3 ∧ (∀ p ∈ (feOps [opL]).work.ops, ∀ w ∈ p.waitSlot, w.1 ≠ 2))
      ∧ ((feOps [opD true]).dspTurn (opD true) = true ∧ dspReuse (opD true).desc = true ∧ dspReuse (opD false).desc = false ∧ (feOps [opD false]).startable (opD false) = true)
      ∧ (ctx5 (withOps [opD true]) = none)
      ∧ (({ opD true with plan := [partA] } : Op).plan ≠ [] ∧ ctx5 (feOps [opD true]) = some (1, 0))
      ∧ ((((feOps [opD true]).feCtx 0 1 5).1.runDispatch (opD true) 1 0).2.1 = none)
      ∧ (ctx5 ((feOps [opD false]).withXlat base.xlat) = some (1, 0) ∧ ((((feOps [opD false]).withXlat base.xlat).feCtx 0 1 5).1.runDispatch (opD false) 1 0).2.1 ≠ none)
      ∧ (recipeS.op? 1 = some opR ∧ recipeS.recipeBody opR = some bodyA ∧ 0 < leAt bodyA 0 2 ∧ opR.predsDone bodyA 0 = true ∧ opR.nodesStarted.contains 0 = false)
      ∧ ((match (recipeS.nodeBlock opR bodyA 0).2 with | .ok p => p.2 == [0] | .error _ => false) = true)
      ∧ ((match ((recipeS.withXlat base.xlat).nodeBlock opR bodyA 0).2 with | .ok _ => false | .error _ => true) = true)
      ∧ (((feOps [opD true]).setFe 0 { Fe.init with shares := [{ uid := 1, node := 0, block := [] }] }).op? 1 = some (opD true))
      ∧ (ctx5 ((feOps [opD true]).setFe 0 { Fe.init with shares := [] }) = some (1, 0))
      ∧ ((feOps [{ opD true with parts := [partA] }]).nextPart 2 = some ({ opD true with parts := [partA] }, partA) ∧ (feOps [opD true]).coreState 2 = 0)
      ∧ ((feOps [{ opD true with parts := [partA] }]).sameWork 2 0 = false ∧ (feOps [{ opD true with parts := [partA] }]).hangHolds 2 5 = false) := by
  unfold State.running; decide +kernel

/-- An operation that waits, with a descriptor and an address. -/
def opX (opcode : Nat) (d : Nat) : Op := { opW opcode with desc := toBytes 64 d, pa := 1024, va := 1024 }

/-- An operation whose address lies at node 9. -/
def opFar (opcode : Nat) : Op := { opX opcode 0 with pa := 9 * 2 ^ 49 }

/-- A WAIT that has asked node 9 in stroke 0. -/
def opAsked : Op := { opFar 5 with phase := .running, asked := some 0 }

/-- `feOps` with a route to node 9. -/
def farS (os : List Op) : State := (feOps os).withLinks { base.links with routes := [(9, 0x8000000000000000)] }

/-- Every opcode; an inline write that ends with its page; a bad and a good recipe body; free and installed slots. -/
theorem witness_DescriptorEffects :
    ((feOps [opX 12 0]).running ∧ (feOps [opX 12 0]).op? 1 = some (opX 12 0) ∧ (feOps [opX 12 0]).startable (opX 12 0) = true)
      ∧ ((feOps [opX 6 0]).queue? 0 = some queueA ∧ queueA.prefs.length = 4)
      ∧ (4096 % 4096 + 1 ≤ 4096 ∧ (opX 3 0).va % 4096 + (descInline (opX 3 0).desc).length ≤ 4096 ∧ (feOps []).hotRoom = false ∧ (feOps []).target 1024 = some .tiered)
      ∧ (leAt (opX 4 0).desc 16 1 ≠ 1 ∧ localPart (opX 4 0).pa + 8 ≤ 2 ^ 49 ∧ (feOps [opX 4 0]).calm ∧ leAt (opX 4 (2 ^ 128)).desc 16 1 = 1)
      ∧ ((feOps [opX 4 (2 ^ 128)]).plainLines)
      ∧ ((feOps [opX 3 0]).opHeld (opX 3 0) = false ∧ (feOps [opX 5 0]).opHeld (opX 5 0) = false
      ∧ ((feOps [opX 3 0]).setFe 0 { Fe.init with hang := some { core := 0, suspects := [5], toReplay := [], current := some 6, hung := [], second := false, lines := 0 } }).opHeld
        { opX 3 0 with pa := 0x060000000000 } = true)
      ∧ ((feOps [opX 4 (2 ^ 128)]).anyPoison 1024 4 = false ∧ (feOps [opX 4 (2 ^ 128)]).startable (opX 4 (2 ^ 128)) = true ∧ flagBytes (opX 4 (2 ^ 128)).desc = 4)
      ∧ ((farS [opFar 3]).target (opFar 3).pa = some (.remote 9) ∧ (farS [opFar 3]).targetLost (.remote 9) = false ∧ (farS [opFar 5]).timedOut (.remote 9) (farS [opFar 5]).strokeNow = false)
      ∧ ((opFar 3).va % 4096 + (descInline (opFar 3).desc).length ≤ 4096 ∧ (farS [opFar 5]).startable (opFar 5) = true)
      ∧ ((farS [opAsked]).op? 1 = some opAsked ∧ opAsked.asked = some 0 ∧ (farS [opAsked]).timedOut (.remote 9) 0 = false ∧ (feOps [opAsked]).timedOut (.remote 9) 0 = true)
      ∧ ((feOps [opAsked]).target opAsked.pa = some (.remote 9) ∧ ([1, 0, 0, 0] : List Byte).length = flagBytes opAsked.desc ∧ opAsked.phase = .running)
      ∧ ((feOps [opX 7 0]).earlier (opX 7 0) = [] ∧ (feOps [opX 5 0]).target (opX 5 0).pa = some .tiered)
      ∧ (leAt (opX 8 0).desc 17 1 = 0 ∧ bodyBad (opX 8 0).block = true ∧ bodyBad bodyA = false ∧ (feOps []).rslot 0 0 = RSlot.init ∧ (opX 8 0).recipe = none ∧ bodyBad { opX 8 0 with block := bodyA }.block = false)
      ∧ (leAt (opX 8 (2 ^ 136)).desc 17 1 = 1 ∧ (feOps []).rslot 0 0 = RSlot.init ∧ (recipeS.rslot 0 4).state = 1 ∧ (recipeS.rslot 0 4).ctx = 5)
      ∧ (ctx5 (feOps [opX 9 0]) = some (1, 0) ∧ (∀ i ∈ (feOps [opX 9 0]).xlat.invals, i.uid = none))
      ∧ (ctx5 (withOps [opX 11 0]) = none)
      ∧ (({ opX 5 0 with phase := .running } : Op).phase = .running ∧ (opX 5 0).asked = none ∧ (feOps [{ opX 5 0 with phase := .running }]).op? 1 = some { opX 5 0 with phase := .running })
      ∧ ((∀ i ∈ (feOps [opX 9 0]).xlat.invals, i.uid = none) ∧ ((feOps [opX 9 0]).feCtx 0 1 5).1.adPresent 0 = true ∧ ((feOps [opX 9 0]).feCtx 0 1 5).1.atuGated 128 = false ∧ (∀ i ∈ ((feOps [opX 9 0]).feCtx 0 1 5).1.xlat.invals, i.id ≠ ((feOps [opX 9 0]).feCtx 0 1 5).1.xlat.nextInv)) := by
  repeat' first | exact plain_of _ rfl rfl rfl | apply And.intro
  all_goals decide +kernel

/-- R456: SIGNAL stores VALUE at its address. -/
theorem test_signal_writes_flag :
    after (.signal 1) (feOps [opX 4 (77 * 2 ^ 192)]) (fun t => t.sysRead 1024 5 == [77, 0, 0, 0, 0]) = true := by
  decide +kernel

/-- R457: COND 0 is "equal"; the word is 0. -/
theorem test_wait_ends_when_condition_holds :
    after (.wait 1 none) (feOps [opX 5 0]) (fun t => (t.op? 1).map Op.phase == some .ended) = true := by
  decide +kernel

theorem witness_BuiltinPrograms :
    ((withCore { coreA with pc := BitVec.ofNat 64 (2 ^ 63 + 1) }).running ∧ ((withCore { coreA with pc := BitVec.ofNat 64 (2 ^ 63 + 1) }).core 0).pc.toNat = 2 ^ 63 + 1)
      ∧ (((withCore coreA).core 0).block = .none ∧ ((withCore coreA).core 0).launch = some launchA ∧ ((withCore coreA).core 0).pc.toNat ≠ 2 ^ 63 + 2)
      ∧ (progA.idx = 1 ∧ ({ progA with idx := 2 } : Prog).idx = 2 ∧ ({ progA with args := [256, 4096, 5000] } : Prog).piece 1 ≠ []) := by
  unfold State.running; decide +kernel

theorem witness_Queries :
    (base.running ∧ base.adPresent 3 = true)
      ∧ ((withQ queueA).queue? 3 = some queueA ∧ queueA.die = 0 ∧ (∀ x, (withQ queueA).queue? 3 = some x → x.die ≠ 1))
      ∧ (base.linkPresent 31 = false ∧ base.linkPresent 0 = true) :=
  ⟨by unfold State.running; decide +kernel,
   ⟨by decide +kernel, by decide +kernel, by intro x h; cases h; decide⟩,
   by decide +kernel⟩

/-- An operation whose work has ended. -/
def opE : Op := { opW 12 with phase := .ended }

/-- A host queue with a completion ring, with entries held. -/
def queueC (held : List Nat) : Queue := { queueH .running with cfg := { queueA.cfg with owner := 2, cqLog := 4 }, heldCq := held }

/-- Queue 0 and its operations. -/
def withQO (x : Queue) (os : List Op) : State := base.withWork { base.work with queues := [(0, x)], ops := os, nextUid := 9 }

/-- A queue with a completion ring in the host's window. -/
def queueF (held : List Nat) : Queue := { queueC held with cfg := { (queueC held).cfg with cqBase := 0x100000000000 } }

/-- A write of front end 0 for operation 1 that has left. -/
def entryW (r : FeRole) (t : Target) : FeWrite :=
  { tag := 3, queue := some 0, uid := some 1, role := r, ctx := 5, pa := 0x100000000000, target := t, sent := 0, bytes := [] }

/-- Queue 0, its operations and the writes of front end 0, with the host in session. -/
def hdmQ (x : Queue) (os : List Op) (ws : List FeWrite) : State :=
  (hdm.withWork { hdm.work with queues := [(0, x)], ops := os, nextUid := 9 }).setFe 0 { Fe.init with writes := ws }

/-- The largest queue number; an entry held in its turn; a failed write; a hold-off that ends with and without completions. -/
theorem witness_Completions :
    (opE.seq < 2 ^ 32 ∧ opE.status < 2 ^ 16 ∧ 1023 < 1024)
      ∧ ((withQO queueA [opE]).op? 1 = some opE ∧ (withQO queueA [opE]).queue? opE.queue = some queueA)
      ∧ ((withQO (queueC [1]) [{ opE with phase := .held }]).queue? 0 = some (queueC [1]) ∧ (withQO (queueC [1]) [{ opE with phase := .held }]).turn (queueC [1]) 0 1 = true)
      ∧ ((withQO (queueC [1]) [{ opE with phase := .held }]).calm ∧ (withQO (queueC [1]) [{ opE with phase := .held }]).feOpen { opE with phase := .held } = false)
      ∧ ((withQO (queueC [1]) [{ opE with phase := .held }]).target ((queueC [1]).cfg.cqBase + (queueC [1]).cqCount % 2 ^ (queueC [1]).cfg.cqLog * 32) = some .tiered ∧ base.work.resetting = [])
      ∧ ((hdmQ (queueF [1]) [{ opE with phase := .held }] []).target 0x100000000000 = some .host ∧ (hdmQ (queueF [1]) [{ opE with phase := .held }] []).turn (queueF [1]) 0 1 = true ∧ hdm.cxl.session = true ∧ (queueF [1]).die = opE.die)
      ∧ ((hdmQ queueA [opE] [entryW .data .host]).feOpen opE = true)
      ∧ ((∀ d, ((withQO (queueC [1]) [opE]).fe d).hang = none ∧ (withQO (queueC [1]) [opE]).work.hangs = []))
      ∧ (((hdmQ (queueF []) [] [entryW .entry .host]).fe 0).writes.find? (fun x => x.tag == 3) = some (entryW .entry .host) ∧ ((hdmQ (queueF []) [] [entryW .entry .host]).fe 0).oldest (entryW .entry .host) = true)
      ∧ ((hdmQ (queueF []) [{ opE with phase := .written }] [entryW .entry .host]).op? 1 = some { opE with phase := .written } ∧ hdm.timedOut .host 0 = false ∧ routed.timedOut (.remote 9) 0 = false ∧ (entryW .data (.remote 9)).role ≠ .entry)
      ∧ ((queueF []).cfg.cqLog ≠ 0 ∧ ((hdmQ (queueF []) [] [entryW .entry .host]).fe (queueF []).die).writes.find? (fun y => y.uid == some 1 && y.role == .entry) = some (entryW .entry .host))
      ∧ (hdm.timedOut .host 0 = false ∧ base.timedOut .host 0 = true ∧ hdm.cxl.link ≠ .retrain)
      ∧ ((hdmQ queueA [opE] [{ entryW .data .mmio with bytes := [1, 2, 3, 4] }]).timedOut .mmio 0 = false
      ∧ ((hdmQ queueA [opE] [{ entryW .data .mmio with bytes := [1, 2, 3, 4] }]).fe 0).oldest { entryW .data .mmio with bytes := [1, 2, 3, 4] } = true)
      ∧ ((withQ { queueA with holdUntil := some 0, holdPend := true }).queue? 3 = some { queueA with holdUntil := some 0, holdPend := true } ∧ base.reached 0 = true) := by
  repeat' apply And.intro
  all_goals first
    | decide +kernel
    | (exact fun d => ⟨rfl, rfl⟩)

/-- R484, R485: without a completion ring the fallback word is written and the operation is gone. -/
theorem test_completion_frees_operation :
    after (.operationComplete 1 []) (withQO { queueA with cfg := { queueA.cfg with fallback := 0x30000 } } [{ opE with seq := 6 }])
      (fun t => t.op? 1 == none && t.sysRead 0x30000 4 == [6, 0, 0, 0]) = true := by
  decide +kernel

/-- A queue with a time limit of 2 lines. -/
def queueT : Queue := { queueA with cfg := { queueA.cfg with timeout := 2 } }

/-- A limit that is just reached; a core that has not stopped in 64 strokes; a core without progress for 16 lines; a replay; the reset register. -/
theorem witness_TimeoutsAndHangs :
    ((withQO queueT [{ opW 12 with age := 2 }]).op? 1 = some { opW 12 with age := 2 } ∧ (withQO queueT [{ opW 12 with age := 2 }]).queue? 0 = some queueT ∧ queueT.cfg.timeout ≤ 2)
      ∧ (({ opW 9 with phase := .running } : Op).opcode = 0x09)
      ∧ (((atTime 4 0).withCores [(0, { coreA with block := .draining })]).reached (0 + 64) = true ∧ (({ coreA with block := .draining } : Core).launch = some launchA))
      ∧ (({ opA with stopAt := some 0, excOrTimeout := some 0x303 } : Op).stopAt = some 0 ∧ base.underHang 0 = false ∧ base.hangWaits 0 = false)
      ∧ ((base.setFe 0 { Fe.init with hang := some { core := 0, suspects := [5], toReplay := [], current := some 5, hung := [], second := false, lines := 8 } }).underHang 0 = true)
      ∧ ((withCore { coreA with still := 16 }).corePresent 0 = true ∧ (withCore coreA).noProgLines 0 ≤ 16 ∧ ({ coreA with still := 16 } : Core).onlyWaits = false)
      ∧ ((withCore { coreA with still := 16 }).hangWaits 0 = false)
      ∧ (base.replayLines 0 ≤ 8 ∧ opA ∈ (withOps [opA]).work.ops)
      ∧ (bitOf (base.regN (rRas 0x104)) 31 = false ∧ bitOf ((withReg base [(rRas 0x104, 0x80000000)]).regN (rRas 0x104)) 31 = true ∧ 5 ∉ base.work.resetting)
      ∧ ((∀ d, (base.fe d).hang = none ∧ base.work.hangs = []))
      ∧ ((withQO queueT [{ opW 12 with age := 2 }]).timeable { opW 12 with age := 2 } = true
        ∧ (withQO queueT [{ opW 12 with age := 2 }]).dueFirst (withQO queueT [{ opW 12 with age := 2 }]).timeoutLines ((withQO queueT [{ opW 12 with age := 2 }]).timeoutLine { opW 12 with age := 2 } 2) = true
        ∧ (withQO queueT [{ opW 12 with age := 2 }]).raised 1 = none ∧ (opW 12).excOrTimeout = none ∧ (opW 12).expired = false ∧ (opW 12).phase = .waiting)
      ∧ ((withQO queueT [{ opW 12 with age := 2 }, { opW 12 with uid := 2, age := 5 }]).timeable { opW 12 with age := 2 } = true
        ∧ (withQO queueT [{ opW 12 with age := 2 }, { opW 12 with uid := 2, age := 5 }]).dueFirst (withQO queueT [{ opW 12 with age := 2 }, { opW 12 with uid := 2, age := 5 }]).timeoutLines ((withQO queueT [{ opW 12 with age := 2 }, { opW 12 with uid := 2, age := 5 }]).timeoutLine { opW 12 with age := 2 } 2) = false)
      ∧ ((base.setFe 0 { Fe.init with hang := some { core := 0, suspects := [5], toReplay := [], current := some 5, hung := [], second := false, lines := 8 } }).inReplay 5 = true)
      ∧ (({ opA with expired := true, stopAt := some 0 } : Op).expired = true ∧ ({ coreA with block := .draining } : Core).block = .draining) := by
  repeat' apply And.intro
  all_goals first
    | decide +kernel
    | (exact fun d => ⟨rfl, rfl⟩)

/-! ### Power -/

/-- The path of core 0, and of a HBM controller's domain. -/
def core0Path : BitVec 64 := unitPath 0 0 0 0 0xC 0

/-- The path of core 0's scratchpad, which names the core's domain. -/
def scr0Path : BitVec 64 := unitPath 0 0 0 0 6 0

/-- The path of hart 0. -/
def hart0Path : BitVec 64 := unitPath 0 4 0 0 0 0

/-- `base` with a limiter at a ratio. -/
def limited (r k : Nat) : State := base.withPower { base.power with limiter := [(r, k)] }

/-- Stroke 14; a point that settles; rails of one die, of none and of all; ratios 1 and 6; a temperature at its limit. -/
theorem witness_PointsAndLimiters :
    ((atTime 4 14).running ∧ (atTime 4 14).ruling.stroke = 14 ∧ (atTime 4 14).power.decided = false)
      ∧ (((base.setDiePwr 0 { DiePwr.init with settling := some 4 }).diePwr 0).settling = some 4)
      ∧ ((base.setDiePwr 0 { DiePwr.init with hot := true, tlimit := 9 }).adPresent 0 = true ∧ ((base.setDiePwr 0 { DiePwr.init with hot := true, tlimit := 9 }).diePwr 0).hot = true ∧ (limited 0 2).dieLimited 0 = true)
      ∧ (bitOf ((withReg base [(rPwr 0x10, 0)]).regN (rPwr 0x10)) 31 = false ∧ (limited 3 1).power.limiter.get? 3 = some 1)
      ∧ ((∀ d ∈ railDies 3, ((limited 3 6).diePwr d).point = 0) ∧ (limited 3 7).power.limiter.get? 3 = some 7 ∧ (limited 17 6).power.limiter.get? 17 = some 6)
      ∧ (railDies 10 = [] ∧ railDies 15 = [0, 1, 2, 3] ∧ railDies 9 = [5] ∧ base.power.limiter.get? 9 = none
      ∧ base.railLimit 9 < 2241 ∧ base.railLimit 17 = base.power.ceilNow ∧ base.power.limiter.get? 17 = none
      ∧ base.railLimit 3 * 95 ≤ 5000 * 100 ∧ 5000 ≤ base.railLimit 3 ∧ 4000 * 100 < base.railLimit 3 * 95)
      ∧ ((limited 3 6).power.limiter.get? 3 = some 6 ∧ (limited 17 1).power.limiter.get? 17 = some 1)
      ∧ (base.diePresent 31 = true ∧ (∀ e ∈ ([(0, 105)] : List (Nat × Nat)), e.1 < 32 ∧ base.diePresent e.1 = true)) := by
  unfold State.running; decide +kernel

/-- R508: a limiter that begins to act starts at ratio 2. -/
theorem test_limiter_starts_at_two :
    after (.railExcess ⟨3, 5121⟩) base (fun t => t.power.limiter == [(3, 2)]) = true := by
  decide +kernel

/-- A command while one executes, a path that names no domain, a domain that gates at once, one that waits, one that refuses. -/
theorem witness_DomainsAndInput :
    (bitOf ((withReg base [(rPwr 0x50C, 0x80000000)]).regN (rPwr 0x50C)) 31 = true ∧ bitOf (base.regN (rPwr 0x50C)) 31 = false)
      ∧ (base.domainOf core0Path = none ∧ (base.domainOf scr0Path).isSome)
      ∧ ((match base.domainOf scr0Path with | some (u, k) => !base.isGated k && !base.gateRefused u false && base.gateReady u | none => false) = true)
      ∧ ((match base.domainOf hart0Path with | some (u, _) => base.gateRefused u false && !base.gateRefused u true | none => false) = true)
      ∧ ((match (writing (tagW .host .sent none)).domainOf scr0Path with | some (u, _) => !(writing (tagW .host .sent none)).gateReady u | none => false) = true)
      ∧ ((match base.domainOf scr0Path with | some (_, k) => (base.withPower { base.power with gated := [k], gating := [] }).isGated k | none => false) = true)
      ∧ ((match base.domainOf scr0Path with
      | some (u, k) => ((withCore { Core.init with staged := [stagedA] }).withPower { base.power with gated := [k] }).isGated k
      && ((withCore { Core.init with staged := [stagedA] }).withPower { base.power with gated := [k] }).wakeDue u | none => false) = true)
      ∧ (115 ≤ (base.withPower { base.power with temps := [(0, 115)] }).power.temps.getD (fun _ => 0) 0 ∧ base.power.input = true ∧ off.power.input = false) := by
  decide +kernel

/-! ### Proof runs and units -/

/-- A run of cores 0 and 1. -/
def runA (due started : Bool) : ProofRun := { id := 6, seed := 1, whenAt := 0x100000, a := 0, b := some 1, due := due, started := started }

/-- `base` with a run held, at line 1 or later. -/
def withRun (line : Nat) (r : ProofRun) : State := (atTime line 0).withRas { base.ras with runs := [r], nextRun := 7 }

/-- Digests of four engines. -/
def digests (v : BitVec 64) : ProofDigests := { a := [5, 5, 5, 5], aVec := 9, b := [v, v, v, v], bVec := 9 }

/-- The last core paired with another and with itself; a run before, at and after its time; equal and unequal digests. -/
theorem witness_ProofRuns :
    (base.corePresent 127 = true ∧ bitsOf (127 + 126 * 256) 14 8 = 126 ∧ bitOf (127 + 127 * 256) 15 = false ∧ base.ras.runs.length < 64)
      ∧ ((withRun 16 (runA false false)).run? 6 = some (runA false false) ∧ (withRun 16 (runA false false)).reached (strokeOf (runA false false).whenAt) = true
      ∧ (withRun 16 (runA false false)).dueFirst (withRun 16 (runA false false)).eventLines (lineOf (runA false false).whenAt) = true)
      ∧ ((∀ c ∈ (runA true false).cores, (withRun 16 (runA true false)).corePresent c = true ∧ ((withRun 16 (runA true false)).core c).launch = none
      ∧ (withRun 16 (runA true false)).underHang c = false))
      ∧ ((∀ x ∈ (withRun 16 (runA true false)).ras.runs, x.id ≠ 6 → ∀ c ∈ (runA true false).cores, x.names c = false)
      ∧ (∀ x ∈ runsBefore 6 (withRun 16 (runA true false)).ras.runs, x.started = true)
      ∧ (∃ x ∈ runsBefore 6 [{ runA true false with id := 5 }, runA true false], x.started = false)
      ∧ (withRun 16 (runA true false)).reached (strokeOf (runA true false).whenAt + (withRun 16 (runA true false)).proofWait) = false)
      ∧ ((digests 5).a.length = (base.enginesOf 0).length ∧ (digests 5).b.length = (base.enginesOf 1).length)
      ∧ (base.proofOutcome (runA true true) (digests 5) = .pass ∧ base.proofOutcome (runA true true) (digests 6) = .diverge)
      ∧ (base.proofOutcome (runA true true) { digests 5 with a := [5, 6, 5, 6] } = .engine 0 0
      ∧ base.proofOutcome (runA true true) { digests 5 with b := [1, 2, 3, 4] } = .core 1 ∧ base.coreState 1 = 0)
      ∧ ((withRun 4112 (runA true false)).reached (strokeOf (runA true false).whenAt + (withRun 4112 (runA true false)).proofWait) = true)
      ∧ (∃ c ∈ (runA true false).cores, (base.withPop { base.pop with ad := 0 }).corePresent c = false) := by
  repeat' apply And.intro
  all_goals first
    | decide +kernel
    | (rw [proofOutcome_eq]; decide +kernel)

/-- R542: runs are held in the order of WHEN. -/
theorem test_proof_submit_keeps_time_order :
    after (.proofSubmit 0x0100) ((withReg (withRun 0 (runA false false)) [(rRas 0x208, 0x2000)])) (fun t => t.ras.runs.map ProofRun.id == [7, 6]) = true := by
  decide +kernel

/-- `base` with a unit command in progress. -/
def withCmd (op : Nat) : State := base.withRas { base.ras with cmd := some { path := core0Path, op := op, seq := 9 } }

/-- The same sequence number and another; a command in progress; a path that names nothing; cores in service, suspect. -/
theorem witness_UnitCommands :
    ((0 : BitVec 8).toNat = base.ras.lastSeq ∧ (9 : BitVec 8).toNat ≠ base.ras.lastSeq ∧ (withCmd 4).ras.cmd ≠ none ∧ base.ras.cmd = none)
      ∧ (base.unitOf (unitPath 0 7 0 0 0 0) = none ∧ base.unitOf core0Path = some (.core 0) ∧ base.coreState 0 = 0)
      ∧ ((base.withRas { base.ras with units := [(coreKey 0, (1, 0))] }).coreState 0 = 1)
      ∧ ((withCmd 4).ras.cmd = some { path := core0Path, op := 4, seq := 9 } ∧ ((withCmd 4).core 0).launch = none ∧ ((withCmd 4).core 0).reads = [] ∧ ((withCmd 4).core 0).writes = [] ∧ (withCmd 4).drained 0 = true)
      ∧ ((withCmd 3).ruling.stroke = 0 ∧ (withCmd 3).ras.waits = [] ∧ (withCmd 3).coreState 0 < 2 ∧ (withCmd 3).mayQuarantine (.core 0) = true) := by
  decide +kernel

/-- R546: a suspect core is given no new work. -/
theorem test_suspect_core_takes_no_launch :
    after (.suspect core0Path 9) base (fun t => t.coreState 0 == 1) = true := by
  decide +kernel

/-! ### Links and the fabric -/

/-- Module 1 of link 0. -/
def modA (retraining : Bool) (streak tries : Nat) : AdlMod := { up := true, half := false, retraining := retraining, streak := streak, tries := tries }

/-- `base` with it. -/
def withMod (x : AdlMod) : State := base.withLinks { base.links with mods := [(1, x)] }

/-- Port 31. -/
def withPort (x : Port) : State := base.setPort 31 x

/-- A flit of zeros. -/
def flit0 (seq : Nat) : List Byte := toBytes 4 0 ++ toBytes 2 seq ++ toBytes 250 0

/-- One failure short of the limit, the limit, and the fourth retrain; a low laser; a port that trains; a flit at its last replay; five and four symbols. -/
theorem witness_LinkEvents :
    ((withMod (modA false 6 0)).running ∧ (withMod (modA false 6 0)).adlMod 0 1 = some (modA false 6 0) ∧ (modA false 6 0).streak + 1 < (withMod (modA false 6 0)).replayLimit)
      ∧ ((withMod (modA false 7 2)).replayLimit ≤ (modA false 7 2).streak + 1 ∧ (modA false 7 2).tries < 3 ∧ 3 ≤ (modA false 7 3).tries)
      ∧ ((withMod (modA true 0 1)).adlMod 0 1 = some (modA true 0 1) ∧ (0 < 14 ∨ 22 ≤ 0))
      ∧ (base.oePresent 7 = true ∧ base.links.laserLow.getLsbD 7 = false ∧ (base.withLinks { base.links with laserLow := 128 }).links.laserLow.getLsbD 7 = true)
      ∧ ((base.port 31).up = false ∧ (base.port 31).dead = false ∧ base.links.laserLow.getLsbD (31 / 4) = false)
      ∧ ((withPort { Port.init with up := true, replay := [{ seq := 1, bytes := [], replays := 15 }] }).portUp 31 = true)
      ∧ ((∀ f ∈ [({ seq := 1, bytes := [], replays := 15 } : Flit)], f.replays < 16) ∧ (∃ f ∈ [({ seq := 1, bytes := [], replays := 16 } : Flit)], 16 ≤ f.replays))
      ∧ ((flit0 0).length = 256 ∧ ([] : List Byte).length ≠ 256)
      ∧ (127 < 128 ∧ 127 ≠ base.node ∧ base.pop.variant ≠ .nwa1640e ∧ base.links.isolated.getLsbD 127 = false ∧ base.mayIsolate 127 = true) := by
  unfold State.running; decide +kernel

/-- R579: a gap in the sequence makes the receiver answer NAK. -/
theorem test_flit_out_of_order_asks_again :
    after (.rufenFlitReceive 31 (flit0 3) 0 true) (withPort { Port.init with up := true, rxSeq := 0 }) (fun t => (t.port 31).nak) = true := by
  decide +kernel

/-- A request of node 9. -/
def reqA (pa : Nat) (op : RemoteOp) : RemoteReq := { node := 9, tag := 1, pa := pa, op := op, e := [] }

/-- Register OPT.STEP_LINE and gate 15's address. -/
def stepReg (line : BitVec 64) : State := withReg routed [(rOpt 0x40, line), (rOpt 0xF8, 1024)]

/-- A step for gate 15 whose line has come. -/
def stepA : Step := { gate := 15, line := 0, value := 7 }

/-- A home with 256 lines BUSY. -/
def fullHome : State :=
  routed.withMem { routed.mem with txns := List.replicate 256 { req := { line := 8, kind := .readShared, who := .host, e := [] }, waits := [15] } }

/-- R339: it takes no more. -/
theorem fullHome_takes_none : fullHome.homeTakes 8 = false := by
  have h : (fullHome.mem.txns.filter (fun t => (fullHome.homeOf (t.req.line * 128)).1 == (fullHome.homeOf (8 * 128)).1)) = fullHome.mem.txns := by
    refine List.filter_eq_self.2 fun t ht => ?_
    rw [(List.mem_replicate.1 ht).2]
    exact beq_self_eq_true _
  have l : fullHome.mem.txns.length = 256 := List.length_replicate
  have h2 : fullHome.busyRoom 8 = false := by simp only [State.busyRoom, h, l]; decide
  simp only [State.homeTakes, h2, Bool.false_and]

/-- Nodes isolated and not; memory, a window and a hole; one line ahead and two; gates used and not; a fabric reset that ends. -/
theorem witness_FabricCommands :
    (routed.running ∧ (reqA 1024 (.read 8)).node < 128 ∧ nodePart 1024 = routed.node ∧ 1 ≤ remoteSize (.read 8) ∧ localPart 1024 % 128 + remoteSize (.read 8) ≤ 128)
      ∧ (routed.isolated 9 = false ∧ base.isolated 9 = true ∧ routed.inTiered 1024 8 = true ∧ routed.homeTakes 8 = true)
      ∧ (fullHome.isolated 9 = false ∧ fullHome.inTiered 1024 8 = true)
      ∧ (routed.inTiered 0x050000000000 8 = false ∧ routed.windowOf 0x050000000000 = none ∧ routed.windowOf 0x060000000000 = some (0, 0) ∧ routed.inTiered 0x060000000000 8 = false)
      ∧ (bitOf 0x80000000 31 = true ∧ ((stepReg 1).regN (rOpt 0x40) % 2 ^ 48 + 2 ^ 48 - (stepReg 1).ruling.line % 2 ^ 48) % 2 ^ 48 < 2)
      ∧ (2 ≤ ((stepReg 2).regN (rOpt 0x40) % 2 ^ 48 + 2 ^ 48 - (stepReg 2).ruling.line % 2 ^ 48) % 2 ^ 48 ∧ (stepReg 2).gateAddr 15 ≠ 0)
      ∧ (routed.ruling.state ≠ .unruled ∧ 1 ≤ ((1 : BitVec 48).toNat + 2 ^ 48 - routed.ruling.line % 2 ^ 48) % 2 ^ 48)
      ∧ ((routed.withRuling { routed.ruling with state := .unruled }).ruling.state = .unruled)
      ∧ (((stepReg 2).withLinks { base.links with steps := [stepA] }).links.steps.find? (fun x => x.gate == 15 && ((stepReg 2).withLinks { base.links with steps := [stepA] }).dueFirst ((stepReg 2).withLinks { base.links with steps := [stepA] }).eventLines x.line) = some stepA)
      ∧ ((stepReg 2).gateAddr 15 % 4 = 0 ∧ (stepReg 2).inTiered 1024 4 = true ∧ (stepReg 2).calm ∧ (withReg routed [(rOpt 0xF8, 0)]).gateAddr 15 = 0)
      ∧ ((stepReg 2).plainLines)
      ∧ (routed.links.fresetAt = none ∧ (routed.withLinks { routed.links with freset := [0] }).links.freset.find? ((routed.withLinks { routed.links with freset := [0] }).dueFirst (routed.withLinks { routed.links with freset := [0] }).eventLines) = some 0)
      ∧ (((atTime 64 0).withLinks { base.links with fresetAt := some 0 }).links.fresetAt = some 0 ∧ (atTime 64 0).reached ((0 + 64) % 2 ^ 48 * 16) = true) := by
  repeat' first | exact plain_of _ rfl rfl rfl | apply And.intro
  all_goals decide +kernel

/-- R584: the value of a step is stored at its gate's address. -/
theorem test_step_gate_write :
    after (.stepGateWrite 15) ((stepReg 2).withLinks { base.links with steps := [stepA] }) (fun t => t.sysRead 1024 4 == [7, 0, 0, 0]) = true := by
  decide +kernel

/-! ### CXL -/

/-- Each link state; Recovery at its limit; sessions that begin and are lost; vectors raised, masked and pending. -/
theorem witness_CxlLinkAndSession :
    ((cxlS .up false).cxl.link = .up ∧ (cxlS .retrain false).cxl.link = .retrain ∧ (cxlS .modeFail false).cxl.link = .modeFail ∧ (cxlS .training true).cxl.link = .training)
      ∧ (((cxlS .retrain true).withCxl { (cxlS .retrain true).cxl with recovery := 8 }).retrainLimit ≤ 8)
      ∧ ((cxlS .up true).cxl.session = true ∧ (cxlS .up false).cxl.session = false ∧ (cxlS .up false).cxl.lost = false)
      ∧ (((cxlS .up true).withCxl { (cxlS .up true).cxl with raised := [2047] }).cxl.raised.contains 2047 = true ∧ 2047 < 2048 ∧ bitOf ((cxlS .up true).msixField 2047 3) 0 = false)
      ∧ (bitOf (((cxlS .up true).withCxl { (cxlS .up true).cxl with msix := [(2047 * 16 + 12, 1)] }).msixField 2047 3) 0 = true)
      ∧ (((cxlS .up true).withCxl { (cxlS .up true).cxl with msixPend := [5] }).cxl.raised.contains 5 = false) := by
  decide +kernel

/-- The first line of the HDM, an address beyond memory, one byte and half a line; a snoop of a line held and of one that is not. -/
theorem witness_HostMemory :
    (hdm.running ∧ hdm.cxl.session = true ∧ hdm.hdmAddr 0 = some 0 ∧ hdm.hdmAddr 0x0FFFFFFF = some 0x0FFFFFFF)
      ∧ (hdm.inTiered (0 / 128 * 128) 128 = true)
      ∧ (((hdm.withPeel { hdm.peel with h := 16, d := 16 }).inTiered (0 / 128 * 128) 128) = false)
      ∧ (hdm.busy 0 = false ∧ (hdm.dirOf 0).owner ≠ some 22 ∧ (hdm.withMem { hdm.mem with dir := [(0, { owner := some 22, sharers := 0 })] } |>.dirOf 0).owner = some 22)
      ∧ (hdm.homeFree 0 ∧ (hdm.dirOf 0).owner = none ∧ (hdm.dirOf 0).sharers = 0 ∧ (∀ x ∈ hdm.mem.dirty, x.1 / 128 ≠ 0) ∧ hdm.recordsOff ∧ Tbl.rising hdm.mem.dirty = true)
      ∧ (halfBytes 127 [(127, 1)] = [(127, 1)] ∧ halfBytes 0 [(127, 1)] = [] ∧ (∀ o, o < 64 → (o, (1 : Byte)) ∈ (upFrom 0 64).map (fun o => (o, (1 : Byte)))))
      ∧ (hdm.hpaLine 0x100000 = some (0x100000000000 / 128) ∧ hdm.hpaLine 0 = none ∧ hdm.tracked (0x100000000000 / 128) = none)
      ∧ ((hdm.withMem { hdm.mem with tracker := [(0x100000000000 / 128, { owner := some 16, sharers := 0 })] }).tracked (0x100000000000 / 128) = some { owner := some 16, sharers := 0 }) := by
  unfold State.homeFree State.recordsOff State.running; decide +kernel

/-- R600: MemRd with meta A gives the host the line for itself. -/
theorem test_memrd_any_makes_host_owner :
    after (.memrdAny 0 []) hdm (fun t => (t.dirOf 0).owner == some 22) = true := by
  decide +kernel

/-! ### Registers, boot, the hatch and the ruling -/

/-- A staged register, a read-only one, a plain one; a width it does not take; a block that is absent; BAR accesses at their ends. -/
theorem witness_RegisterWrites :
    (base.running ∧ blockAt 0x10008 = some (.rule, 8) ∧ ((regAt .rule 8).map (fun r => r.1.cls)) = some .rwl ∧ base.boot.phase = 2)
      ∧ (((regAt .rule 0x2C).map (fun r => r.1.cls)) = some .rw ∧ base.blockPresent .rule = true ∧ ((regAt .rule 0x2C).map (fun r => accessOk r.1 0x2C 4)) = some true)
      ∧ (((regAt .rule 0x2C).map (fun r => accessOk r.1 0x2C 2)) = some false ∧ ((base.touchMmio 0x1002C).regCommand .rule 0x2C 5) = none)
      ∧ (((regAt (.fe 0) 0x8000).map (fun r => r.1.cls)) = some .rws)
      ∧ (blockAt 0x60000 = none ∧ 0xFFFFFFF < 0x10000000 ∧ (cxlS .up true).bar0Ok 0x60000 4 = false ∧ (cxlS .up true).bar0Ok 0x6010000 8 = true)
      ∧ (0x1FFFFFFF + 1 ≤ 0x20000000 ∧ base.corePresent (0x1FFFFFFF / 0x400000) = true ∧ 0x1FFFFFFF % 128 + 1 ≤ 128)
      ∧ ((base.withPop { base.pop with ad := 7 }).corePresent (0x1FFFFFFF / 0x400000) = false) := by
  unfold State.running; decide +kernel

/-- R661: RULE_INTR_EN takes a 4 B write; a 2 B access is ignored. -/
theorem test_register_write_keeps_other_bits :
    after (.registerWrite 0x1002C 2 0xFF) base (fun t => t.regs.live == base.regs.live) = true := by
  decide +kernel

/-- What boot finds on a full module. -/
def envA (straps : BitVec 8) : BootEnv :=
  { straps := straps, ad := 15, pd := 3, hs := 0xFFFF, dram := 0xFFFF, oe := 0xFF, adlOk := true, lanes := [], spares := [], repaired := [] }

/-- A firmware record up to its trailer: SEQ 1, a directory of the four components. -/
def fwHead : List Byte :=
  toBytes 8 0x4E574B5A00000001 ++ toBytes 8 1 ++ toBytes 48 136 ++ toBytes 8 4 ++ toBytes 32 1 ++ toBytes 32 2 ++ toBytes 32 3 ++ toBytes 32 4

/-- The record. -/
def fwBytes : List Byte := fwHead ++ toBytes 3144 0

/-- A module whose memory holds it at 4,096, named by HUB_REC_ADDR. -/
def recS : State := (withReg base [(rHub 0x410, 4096)]).sysWrite 4096 fwHead

/-- Power on, the reset pin, pulses of 9, 10 and 10,000 µs; straps; boot complete; the writer; a record in memory and one beyond it. -/
theorem witness_ResetsAndBoot :
    (off.power.input = false ∧ base.power.input = true ∧ State.reset.power.input = true ∧ State.reset.boot.phase = 0)
      ∧ (State.reset.validRecs 1 = [] ∧ (envA 0).straps.getLsbD 1 = false ∧ (envA 2).straps.getLsbD 1 = true)
      ∧ ((((atTime 5 0).withBoot { base.boot with phase := 1, readyAt := 4 }).withRuling { (atTime 5 0).ruling with state := .locked }).boot.phase = 1 ∧ (atTime 5 0).ruling.line ≠ 4)
      ∧ (bitOf 0x80000002 31 = true ∧ base.boot.writer = none ∧ ((withReg base [(rHub 0x410, 0x10000000000000)]).memRecord 0x10000000000000 false).2 = none)
      ∧ (((recS.memRecord 4096 true).2.map FlashRec.bytes) = some fwBytes)
      ∧ ((base.withBoot { base.boot with writer := some { region := 2, bank := 1, image := FlashRec.blank } }).boot.writer.isSome)
      ∧ (base.inTiered (0 / 64 * 64) 3208 = true ∧ base.inTiered 0x10000000000000 3208 = false ∧ (base.homeRead 0 3208).tokenOk ((base.homeRead 0 3208).sysRead 0 3208) = false) := by
  decide +kernel

/-- A record is accepted where its check and its signature hold, which the model leaves open (assumption log 6): its other conditions hold. -/
theorem witness_ResetsAndBoot_accepted :
    (recS.recCheck 0 { bytes := fwBytes, checkOk := true, sigOk := true } = none)
      ∧ (recS.recCheck 0 { bytes := fwBytes, checkOk := false, sigOk := true } = some 1) := by
  decide +kernel

/-- A debug token with every permission, for module 0 and the nonce 0. -/
def tokenB : List Byte := toBytes 8 0x4E574B5A00000005 ++ toBytes 40 0 ++ toBytes 4 7 ++ toBytes 3156 0

/-- A module whose straps allow tokens, with that token at address 0. -/
def tokenS : State := (base.withBoot { base.boot with straps := 8 }).sysWrite 0 (tokenB.take 64)

/-- A token is accepted where it is the module's and its check and its signature hold, which the model leaves open (assumption log 6): its other conditions hold. -/
theorem witness_ResetsAndBoot_token :
    (((tokenS.homeRead 0 3208).sysRead 0 3208) = tokenB)
      ∧ (moduleId = 0 → Config.checkMatches tokenB = true → Config.signatureVerifies tokenB = true → (tokenS.homeRead 0 3208).tokenOk tokenB = true) :=
  ⟨by decide +kernel,
   by intro h0 h1 h2; unfold State.tokenOk; rw [h0, h1, h2]; decide +kernel⟩

/-- R535: a pulse of less than 10 µs is no reset. -/
theorem test_warm_reset_below_ten_us :
    after (.moduleWarmReset 9) base (fun t => t.boot.phase == 2) = true := by
  decide +kernel

/-- The hatch bus open, framed by the marks, at a stroke. -/
def hatchS (stroke : Nat) : State := ((atTime 5 stroke).withHatch { base.hatch with framing := .marks, scan := true, chain := some core0Path })

theorem witness_HatchMessages :
    ((hatchS 4).power.input = true ∧ (hatchS 4).busOpen = true ∧ (hatchS 4).boot.phase ≠ 3 ∧ (hatchS 4).boot.hist = none)
      ∧ (bitOf ((hatchS 4).regN (rHatch 0x0)) 31 = true ∧ bitOf ((withReg (hatchS 4) [(rHatch 0x0, 0)]).regN (rHatch 0x0)) 31 = false)
      ∧ ((hatchS 4).power.tripped = false ∧ (hatchS 4).hatch.asks = [] ∧ (hatchS 4).ras.cmd = none ∧ (hatchS 4).regs.commits.length < 8)
      ∧ ((hatchS 4).unitOf core0Path ≠ none ∧ (hatchS 4).unitOf (unitPath 0 7 0 0 0 0) = none ∧ (hatchS 4).logUsable = false)
      ∧ (((hatchS 4).withPower { base.power with tripped := true }).power.tripped = true ∧ base.boot.hist = none)
      ∧ ((hatchS 4).tokenOk [] = false ∧ (hatchS 4).recoveryOpen = false ∧ ((hatchS 4).withBoot { base.boot with phase := 3 }).boot.phase = 3) := by
  decide +kernel

/-- R651, R653: the polynomials' values over the digits 1 to 9 in ASCII (0x29B1 and 0xF4). -/
theorem test_crc_polynomials :
    crc16 ((upFrom 0x31 9).map (BitVec.ofNat 8)) = 0x29B1 ∧ crc8 ((upFrom 0x31 9).map (BitVec.ofNat 8)) = 0xF4 := by
  decide +kernel

/-- A rack frame: line number, cap and CRC as of R651. -/
def frameA : List Byte := [0x80] ++ toBytes 6 7 ++ toBytes 2 900 ++ toBytes 3 0

/-- With its CRC. -/
def frameOk : List Byte := frameA ++ toBytes 2 (crc16 frameA)

/-- A chunk that fails its check and one that ends its packet; scan with a chain; frames with a good and a bad CRC; the clock lost. -/
theorem witness_HatchBus :
    ((hatchS 12).busOpen = true ∧ (hatchS 12).inStroke [4, 6, 8, 10, 12] = true ∧ chunkOk (hatchS 12).strokeCycles [1, 2, 3] = false)
      ∧ (chunkOk (hatchS 12).strokeCycles [0x82, 0, 0, BitVec.ofNat 8 (crc8 [0x82, 0, 0])] = true ∧ (hatchS 12).hatch.rx.length < 8)
      ∧ (([0x82, 0, 0, BitVec.ofNat 8 (crc8 [0x82, 0, 0])] : List Byte).length < (hatchS 12).strokeCycles ∧ bitOf (leAt [0x82, 0, 0, BitVec.ofNat 8 (crc8 [0x82, 0, 0])] 0 1) 7 = true)
      ∧ (((hatchS 2).withHatch { (hatchS 2).hatch with usable := false }).hatch.usable = false ∧ ((hatchS 2).withPower { base.power with decided := true }).power.decided = true ∧ (hatchS 2).ruling.state ≠ .unruled)
      ∧ ((hatchS 2).hatch.framing ≠ .none ∧ (hatchS 2).inStroke [2] = true ∧ ((hatchS 2).withRuling { (hatchS 2).ruling with ckLost := true }).busOpen = false)
      ∧ ((hatchS 14).inStroke [14] = true ∧ (hatchS 14).hatch.scan = true ∧ 8 ≤ 8 * ((hatchS 14).strokeCycles - 4) ∧ (hatchS 14).hatch.chain ≠ none ∧ ([1] : List Byte).length = ceilDiv 8 8)
      ∧ (frameOk.length = 14 ∧ rackValid frameOk = true ∧ rackValid (frameA ++ [0, 0]) = false ∧ ([] : List Byte).length ≠ 14 ∧ (hatchS 2).ruling.ckLost = false) := by
  decide +kernel

/-- The tracker with a predicted mark. -/
def ruled (st : Tracker) (p : Option Nat) (cand : Option Nat) : State :=
  base.withRuling { base.ruling with state := st, predicted := p, candidate := cand }

/-- Marks 200 and 201 ns from where one is expected; a candidate; boundaries with a mark and without; pitches; commits. -/
theorem witness_RulingCommands :
    ((ruled .unruled none none).ruling.state = .unruled ∧ (ruled .acquiring none none).ruling.predicted = none)
      ∧ (apart (0 + 200 + base.pitch) (0 + base.pitch) ≤ 200 ∧ 200 < apart (0 + 201 + base.pitch) (0 + base.pitch))
      ∧ ((ruled .flywheel (some 1000) none).ruling.missed < 4 ∧ apart 1200 1000 ≤ 200 ∧ 200 < apart 1201 1000)
      ∧ (base.regs.commits = [] ∧ (ruled .locked (some 1000) none).ruling.marked = false ∧ (ruled .locked none none).ruling.state ≠ .slew)
      ∧ (65536 ≤ (base.withRuling { base.ruling with sinceStart := 65536 }).ruling.sinceStart)
      ∧ ((base.withBoot { base.boot with phase := 1 }).boot.phase ≠ 2 ∧ 4 % 8 ≠ base.regN rRuleCtl % 8 ∧ 4 < 5 % 8)
      ∧ (base.effective (2 ^ 16) ≠ 0 ∧ (base.withPop { base.pop with pd := 0 }).effective (2 ^ 16) = 0)
      ∧ ((∀ c ∈ base.regs.commits, c.mask &&& 2 ^ 16 = 0) ∧ (∃ c ∈ [({ mask := 2 ^ 16, due := 9, late := false } : Commit)], c.mask &&& 2 ^ 16 ≠ 0)) := by
  decide +kernel

/-- R692: two marks one pitch apart give a phase: the next is predicted one measured pitch on. -/
theorem test_second_mark_predicts :
    after (.markEdge (20480 + 100)) (ruled .acquiring none (some 0)) (fun t => t.ruling.predicted == some (2 * (20480 + 100))) = true := by
  decide +kernel

/-- Assumption log 2: a step on an empty queue begins the next stroke. -/
theorem test_step_on_empty_queue :
    (match step (atTime 5 14) with | .next t => t.ruling.stroke == 15 | _ => false) = true := by
  decide +kernel

theorem witness_RuledTimeStaysInFields :
    ((((atTime 5 14).withPending [.markEdge 3]).ruling).inFields = true)
      ∧ ((match step ((atTime 5 14).withPending [.markEdge 3]) with | .next _ => true | _ => false) = true) := by
  decide +kernel

theorem witness_MemoryStaysCanonical :
    ((base.sysWrite 1024 [1, 0, 2]).mem.wf = true)
      ∧ ((match step ((base.sysWrite 1024 [1, 0, 2]).withPending [.windowAccess .host 0x060000000000 0 (some [0, 7])]) with | .next _ => true | _ => false) = true) := by
  decide +kernel

end Sys2Proof.Tests
end

section

/-!
### Proofs of the family of 01_ruling: reset and the empty queue
-/

namespace Sys2Proof.Machine

theorem Core.init_sreg (r : Nat) : Core.init.sreg r = 0 := by
  simp only [Core.sreg, Core.init]
  split <;> rfl

/-- Settles O3: each field of the reset state is as the rules give it, a core with no entry being a fresh one. -/
theorem resetState : Obligations.ResetState := by
  unfold Obligations.ResetState
  exact ⟨rfl, rfl, rfl, fun _ => rfl, fun _ => rfl, rfl, fun c r => ⟨rfl, Core.init_sreg r, rfl⟩,
    rfl, rfl, rfl, rfl⟩

theorem step_nil {s : State} (hq : s.pending = []) : step s = .next s.idle := by simp [step, hq]

/-- Settles O2: the step on an empty queue is `State.idle`, whose one condition the two cases of the statement split. -/
theorem emptyQueueAdvancesStroke : Obligations.EmptyQueueAdvancesStroke := by
  unfold Obligations.EmptyQueueAdvancesStroke
  intro s hq
  refine ⟨fun hin hph hst => ?_, fun h => ?_⟩
  · simp [step_nil hq, State.idle, hin, hph, hst]
  · rw [step_nil hq, State.idle, if_neg]
    simp only [Bool.and_eq_true, bne_iff_ne, decide_eq_true_eq, ne_eq, not_and]
    rintro ⟨hin, hph⟩ hst
    obtain h | h | h := h
    · simp [h] at hin
    · exact hph h
    · omega

end Sys2Proof.Machine

end

section

/-!
### Observations under the operations of the model

Each function of the model but those of the tracker, of the resets and of register writes leaves ruled time as it is: one rewriting
rule for each, `<function>_time`. Where a function leaves more as it is, the rule is for every such observation: `<function>_seen`.
-/

namespace Sys2Proof.Machine

/-! ### Observations of a state -/

/-- A part of the state that is seen neither in the fields named here nor in the domains of the memory controllers, which a
request wakes. The lemmas below rewrite under `Obs.see` and never unfold it. -/
structure Obs (α : Type) where
  part : State → α
  withPop : ∀ (s : State) (x : Pop), part (s.withPop x) = part s
  withRegs : ∀ (s : State) (x : Regs), part (s.withRegs x) = part s
  withCores : ∀ (s : State) (x : Tbl Core), part (s.withCores x) = part s
  withMem : ∀ (s : State) (x : Mem), part (s.withMem x) = part s
  withCtls : ∀ (s : State) (x : Tbl MemCtl), part (s.withCtls x) = part s
  withPeel : ∀ (s : State) (x : Peel), part (s.withPeel x) = part s
  withXlat : ∀ (s : State) (x : Xlat), part (s.withXlat x) = part s
  withPds : ∀ (s : State) (x : Pds), part (s.withPds x) = part s
  withWork : ∀ (s : State) (x : Work), part (s.withWork x) = part s
  withRas : ∀ (s : State) (x : Ras), part (s.withRas x) = part s
  withLinks : ∀ (s : State) (x : Links), part (s.withLinks x) = part s
  withCxl : ∀ (s : State) (x : Cxl), part (s.withCxl x) = part s
  withBoot : ∀ (s : State) (x : Boot), part (s.withBoot x) = part s
  withOut : ∀ (s : State) (x : List Output), part (s.withOut x) = part s
  withFresh : ∀ (s : State) (x : Nat), part (s.withFresh x) = part s
  withPending : ∀ (s : State) (x : List Instr), part (s.withPending x) = part s
  wakeCtl : ∀ (s : State) (n : Nat), part (s.wakeCtl n) = part s

/-- What is seen of a state. -/
def Obs.see {α : Type} (o : Obs α) (s : State) : α := o.part s

/-- One that is not seen in the hatch bus either: the functions that raise the alert or send a message leave it, too. -/
structure OffHatch (α : Type) where
  obs : Obs α
  withHatch : ∀ (s : State) (x : Hatch), obs.see (s.withHatch x) = obs.see s

/-- Tracker and ruled time, seen. -/
def Obs.time : Obs Ruling where
  part := State.ruling
  withPop := State.withPop_ruling
  withRegs := State.withRegs_ruling
  withCores := State.withCores_ruling
  withMem := State.withMem_ruling
  withCtls := State.withCtls_ruling
  withPeel := State.withPeel_ruling
  withXlat := State.withXlat_ruling
  withPds := State.withPds_ruling
  withWork := State.withWork_ruling
  withRas := State.withRas_ruling
  withLinks := State.withLinks_ruling
  withCxl := State.withCxl_ruling
  withBoot := State.withBoot_ruling
  withOut := State.withOut_ruling
  withFresh := State.withFresh_ruling
  withPending := State.withPending_ruling
  wakeCtl s n := by simp only [State.wakeCtl]; split <;> simp

/-- They are not seen in the hatch bus. -/
def OffHatch.time : OffHatch Ruling where
  obs := Obs.time
  withHatch := State.withHatch_ruling

/-- The hatch bus, seen. -/
def Obs.hatch : Obs Hatch where
  part := State.hatch
  withPop := State.withPop_hatch
  withRegs := State.withRegs_hatch
  withCores := State.withCores_hatch
  withMem := State.withMem_hatch
  withCtls := State.withCtls_hatch
  withPeel := State.withPeel_hatch
  withXlat := State.withXlat_hatch
  withPds := State.withPds_hatch
  withWork := State.withWork_hatch
  withRas := State.withRas_hatch
  withLinks := State.withLinks_hatch
  withCxl := State.withCxl_hatch
  withBoot := State.withBoot_hatch
  withOut := State.withOut_hatch
  withFresh := State.withFresh_hatch
  withPending := State.withPending_hatch
  wakeCtl s n := by simp only [State.wakeCtl]; split <;> simp

/-- The tracker and ruled time of a state. -/
abbrev State.time (s : State) : Ruling := OffHatch.time.obs.see s

@[simp] theorem State.withPower_time (s : State) (x : Power) : (s.withPower x).time = s.time := State.withPower_ruling s x

@[simp] theorem State.withRuling_time (s : State) (x : Ruling) : (s.withRuling x).time = x := State.withRuling_ruling s x

section

variable {α : Type} {π : Obs α} {ρ : OffHatch α}

@[simp] theorem State.withPop_seen (s : State) (x : Pop) : π.see (s.withPop x) = π.see s := π.withPop s x
@[simp] theorem State.withRegs_seen (s : State) (x : Regs) : π.see (s.withRegs x) = π.see s := π.withRegs s x
@[simp] theorem State.withCores_seen (s : State) (x : Tbl Core) : π.see (s.withCores x) = π.see s := π.withCores s x
@[simp] theorem State.withMem_seen (s : State) (x : Mem) : π.see (s.withMem x) = π.see s := π.withMem s x
@[simp] theorem State.withCtls_seen (s : State) (x : Tbl MemCtl) : π.see (s.withCtls x) = π.see s := π.withCtls s x
@[simp] theorem State.withPeel_seen (s : State) (x : Peel) : π.see (s.withPeel x) = π.see s := π.withPeel s x
@[simp] theorem State.withXlat_seen (s : State) (x : Xlat) : π.see (s.withXlat x) = π.see s := π.withXlat s x
@[simp] theorem State.withPds_seen (s : State) (x : Pds) : π.see (s.withPds x) = π.see s := π.withPds s x
@[simp] theorem State.withWork_seen (s : State) (x : Work) : π.see (s.withWork x) = π.see s := π.withWork s x
@[simp] theorem State.withRas_seen (s : State) (x : Ras) : π.see (s.withRas x) = π.see s := π.withRas s x
@[simp] theorem State.withLinks_seen (s : State) (x : Links) : π.see (s.withLinks x) = π.see s := π.withLinks s x
@[simp] theorem State.withCxl_seen (s : State) (x : Cxl) : π.see (s.withCxl x) = π.see s := π.withCxl s x
@[simp] theorem State.withBoot_seen (s : State) (x : Boot) : π.see (s.withBoot x) = π.see s := π.withBoot s x
@[simp] theorem State.withHatch_seen (s : State) (x : Hatch) : ρ.obs.see (s.withHatch x) = ρ.obs.see s := ρ.withHatch s x
@[simp] theorem State.withOut_seen (s : State) (x : List Output) : π.see (s.withOut x) = π.see s := π.withOut s x
@[simp] theorem State.withFresh_seen (s : State) (x : Nat) : π.see (s.withFresh x) = π.see s := π.withFresh s x
@[simp] theorem State.withPending_seen (s : State) (x : List Instr) : π.see (s.withPending x) = π.see s := π.withPending s x

/-! ### Ruled time under the shapes the model is built from -/

/-- What comes of a command, when anything does, is a state with `p`. -/
def Act.leads (a : Act) (p : State → Prop) : Prop := ∀ t, a = .next t → p t

@[simp] theorem Act.leads_next (t : State) (p : State → Prop) : (Act.next t).leads p ↔ p t := by simp [Act.leads]

@[simp] theorem Act.leads_stay (p : State → Prop) : Act.stay.leads p := by simp [Act.leads]

@[simp] theorem Act.leads_notNow (p : State → Prop) : notNow.leads p := Act.leads_stay p

@[simp] theorem Act.leads_ite (c : Prop) [Decidable c] (a b : Act) (p : State → Prop) :
    (if c then a else b).leads p ↔ if c then a.leads p else b.leads p := by split <;> rfl

@[simp] theorem Act.leads_whenIt (b : Bool) (k : Act) (p : State → Prop) :
    (whenIt b k).leads p ↔ (b = true → k.leads p) := by cases b <;> simp

@[simp] theorem Act.leads_withSome {α : Type} (o : Option α) (k : α → Act) (p : State → Prop) :
    (withSome o k).leads p ↔ ∀ x, o = some x → (k x).leads p := by cases o <;> simp

@[simp] theorem Act.leads_andThen (a : Act) (f : State → State) (p : State → Prop) :
    (a.andThen f).leads p ↔ a.leads (fun t => p (f t)) := by cases a <;> simp [Act.andThen]

theorem Act.leads_mono {a : Act} {p q : State → Prop} (h : a.leads p) (hpq : ∀ t, p t → q t) : a.leads q :=
  fun t e => hpq t (h t e)

@[simp] theorem State.ite_seen (p : Prop) [Decidable p] (a b : State) :
    π.see (if p then a else b) = if p then π.see a else π.see b := apply_ite _ _ _ _

@[simp] theorem State.ite_fst_seen {β : Type} (p : Prop) [Decidable p] (a b : State × β) :
    π.see (if p then a else b).1 = if p then π.see a.1 else π.see b.1 := by split <;> rfl

@[simp] theorem State.foldl_seen {β : Type} (g : State → β → State) (s : State) (l : List β)
    (hg : ∀ u x, π.see (g u x) = π.see u) : π.see (l.foldl g s) = π.see s := by
  induction l generalizing s with
  | nil => rfl
  | cons x l ih => rw [List.foldl_cons, ih, hg]

@[simp] theorem State.foldl_fst_seen {β γ : Type} (g : State × γ → β → State × γ) (r : State × γ) (l : List β)
    (hg : ∀ r x, π.see (g r x).1 = π.see r.1) : π.see (l.foldl g r).1 = π.see r.1 := by
  induction l generalizing r with
  | nil => rfl
  | cons x l ih => rw [List.foldl_cons, ih, hg]

theorem State.ite_seen_eq {p : Prop} [Decidable p] {a b : State} {q : α} (ha : π.see a = q) (hb : π.see b = q) :
    π.see (if p then a else b) = q := by split <;> assumption

theorem State.some_seen {u t : State} {q : α} (h : some u = some t) (hu : π.see u = q) : π.see t = q := by
  rw [← hu, Option.some.inj h]

theorem State.pair_seen {β : Type} {s u : State} {r : State × β} {x : β} (e : r = (u, x))
    (h : π.see r.1 = π.see s) : π.see u = π.see s := by rw [← h, e]

theorem State.getD_seen {s d : State} {o : Option State} (h : ∀ t, o = some t → π.see t = π.see s)
    (hd : π.see d = π.see s) : π.see (o.getD d) = π.see s := by
  cases o with
  | none => exact hd
  | some t => exact h t rfl

@[simp] theorem State.setReg_seen (s : State) (o : Nat) (v : BitVec 64) : π.see (s.setReg o v) = π.see s := by
  simp [State.setReg]

@[simp] theorem State.setStaged_time (s : State) (o : Nat) (v : BitVec 64) : (s.setStaged o v).time = s.time := by
  simp [State.setStaged]

@[simp] theorem State.setRegBit_seen (s : State) (o i : Nat) (b : Bool) : π.see (s.setRegBit o i b) = π.see s := by
  simp [State.setRegBit]

@[simp] theorem State.setRegBits_time (s : State) (o hi lo v : Nat) : (s.setRegBits o hi lo v).time = s.time := by
  simp [State.setRegBits]

@[simp] theorem State.bump_seen (s : State) (o : Nat) : π.see (s.bump o) = π.see s := by simp [State.bump]

@[simp] theorem State.bumpBy_time (s : State) (o n : Nat) : (s.bumpBy o n).time = s.time := by simp [State.bumpBy]

@[simp] theorem State.draw_seen (s : State) : π.see s.draw.1 = π.see s := by simp [State.draw]

@[simp] theorem State.emit_seen (s : State) (o : Output) : π.see (s.emit o) = π.see s := by simp [State.emit]

@[simp] theorem State.emitN_seen (s : State) (k : OutKind) (args : List Nat) : π.see (s.emitN k args) = π.see s := by
  simp [State.emitN]

@[simp] theorem State.mgmt_seen (s : State) (args : List Nat) (bytes : List Byte) :
    ρ.obs.see (s.mgmt args bytes) = ρ.obs.see s := by
  simp [State.mgmt]

@[simp] theorem State.msi_seen (s : State) (h f ident : Nat) : π.see (s.msi h f ident) = π.see s := by simp [State.msi]

@[simp] theorem State.msiTarget_seen (s : State) (t : Nat) : π.see (s.msiTarget t) = π.see s := by simp [State.msiTarget]

@[simp] theorem State.alert_seen (s : State) (cause : Nat) : ρ.obs.see (s.alert cause) = ρ.obs.see s := by simp [State.alert]

@[simp] theorem State.setRemap_seen (s : State) (b : Nat) (r : Remap) : π.see (s.setRemap b r) = π.see s := by
  simp [State.setRemap]

@[simp] theorem State.homeWrite_seen (s : State) (pa : Nat) (bs : List Byte) : π.see (s.homeWrite pa bs) = π.see s := by
  simp [State.homeWrite]

@[simp] theorem State.setPoison_seen (s : State) (secs : List Nat) : π.see (s.setPoison secs) = π.see s := by
  simp [State.setPoison]

@[simp] theorem State.setCore_seen (s : State) (c : Nat) (k : Core) : π.see (s.setCore c k) = π.see s := by
  simp [State.setCore]

@[simp] theorem State.modCore_seen (s : State) (c : Nat) (f : Core → Core) : π.see (s.modCore c f) = π.see s := by
  simp [State.modCore]

@[simp] theorem State.setCluster_seen (s : State) (k : Nat) (x : Cluster) : π.see (s.setCluster k x) = π.see s := by
  simp [State.setCluster]

@[simp] theorem State.setCtl_seen (s : State) (n : Nat) (x : MemCtl) : π.see (s.setCtl n x) = π.see s := by
  simp [State.setCtl]

@[simp] theorem State.setFe_seen (s : State) (d : Nat) (x : Fe) : π.see (s.setFe d x) = π.see s := by simp [State.setFe]

@[simp] theorem State.setHart_seen (s : State) (h : Nat) (x : Hart) : π.see (s.setHart h x) = π.see s := by
  simp [State.setHart]

@[simp] theorem State.setQueue_time (s : State) (q : Nat) (x : Queue) : (s.setQueue q x).time = s.time := by
  simp [State.setQueue]

@[simp] theorem State.freeQueue_time (s : State) (q : Nat) : (s.freeQueue q).time = s.time := by simp [State.freeQueue]

@[simp] theorem State.modOp_seen (s : State) (uid : Nat) (f : Op → Op) : π.see (s.modOp uid f) = π.see s := by
  simp [State.modOp]

@[simp] theorem State.dropOp_time (s : State) (uid : Nat) : (s.dropOp uid).time = s.time := by simp [State.dropOp]

@[simp] theorem State.setDiePwr_time (s : State) (d : Nat) (x : DiePwr) : (s.setDiePwr d x).time = s.time := by
  simp [State.setDiePwr]

@[simp] theorem State.scrWrite_time (s : State) (c o : Nat) (bs : List Byte) : (s.scrWrite c o bs).time = s.time := by
  simp [State.scrWrite]

@[simp] theorem State.scrSpoil_time (s : State) (c o n : Nat) : (s.scrSpoil c o n).time = s.time := by simp [State.scrSpoil]

@[simp] theorem State.scrClear_seen (s : State) (c : Nat) : π.see (s.scrClear c) = π.see s := by simp [State.scrClear]

@[simp] theorem State.wakeCtl_seen (s : State) (n : Nat) : π.see (s.wakeCtl n) = π.see s := π.wakeCtl s n

@[simp] theorem State.mirror_seen (s : State) (pa n : Nat) : π.see (s.mirror pa n) = π.see s := by
  simp only [State.mirror]
  split <;> simp

@[simp] theorem State.mirrorWhole_seen (s : State) (line : Nat) (secs : List Nat) :
    π.see (s.mirrorWhole line secs) = π.see s := by
  simp [State.mirrorWhole]

@[simp] theorem State.homeStore_seen (s : State) (pa : Nat) (bs : List Byte) : π.see (s.homeStore pa bs) = π.see s := by
  simp [State.homeStore]

@[simp] theorem State.overwrite_seen (s : State) (secs : List Nat) : π.see (s.overwrite secs) = π.see s := by
  simp [State.overwrite]

@[simp] theorem State.setDir_seen (s : State) (line : Nat) (e : DirEntry) : π.see (s.setDir line e) = π.see s := by
  simp [State.setDir]

@[simp] theorem State.notice_seen (s : State) (line i : Nat) : π.see (s.notice line i) = π.see s := by simp [State.notice]

@[simp] theorem State.clusterInval_seen (s : State) (k line : Nat) : π.see (s.clusterInval k line) = π.see s := by
  simp [State.clusterInval]

@[simp] theorem State.doorbellLost_seen (s : State) (d line : Nat) : π.see (s.doorbellLost d line) = π.see s := by
  simp [State.doorbellLost]

@[simp] theorem State.setSlc_seen (s : State) (p i : Nat) (l : List SlcLine) : π.see (s.setSlc p i l) = π.see s := by
  simp [State.setSlc]

@[simp] theorem State.slcDrop_seen (s : State) (p line : Nat) : π.see (s.slcDrop p line) = π.see s := by simp [State.slcDrop]

@[simp] theorem State.upperDrop_seen (s : State) (p line : Nat) : π.see (s.upperDrop p line) = π.see s := by
  simp [State.upperDrop]

@[simp] theorem State.dieDrop_seen (s : State) (p line : Nat) : π.see (s.dieDrop p line) = π.see s := by simp [State.dieDrop]

@[simp] theorem State.dropCopy_seen (s : State) (line i : Nat) : π.see (s.dropCopy line i) = π.see s := by
  simp [State.dropCopy]

@[simp] theorem State.flush_seen (s : State) (line : Nat) : π.see (s.flush line) = π.see s := by simp [State.flush]

@[simp] theorem State.hostSilent_seen (s : State) (line : Nat) : π.see (s.hostSilent line).1 = π.see s := by
  simp [State.hostSilent]

@[simp] theorem State.hostShows_seen (s : State) (line : Nat) (bs : List (Nat × Byte)) :
    π.see (s.hostShows line bs) = π.see s := by
  simp [State.hostShows]

@[simp] theorem State.snoopNow_seen (s : State) (line : Nat) : π.see (s.snoopNow line).1 = π.see s := by simp [State.snoopNow]

@[simp] theorem State.lostCopy_seen (s : State) (line i : Nat) : π.see (s.lostCopy line i).1 = π.see s := by
  simp [State.lostCopy]

@[simp] theorem State.askOwner_seen (s : State) (line : Nat) : π.see (s.askOwner line).1 = π.see s := by
  simp only [State.askOwner]
  split <;> simp

@[simp] theorem State.reclaim_seen (s : State) (line : Nat) : π.see (s.reclaim line).1 = π.see s := by
  simp only [State.reclaim]
  split <;> simp

@[simp] theorem State.enrol_seen (s : State) (b source ctx : Nat) : π.see (s.enrol b source ctx) = π.see s := by
  simp [State.enrol]

@[simp] theorem State.count_seen (s : State) (pa : Nat) : π.see (s.count pa) = π.see s := by simp [State.count]

@[simp] theorem State.ownWrite_seen (s : State) (pa : Nat) (bs : List Byte) : π.see (s.ownWrite pa bs).1 = π.see s := by
  simp [State.ownWrite]

@[simp] theorem State.rasIntr_seen (s : State) (sev : Nat) : ρ.obs.see (s.rasIntr sev) = ρ.obs.see s := by
  simp [State.rasIntr]

@[simp] theorem State.nextIndex_seen (s : State) : π.see s.nextIndex = π.see s := by simp [State.nextIndex]

@[simp] theorem State.logDrop_seen (s : State) (sev : Nat) : ρ.obs.see (s.logDrop sev) = ρ.obs.see s := by
  simp [State.logDrop]

@[simp] theorem State.logKeep_seen (s : State) (r : ErrRec) (time : Word) : ρ.obs.see (s.logKeep r time) = ρ.obs.see s := by
  simp [State.logKeep]

@[simp] theorem State.logPut_seen (s : State) (e : LogEnt) : ρ.obs.see (s.logPut e) = ρ.obs.see s := by simp [State.logPut]

@[simp] theorem State.logWaiting_seen (s : State) (n : Nat) : ρ.obs.see (s.logWaiting n) = ρ.obs.see s := by
  induction n generalizing s with
  | zero => rfl
  | succ n ih =>
    simp only [State.logWaiting]
    repeat' split
    all_goals simp [ih]

@[simp] theorem State.logFlush_seen (s : State) : ρ.obs.see s.logFlush = ρ.obs.see s := by simp [State.logFlush]

@[simp] theorem State.hotPut_seen (s : State) (r : HotRec) : ρ.obs.see (s.hotPut r) = ρ.obs.see s := by simp [State.hotPut]

@[simp] theorem State.hotFlush_seen (s : State) (n : Nat) : ρ.obs.see (s.hotFlush n) = ρ.obs.see s := by
  induction n generalizing s with
  | zero => rfl
  | succ n ih =>
    simp only [State.hotFlush]
    repeat' split
    all_goals simp [ih]

@[simp] theorem State.recordsOut_seen (s : State) : ρ.obs.see s.recordsOut = ρ.obs.see s := by simp [State.recordsOut]

@[simp] theorem State.logAt_seen (s : State) (r : ErrRec) (time : Word) : ρ.obs.see (s.logAt r time) = ρ.obs.see s := by
  simp [State.logAt]

@[simp] theorem State.log_seen (s : State) (r : ErrRec) : ρ.obs.see (s.log r) = ρ.obs.see s := by simp [State.log]

@[simp] theorem State.nominate_time (s : State) (b source ctx : Nat) : (s.nominate b source ctx).time = s.time := by
  simp [State.nominate]

@[simp] theorem State.touch_seen (s : State) (pa : Nat) : ρ.obs.see (s.touch pa) = ρ.obs.see s := by simp [State.touch]

@[simp] theorem State.recall_seen (s : State) (line : Nat) : ρ.obs.see (s.recall line) = ρ.obs.see s := by simp [State.recall]

@[simp] theorem State.showOwner_time (s : State) (line : Nat) : (s.showOwner line).time = s.time := by simp [State.showOwner]

@[simp] theorem State.logOp_seen (s : State) (uid : Nat) (r : ErrRec) : ρ.obs.see (s.logOp uid r) = ρ.obs.see s := by
  simp [State.logOp]

@[simp] theorem State.logBy_time (s : State) (w : Cause) (r : ErrRec) : (s.logBy w r).time = s.time := by
  simp only [State.logBy]
  split <;> simp

@[simp] theorem State.causing_time (s : State) (uid : Nat) (t : State) : (s.causing uid t).time = t.time := by
  simp [State.causing]

@[simp] theorem State.setPort_seen (s : State) (p : Nat) (x : Port) : π.see (s.setPort p x) = π.see s := by
  simp [State.setPort]

@[simp] theorem State.sendOn_seen (s : State) (p type dest src hops sgen dgen : Nat) (slots : List Byte) (info : List Nat) :
    π.see (s.sendOn p type dest src hops sgen dgen slots info) = π.see s := by
  simp [State.sendOn]

@[simp] theorem State.sendFlit_seen (s : State) (n type : Nat) (slots : List Byte) (info : List Nat) :
    π.see (s.sendFlit n type slots info) = π.see s := by
  simp only [State.sendFlit]
  split <;> simp

@[simp] theorem State.sendMsg_seen (s : State) (n : Nat) (data : List Byte) (info : List Nat) :
    π.see (s.sendMsg n data info) = π.see s := by
  simp [State.sendMsg]

@[simp] theorem State.respond_seen (s : State) (node tag : Nat) (err : Bool) (bs : List Byte) (mask : Nat) :
    π.see (s.respond node tag err bs mask) = π.see s := by
  simp [State.respond]

@[simp] theorem State.putRow_time (s : State) (c : Nat) (t : Td) (r : Nat) (es : List Nat) :
    (s.putRow c t r es).time = s.time := by
  simp [State.putRow]

@[simp] theorem State.putRows_time (s : State) (c : Nat) (t : Td) (r : Nat) (l : List (List Nat)) :
    (s.putRows c t r l).time = s.time := by
  induction l generalizing s r with
  | nil => rfl
  | cons es l ih => simp [State.putRows, ih]

@[simp] theorem State.putScales_time (s : State) (c : Nat) (t : Td) (r : Nat) (l : List (List Nat)) :
    (s.putScales c t r l).time = s.time := by
  induction l generalizing s r with
  | nil => rfl
  | cons es l ih => simp [State.putScales, ih]

@[simp] theorem State.spillRows_time (s : State) (c base stride rows n : Nat) :
    (s.spillRows c base stride rows n).time = s.time := by
  simp [State.spillRows]

@[simp] theorem State.takeSpare_seen (s : State) (n row : Nat) : π.see (s.takeSpare n row) = π.see s := by
  simp [State.takeSpare]

@[simp] theorem State.tallyRow_seen (s : State) (n row : Nat) : ρ.obs.see (s.tallyRow n row).1 = ρ.obs.see s := by
  simp [State.tallyRow]

@[simp] theorem State.rowBad_seen (s : State) (n row addr : Nat) : ρ.obs.see (s.rowBad n row addr) = ρ.obs.see s := by
  simp [State.rowBad]

@[simp] theorem State.flawRead_seen (s : State) (n : Nat) (f : EccFind) : ρ.obs.see (s.flawRead n f) = ρ.obs.see s := by
  simp [State.flawRead]

@[simp] theorem State.takeFlaws_seen (s : State) (p : EccFind → Bool) : π.see (s.takeFlaws p).1 = π.see s := by
  simp [State.takeFlaws]

@[simp] theorem State.noteFlaws_seen (s : State) (e : Ecc) : π.see (s.noteFlaws e) = π.see s := by simp [State.noteFlaws]

@[simp] theorem State.copyRow_seen (s : State) (n row : Nat) : ρ.obs.see (s.copyRow n row) = ρ.obs.see s := by
  simp [State.copyRow]

@[simp] theorem State.remapRow_seen (s : State) (n row cause : Nat) : ρ.obs.see (s.remapRow n row cause) = ρ.obs.see s := by
  simp [State.remapRow]

@[simp] theorem State.correctedRow_seen (s : State) (n row : Nat) : ρ.obs.see (s.correctedRow n row) = ρ.obs.see s := by
  simp [State.correctedRow]

@[simp] theorem State.rowFailed_seen (s : State) (n row addr : Nat) : ρ.obs.see (s.rowFailed n row addr) = ρ.obs.see s := by
  simp [State.rowFailed]

@[simp] theorem State.uncorrectable_seen (s : State) (n row sec : Nat) :
    ρ.obs.see (s.uncorrectable n row sec) = ρ.obs.see s := by
  simp [State.uncorrectable]

@[simp] theorem State.eccFind_seen (s : State) (n : Nat) (f : EccFind) : ρ.obs.see (s.eccFind n f) = ρ.obs.see s := by
  simp [State.eccFind]

@[simp] theorem State.findFlaws_seen (s : State) (p : EccFind → Bool) (found : State → EccFind → State) (n : Nat)
    (hf : ∀ u f, π.see (found u f) = π.see u) : π.see (s.findFlaws p found n) = π.see s := by
  induction n generalizing s with
  | zero => rfl
  | succ n ih =>
    simp only [State.findFlaws]
    split
    · rfl
    · rw [ih, hf, State.withMem_seen]

@[simp] theorem State.checkLine_seen (s : State) (line : Nat) : ρ.obs.see (s.checkLine line) = ρ.obs.see s := by
  simp [State.checkLine]

@[simp] theorem State.applyEcc_time (s : State) (line : Nat) (e : Ecc) : (s.applyEcc line e).time = s.time := by
  simp [State.applyEcc]

@[simp] theorem State.decay_time (s : State) : s.decay.time = s.time := by simp [State.decay]

@[simp] theorem State.noticeTo_seen (s : State) (line k : Nat) : π.see (s.noticeTo line k) = π.see s := by
  simp [State.noticeTo]

@[simp] theorem State.clusterFill_seen (s : State) (k line : Nat) : π.see (s.clusterFill k line) = π.see s := by
  simp [State.clusterFill]

@[simp] theorem State.clusterHit_time (s : State) (k line : Nat) : (s.clusterHit k line).time = s.time := by
  simp [State.clusterHit]

@[simp] theorem State.slcUse_seen (s : State) (h line : Nat) : π.see (s.slcUse h line) = π.see s := by
  simp only [State.slcUse]
  repeat' split
  all_goals simp

@[simp] theorem State.l2Fill_seen (s : State) (h line : Nat) : π.see (s.l2Fill h line) = π.see s := by
  simp only [State.l2Fill]
  split <;> simp

@[simp] theorem State.l1Fill_seen (s : State) (h line : Nat) : π.see (s.l1Fill h line) = π.see s := by simp [State.l1Fill]

@[simp] theorem State.dieUse_seen (s : State) (h line : Nat) : π.see (s.dieUse h line) = π.see s := by simp [State.dieUse]

@[simp] theorem State.soleCore_time (s : State) (h line : Nat) : (s.soleCore h line).time = s.time := by simp [State.soleCore]

@[simp] theorem State.dirtyOut_seen (s : State) (line : Nat) : π.see (s.dirtyOut line) = π.see s := by simp [State.dirtyOut]

@[simp] theorem State.hostYield_seen (s : State) (line i : Nat) (e : DirEntry) :
    π.see (s.hostYield line i e) = π.see s :=
  State.foldl_seen _ _ _ (fun u x => by simp)

@[simp] theorem State.hostDrop_seen (s : State) (line : Nat) : π.see (s.hostDrop line) = π.see s := by
  simp only [State.hostDrop]
  split <;> simp

@[simp] theorem State.hostShare_time (s : State) (line : Nat) : (s.hostShare line).time = s.time := by simp [State.hostShare]

@[simp] theorem State.trackHold_time (s : State) (line i : Nat) (own : Bool) : (s.trackHold line i own).time = s.time := by
  simp only [State.trackHold]
  repeat' split
  all_goals simp

@[simp] theorem State.hostLeave_seen (s : State) (line i : Nat) : π.see (s.hostLeave line i) = π.see s := by
  simp [State.hostLeave]

@[simp] theorem State.hostClear_time (s : State) (pa n : Nat) : (s.hostClear pa n).time = s.time := by simp [State.hostClear]

@[simp] theorem State.sendOut_time (s : State) (t : Target) (pa : Nat) (info : List Nat) (data : List Byte) :
    (s.sendOut t pa info data).time = s.time := by
  simp only [State.sendOut]
  split <;> simp

@[simp] theorem State.serve_seen (s : State) (c : Nat) (t : RTag) (bs : List Byte) : π.see (s.serve c t bs) = π.see s := by
  simp [State.serve]

@[simp] theorem State.serveCluster_seen (s : State) (k line : Nat) : π.see (s.serveCluster k line) = π.see s := by
  simp [State.serveCluster]

@[simp] theorem State.mixReads_seen (s : State) (writer line : Nat) : π.see (s.mixReads writer line) = π.see s := by
  simp [State.mixReads]

@[simp] theorem State.noteWrote_seen (s : State) (c seq pa n : Nat) : π.see (s.noteWrote c seq pa n) = π.see s := by
  simp [State.noteWrote]

@[simp] theorem State.performed_seen (s : State) (c tag : Nat) (old : Option Nat) :
    π.see (s.performed c tag old) = π.see s := by
  simp [State.performed]

@[simp] theorem State.rowHolding_seen (s : State) (pa : Nat) : π.see (s.rowHolding pa).1 = π.see s := by
  simp [State.rowHolding]

@[simp] theorem State.refusePoison_seen (s : State) (pa : Nat) (ctx uid : Option Nat) :
    ρ.obs.see (s.refusePoison pa ctx uid) = ρ.obs.see s := by
  simp only [State.refusePoison]
  split <;> simp

@[simp] theorem State.addElems_seen (s : State) (ctx uid : Option Nat) (f : AtomFmt) (pa : Nat) (l : List Nat) :
    ρ.obs.see (s.addElems ctx uid f pa l) = ρ.obs.see s := by
  induction l generalizing s pa with
  | nil => rfl
  | cons v l ih => simp [State.addElems, ih]

@[simp] theorem State.performTag_seen (s : State) (c tag : Nat) : ρ.obs.see (s.performTag c tag) = ρ.obs.see s := by
  simp only [State.performTag]
  repeat' split
  all_goals simp

@[simp] theorem State.deliver_seen (s : State) (who : Agent) (pa n tag : Nat) : π.see (s.deliver who pa n tag) = π.see s := by
  simp only [State.deliver]
  split <;> simp

@[simp] theorem State.hartTrap_seen (s : State) (h cause : Nat) (tval : Option Nat) :
    π.see (s.hartTrap h cause tval) = π.see s := by
  simp [State.hartTrap]

@[simp] theorem State.hartGets_seen (s : State) (h : Nat) (vec : Option Nat) (pa : Nat) (bs : List Byte) (bad : Bool) :
    π.see (s.hartGets h vec pa bs bad) = π.see s := by
  simp only [State.hartGets]
  repeat' split
  all_goals simp

@[simp] theorem State.consume_seen (s : State) (who : Agent) (line : Nat) : π.see (s.consume who line) = π.see s := by
  simp only [State.consume]
  split <;> simp

@[simp] theorem State.keepWay_seen (s : State) (line old : Nat) : π.see (s.keepWay line old) = π.see s := by
  simp only [State.keepWay]
  split <;> simp

@[simp] theorem State.hostBytes_seen (s : State) (line : Nat) (bs : List (Nat × Byte)) (poison : Bool) :
    π.see (s.hostBytes line bs poison) = π.see s := by
  simp [State.hostBytes]

@[simp] theorem State.dropAll_seen (s : State) (line : Nat) (e : DirEntry) (me : Option Nat) :
    π.see (s.dropAll line e me) = π.see s := by
  simp only [State.dropAll]
  split <;> simp

@[simp] theorem State.ownLost_seen (s : State) (line : Nat) (who : Agent) : ρ.obs.see (s.ownLost line who) = ρ.obs.see s := by
  simp only [State.ownLost]
  split <;> simp

@[simp] theorem State.homeReply_seen (s : State) (r : HomeReq) (pa v : Nat) (refused : Bool) :
    π.see (s.homeReply r pa v refused) = π.see s := by
  simp only [State.homeReply]
  split <;> simp

@[simp] theorem State.hartDone_seen (s : State) (who : Agent) (id : Nat) : π.see (s.hartDone who id) = π.see s := by
  simp only [State.hartDone]
  split <;> simp

@[simp] theorem State.reqAccess_seen (s : State) (r : HomeReq) : ρ.obs.see (s.reqAccess r) = ρ.obs.see s := by
  simp only [State.reqAccess]
  split <;> simp

@[simp] theorem State.performReq_seen (s : State) (r : HomeReq) : ρ.obs.see (s.performReq r) = ρ.obs.see s := by
  simp only [State.performReq]
  repeat' split
  all_goals simp

@[simp] theorem State.startReq_seen (s : State) (r : HomeReq) : ρ.obs.see (s.startReq r) = ρ.obs.see s := by
  simp only [State.startReq]
  split <;> simp

@[simp] theorem State.startEvict_seen (s : State) (line : Nat) : ρ.obs.see (s.startEvict line) = ρ.obs.see s := by
  simp only [State.startEvict]
  split <;> simp

@[simp] theorem State.drain_seen (s : State) (n : Nat) : ρ.obs.see (s.drain n) = ρ.obs.see s := by
  induction n generalizing s with
  | zero => rfl
  | succ n ih =>
    simp only [State.drain]
    repeat' split
    all_goals simp [ih]

@[simp] theorem State.drainAll_seen (s : State) : ρ.obs.see s.drainAll = ρ.obs.see s := by simp [State.drainAll]

@[simp] theorem State.reqArrive_time (s : State) (r : HomeReq) (q : Ruling) (h : s.time = q) :
    (s.reqArrive r).leads (fun t => t.time = q) := by simp [State.reqArrive, h]

@[simp] theorem State.endTxn_seen (s : State) (t : Txn) : ρ.obs.see (s.endTxn t) = ρ.obs.see s := by simp [State.endTxn]

@[simp] theorem State.answer_seen (s : State) (line i : Nat) (q : α) (h : ρ.obs.see s = q) :
    (s.answer line i).leads (fun t => ρ.obs.see t = q) := by
  simp [State.answer, h]

theorem State.answerOr_seen (s : State) (l i : Nat) :
    ρ.obs.see (match s.answer l i with | .next t => t | _ => s) = ρ.obs.see s := by
  have h := State.answer_seen s l i (ρ.obs.see s) rfl
  cases e : s.answer l i with
  | next t => exact h t e
  | stay => rfl
@[simp] theorem State.answersFor_seen (s : State) (i : Nat) (p : Nat → Bool) :
    ρ.obs.see (s.answersFor i p) = ρ.obs.see s :=
  State.foldl_seen _ _ _ (fun u l => State.answerOr_seen u l i)

@[simp] theorem State.answerNow_seen (s : State) (line i : Nat) : ρ.obs.see (s.answerNow line i) = ρ.obs.see s := by
  simp only [State.answerNow]
  refine (State.answerOr_seen _ line i).trans ?_
  simp

@[simp] theorem State.finishLine_seen (s : State) (line n : Nat) : ρ.obs.see (s.finishLine line n) = ρ.obs.see s := by
  induction n generalizing s with
  | zero => rfl
  | succ n ih =>
    simp only [State.finishLine]
    split <;> simp [ih]

@[simp] theorem State.takeFrame_seen (s : State) (m : Move) : ρ.obs.see (s.takeFrame m) = ρ.obs.see s := by
  simp [State.takeFrame]

@[simp] theorem State.finishSwitch_seen (s : State) (line : Nat) : ρ.obs.see (s.finishSwitch line) = ρ.obs.see s := by
  simp only [State.finishSwitch]
  split <;> simp

@[simp] theorem State.lineTurn_seen (s : State) (line : Nat) : ρ.obs.see (s.lineTurn line) = ρ.obs.see s := by
  simp [State.lineTurn]

@[simp] theorem State.homeRead_time (s : State) (pa n : Nat) : (s.homeRead pa n).time = s.time := by simp [State.homeRead]

@[simp] theorem State.sysWrite_seen (s : State) (pa : Nat) (bs : List Byte) : ρ.obs.see (s.sysWrite pa bs) = ρ.obs.see s := by
  simp [State.sysWrite]

@[simp] theorem State.sysAdd_time (s : State) (pa : Nat) (op : AtomOp) (f : AtomFmt) (v cmp : Nat) :
    (s.sysAdd pa op f v cmp).1.time = s.time := by
  simp [State.sysAdd]

@[simp] theorem State.roomNow_time (s : State) (line : Nat) : (s.roomNow line).time = s.time := by
  simp only [State.roomNow]
  repeat' split
  all_goals simp

@[simp] theorem State.shareNow_time (s : State) (line i : Nat) : (s.shareNow line i).time = s.time := by simp [State.shareNow]

@[simp] theorem State.heldNow_time (s : State) (k line : Nat) : (s.heldNow k line).time = s.time := by simp [State.heldNow]

@[simp] theorem State.clusterLine_time (s : State) (k line : Nat) : (s.clusterLine k line).time = s.time := by
  simp [State.clusterLine]

@[simp] theorem State.ctxEntry_time (s : State) (d op ctx : Nat) : (s.ctxEntry d op ctx).1.time = s.time := by
  simp [State.ctxEntry]

@[simp] theorem State.walkFrom_time (s : State) (k asid va : Nat) (a : Acc) (n level ppn : Nat) (path : List Node) :
    (s.walkFrom k asid va a n level ppn path).1.time = s.time := by
  induction n generalizing s level ppn path with
  | zero => rfl
  | succ n ih =>
    simp only [State.walkFrom]
    repeat' split
    all_goals simp [ih]

@[simp] theorem State.walk_time (s : State) (k asid root va : Nat) (a : Acc) : (s.walk k asid root va a).1.time = s.time := by
  simp only [State.walk]
  repeat' split
  all_goals simp

@[simp] theorem State.fillL1_time (s : State) (u : Nat) (l : Leaf) : (s.fillL1 u l).time = s.time := by simp [State.fillL1]

@[simp] theorem State.fillL2_time (s : State) (k : Nat) (l : Leaf) (path : List Node) :
    (s.fillL2 k l path).time = s.time := by
  simp [State.fillL2]

@[simp] theorem State.noteFault_time (s : State) (d ctx va : Nat) (f : XFault) : (s.noteFault d ctx va f).time = s.time := by
  simp [State.noteFault]

@[simp] theorem State.lookup_time (s : State) (u k d asid va : Nat) (a : Acc) :
    (s.lookup u k d asid va a).1.time = s.time := by
  simp only [State.lookup]
  repeat' split
  all_goals simp

@[simp] theorem State.runWalk_time (s : State) (u k d : Nat) (w : Cause) (asid root va : Nat) (a : Acc) :
    (s.runWalk u k d w asid root va a).1.time = s.time := by
  simp only [State.runWalk]
  split
  all_goals
    rename_i e
    simp [(State.pair_seen e (State.walk_time ..)).trans (State.bump_seen ..)]

@[simp] theorem State.translate_time (s : State) (u k d : Nat) (w : Cause) (asid root va : Nat) (a : Acc) :
    (s.translate u k d w asid root va a).1.time = s.time := by
  simp only [State.translate]
  split
  · rename_i e; simp [State.pair_seen e (State.lookup_time ..)]
  · simp

@[simp] theorem State.feTranslate_time (s : State) (d op ctx asid root va : Nat) (a : Acc) :
    (s.feTranslate d op ctx asid root va a).1.time = s.time := by
  simp only [State.feTranslate]
  split
  · rfl
  · split
    · rename_i e; simp [State.pair_seen e (State.translate_time ..)]
    · simp

@[simp] theorem State.startInval_time (s : State) (i : Inval) : (s.startInval i).time = s.time := by simp [State.startInval]

@[simp] theorem State.setUnit_time (s : State) (key new seq : Nat) (intent : Bool) :
    (s.setUnit key new seq intent).time = s.time := by
  simp [State.setUnit]

@[simp] theorem State.trimCheck_seen (s : State) : π.see s.trimCheck = π.see s := by simp [State.trimCheck]

@[simp] theorem State.wakeCore_time (s : State) (c : Nat) : (s.wakeCore c).time = s.time := by simp [State.wakeCore]

@[simp] theorem State.wakeForLaunch_time (s : State) (c : Nat) : (s.wakeForLaunch c).time = s.time := by
  simp [State.wakeForLaunch]

@[simp] theorem State.writeInline_time (s : State) (c : Nat) (g : Staged) : (s.writeInline c g).time = s.time := by
  simp [State.writeInline]

@[simp] theorem State.fillSlots_time (s : State) (c : Nat) : (s.fillSlots c).time = s.time := by
  simp only [State.fillSlots]
  repeat' split
  all_goals simp

@[simp] theorem State.stage_time (s : State) (c : Nat) (g : Staged) : (s.stage c g).time = s.time := by simp [State.stage]

@[simp] theorem State.placeAgain_time (s : State) (c : Nat) (g : Staged) : (s.placeAgain c g).time = s.time := by
  simp only [State.placeAgain]
  split <;> simp

@[simp] theorem State.returnStaged_time (s : State) (c : Nat) : (s.returnStaged c).time = s.time := by
  simp [State.returnStaged]

@[simp] theorem State.suspectCore_time (s : State) (c seq : Nat) (intent : Bool) :
    (s.suspectCore c seq intent).time = s.time := by
  simp [State.suspectCore]

@[simp] theorem State.acceptWrite_time (s : State) (c : Nat) (w : WTag) : (s.acceptWrite c w).time = s.time := by
  simp only [State.acceptWrite]
  split <;> simp

@[simp] theorem State.acceptWrites_time (s : State) (c : Nat) : (s.acceptWrites c).time = s.time := by
  simp [State.acceptWrites]

@[simp] theorem State.spoilBytes_time (s : State) (pa n : Nat) : (s.spoilBytes pa n).time = s.time := by
  simp [State.spoilBytes]

@[simp] theorem State.spoilDone_time (s : State) (c seq : Nat) : (s.spoilDone c seq).time = s.time := by
  simp [State.spoilDone]

@[simp] theorem State.spoilSent_time (s : State) (c seq : Nat) : (s.spoilSent c seq).time = s.time := by
  simp [State.spoilSent]

@[simp] theorem State.taint_time (s : State) (c : Nat) (j : Job) : (s.taint c j).time = s.time := by
  simp only [State.taint]
  split <;> simp

@[simp] theorem State.issueFault_time (s : State) (c : Nat) (e : Exc) : (s.issueFault c e).time = s.time := by
  simp [State.issueFault]

@[simp] theorem State.overtake_time (s : State) (c seq : Nat) : (s.overtake c seq).time = s.time := by simp [State.overtake]

@[simp] theorem State.faultAt_time (s : State) (c seq pc code va : Nat) : (s.faultAt c seq pc code va).time = s.time := by
  simp [State.faultAt]

@[simp] theorem State.execFault_time (s : State) (c : Nat) (j : Job) (code va : Nat) :
    (s.execFault c j code va).time = s.time := by
  simp [State.execFault]

@[simp] theorem State.scratchRecord_time (s : State) (c off : Nat) (w : Cause) : (s.scratchRecord c off w).time = s.time := by
  simp [State.scratchRecord]

@[simp] theorem State.finishJob_time (s : State) (c : Nat) (j : Job) (late : Bool) :
    (s.finishJob c j late).time = s.time := by
  simp [State.finishJob]

@[simp] theorem State.beginUnits_time (s : State) (c : Nat) : (s.beginUnits c).time = s.time := by simp [State.beginUnits]

@[simp] theorem State.setJob_time (s : State) (c : Nat) (j : Job) : (s.setJob c j).time = s.time := by simp [State.setJob]

theorem State.openRead_time (s : State) (c : Nat) (j : Job) (pa n o : Nat) (g : Target) (t : State)
    (h : s.openRead c j pa n o g = some t) : t.time = s.time := by
  simp only [State.openRead] at h
  split at h
  · cases h
  · cases h; simp

theorem State.openWrite_time (s : State) (c : Nat) (j : Job) (pa : Nat) (o : WOp) (g : Target) (t : State)
    (h : s.openWrite c j pa o g = some t) : t.time = s.time := by
  simp only [State.openWrite] at h
  split at h
  · cases h
  · cases h; simp

theorem State.sendPiece_time (s : State) (c : Nat) (j : Job) (p : Piece) (rest : List Piece) (pa : Nat) (g : Target)
    (t : State) (h : s.sendPiece c j p rest pa g = some t) : t.time = s.time := by
  simp only [State.sendPiece] at h
  split at h
  · cases h
  split at h
  · exact State.openRead_time _ _ _ _ _ _ _ _ h
  split at h
  · cases h
  split at h
  · cases h; simp
  · rw [State.openWrite_time _ _ _ _ _ _ _ h]; simp

theorem State.sendMove_time (s : State) (c : Nat) (j : Job) (g : Prog) (m : Move1) (va pa : Nat) (x : Target)
    (t : State) (h : s.sendMove c j g m va pa x = some t) : t.time = s.time := by
  simp only [State.sendMove] at h
  split at h
  · cases h
  split at h
  · exact State.openRead_time _ _ _ _ _ _ _ _ h
  split at h
  · rw [State.openWrite_time _ _ _ _ _ _ _ h]; simp
  · exact State.openWrite_time _ _ _ _ _ _ _ h

theorem State.translated_time (s : State) (c : Nat) (l : Launch) (j : Job) (va : Nat) (a : Acc)
    (f : State → Nat → Target → Option State) (hf : ∀ u pa g t, f u pa g = some t → t.time = u.time) (t : State)
    (h : s.translated c l j va a f = some t) : t.time = s.time := by
  simp only [State.translated] at h
  split at h
  all_goals
    rename_i e
    have hu := State.pair_seen e (State.lookup_time ..)
  · cases h; simpa using hu
  · cases h; simpa using hu
  · exact (hf _ _ _ _ h).trans hu

theorem State.tryMove_time (s : State) (c : Nat) (l : Launch) (j : Job) (g : Prog) (m : Move1) (t : State)
    (h : s.tryMove c l j g m = some t) : t.time = s.time :=
  State.translated_time _ _ _ _ _ _ _ (fun _ _ _ _ => State.sendMove_time _ _ _ _ _ _ _ _ _) _ h

theorem State.pumpProg_time (s : State) (c : Nat) (l : Launch) (j : Job) (g : Prog) (t : State)
    (h : s.pumpProg c l j g = some t) : t.time = s.time := by
  have move (o : Option Move1) (h : o.bind (s.tryMove c l j g) = some t) : t.time = s.time := by
    obtain ⟨m, -, hm⟩ := Option.bind_eq_some_iff.mp h
    exact State.tryMove_time _ _ _ _ _ _ _ hm
  simp only [State.pumpProg, Option.or_eq_some_iff] at h
  obtain h | ⟨-, h | ⟨-, h⟩⟩ := h
  · exact move _ h
  · exact move _ h
  · split at h
    · cases h; simp
    · cases h

@[simp] theorem State.landMove_time (s : State) (c : Nat) (j : Job) (g : Prog) (dst : Nat) (bs : List Byte) (bad : Bool) :
    (s.landMove c j g dst bs bad).time = s.time := by
  simp [State.landMove]

theorem State.beginStream_time (s : State) (c : Nat) (j : Job) (t : State) (h : s.beginStream c j = some t) :
    t.time = s.time := by
  simp only [State.beginStream] at h
  split at h
  · cases h
  repeat' split at h
  all_goals cases h
  all_goals simp

theorem State.pumpPiece_time (s : State) (c : Nat) (l : Launch) (j : Job) (t : State)
    (h : s.pumpPiece c l j = some t) : t.time = s.time := by
  simp only [State.pumpPiece] at h
  split at h
  · cases h
  · refine State.translated_time _ _ _ _ _ _ _ (fun u pa g t ht => ?_) _ h
    split at ht
    · cases ht; simp
    · exact State.sendPiece_time _ _ _ _ _ _ _ _ ht

theorem State.pumpHead_time (s : State) (c : Nat) (l : Launch) (j : Job) (t : State)
    (h : s.pumpHead c l j = some t) : t.time = s.time := by
  simp only [State.pumpHead] at h
  split at h
  · exact State.beginStream_time _ _ _ _ h
  split at h
  · exact State.pumpProg_time _ _ _ _ _ _ h
  · exact State.pumpPiece_time _ _ _ _ _ h

theorem State.pumpOne_time (s : State) (c : Nat) (t : State) (h : s.pumpOne c = some t) : t.time = s.time := by
  simp only [State.pumpOne] at h
  split at h
  · cases h
  · obtain ⟨l, -, h⟩ := Option.bind_eq_some_iff.mp h
    obtain ⟨j, -, h⟩ := Option.bind_eq_some_iff.mp h
    exact State.pumpHead_time _ _ _ _ _ h

@[simp] theorem State.pump_time (s : State) (c n : Nat) : (s.pump c n).time = s.time := by
  induction n generalizing s with
  | zero => rfl
  | succ n ih =>
    simp only [State.pump]
    split
    · rfl
    · rename_i h; rw [ih, State.pumpOne_time _ _ _ h]

@[simp] theorem State.lateJob_time (s : State) (c : Nat) (j : Job) : (s.lateJob c j).time = s.time := by simp [State.lateJob]

@[simp] theorem State.endStreams_time (s : State) (c : Nat) : (s.endStreams c).time = s.time := by simp [State.endStreams]

@[simp] theorem State.stopLaunch_time (s : State) (uid node : Nat) : (s.stopLaunch uid node).time = s.time := by
  simp [State.stopLaunch]

@[simp] theorem State.opCheck_time (s : State) (uid : Nat) : (s.opCheck uid).time = s.time := by
  simp only [State.opCheck]
  split <;> simp

@[simp] theorem State.partEnd_time (s : State) (c : Nat) : (s.partEnd c).time = s.time := by
  simp only [State.partEnd]
  split <;> simp

@[simp] theorem State.barCheck_time (s : State) (c : Nat) : (s.barCheck c).time = s.time := by
  simp only [State.barCheck]
  split <;> simp

@[simp] theorem State.unblock_time (s : State) (c : Nat) : (s.unblock c).time = s.time := by
  simp only [State.unblock]
  split <;> simp

@[simp] theorem State.settle_time (s : State) (c n : Nat) : (s.settle c n).time = s.time := by
  induction n generalizing s with
  | zero => simp [State.settle]
  | succ n ih => simp [State.settle, ih]

@[simp] theorem State.sweep_time (s : State) : s.sweep.time = s.time := by simp [State.sweep]

@[simp] theorem State.after_time (s : State) (c : Nat) : (s.after c).time = s.time := by simp [State.after]

@[simp] theorem State.fetchLine_time (s : State) (c va : Nat) (l : Launch) :
    (s.fetchLine c va l).1.time = s.time := by
  simp only [State.fetchLine]
  split
  · rfl
  split
  all_goals
    rename_i e
    have hu := State.pair_seen e (State.translate_time ..)
  · simp only [State.modCore_seen]
    split <;> simp [hu]
  · simp [hu]
  · exact hu

@[simp] theorem State.fetch_time (s : State) (c : Nat) (h : Hdr) (l : Launch) : (s.fetch c h l).1.time = s.time := by
  simp only [State.fetch]
  split
  all_goals
    rename_i e
    have hu := State.pair_seen e (State.fetchLine_time ..)
  · exact hu
  split
  · split
    all_goals
      rename_i e
      exact (State.pair_seen e (State.fetchLine_time ..)).trans hu
  · exact hu

@[simp] theorem State.hold_time (s : State) (c : Nat) : (s.hold c).time = s.time := by simp [State.hold]

@[simp] theorem State.enqueue_time (s : State) (c : Nat) (k0 : Core) (i : Ins) (unit : Nat) (kind : JobKind) (f : Job → Job) :
    (s.enqueue c k0 i unit kind f).time = s.time := by
  simp [State.enqueue]

@[simp] theorem State.hartEnter_time (s : State) (h pa : Nat) (bs : List Byte) (t : Target)
    (cacheable device load writes acquire : Bool) (vec : Option Nat) :
    (s.hartEnter h pa bs t cacheable device load writes acquire vec).time = s.time := by
  simp [State.hartEnter]

@[simp] theorem State.portUsed_time (s : State) (c : Nat) : (s.portUsed c).time = s.time := by simp [State.portUsed]

@[simp] theorem State.windowLoad_time (s : State) (c o n : Nat) (w : Cause) : (s.windowLoad c o n w).1.time = s.time := by
  simp only [State.windowLoad]
  split <;> simp

@[simp] theorem State.windowStore_time (s : State) (c o : Nat) (bs : List Byte) : (s.windowStore c o bs).time = s.time := by
  simp [State.windowStore]

@[simp] theorem State.windowAtomic_time (s : State) (c o : Nat) (op : AtomOp) (f : AtomFmt) (v cmp : Nat) (w : Cause) :
    (s.windowAtomic c o op f v cmp w).1.time = s.time := by
  simp [State.windowAtomic]

@[simp] theorem State.pdGivesUp_seen (s : State) (p line : Nat) : ρ.obs.see (s.pdGivesUp p line) = ρ.obs.see s := by
  simp [State.pdGivesUp]

@[simp] theorem State.slcRecord_time (s : State) (p line off : Nat) : (s.slcRecord p line off).time = s.time := by
  simp [State.slcRecord]

@[simp] theorem State.slcError_time (s : State) (p line : Nat) (e : SlcErr) : (s.slcError p line e).time = s.time := by
  simp only [State.slcError]
  split <;> simp

@[simp] theorem State.sramError_time (s : State) (h line : Nat) (e : Option SramErr) :
    (s.sramError h line e).time = s.time := by
  simp only [State.sramError]
  split <;> simp

@[simp] theorem State.complexGate_seen (s : State) (x : Nat) : ρ.obs.see (s.complexGate x) = ρ.obs.see s := by
  simp [State.complexGate]

@[simp] theorem State.slcGate_time (s : State) (p i : Nat) : (s.slcGate p i).time = s.time := by simp [State.slcGate]

@[simp] theorem State.hartPut_time (s : State) (pa : Nat) (bs : List Byte) : (s.hartPut pa bs).time = s.time := by
  simp [State.hartPut]

@[simp] theorem State.hartPerform_time (s : State) (h : Nat) (x : HartStore) : (s.hartPerform h x).time = s.time := by
  simp [State.hartPerform]

@[simp] theorem State.drainHart_time (s : State) (h : Nat) : (s.drainHart h).time = s.time := by simp [State.drainHart]

@[simp] theorem State.writeBackDie_time (s : State) (p : Nat) : (s.writeBackDie p).time = s.time := by
  simp [State.writeBackDie]

@[simp] theorem State.resetDie_time (s : State) (p : Nat) : (s.resetDie p).time = s.time := by simp [State.resetDie]

@[simp] theorem State.warmCheck_time (s : State) : s.warmCheck.time = s.time := by simp [State.warmCheck]

@[simp] theorem State.hartDrain_time (s : State) : s.hartDrain.time = s.time := by simp [State.hartDrain]

@[simp] theorem State.afterAll_time (s : State) : s.afterAll.time = s.time := by simp [State.afterAll]

@[simp] theorem State.hostFill_time (s : State) (who : Agent) (h line : Nat) (own : Bool) :
    (s.hostFill who h line own).time = s.time := by
  simp only [State.hostFill]
  split <;> simp

@[simp] theorem State.askFinds_time (s : State) (who : Agent) (line : Nat) : (s.askFinds who line).time = s.time := by
  simp only [State.askFinds]
  split <;> simp

@[simp] theorem State.loadOpens_time (s : State) (who : Agent) (line : Nat) : (s.loadOpens who line).time = s.time := by
  simp only [State.loadOpens]
  split <;> simp

@[simp] theorem State.accessOpens_time (s : State) (who : Agent) (pa : Nat) (bytes : List Byte) (load : Bool) :
    (s.accessOpens who pa bytes load).time = s.time := by
  simp only [State.accessOpens]
  split <;> simp

@[simp] theorem State.ccDisable_time (s : State) (k line : Nat) : (s.ccDisable k line).time = s.time := by
  simp [State.ccDisable]

@[simp] theorem State.openEnergy_time (s : State) (act : List (Nat × Nat)) : (s.openEnergy act).1.time = s.time := by
  refine State.foldl_fst_seen _ _ _ (fun r a => ?_)
  split <;> simp

@[simp] theorem State.twinRecord_time (s : State) (c e a : Nat) (x : TwinFault) (w : Cause) :
    (s.twinRecord c e a x w).time = s.time := by
  simp [State.twinRecord]

@[simp] theorem State.setCmd_time (s : State) (c : PeelCmd) : (s.setCmd c).time = s.time := by simp [State.setCmd]

@[simp] theorem State.advanceHead_time (s : State) (n : Nat) : (s.advanceHead n).time = s.time := by
  induction n generalizing s with
  | zero => rfl
  | succ n ih =>
    simp only [State.advanceHead]
    split <;> simp [ih]

@[simp] theorem State.endCmd_time (s : State) (c : PeelCmd) (status : Nat) (victim : Option Nat) :
    (s.endCmd c status victim).time = s.time := by
  refine (State.advanceHead_time _ _).trans ((State.setCmd_time ..).trans ?_)
  refine (State.sysWrite_seen ..).trans ((State.sysWrite_seen ..).trans ?_)
  cases victim with
  | none => rfl
  | some v => exact State.sysWrite_seen ..

@[simp] theorem State.badCmds_time (s : State) (n : Nat) : (s.badCmds n).time = s.time := by
  induction n generalizing s with
  | zero => rfl
  | succ n ih =>
    simp only [State.badCmds]
    repeat' split
    all_goals simp [ih]

@[simp] theorem State.cmdsOn_time (s : State) : s.cmdsOn.time = s.time := by simp [State.cmdsOn]

@[simp] theorem State.readQuota_time (s : State) (ctx : Nat) : (s.readQuota ctx).time = s.time := by simp [State.readQuota]

@[simp] theorem State.setCharge_time (s : State) (ctx t v : Nat) : (s.setCharge ctx t v).time = s.time := by
  simp [State.setCharge]

@[simp] theorem State.moveCharge_time (s : State) (ctx a b : Nat) : (s.moveCharge ctx a b).time = s.time := by
  simp [State.moveCharge]

@[simp] theorem State.quotaInit_time (s : State) : s.quotaInit.time = s.time := by simp [State.quotaInit]

@[simp] theorem State.wakeAll_time (s : State) : s.wakeAll.time = s.time := by simp [State.wakeAll]

@[simp] theorem State.beginMove_time (s : State) (slot b : Nat) (up pin victim : Bool) (cmd : Nat) (kept : Option Nat) :
    (s.beginMove slot b up pin victim cmd kept).time = s.time := by
  simp [State.beginMove]

@[simp] theorem State.startDown_time (s : State) (c : PeelCmd) (slot b : Nat) (pin : Bool) :
    (s.startDown c slot b pin).time = s.time := by
  simp [State.startDown]

@[simp] theorem State.startUp_time (s : State) (c : PeelCmd) (slot b : Nat) (pin : Bool) :
    (s.startUp c slot b pin).time = s.time := by
  refine State.ite_seen_eq ?_ ?_
  · simp
  split
  · simp
  generalize State.pickVictim _ _ _ = v
  obtain ⟨_ | v, p⟩ := v <;> simp

theorem State.startMove_time (s : State) (c : PeelCmd) (up pin : Bool) (t : State)
    (h : s.startMove c up pin = some t) : t.time = s.time := by
  simp only [State.startMove] at h
  split at h
  · exact State.some_seen h (by simp)
  split at h
  · exact State.some_seen h (by simp)
  split at h
  · exact State.some_seen h (by simp)
  split at h
  · split at h
    · exact State.some_seen h (by simp)
    · exact State.some_seen h (by simp)
  split at h
  · split at h
    · exact State.some_seen h (by simp)
    · exact State.some_seen h (by simp)
  split at h
  · cases h
  split at h
  · exact State.some_seen h (by simp)
  split at h
  · cases h
  · exact State.some_seen h (by simp)

@[simp] theorem State.restart_time (s : State) (c : PeelCmd) : (s.restart c).time = s.time := by
  simp only [State.restart]
  split
  · rename_i e
    split at e
    all_goals exact State.startMove_time _ _ _ _ _ e
  · simp

@[simp] theorem State.copyEcc_time (s : State) (m : Move) (e : Ecc) : (s.copyEcc m e).time = s.time := by simp [State.copyEcc]

@[simp] theorem State.fetchCmds_time (s : State) (n : Nat) : (s.fetchCmds n).time = s.time := by
  induction n generalizing s with
  | zero => rfl
  | succ n ih =>
    simp only [State.fetchCmds]
    split
    · rfl
    · rw [ih]; simp

@[simp] theorem State.scrubHit_time (s : State) (n row : Nat) (e : EccHit) : (s.scrubHit n row e).time = s.time := by
  simp [State.scrubHit]

@[simp] theorem State.ctlHeat_time (s : State) (n t : Nat) : (s.ctlHeat n t).time = s.time := by simp [State.ctlHeat]

@[simp] theorem State.marginDestroys_time (s : State) (ctl : Nat) : (s.marginDestroys ctl).time = s.time := by
  simp [State.marginDestroys]

@[simp] theorem State.feDrop_time (s : State) (d : Nat) (uid : Option Nat) (ctx pa : Nat) :
    (s.feDrop d uid ctx pa).time = s.time := by
  simp only [State.feDrop]
  split <;> simp

@[simp] theorem State.feSend_time (s : State) (d : Nat) (w : FeWrite) (t : Target) (info : List Nat) (bs : List Byte) :
    (s.feSend d w t info bs).time = s.time := by
  simp [State.feSend]

@[simp] theorem State.feHold_time (s : State) (d : Nat) (w : FeWrite) (bs : List Byte) : (s.feHold d w bs).time = s.time := by
  simp [State.feHold]

@[simp] theorem State.feWrite_time (s : State) (d : Nat) (w : FeWrite) (bs : List Byte) :
    (s.feWrite d w bs).time = s.time := by
  simp only [State.feWrite]
  split <;> simp

@[simp] theorem State.feFree_time (s : State) (d tag : Nat) : (s.feFree d tag).time = s.time := by simp [State.feFree]

@[simp] theorem State.msixRaise_time (s : State) (v : Nat) : (s.msixRaise v).time = s.time := by simp [State.msixRaise]

@[simp] theorem State.queueIntr_time (s : State) (x : Queue) : (s.queueIntr x).time = s.time := by simp [State.queueIntr]

@[simp] theorem State.completionIntr_time (s : State) (q : Nat) (x : Queue) : (s.completionIntr q x).time = s.time := by
  simp [State.completionIntr]

@[simp] theorem State.park_time (s : State) (q cause : Nat) : (s.park q cause).time = s.time := by
  simp only [State.park]
  split <;> simp

@[simp] theorem State.ringDone_seen (s : State) (d status : Nat) : ρ.obs.see (s.ringDone d status) = ρ.obs.see s := by
  simp [State.ringDone]

@[simp] theorem State.invalDone_seen (s : State) (i : Inval) : ρ.obs.see (s.invalDone i) = ρ.obs.see s := by
  simp only [State.invalDone]
  split <;> simp

@[simp] theorem State.atusGone_seen (s : State) (gone : Nat → Bool) : ρ.obs.see (s.atusGone gone) = ρ.obs.see s := by
  simp [State.atusGone]

@[simp] theorem State.endOp_time (s : State) (uid : Nat) : (s.endOp uid).time = s.time := by
  simp only [State.endOp]
  repeat' split
  all_goals simp

@[simp] theorem State.setRslot_time (s : State) (d i : Nat) (r : RSlot) : (s.setRslot d i r).time = s.time := by
  simp [State.setRslot]

@[simp] theorem State.writeFreed_time (s : State) (d ctx : Nat) (v : RVersion) :
    (s.writeFreed d ctx v).time = s.time := by
  simp only [State.writeFreed]
  split
  all_goals
    rename_i e
    simp [State.pair_seen e (State.feTranslate_time ..)]

@[simp] theorem State.freeVersions_time (s : State) (d i : Nat) : (s.freeVersions d i).time = s.time := by
  simp [State.freeVersions]

@[simp] theorem State.endRun_time (s : State) (o : Op) : (s.endRun o).time = s.time := by
  simp only [State.endRun]
  split <;> simp

@[simp] theorem State.opGone_time (s : State) (o : Op) : (s.opGone o).time = s.time := by simp [State.opGone]

@[simp] theorem State.undefine_time (s : State) (ctx : Nat) : (s.undefine ctx).time = s.time := by simp [State.undefine]

@[simp] theorem State.mapReqs_time (s : State) (f : HomeReq → HomeReq) : (s.mapReqs f).time = s.time := by
  simp [State.mapReqs]

@[simp] theorem State.discardWrites_time (s : State) (c : Nat) : (s.discardWrites c).time = s.time := by
  simp [State.discardWrites]

@[simp] theorem State.removeRunning_time (s : State) (c : Nat) : (s.removeRunning c).time = s.time := by
  simp [State.removeRunning]

@[simp] theorem State.removeWork_time (s : State) (ctx : Nat) : (s.removeWork ctx).time = s.time := by simp [State.removeWork]

@[simp] theorem State.outOfService_time (s : State) (syn : Nat) : (s.outOfService syn).time = s.time := by
  simp [State.outOfService]

@[simp] theorem State.logFatal_time (s : State) (r : ErrRec) : (s.logFatal r).time = s.time := by simp [State.logFatal]

@[simp] theorem State.countReset_time (s : State) : s.countReset.time = s.time := by simp [State.countReset]

@[simp] theorem State.resetContext_time (s : State) (ctx : Nat) (counted : Bool) :
    (s.resetContext ctx counted).time = s.time := by
  simp [State.resetContext]

@[simp] theorem State.resetCheck_time (s : State) : s.resetCheck.time = s.time := by
  simp only [State.resetCheck]
  repeat' split
  all_goals simp

@[simp] theorem State.resetCore_time (s : State) (c : Nat) : (s.resetCore c).time = s.time := by simp [State.resetCore]

@[simp] theorem State.forceReset_time (s : State) (c : Nat) : (s.forceReset c).time = s.time := by simp [State.forceReset]

@[simp] theorem State.abortCtx_time (s : State) (ctx : Nat) (hangs : Op → Bool) : (s.abortCtx ctx hangs).time = s.time := by
  simp [State.abortCtx]

@[simp] theorem State.setHang_time (s : State) (d : Nat) (h : Option Hang) : (s.setHang d h).time = s.time := by
  simp [State.setHang]

@[simp] theorem State.replay_time (s : State) (ctx : Nat) (second : Bool) : (s.replay ctx second).time = s.time := by
  simp [State.replay]

@[simp] theorem State.hangRecord_time (s : State) (h : Hang) : (s.hangRecord h).time = s.time := by simp [State.hangRecord]

@[simp] theorem State.beginHang_time (s : State) : s.beginHang.1.time = s.time := by
  simp only [State.beginHang]
  repeat' split
  all_goals simp

@[simp] theorem State.hangNext_time (s : State) (d n : Nat) : (s.hangNext d n).time = s.time := by
  induction n generalizing s d with
  | zero => rfl
  | succ n ih =>
    simp only [State.hangNext]
    split
    · split
      all_goals
        rename_i e
        have hu := State.pair_seen e (State.beginHang_time ..)
      · exact (ih _ _).trans hu
      · exact hu
    · repeat' split
      all_goals simp [ih]

@[simp] theorem State.startHang_time (s : State) (c : Nat) : (s.startHang c).time = s.time := by simp [State.startHang]

@[simp] theorem State.replayHung_time (s : State) (d : Nat) (hangs : Op → Bool) : (s.replayHung d hangs).time = s.time := by
  simp only [State.replayHung]
  repeat' split
  all_goals simp

@[simp] theorem State.leaveHangs_time (s : State) (ctx : Nat) : (s.leaveHangs ctx).time = s.time := by
  refine State.foldl_seen _ _ _ (fun u d => ?_)
  split <;> simp

@[simp] theorem State.resetOutside_time (s : State) (ctx : Nat) (counted : Bool) :
    (s.resetOutside ctx counted).time = s.time := by
  simp [State.resetOutside]

@[simp] theorem State.qctxBytes_time (s : State) (d q : Nat) : (s.qctxBytes d q).1.time = s.time := by simp [State.qctxBytes]

@[simp] theorem State.readQctx_time (s : State) (d q : Nat) : (s.readQctx d q).1.time = s.time := by
  simp only [State.readQctx]
  split
  all_goals
    rename_i e
    exact State.pair_seen e (State.qctxBytes_time ..)

@[simp] theorem State.staleDoorbell_time (s : State) (q : Nat) (x : Queue) : (s.staleDoorbell q x).time = s.time := by
  simp [State.staleDoorbell]

@[simp] theorem State.poisonIn_time (s : State) (a n : Nat) : (s.poisonIn a n).time = s.time := by simp [State.poisonIn]

@[simp] theorem State.takeDoorbell_time (s : State) (q : Nat) (x : Queue) (b : List Byte) :
    (s.takeDoorbell q x b).time = s.time := by
  simp [State.takeDoorbell]

@[simp] theorem State.shareDoorbell_time (s : State) (d a : Nat) : (s.shareDoorbell d a).time = s.time := by
  simp [State.shareDoorbell]

@[simp] theorem State.seesLocal_time (s : State) (x : Queue) : (s.seesLocal x).1.time = s.time := by simp [State.seesLocal]

@[simp] theorem State.fetchHead_time (s : State) (q : Nat) : (s.fetchHead q).time = s.time := by
  simp only [State.fetchHead]
  split <;> simp

@[simp] theorem State.advanceQueue_time (s : State) (q n : Nat) : (s.advanceQueue q n).time = s.time := by
  simp only [State.advanceQueue]
  split <;> simp

@[simp] theorem State.afterOp_time (s : State) (o : Op) : (s.afterOp o).time = s.time := by simp [State.afterOp]

@[simp] theorem State.installed_time (s : State) (o : Op) : (s.installed o).time = s.time := by
  simp only [State.installed]
  split <;> simp

@[simp] theorem State.entryDone_time (s : State) (o : Op) : (s.entryDone o).time = s.time := by
  simp only [State.entryDone]
  split <;> simp

@[simp] theorem State.tell_time (s : State) (o : Op) (x : Queue) (pa : Nat) (bs : List Byte) :
    (s.tell o x pa bs).time = s.time := by
  simp [State.tell]

@[simp] theorem State.writeEntry_time (s : State) (q : Nat) : (s.writeEntry q).time = s.time := by
  simp only [State.writeEntry]
  repeat' split
  all_goals simp

@[simp] theorem State.flushCq_time (s : State) (q n : Nat) : (s.flushCq q n).time = s.time := by
  induction n generalizing s with
  | zero => rfl
  | succ n ih =>
    simp only [State.flushCq]
    repeat' split
    all_goals simp [ih]

@[simp] theorem State.afterDoorbell_time (s : State) (q : Nat) : (s.afterDoorbell q).time = s.time := by
  simp [State.afterDoorbell]

@[simp] theorem State.readDoorbell_time (s : State) (q : Nat) (x : Queue) : (s.readDoorbell q x).time = s.time := by
  simp [State.readDoorbell]

@[simp] theorem State.watchHost_time (s : State) (x : Queue) : (s.watchHost x).time = s.time := by simp [State.watchHost]

theorem State.hostDoorbell_time (s : State) (q : Nat) (x : Queue) (r : Reply) (t : State)
    (h : s.hostDoorbell q x r = some t) : t.time = s.time := by
  simp only [State.hostDoorbell] at h
  repeat' split at h
  all_goals cases h
  all_goals simp

@[simp] theorem State.refreshDoorbell_time (s : State) (q : Nat) (x : Queue) : (s.refreshDoorbell q x).time = s.time := by
  simp [State.refreshDoorbell]

@[simp] theorem State.qctlDone_time (s : State) (d q res : Nat) : (s.qctlDone d q res).time = s.time := by
  simp [State.qctlDone]

@[simp] theorem State.signalWord_time (s : State) (o : Op) (x : Queue) : (s.signalWord o x).time = s.time := by
  simp [State.signalWord]

@[simp] theorem State.reportOp_time (s : State) (o : Op) (act : List (Nat × Nat)) : (s.reportOp o act).time = s.time := by
  simp [State.reportOp]

@[simp] theorem State.holdEntry_time (s : State) (o : Op) (act : List (Nat × Nat)) (q : Nat) (x : Queue) :
    (s.holdEntry o act q x).time = s.time := by
  simp [State.holdEntry]

@[simp] theorem State.endEntry_time (s : State) (o : Op) (act : List (Nat × Nat)) (x : Queue) :
    (s.endEntry o act x).time = s.time := by
  simp only [State.endEntry]
  repeat' split
  all_goals simp

@[simp] theorem State.fallbackFailed_time (s : State) (d ctx q pa : Nat) : (s.fallbackFailed d ctx q pa).time = s.time := by
  simp [State.fallbackFailed]

@[simp] theorem State.entryFailed_time (s : State) (o : Op) (x : Queue) (fallbackFails : Bool) :
    (s.entryFailed o x fallbackFails).time = s.time := by
  simp [State.entryFailed]

@[simp] theorem State.feAck_time (s : State) (d : Nat) (w : FeWrite) : (s.feAck d w).time = s.time := by
  simp only [State.feAck]
  split <;> simp

@[simp] theorem State.coreHung_time (s : State) (c : Nat) : (s.coreHung c).time = s.time := by simp [State.coreHung]

@[simp] theorem State.capChange_time (s : State) : s.capChange.time = s.time := by simp [State.capChange]

@[simp] theorem State.resetCluster_time (s : State) (k : Nat) : (s.resetCluster k).time = s.time := by
  simp [State.resetCluster]

@[simp] theorem State.applyQuarantine_time (s : State) (u : UnitKind) (seq : Nat) (intent : Bool) :
    (s.applyQuarantine u seq intent).time = s.time := by
  simp only [State.applyQuarantine]
  split <;> simp

@[simp] theorem State.cmdDone_time (s : State) (seq res : Nat) : (s.cmdDone seq res).time = s.time := by simp [State.cmdDone]

@[simp] theorem State.cmdWait_time (s : State) (c : UnitCmd) : (s.cmdWait c).time = s.time := by simp [State.cmdWait]

@[simp] theorem State.unitCommand_time (s : State) (p : BitVec 64) (op seq : Nat) :
    (s.unitCommand p op seq).time = s.time := by
  simp only [State.unitCommand]
  repeat' split
  all_goals simp

@[simp] theorem State.proofRecord_time (s : State) (r : ProofRun) (o : ProofOutcome) (c : Nat) (unit : BitVec 64) :
    (s.proofRecord r o c unit).time = s.time := by
  simp [State.proofRecord]

@[simp] theorem State.proofOverdue_time (s : State) : s.proofOverdue.time = s.time := by simp [State.proofOverdue]

@[simp] theorem State.railRecord_time (s : State) (r : Nat) : (s.railRecord r).time = s.time := by simp [State.railRecord]

@[simp] theorem State.markActed_time (s : State) (r : Nat) : (s.markActed r).time = s.time := by simp [State.markActed]

@[simp] theorem State.limiterStart_time (s : State) (r : Nat) : (s.limiterStart r).time = s.time := by
  simp [State.limiterStart]

@[simp] theorem State.limiterStep_time (s : State) (r k amps : Nat) : (s.limiterStep r k amps).time = s.time := by
  simp [State.limiterStep]

@[simp] theorem State.settleCeiling_time (s : State) : s.settleCeiling.time = s.time := by simp [State.settleCeiling]

@[simp] theorem State.powerLine_time (s : State) : s.powerLine.time = s.time := by simp [State.powerLine]

@[simp] theorem State.closeLine_time (s : State) (m : LineMeas) : (s.closeLine m).time = s.time := by simp [State.closeLine]

@[simp] theorem State.gate_time (s : State) (u : UnitKind) (k : Nat) : (s.gate u k).time = s.time := by
  simp only [State.gate]
  split <;> simp

@[simp] theorem State.ungate_time (s : State) (u : UnitKind) (k : Nat) : (s.ungate u k).time = s.time := by
  simp only [State.ungate]
  split <;> simp

@[simp] theorem State.domainDone_time (s : State) (res : Nat) (gated : Bool) : (s.domainDone res gated).time = s.time := by
  simp [State.domainDone]

@[simp] theorem State.rule_time (s : State) (f : State → State) : (s.rule f).time = (f s).time := by
  simp [State.rule]

@[simp] theorem State.ruleFlag_time (s : State) (bit : Nat) : (s.ruleFlag bit).time = s.time := by simp [State.ruleFlag]

@[simp] theorem State.timeRecord_time (s : State) (unit : BitVec 64) : (s.timeRecord unit).time = s.time := by
  simp [State.timeRecord]

@[simp] theorem State.sendChunk_time (s : State) : s.sendChunk.time = s.time := by
  simp only [State.sendChunk]
  split <;> simp

@[simp] theorem State.sendChunks_time (s : State) : s.sendChunks.time = s.time := by simp [State.sendChunks]

@[simp] theorem State.commitDone_time (s : State) (mask : Nat) (late : Bool) : (s.commitDone mask late).time = s.time := by
  simp [State.commitDone]

@[simp] theorem State.setAdlMod_time (s : State) (l m : Nat) (x : AdlMod) : (s.setAdlMod l m x).time = s.time := by
  simp [State.setAdlMod]

@[simp] theorem State.linkRec_time (s : State) (path : BitVec 64) : (s.linkRec path).1.time = s.time := by
  simp [State.linkRec]

@[simp] theorem State.linkRecord_time (s : State) (path : BitVec 64) : (s.linkRecord path).time = s.time := by
  simp [State.linkRecord]

@[simp] theorem State.modOffline_time (s : State) (l m : Nat) (x : AdlMod) : (s.modOffline l m x).time = s.time := by
  simp [State.modOffline]

@[simp] theorem State.resend_time (s : State) (p : Nat) : (s.resend p).time = s.time := by simp [State.resend]

@[simp] theorem State.replayPort_time (s : State) (p : Nat) : (s.replayPort p).time = s.time := by simp [State.replayPort]

@[simp] theorem State.timeCode_time (s : State) (src code : Nat) : (s.timeCode src code).time = s.time := by
  simp [State.timeCode]

@[simp] theorem State.forward_time (s : State) (flit : List Byte) : (s.forward flit).time = s.time := by
  simp only [State.forward]
  repeat' split
  all_goals simp

@[simp] theorem State.takeFlit_time (s : State) (flit : List Byte) : (s.takeFlit flit).time = s.time := by
  simp [State.takeFlit]

@[simp] theorem State.remoteWindow_time (s : State) (r : RemoteReq) (c o : Nat) : (s.remoteWindow r c o).time = s.time := by
  simp only [State.remoteWindow]
  split <;> simp

@[simp] theorem State.readRoutes_time (s : State) : s.readRoutes.time = s.time := by simp [State.readRoutes]

@[simp] theorem State.gateDrop_time (s : State) : s.gateDrop.time = s.time := by simp [State.gateDrop]

@[simp] theorem State.writeGate_time (s : State) (g value : Nat) : (s.writeGate g value).time = s.time := by
  simp [State.writeGate]

@[simp] theorem State.takeStep_time (s : State) (g line value : Nat) : (s.takeStep g line value).time = s.time := by
  simp [State.takeStep]

@[simp] theorem State.takeFreset_time (s : State) (n : Nat) : (s.takeFreset n).time = s.time := by simp [State.takeFreset]

@[simp] theorem State.dropResponses_time (s : State) : s.dropResponses.time = s.time := by simp [State.dropResponses]

@[simp] theorem State.linksLine_time (s : State) (plate : Bool) : (s.linksLine plate).time = s.time := by
  simp [State.linksLine]

@[simp] theorem State.cxlEvent_time (s : State) (bit : Nat) : (s.cxlEvent bit).time = s.time := by simp [State.cxlEvent]

@[simp] theorem State.energyAborted_time (s : State) (ops : List Op) : (s.energyAborted ops).time = s.time := by
  simp [State.energyAborted]

@[simp] theorem State.abortQueue_time (s : State) (q : Nat) : (s.abortQueue q).time = s.time := by
  simp only [State.abortQueue]
  split <;> simp

@[simp] theorem State.loseQueues_time (s : State) (owner : Nat → Bool) (after : QState) :
    (s.loseQueues owner after).time = s.time := by
  simp only [State.loseQueues]
  refine (State.foldl_seen _ _ _ (fun u d => State.hangNext_time ..)).trans ?_
  refine (State.resetCheck_time _).trans ((State.foldl_seen _ _ _ (fun u c => State.resetOutside_time ..)).trans ?_)
  refine State.foldl_seen _ _ _ (fun u q => ?_)
  split <;> simp

@[simp] theorem State.hostLeavesHomes_time (s : State) : s.hostLeavesHomes.time = s.time := by simp [State.hostLeavesHomes]

@[simp] theorem State.hostLinesLost_time (s : State) : s.hostLinesLost.time = s.time := by simp [State.hostLinesLost]

@[simp] theorem State.hostAnswers_time (s : State) : s.hostAnswers.time = s.time := by simp [State.hostAnswers]

@[simp] theorem State.hostSent_time (s : State) (f : Nat → Nat) : (s.hostSent f).time = s.time := by simp [State.hostSent]

@[simp] theorem State.hostAway_time (s : State) : s.hostAway.time = s.time := by simp [State.hostAway]

@[simp] theorem State.retrained_time (s : State) : s.retrained.time = s.time := by simp [State.retrained]

@[simp] theorem State.linkDown_time (s : State) (sub : Nat) : (s.linkDown sub).time = s.time := by simp [State.linkDown]

@[simp] theorem State.unbackedRead_time (s : State) (dpa : Nat) : (s.unbackedRead dpa).time = s.time := by
  simp [State.unbackedRead]

@[simp] theorem State.unbackedWrite_time (s : State) : s.unbackedWrite.time = s.time := by simp [State.unbackedWrite]

@[simp] theorem State.copySets_time (s : State) (mask : Nat) : (s.copySets mask).time = s.time := by simp [State.copySets]

@[simp] theorem State.onCommit_time (old s : State) (mask : Nat) : (State.onCommit old s mask).time = s.time := by
  simp [State.onCommit]

@[simp] theorem State.applyCommit_time (s : State) (c : Commit) : (s.applyCommit c).time = s.time := by
  simp [State.applyCommit]

@[simp] theorem State.commitLine_time (s : State) (from_ : Nat) : (s.commitLine from_).time = s.time := by
  simp [State.commitLine]

@[simp] theorem State.ageHub_time (s : State) (k : Nat) : (s.ageHub k).time = s.time := by simp [State.ageHub]

@[simp] theorem State.ageLine_time (s : State) (k : Nat) : (s.ageLine k).time = s.time := by simp [State.ageLine]

@[simp] theorem State.snapshot_time (s : State) : s.snapshot.time = s.time := by simp [State.snapshot]

@[simp] theorem State.plateLine_time (s : State) (window : Bool) : (s.plateLine window).time = s.time := by
  simp [State.plateLine]

@[simp] theorem State.hatchLine_time (s : State) : s.hatchLine.time = s.time := by simp [State.hatchLine]

@[simp] theorem State.passTime_time (s : State) : s.passTime.time = s.time := by simp [State.passTime]

@[simp] theorem State.beginInval_time (s : State) (i : Inval) : (s.beginInval i).time = s.time := by
  simp only [State.beginInval]
  split <;> simp

@[simp] theorem State.hartWait_time (s : State) (h : Nat) (f : HartFence) : (s.hartWait h f).time = s.time := by
  simp [State.hartWait]

@[simp] theorem State.msiPage_time (s : State) (h f x size : Nat) (v : Nat) : (s.msiPage h f x size v).time = s.time := by
  simp [State.msiPage]

@[simp] theorem State.warmQuarantine_time (s : State) : s.warmQuarantine.time = s.time := by
  simp only [State.warmQuarantine]
  repeat' split
  all_goals simp

@[simp] theorem State.untrained_time (s : State) (listed : Pop) : (s.untrained listed).time = s.time := by
  simp [State.untrained]

@[simp] theorem State.initBits_time (s : State) (o hi lo v : Nat) : (s.initBits o hi lo v).time = s.time := by
  simp [State.initBits]

@[simp] theorem State.lowPower_time (s : State) : s.lowPower.time = s.time := by simp [State.lowPower]

@[simp] theorem State.linkRoles_time (s : State) (c : FlashRec) (l : Nat) : (s.linkRoles c l).time = s.time := by
  simp [State.linkRoles]

@[simp] theorem State.linkTrain_time (s : State) (l : Nat) : (s.linkTrain l).time = s.time := by simp [State.linkTrain]

@[simp] theorem State.wireCheck_time (s : State) (e : BootEnv) : (s.wireCheck e).time = s.time := by simp [State.wireCheck]

@[simp] theorem State.configRegs_time (s : State) (c : FlashRec) : (s.configRegs c).time = s.time := by
  simp [State.configRegs]

@[simp] theorem State.historyEntry_time (s : State) (rep : List (BitVec 64)) (b : List Byte) :
    (s.historyEntry rep b).time = s.time := by
  simp only [State.historyEntry]
  repeat' split
  all_goals simp

@[simp] theorem State.applyHistory_time (s : State) (rep : List (BitVec 64)) : (s.applyHistory rep).time = s.time := by
  simp only [State.applyHistory]
  split <;> simp

@[simp] theorem State.bootStop_time (s : State) (code : Nat) : (s.bootStop code).time = s.time := by simp [State.bootStop]

@[simp] theorem State.bootPower_time (s : State) : s.bootPower.time = s.time := by simp [State.bootPower]

@[simp] theorem State.bootSelect_time (s : State) : s.bootSelect.time = s.time := by simp [State.bootSelect]

@[simp] theorem State.bootMemory_time (s : State) (e : BootEnv) : (s.bootMemory e).time = s.time := by simp [State.bootMemory]

@[simp] theorem State.bootUnits_time (s : State) (c : FlashRec) (e : BootEnv) : (s.bootUnits c e).time = s.time := by
  simp [State.bootUnits]

@[simp] theorem State.runImage_time (s : State) (r : FlashRec) : (s.runImage r).time = s.time := by simp [State.runImage]

@[simp] theorem State.recStat_time (s : State) (busy done : Bool) (result bank : Nat) :
    (s.recStat busy done result bank).time = s.time := by
  simp [State.recStat]

@[simp] theorem State.startWrite_time (s : State) (region : Nat) (r : FlashRec) : (s.startWrite region r).time = s.time := by
  simp [State.startWrite]

@[simp] theorem State.memRecord_time (s : State) (a : Nat) (signed : Bool) : (s.memRecord a signed).1.time = s.time := by
  simp [State.memRecord]

@[simp] theorem State.takeToken_time (s : State) (b : List Byte) : (s.takeToken b).time = s.time := by simp [State.takeToken]

@[simp] theorem State.touchMmio_time (s : State) (o : Nat) : (s.touchMmio o).time = s.time := by
  simp only [State.touchMmio]
  split <;> simp

@[simp] theorem State.loadMmio_time (s : State) (k o n : Nat) : (s.loadMmio k o n).1.time = s.time := by
  induction k generalizing s o n with
  | zero => rfl
  | succ k ih =>
    simp only [State.loadMmio]
    split <;> simp [ih]

@[simp] theorem State.msixWrite_time (s : State) (x : Nat) (bs : List Byte) : (s.msixWrite x bs).time = s.time := by
  simp [State.msixWrite]

@[simp] theorem State.hostDone_time (s : State) (bar off status : Nat) (bs : List Byte) :
    (s.hostDone bar off status bs).time = s.time := by
  simp [State.hostDone]

@[simp] theorem State.bar2Piece_time (s : State) (off n : Nat) (wr : Option (List Byte)) :
    (s.bar2Piece off n wr).time = s.time := by
  simp only [State.bar2Piece]
  repeat' split
  all_goals simp

@[simp] theorem State.holdAcquire_time (s : State) (c seq : Nat) (acquire : Bool) :
    (s.holdAcquire c seq acquire).time = s.time := by
  simp [State.holdAcquire]

@[simp] theorem State.lateAtIssue_time (s : State) (c : Nat) (lp : Option Nat) : (s.lateAtIssue c lp).time = s.time := by
  simp [State.lateAtIssue]

@[simp] theorem State.metWaitv_time (s : State) (c : Nat) (f : WaitvF) : (s.metWaitv c f).time = s.time := by
  simp [State.metWaitv]

@[simp] theorem State.lateWaitv_time (s : State) (c : Nat) (f : WaitvF) : (s.lateWaitv c f).time = s.time := by
  simp [State.lateWaitv]

@[simp] theorem State.waitvTest_time (s : State) (c : Nat) (f : WaitvF) (dl : Option Nat) (v : Nat) :
    (s.waitvTest c f dl v).time = s.time := by
  simp [State.waitvTest]

@[simp] theorem State.waitvRead_time (s : State) (c : Nat) (f : WaitvF) (va pc : Nat) (dl : Option Nat) (pa : Nat)
    (t : Target) : (s.waitvRead c f va pc dl pa t).time = s.time := by
  simp only [State.waitvRead]
  repeat' split
  all_goals simp

@[simp] theorem State.waitvGo_time (s : State) (c : Nat) (f : WaitvF) (va pc : Nat) (dl : Option Nat) (l : Launch)
    (r : XRes) : (s.waitvGo c f va pc dl l r).time = s.time := by
  simp only [State.waitvGo]
  repeat' split
  all_goals simp

@[simp] theorem State.waitvLook_time (s : State) (c : Nat) (f : WaitvF) (va pc : Nat) (dl : Option Nat) (l : Launch) :
    (s.waitvLook c f va pc dl l).time = s.time := by
  simp [State.waitvLook]

@[simp] theorem State.feLost_time (s : State) (d op ctx pa : Nat) (t : Target) : (s.feLost d op ctx pa t).time = s.time := by
  simp [State.feLost]

@[simp] theorem State.feGet_time (s : State) (d op ctx pa n : Nat) (t : Target) :
    (s.feGet d op ctx pa n t).1.time = s.time := by
  simp only [State.feGet]
  split <;> simp

@[simp] theorem State.feLoad_time (s : State) (d op ctx asid root va n : Nat) :
    (s.feLoad d op ctx asid root va n).1.time = s.time := by
  refine State.foldl_fst_seen _ _ _ (fun r p => ?_)
  obtain ⟨u, e | l⟩ := r
  · rfl
  · dsimp only
    split
    all_goals
      rename_i e
      have hu := State.pair_seen e (State.feTranslate_time ..)
    · simp [hu]
    · exact hu
    · exact hu

@[simp] theorem State.feCtx_time (s : State) (d op ctx : Nat) : (s.feCtx d op ctx).1.time = s.time := by
  simp only [State.feCtx]
  split
  all_goals
    rename_i e
    exact State.pair_seen e (State.ctxEntry_time ..)

@[simp] theorem State.handleEntry_time (s : State) (d ctx h : Nat) : (s.handleEntry d ctx h).1.time = s.time := by
  unfold State.handleEntry
  split
  · rfl
  extract_lets a s1 dir t
  have h1 : s1.time = s.time := State.homeRead_time ..
  split
  · rfl
  split
  · exact h1
  · exact (State.setFe_seen ..).trans ((State.homeRead_time ..).trans h1)

@[simp] theorem State.handleVa_time (s : State) (d : Nat) (b : List Byte) (n : Nat) (write : Bool) :
    (s.handleVa d b n write).1.time = s.time := by
  simp only [State.handleVa]
  split
  all_goals
    rename_i e
    have hu := State.pair_seen e (State.handleEntry_time ..)
  · exact hu
  · simp [hu]

@[simp] theorem State.stageOn_time (s : State) (c : Nat) (g : Staged) : (s.stageOn c g).time = s.time := by
  simp [State.stageOn]

@[simp] theorem State.relocPages_time (s : State) (d op ctx asid root va n : Nat) (a : Acc) :
    (s.relocPages d op ctx asid root va n a).1.time = s.time := by
  refine State.foldl_fst_seen _ _ _ (fun r p => ?_)
  obtain ⟨u, e | l⟩ := r
  · rfl
  · dsimp only
    split
    all_goals
      rename_i e
      exact State.pair_seen e (State.feTranslate_time ..)

@[simp] theorem State.relocate_time (s : State) (d : Nat) (b : List Byte) (n align : Nat) (write : Bool) (a : Acc) :
    (s.relocate d b n align write a).1.time = s.time := by
  simp only [State.relocate]
  split
  all_goals
    rename_i e
    have hu := State.pair_seen e (State.handleVa_time ..)
  · exact hu
  split
  · exact hu
  split
  all_goals
    rename_i e
    have hv := (State.pair_seen e (State.feCtx_time ..)).trans hu
  · exact hv
  split
  all_goals
    rename_i e
    exact (State.pair_seen e (State.relocPages_time ..)).trans hv

@[simp] theorem State.relocRead_time (s : State) (d : Nat) (b : List Byte) (n : Nat) :
    (s.relocRead d b n).1.time = s.time := by
  simp only [State.relocRead]
  split
  all_goals
    rename_i e
    have hu := State.pair_seen e (State.handleVa_time ..)
  · exact hu
  split
  all_goals
    rename_i e
    have hv := (State.pair_seen e (State.feCtx_time ..)).trans hu
  · exact hv
  split
  all_goals
    rename_i e
    exact (State.pair_seen e (State.feLoad_time ..)).trans hv

@[simp] theorem State.prepLaunch_time (s : State) (d : Nat) (b : List Byte) : (s.prepLaunch d b).1.time = s.time := by
  simp only [State.prepLaunch]
  split
  all_goals
    rename_i e
    have hu := State.pair_seen e (State.relocRead_time ..)
  · exact hu
  · simp [hu]

@[simp] theorem State.prepRecipe_time (s : State) (d : Nat) (b : List Byte) : (s.prepRecipe d b).1.time = s.time := by
  simp only [State.prepRecipe]
  repeat' split
  all_goals simp

@[simp] theorem State.prepPatch_time (s : State) (d : Nat) (b : List Byte) : (s.prepPatch d b).1.time = s.time := by
  simp only [State.prepPatch]
  split
  · rfl
  split
  all_goals
    rename_i e
    have hu := State.pair_seen e (State.relocRead_time ..)
  · exact hu
  · simp [hu]

@[simp] theorem State.prep_time (s : State) (d : Nat) (b : List Byte) : (s.prep d b).1.time = s.time := by
  simp only [State.prep]
  split <;> simp

@[simp] theorem State.opEnd_time (s : State) (uid : Nat) : (s.opEnd uid).time = s.time := by simp [State.opEnd]

@[simp] theorem State.opFail_time (s : State) (uid st : Nat) : (s.opFail uid st).time = s.time := by simp [State.opFail]

@[simp] theorem State.placeLaunch_time (s : State) (o : Op) (node : Nat) (block : List Byte) (ovr : Overrides)
    (inl : List Byte) (cores : List Nat) : (s.placeLaunch o node block ovr inl cores).1.time = s.time := by
  simp only [State.placeLaunch]
  split
  all_goals
    rename_i e
    have hu := State.pair_seen (π := OffHatch.time.obs) (s := s) e (by simp)
  · exact hu
  · simp [hu]

@[simp] theorem State.nodeFail_time (s : State) (uid node st : Nat) : (s.nodeFail uid node st).time = s.time := by
  simp [State.nodeFail]

@[simp] theorem State.nodeBlock_time (s : State) (o : Op) (body : List Byte) (node : Nat) :
    (s.nodeBlock o body node).1.time = s.time := by
  simp only [State.nodeBlock]
  split
  all_goals
    rename_i e
    have hu := State.pair_seen e (State.feCtx_time ..)
  · exact hu
  split
  all_goals
    rename_i e
    have hv := (State.pair_seen e (State.feLoad_time ..)).trans hu
  · exact hv
  · simp [hv]

@[simp] theorem State.signalAdd_time (s : State) (o : Op) : (s.signalAdd o).time = s.time := by
  simp only [State.signalAdd]
  split
  · split
    all_goals
      rename_i e
      simp [State.pair_seen e (State.sysAdd_time ..)]
  all_goals simp

@[simp] theorem State.waitTest_time (s : State) (o : Op) (v : Nat) : (s.waitTest o v).time = s.time := by
  simp [State.waitTest]

theorem State.waitBack_time (s : State) (o : Op) (g : Target) (sent : Nat) (dev : Option Reply) (t : State)
    (h : s.waitBack o g sent dev = some t) : t.time = s.time := by
  simp only [State.waitBack] at h
  repeat' split at h
  all_goals cases h
  all_goals simp

@[simp] theorem State.waitLook_time (s : State) (o : Op) (dev : Option Reply) : (s.waitLook o dev).time = s.time := by
  simp only [State.waitLook]
  split
  case h_4 => exact State.getD_seen (fun t h => (State.waitBack_time _ _ _ _ _ _ h).trans (by simp)) (by simp)
  all_goals simp

@[simp] theorem State.hintPage_time (s : State) (d op ctx asid root va : Nat) :
    (s.hintPage d op ctx asid root va).1.time = s.time := by
  simp only [State.hintPage]
  split
  · rfl
  split
  all_goals
    rename_i e
    exact State.pair_seen e (State.translate_time ..)

@[simp] theorem State.hintPages_time (s : State) (o : Op) (asid root : Nat) (up : Bool) (n va : Nat) :
    (s.hintPages o asid root up n va).time = s.time := by
  induction n generalizing s va with
  | zero => rfl
  | succ n ih =>
    simp only [State.hintPages]
    rw [ih]
    split <;> simp

@[simp] theorem State.atOnce_time (s : State) (o : Op) : (s.atOnce o).time = s.time := by
  simp only [State.atOnce]
  repeat' split
  all_goals simp

@[simp] theorem State.accept_time (s : State) (d q : Nat) (x : Queue) : (s.accept d q x).time = s.time := by
  simp only [State.accept]
  repeat' split
  all_goals simp

@[simp] theorem State.addSplit_time (s : State) (x : Dsp) (a b n : Nat) : (s.addSplit x a b n).time = s.time := by
  simp [State.addSplit]

@[simp] theorem State.handOut_time (s : State) (o : Op) (plan : List Part) (asid root : Nat) :
    (s.handOut o plan asid root).time = s.time := by
  simp [State.handOut]

@[simp] theorem State.stageShare_time (s : State) (die : Nat) (o : Op) (h : Share) (asid root : Nat) :
    (s.stageShare die o h asid root).time = s.time := by
  simp [State.stageShare]

@[simp] theorem State.spoilPart_time (s : State) (c : Nat) (t : RTag) (a n : Nat) : (s.spoilPart c t a n).time = s.time := by
  simp [State.spoilPart]

theorem State.arriving_time (s : State) (c : Nat) (t : RTag) (r : Option Reply)
    (x : State × List Byte × List (Nat × Nat)) (h : s.arriving c t r = some x) : x.1.time = s.time := by
  simp only [State.arriving] at h
  split at h
  · obtain ⟨y, -, rfl⟩ := Option.map_eq_some_iff.mp h; rfl
  all_goals
    repeat' split at h
    all_goals cases h
    all_goals simp

@[simp] theorem State.freeRead_time (s : State) (c tag : Nat) : (s.freeRead c tag).time = s.time := by simp [State.freeRead]

@[simp] theorem State.landRead_time (s : State) (c : Nat) (t : RTag) (bs : List Byte) (bad : List (Nat × Nat)) :
    (s.landRead c t bs bad).time = s.time := by
  simp [State.landRead]

@[simp] theorem State.land_time (s : State) (c : Nat) (t : RTag) (bs : List Byte) (bad : List (Nat × Nat)) :
    (s.land c t bs bad).time = s.time := by
  simp only [State.land]
  repeat' split
  all_goals simp

@[simp] theorem State.deadlineFirst_time (s : State) (c : Nat) (t : RTag) : (s.deadlineFirst c t).time = s.time := by
  simp only [State.deadlineFirst]
  repeat' split
  all_goals simp

@[simp] theorem State.timeoutRecord_time (s : State) (w : Cause) (unit : BitVec 64) (pa : Nat) :
    (s.timeoutRecord w unit pa).time = s.time := by
  simp [State.timeoutRecord]

@[simp] theorem State.freeWrite_time (s : State) (c : Nat) (w : WTag) (old : Option Nat) :
    (s.freeWrite c w old).time = s.time := by
  simp [State.freeWrite]

@[simp] theorem State.windowTag_time (s : State) (c x : Nat) (w : WTag) : (s.windowTag c x w).1.time = s.time := by
  simp only [State.windowTag]
  split <;> simp

@[simp] theorem State.windowFault_time (s : State) (c : Nat) (w : WTag) : (s.windowFault c w).time = s.time := by
  simp [State.windowFault]

@[simp] theorem State.remotePoison_time (s : State) (c : Nat) : (s.remotePoison c).time = s.time := by
  simp only [State.remotePoison]
  split <;> simp

@[simp] theorem State.askHost_time (s : State) (h pa : Nat) (t : Target) : (s.askHost h pa t).time = s.time := by
  simp [State.askHost]

@[simp] theorem State.slcPass_time (s : State) (h pa : Nat) (f : Finds) : (s.slcPass h pa f).time = s.time := by
  simp [State.slcPass]

@[simp] theorem State.lineBytes_time (s : State) (pa n : Nat) (t : Target) : (s.lineBytes pa n t).1.time = s.time := by
  simp [State.lineBytes]

@[simp] theorem State.amoResult_time (s : State) (h pa : Nat) (bs : List Byte) : (s.amoResult h pa bs).time = s.time := by
  simp [State.amoResult]

@[simp] theorem State.homeAmo_time (s : State) (h pa : Nat) (op : HartAmo) (n v : Nat) (e : Ecc) :
    (s.homeAmo h pa op n v e).time = s.time := by
  simp [State.homeAmo]

@[simp] theorem State.cacheAmo_time (s : State) (h pa : Nat) (op : HartAmo) (n v : Nat) (t : Target) :
    (s.cacheAmo h pa op n v t).time = s.time := by
  simp [State.cacheAmo]

@[simp] theorem State.windowAmo_time (s : State) (h c pa : Nat) (op : HartAmo) (n v : Nat) :
    (s.windowAmo h c pa op n v).time = s.time := by
  simp [State.windowAmo]

@[simp] theorem State.takePacket_time (s : State) (p : List Byte) : (s.takePacket p).time = s.time := by
  simp only [State.takePacket]
  split <;> simp

@[simp] theorem State.appendChunk_time (s : State) (p : List Byte) : (s.appendChunk p).time = s.time := by
  simp [State.appendChunk]

@[simp] theorem State.transferRecord_time (s : State) (region : Nat) (r : FlashRec) :
    (s.transferRecord region r).time = s.time := by
  simp only [State.transferRecord]
  repeat' split
  all_goals simp

@[simp] theorem State.transferImage_time (s : State) (r : FlashRec) : (s.transferImage r).time = s.time := by
  simp [State.transferImage]

@[simp] theorem State.stageCommand_time (s : State) (path : BitVec 64) (op seq : Nat) :
    (s.stageCommand path op seq).time = s.time := by
  simp [State.stageCommand]

@[simp] theorem State.withFetchWord_time (s : State) (nbits w : Nat) : (s.withFetchWord nbits w).time = s.time := by
  simp only [State.withFetchWord]
  split <;> simp

end

end Sys2Proof.Machine

end

section

/-!
### Ruled time under the commands

Each command outside the tracker, the resets and register writes leaves ruled time as it is: `<command>_time`.
-/

namespace Sys2Proof.Machine

/-! ### What comes of a command -/

/-- A command given in `s` does nothing but fault without input power (R52); with it, what it comes to is a state with `p`, or
it leaves `s` as it is. -/
def State.acts (s : State) (p : State → Prop) (o : Out) : Prop := ∃ a : Act, o = whenHub s a ∧ a.leads p

/-- A command given in `s` leaves ruled time as it is. -/
abbrev State.keepsTime (s : State) (o : Out) : Prop := s.acts (fun t => t.time = s.time) o

theorem State.acts_whenHub {s : State} {p : State → Prop} {a : Act} (h : a.leads p) : s.acts p (whenHub s a) := ⟨a, rfl, h⟩

theorem State.acts_whenPowered {s : State} {p : State → Prop} {a : Act} (h : a.leads p) : s.acts p (whenPowered s a) := by
  refine ⟨if s.power.tripped then .stay else a, ?_, ?_⟩
  · simp only [whenPowered, whenHub, Act.out_ite, Act.out_stay]
  · rw [Act.leads_ite]; split
    · exact Act.leads_stay p
    · exact h

theorem State.acts_mono {s : State} {p q : State → Prop} {o : Out} (h : s.acts p o) (hpq : ∀ t, p t → q t) : s.acts q o := by
  obtain ⟨a, ho, ha⟩ := h
  exact ⟨a, ho, Act.leads_mono ha hpq⟩

/-- What a command comes to in a module with power. -/
theorem State.acts_next {s t : State} {p : State → Prop} {o : Out} (h : s.acts p o) (e : o = .next t) : p t ∨ t = s := by
  obtain ⟨a, rfl, ha⟩ := h
  simp only [whenHub] at e
  split at e
  · cases e
  · cases a with
    | next u => exact .inl (Host.Outcome.next.inj e ▸ ha u rfl)
    | stay => exact .inr (Host.Outcome.next.inj e).symm

theorem State.acts_noPower {s t : State} {p : State → Prop} {o : Out} (h : s.acts p o) (hi : s.power.input = false) :
    o ≠ .next t := by
  obtain ⟨a, rfl, -⟩ := h
  simp [whenHub, hi]

theorem State.acts_noFault {s : State} {p : State → Prop} {o : Out} (h : s.acts p o) (hi : s.power.input = true) (f : Fault) :
    o ≠ .fault f := by
  obtain ⟨a, rfl, -⟩ := h
  cases a <;> simp [whenHub, hi]

theorem orStay_time {s : State} {q : Ruling} {o : Out} (h : s.acts (fun t => t.time = q) o) (hs : s.time = q) :
    (orStay s o).time = q := by
  cases o with
  | next t =>
    obtain ht | rfl := State.acts_next h rfl
    · exact ht
    · exact hs
  | fault _ => exact hs
  | refused _ => exact hs

theorem State.issue_time (s : State) (c : Nat) (i : Ins) (faults : Core → Launch → IssueFaults)
    (body : State → Core → Launch → State) (hb : ∀ u k l, (body u k l).time = u.time) :
    s.keepsTime (s.issue c i faults body) := by
  refine State.acts_whenPowered ?_
  simp only [Act.leads_withSome]
  intro l _
  split
  · simp
  split
  · simp
  split
  all_goals
    rename_i e
    have hu := State.pair_seen e (State.fetch_time ..)
  · simp [hu]
  repeat' split
  all_goals simp [hu, hb]
@[simp] theorem State.tagAtHome_time (s : State) (c tag line : Nat) (e : Ecc) :
    (s.tagAtHome c tag line e).leads (fun t => t.time = s.time) := by simp [State.tagAtHome]
@[simp] theorem State.hostReq_time (s : State) (pa : Nat) (kind : HomeKind) (e : Ecc) :
    (s.hostReq pa kind e).leads (fun t => t.time = s.time) := by simp [State.hostReq]
@[simp] theorem State.earlyLate_time (s : State) (c : Nat) (t : RTag) :
    (s.earlyLate c t).leads (fun t => t.time = s.time) := by simp [State.earlyLate]
@[simp] theorem State.feLate_time (s : State) (d : Nat) (w : FeWrite) :
    (s.feLate d w).leads (fun t => t.time = s.time) := by
  simp only [State.feLate]
  split <;> simp
@[simp] theorem State.hartAck_time (s : State) (h id : Nat) (r : Option Reply) :
    (s.hartAck h id r).leads (fun t => t.time = s.time) := by
  simp only [State.hartAck, Act.leads_withSome, Act.leads_whenIt]
  intro x _ _
  split
  · split <;> simp
  · simp
@[simp] theorem State.waitvBack_time (s : State) (c : Nat) (f : WaitvF) (dl : Option Nat) (o : WaitRead) (r : Option Reply)
    (q : Ruling) (h : s.time = q) : (s.waitvBack c f dl o r).leads (fun t => t.time = q) := by
  simp only [State.waitvBack]
  split
  · simp [h]
  · split <;> simp [h]
@[simp] theorem State.hartLoad_time (s : State) (h : Nat) (a : HartAcc) (pa n : Nat) (e : Ecc) :
    (s.hartLoad h a pa n e).leads (fun t => t.time = s.time) := by
  simp only [State.hartLoad, Act.leads_whenIt]
  intro _
  split
  · simp
  split
  · simp
  simp only [Act.leads_whenIt]
  intro _
  split <;> simp
theorem State.moveCmd_time (s : State) (i op : Nat) (go : State → PeelCmd → Option State)
    (hg : ∀ c t, go s c = some t → t.time = s.time) : s.keepsTime (s.moveCmd i op go) := by
  refine State.acts_whenPowered ?_
  simp only [Act.leads_withSome, Act.leads_next, State.cmdsOn_time]
  exact fun c _ t ht => hg c t ht
theorem State.queueCommand_time (s : State) (d q : Nat) (bound : Queue → State) (free : State)
    (hb : ∀ x, (bound x).time = s.time) (hf : free.time = s.time) : s.keepsTime (s.queueCommand d q bound free) := by
  refine State.acts_whenPowered ?_
  simp only [Act.leads_whenIt]
  intro _
  split <;> simp [hb, hf]
theorem State.domainCommand_time (s : State) (p : BitVec 64) (f : UnitKind → Nat → State)
    (hf : ∀ u k, (f u k).time = s.time) : s.keepsTime (s.domainCommand p f) := by
  refine State.acts_whenHub ?_
  split
  · simp
  · split <;> simp [hf]
theorem State.hostMem_time (s : State) (dpa : Nat) (out : State) (k : Nat → Act) (ho : out.time = s.time)
    (hk : ∀ pa, (k pa).leads (fun t => t.time = s.time)) : s.keepsTime (s.hostMem dpa out k) :=
  State.acts_whenPowered (by simp [ho, hk])
theorem State.hostSnoop_time (s : State) (hpa : Nat) (held : Nat → State) (hh : ∀ l, (held l).time = s.time) :
    s.keepsTime (s.hostSnoop hpa held) := by
  refine State.acts_whenPowered ?_
  simp only [Act.leads_whenIt]
  intro _
  split <;> simp [hh]
theorem State.starts_time (s : State) (uid opcode : Nat) (k : Op → Act)
    (hk : ∀ o, (k o).leads (fun t => t.time = s.time)) : s.keepsTime (s.starts uid opcode k) :=
  State.acts_whenPowered (by simp [hk])
theorem State.message_time (s : State) (k : State → State) (hk : ∀ u, (k u).time = u.time) :
    s.keepsTime (s.message k) :=
  State.acts_whenHub (by simp [hk])
theorem State.runtimeMessage_time (s : State) (k : State → State) (hk : ∀ u, (k u).time = u.time) :
    s.keepsTime (s.runtimeMessage k) :=
  State.message_time s _ (by simp [hk])
theorem State.hartFence_time (s : State) (h : Nat) (w : BitVec 32) : s.keepsTime (s.hartFence h w) :=
  State.acts_whenPowered (by simp)
theorem State.builtin_time (s : State) (c idx : Nat) : s.keepsTime (s.builtin c idx) :=
  State.acts_whenPowered (by simp)
theorem State.tld_time (s : State) (c : Nat) (f : TldF) : s.keepsTime (s.tld c f) := by
  unfold State.tld
  apply State.issue_time
  intro u k l
  simp
theorem State.tst_time (s : State) (c : Nat) (f : TldF) (faults : Core → Launch → IssueFaults) :
    s.keepsTime (s.tst c f faults) := by
  unfold State.tst
  apply State.issue_time
  intro u k l
  simp
theorem State.atom_time (s : State) (c : Nat) (op : AtomOp) (f : AtomF) : s.keepsTime (s.atom c op f) := by
  unfold State.atom
  apply State.issue_time
  intro u k l
  simp
theorem State.sig_time (s : State) (c : Nat) (add : Bool) (f : SigF) : s.keepsTime (s.sig c add f) := by
  unfold State.sig
  apply State.issue_time
  intro u k l
  simp
theorem State.sclReg_time (s : State) (c : Nat) (f : SclF) (op : Word → Word → Word) : s.keepsTime (s.sclReg c f op) :=
  State.issue_time _ _ _ _ _ (by simp)
theorem State.sclCmp_time (s : State) (c : Nat) (f : SclF) (op : Word → Word → Bool) : s.keepsTime (s.sclCmp c f op) :=
  State.issue_time _ _ _ _ _ (by simp)
theorem State.sclPred_time (s : State) (c : Nat) (f : SclF) (op : Bool → Bool → Bool) : s.keepsTime (s.sclPred c f op) :=
  State.issue_time _ _ _ _ _ (by simp)
theorem State.vop_time (s : State) (c op : Nat) (f : VopF) : s.keepsTime (s.vop c op f) := by
  unfold State.vop
  apply State.issue_time
  intro u k l
  simp

theorem execWindowAccess_time (who : Agent) (pa : Nat) (n : Nat) (wr : Option (List Byte)) (s : State) :
    s.keepsTime (execWindowAccess who pa n wr s) := by
  refine State.acts_whenPowered ?_
  dsimp only
  repeat' split
  all_goals simp

theorem execWindowAtomic_time (who : Agent) (pa : Nat) (op : AtomOp) (fmt : AtomFmt) (v : BitVec 64) (cmp : BitVec 64)
    (s : State) : s.keepsTime (execWindowAtomic who pa op fmt v cmp s) :=
  State.acts_whenPowered (by simp)

theorem execScratchScrub_time (c : Nat) (row : Nat) (errs : List EccHit) (s : State) :
    s.keepsTime (execScratchScrub c row errs s) :=
  State.acts_whenPowered (by simp)

theorem execLaunchStart_time (c : Nat) (s : State) : s.keepsTime (execLaunchStart c s) := by
  refine State.acts_whenPowered ?_
  dsimp only
  split <;> simp

theorem execReadShared_time (who : Agent) (line : Nat) (e : Ecc) (s : State) : s.keepsTime (execReadShared who line e s) := by
  refine State.acts_whenPowered ?_
  simp only [Act.leads_whenIt]
  intros
  repeat' split
  all_goals simp

theorem execReadOwn_time (who : Agent) (line : Nat) (e : Ecc) (s : State) : s.keepsTime (execReadOwn who line e s) := by
  refine State.acts_whenPowered ?_
  simp only [Act.leads_whenIt]
  intros
  repeat' split
  all_goals simp

theorem execWriteThroughWrite_time (cl : Nat) (wid : Nat) (e : Ecc) (s : State) :
    s.keepsTime (execWriteThroughWrite cl wid e s) :=
  State.acts_whenPowered (by simp)

theorem execNonAllocatingWrite_time (src : NaWrite) (bytes : List Byte) (s : State) :
    s.keepsTime (execNonAllocatingWrite src bytes s) := by
  refine State.acts_whenPowered ?_
  dsimp only
  split <;> simp

theorem execFarAtomic_time (src : NaWrite) (op : AtomOp) (fmt : AtomFmt) (v : BitVec 64) (cmp : BitVec 64) (s : State) :
    s.keepsTime (execFarAtomic src op fmt v cmp s) := by
  refine State.acts_whenPowered ?_
  dsimp only
  split <;> simp

theorem execWriteback_time (who : Nat) (line : Nat) (bytes : List (Nat × Byte)) (slc : SlcErr) (s : State) :
    s.keepsTime (execWriteback who line bytes slc s) :=
  State.acts_whenPowered (by simp)

theorem execEvictionNotice_time (who : Nat) (line : Nat) (slc : SlcErr) (s : State) :
    s.keepsTime (execEvictionNotice who line slc s) :=
  State.acts_whenPowered (by simp)

theorem execOwnerForward_time (line : Nat) (hasCopy : Bool) (s : State) : s.keepsTime (execOwnerForward line hasCopy s) := by
  refine State.acts_whenPowered ?_
  split <;> simp

theorem execClusterInvalidation_time (cl line : Nat) (s : State) : s.keepsTime (execClusterInvalidation cl line s) :=
  State.acts_whenPowered (by simp)

theorem execClusterCacheRead_time (c : Nat) (tag : Nat) (parity : CcParity) (s : State) :
    s.keepsTime (execClusterCacheRead c tag parity s) := by
  refine State.acts_whenPowered ?_
  simp only [Act.leads_withSome, Act.leads_whenIt]
  intros
  repeat' split
  all_goals simp

theorem execHeldWriteAck_time (cl : Nat) (wid : Nat) (s : State) : s.keepsTime (execHeldWriteAck cl wid s) :=
  State.acts_whenPowered (by simp)

theorem execHostBisnpResponse_time (line : Nat) (bytes : List (Nat × Byte)) (s : State) :
    s.keepsTime (execHostBisnpResponse line bytes s) :=
  State.acts_whenPowered (by simp)

theorem execBisnpTimeout_time (line : Nat) (s : State) : s.keepsTime (execBisnpTimeout line s) :=
  State.acts_whenPowered (by simp)

theorem execTmma_time (c : Nat) (f : TmmaF) (s : State) : s.keepsTime (execTmma c f s) := by
  unfold execTmma
  apply State.issue_time
  intro u k l
  simp

theorem execTmmaP_time (c : Nat) (f : TmmaF) (s : State) : s.keepsTime (execTmmaP c f s) := by
  unfold execTmmaP
  apply State.issue_time
  intro u k l
  dsimp only
  split <;> simp

theorem execTmmaRetire_time (c : Nat) (eng : Nat) (x : Option TwinFault) (s : State) :
    s.keepsTime (execTmmaRetire c eng x s) := by
  refine State.acts_whenPowered ?_
  simp only [Act.leads_withSome]
  intros
  repeat' split
  all_goals simp

theorem execTstAcc_time (c : Nat) (f : TldF) (s : State) : s.keepsTime (execTstAcc c f s) := by
  unfold execTstAcc
  apply State.issue_time
  intro u k l
  simp

theorem execReadoutComplete_time (c : Nat) (eng : Nat) (x : Option TwinFault) (s : State) :
    s.keepsTime (execReadoutComplete c eng x s) := by
  refine State.acts_whenPowered ?_
  simp only [Act.leads_withSome]
  intros
  repeat' split
  all_goals simp

theorem execPromote_time (i : Nat) (s : State) : s.keepsTime (execPromote i s) :=
  State.moveCmd_time _ _ _ _ (fun _ => State.startMove_time _ _ _ _)

theorem execEvict_time (i : Nat) (s : State) : s.keepsTime (execEvict i s) :=
  State.moveCmd_time _ _ _ _ (fun _ => State.startMove_time _ _ _ _)

theorem execPin_time (i : Nat) (s : State) : s.keepsTime (execPin i s) :=
  State.moveCmd_time _ _ _ _ (fun _ => State.startMove_time _ _ _ _)

theorem execUnpin_time (i : Nat) (s : State) : s.keepsTime (execUnpin i s) := by
  apply State.moveCmd_time
  simp

theorem execSetOwner_time (i : Nat) (s : State) : s.keepsTime (execSetOwner i s) := by
  apply State.moveCmd_time
  simp

theorem execBatch_time (i : Nat) (s : State) : s.keepsTime (execBatch i s) := by
  apply State.moveCmd_time
  simp

theorem execBatchStart_time (i : Nat) (s : State) : s.keepsTime (execBatchStart i s) :=
  State.acts_whenPowered (by simp)

theorem execT0Alloc_time (i : Nat) (s : State) : s.keepsTime (execT0Alloc i s) := by
  refine State.moveCmd_time _ _ _ _ (fun c t h => State.some_seen h ?_)
  split
  · simp
  · exact State.ite_seen_eq (by simp) (State.ite_seen_eq (by simp) (by simp))

theorem execT0Free_time (i : Nat) (s : State) : s.keepsTime (execT0Free i s) := by
  refine State.moveCmd_time _ _ _ _ (fun c t h => State.some_seen h ?_)
  split
  · simp
  · exact State.ite_seen_eq (by simp) (by simp)

theorem execT3Charge_time (i : Nat) (s : State) : s.keepsTime (execT3Charge i s) := by
  apply State.moveCmd_time
  simp

theorem execMoveSwitch_time (m : MoveCopied) (s : State) : s.keepsTime (execMoveSwitch m s) :=
  State.acts_whenPowered (by simp)

theorem execMoveSwitchComplete_time (slot : Nat) (s : State) : s.keepsTime (execMoveSwitchComplete slot s) := by
  refine State.acts_whenPowered ?_
  simp only [Act.leads_withSome, Act.leads_whenIt]
  intros
  repeat' split
  all_goals simp

theorem execDramcBlockQuery_time (v : BitVec 32) (s : State) : s.keepsTime (execDramcBlockQuery v s) :=
  State.acts_whenPowered (by simp)

theorem execCmdRingTailWrite_time (v : BitVec 32) (s : State) : s.keepsTime (execCmdRingTailWrite v s) :=
  State.acts_whenPowered (by simp)

theorem execPatrolScrubVisit_time (ctl : Nat) (errs : List EccHit) (s : State) :
    s.keepsTime (execPatrolScrubVisit ctl errs s) :=
  State.acts_whenPowered (by simp)

theorem execRemapReq_time (ctl : Nat) (v : RowCopied) (s : State) : s.keepsTime (execRemapReq ctl v s) :=
  State.acts_whenPowered (by simp)

theorem execHbmTempRead_time (ctl : Nat) (temp : Nat) (s : State) : s.keepsTime (execHbmTempRead ctl temp s) :=
  State.acts_whenPowered (by simp)

theorem execMarginStart_time (ctl : Nat) (v : BitVec 32) (s : State) : s.keepsTime (execMarginStart ctl v s) :=
  State.acts_whenPowered (by simp)

theorem execMarginRunDone_time (ctl : Nat) (errors : Nat) (s : State) : s.keepsTime (execMarginRunDone ctl errors s) :=
  State.acts_whenPowered (by simp)

theorem execHbmcDirQuery_time (ctl : Nat) (v : BitVec 64) (s : State) : s.keepsTime (execHbmcDirQuery ctl v s) :=
  State.acts_whenPowered (by simp)

theorem execCreate_time (die q : Nat) (s : State) : s.keepsTime (execCreate die q s) := by
  refine State.queueCommand_time _ _ _ _ _ (by simp) ?_
  split
  all_goals
    rename_i e
    simp [State.pair_seen e (State.readQctx_time ..)]

theorem execEnable_time (die : Nat) (q : Nat) (s : State) : s.keepsTime (execEnable die q s) := by
  apply State.queueCommand_time <;> simp

theorem execDisable_time (die : Nat) (q : Nat) (s : State) : s.keepsTime (execDisable die q s) := by
  apply State.queueCommand_time <;> simp

theorem execDestroy_time (die : Nat) (q : Nat) (s : State) : s.keepsTime (execDestroy die q s) := by
  apply State.queueCommand_time <;> simp

theorem execResume_time (die q : Nat) (s : State) : s.keepsTime (execResume die q s) := by
  refine State.queueCommand_time _ _ _ _ _ (fun x => ?_) (by simp)
  have restart : (if !(s.queueOps q).isEmpty then s.qctlDone die q 4
      else match s.readQctx die q with
        | (s, none) => s.qctlDone die q 2
        | (s, some c) => (s.setQueue q { newQueue die 0 c with prefs := x.prefs }).qctlDone die q 0).time = s.time := by
    split
    · simp
    split
    all_goals
      rename_i e
      simp [State.pair_seen e (State.readQctx_time ..)]
  split
  · simp
  · split
    all_goals
      rename_i e
      simp [State.pair_seen e (State.qctxBytes_time ..)]
  · exact restart
  · exact restart
  · simp

theorem execDoorbellReread_time (die q : Nat) (host : Option Reply) (s : State) :
    s.keepsTime (execDoorbellReread die q host s) := by
  refine State.acts_whenPowered ?_
  simp only [Act.leads_withSome, Act.leads_whenIt]
  intro x _ _
  split
  · simp
  · simp only [Act.leads_withSome, Act.leads_whenIt, Act.leads_next]
    intro _ t ht
    obtain ⟨r, -, hr⟩ := Option.bind_eq_some_iff.mp ht
    exact State.hostDoorbell_time _ _ _ _ _ hr

theorem execDoorbellPeriodicRead_time (die : Nat) (host : List (Nat × Reply)) (s : State) :
    s.keepsTime (execDoorbellPeriodicRead die host s) := by
  refine State.acts_whenPowered ?_
  simp only [Act.leads_whenIt, Act.leads_next]
  intro _
  refine State.foldl_seen _ _ _ (fun u e => ?_)
  split
  · rfl
  split
  · simp
  split
  · exact State.ite_seen_eq (State.getD_seen (State.hostDoorbell_time _ _ _ _) rfl) rfl
  · rfl

theorem execDescriptorReread_time (die : Nat) (q : Nat) (host : Option Reply) (s : State) :
    s.keepsTime (execDescriptorReread die q host s) := by
  refine State.acts_whenPowered ?_
  simp only [Act.leads_withSome, Act.leads_whenIt]
  intros
  repeat' split
  all_goals simp

theorem execOperationComplete_time (uid : Nat) (act : List (Nat × Nat)) (s : State) :
    s.keepsTime (execOperationComplete uid act s) := by
  refine State.acts_whenPowered ?_
  simp only [Act.leads_withSome]
  intros
  split <;> simp

theorem execCompletionWriteFail_time (uid : Nat) (cause : WriteFail) (s : State) :
    s.keepsTime (execCompletionWriteFail uid cause s) :=
  State.acts_whenPowered (by simp)

theorem execIntrHoldoffExpiry_time (q : Nat) (s : State) : s.keepsTime (execIntrHoldoffExpiry q s) := by
  refine State.acts_whenPowered ?_
  simp only [Act.leads_withSome]
  intros
  split <;> simp

theorem execQueueTimeout_time (uid : Nat) (s : State) : s.keepsTime (execQueueTimeout uid s) :=
  State.acts_whenPowered (by simp)

theorem execCoreStopTimeout_time (c : Nat) (s : State) : s.keepsTime (execCoreStopTimeout c s) := by
  refine State.acts_whenPowered ?_
  simp only [Act.leads_withSome]
  intros
  split <;> simp

theorem execHangDetect_time (c : Nat) (s : State) : s.keepsTime (execHangDetect c s) :=
  State.acts_whenPowered (by simp)

theorem execReplayTimeout_time (die : Nat) (s : State) : s.keepsTime (execReplayTimeout die s) :=
  State.acts_whenPowered (by simp)

theorem execContextReset_time (v : BitVec 32) (s : State) : s.keepsTime (execContextReset v s) :=
  State.acts_whenHub (by simp)

theorem execRasCtxQuery_time (v : BitVec 32) (s : State) : s.keepsTime (execRasCtxQuery v s) :=
  State.acts_whenHub (by simp)

theorem execFeHinv_time (die : Nat) (v : BitVec 32) (s : State) : s.keepsTime (execFeHinv die v s) :=
  State.acts_whenPowered (by simp)

theorem execFeQquery_time (die : Nat) (v : BitVec 32) (s : State) : s.keepsTime (execFeQquery die v s) :=
  State.acts_whenPowered (by simp)

theorem execFeRecipeQuery_time (die : Nat) (v : BitVec 32) (s : State) : s.keepsTime (execFeRecipeQuery die v s) :=
  State.acts_whenPowered (by simp)

theorem execRasUnitQuery_time (v : BitVec 64) (s : State) : s.keepsTime (execRasUnitQuery v s) :=
  State.acts_whenHub (by simp)

theorem execRasProofQuery_time (v : BitVec 32) (s : State) : s.keepsTime (execRasProofQuery v s) :=
  State.acts_whenHub (by simp)

theorem execSuspect_time (path : BitVec 64) (seq : BitVec 8) (s : State) : s.keepsTime (execSuspect path seq s) :=
  State.acts_whenHub (by simp)

theorem execRelease_time (path : BitVec 64) (seq : BitVec 8) (s : State) : s.keepsTime (execRelease path seq s) :=
  State.acts_whenHub (by simp)

theorem execQuarantine_time (path : BitVec 64) (seq : BitVec 8) (s : State) : s.keepsTime (execQuarantine path seq s) :=
  State.acts_whenHub (by simp)

theorem execCoreReset_time (path : BitVec 64) (seq : BitVec 8) (s : State) : s.keepsTime (execCoreReset path seq s) :=
  State.acts_whenHub (by simp)

theorem execCoreResetExecute_time (c : Nat) (s : State) : s.keepsTime (execCoreResetExecute c s) :=
  State.acts_whenPowered (by simp)

theorem State.quarantine_time (s : State) (m : UnitCmd) (intent : Bool) :
    (match s.unitOf m.path with | some u => s.applyQuarantine u m.seq intent | none => s).time = s.time := by
  split <;> simp
theorem execQuarantineApply_time (s : State) : s.keepsTime (execQuarantineApply s) := by
  refine State.acts_whenHub ?_
  simp only [Act.leads_whenIt]
  intro _
  split
  · exact (Act.leads_next _ _).mpr ((State.quarantine_time _ _ _).trans (State.withRas_seen ..))
  · simp only [Act.leads_withSome, Act.leads_whenIt, Act.leads_next, State.cmdDone_time]
    exact fun m _ _ => (State.quarantine_time _ m true).trans (State.withRas_seen ..)

theorem execProofSubmit_time (v : BitVec 32) (s : State) : s.keepsTime (execProofSubmit v s) :=
  State.acts_whenHub (by simp)

theorem execProofRunDue_time (i : Nat) (s : State) : s.keepsTime (execProofRunDue i s) :=
  State.acts_whenPowered (by simp)

theorem execProofStart_time (i : Nat) (s : State) : s.keepsTime (execProofStart i s) :=
  State.acts_whenPowered (by simp)

theorem execProofEnd_time (i : Nat) (d : ProofDigests) (s : State) : s.keepsTime (execProofEnd i d s) := by
  refine State.acts_whenPowered ?_
  simp only [Act.leads_withSome, Act.leads_whenIt]
  intros
  split <;> simp

theorem execProofSkip_time (i : Nat) (s : State) : s.keepsTime (execProofSkip i s) :=
  State.acts_whenPowered (by simp)

theorem execRailExcess_time (x : RailAmps) (s : State) : s.keepsTime (execRailExcess x s) :=
  State.acts_whenHub (by simp)

theorem execLimiterRatioStep_time (rail amps : Nat) (s : State) : s.keepsTime (execLimiterRatioStep rail amps s) :=
  State.acts_whenPowered (by simp)

theorem execInputExcess_time (amps : Nat) (s : State) : s.keepsTime (execInputExcess amps s) := by
  refine State.acts_whenHub ?_
  split <;> simp

theorem execPointDecision_time (s : State) : s.keepsTime (execPointDecision s) :=
  State.acts_whenPowered (by simp)

theorem execVoltageSettled_time (die : Nat) (s : State) : s.keepsTime (execVoltageSettled die s) :=
  State.acts_whenPowered (by simp)

theorem execGate_time (path : BitVec 64) (wfi : Bool) (s : State) : s.keepsTime (execGate path wfi s) := by
  apply State.domainCommand_time
  simp

theorem execUngate_time (path : BitVec 64) (s : State) : s.keepsTime (execUngate path s) := by
  apply State.domainCommand_time
  simp

theorem execQuery_time (path : BitVec 64) (s : State) : s.keepsTime (execQuery path s) := by
  apply State.domainCommand_time
  simp

theorem execGatingComplete_time (path : BitVec 64) (s : State) : s.keepsTime (execGatingComplete path s) :=
  State.acts_whenPowered (by simp)

theorem execDomainWake_time (path : BitVec 64) (s : State) : s.keepsTime (execDomainWake path s) :=
  State.acts_whenPowered (by simp)

theorem execSensorRead_time (temps : List (Nat × Nat)) (s : State) : s.keepsTime (execSensorRead temps s) :=
  State.acts_whenHub (by simp)

theorem execCommitArm_time (v : BitVec 32) (s : State) : s.keepsTime (execCommitArm v s) :=
  State.acts_whenHub (by simp)

theorem execAdlFlitCrcFail_time (link : Nat) (md : Nat) (again : Bool) (s : State) :
    s.keepsTime (execAdlFlitCrcFail link md again s) :=
  State.acts_whenPowered (by simp)

theorem execAdlModuleRetrainDone_time (link : Nat) (md : Nat) (res : RetrainResult) (s : State) :
    s.keepsTime (execAdlModuleRetrainDone link md res s) := by
  refine State.acts_whenPowered ?_
  simp only [Act.leads_withSome, Act.leads_whenIt]
  intros
  split <;> simp

theorem execD2dQuery_time (v : BitVec 32) (s : State) : s.keepsTime (execD2dQuery v s) :=
  State.acts_whenHub (by simp)

theorem execLaserLow_time (oe : Nat) (s : State) : s.keepsTime (execLaserLow oe s) :=
  State.acts_whenPowered (by simp)

theorem execLaserRecover_time (oe : Nat) (s : State) : s.keepsTime (execLaserRecover oe s) :=
  State.acts_whenPowered (by simp)

theorem execRufenPortTrained_time (port : Nat) (ok : Bool) (s : State) : s.keepsTime (execRufenPortTrained port ok s) :=
  State.acts_whenPowered (by simp)

theorem execRufenReplayTimeout_time (port : Nat) (s : State) : s.keepsTime (execRufenReplayTimeout port s) :=
  State.acts_whenPowered (by simp)

theorem execRufenFlitReceive_time (port : Nat) (flit : List Byte) (sym : Nat) (crcOk : Bool) (s : State) :
    s.keepsTime (execRufenFlitReceive port flit sym crcOk s) :=
  State.acts_whenPowered (by simp)

theorem execNodeIsolate_time (node : Nat) (s : State) : s.keepsTime (execNodeIsolate node s) :=
  State.acts_whenPowered (by simp)

theorem execRemoteRequest_time (r : RemoteReq) (s : State) : s.keepsTime (execRemoteRequest r s) := by
  refine State.acts_whenPowered ?_
  simp only [Act.leads_whenIt]
  intros
  repeat' split
  all_goals simp

theorem execStepIssue_time (v : BitVec 32) (s : State) : s.keepsTime (execStepIssue v s) :=
  State.acts_whenHub (by simp)

theorem execStepReceive_time (src : Nat) (gate : BitVec 4) (line : BitVec 48) (value : BitVec 32) (s : State) :
    s.keepsTime (execStepReceive src gate line value s) :=
  State.acts_whenPowered (by simp)

theorem execStepGateWrite_time (gate : BitVec 4) (s : State) : s.keepsTime (execStepGateWrite gate s) :=
  State.acts_whenPowered (by simp)

theorem execFresetIssue_time (v : BitVec 32) (s : State) : s.keepsTime (execFresetIssue v s) :=
  State.acts_whenHub (by simp)

theorem execFresetReceive_time (line : BitVec 48) (s : State) : s.keepsTime (execFresetReceive line s) :=
  State.acts_whenPowered (by simp)

theorem execFresetAction_time (s : State) : s.keepsTime (execFresetAction s) :=
  State.acts_whenPowered (by simp)

theorem execFresetEnd_time (reach : BitVec 128) (s : State) : s.keepsTime (execFresetEnd reach s) :=
  State.acts_whenPowered (by simp)

theorem execCxlRecoveryEnter_time (s : State) : s.keepsTime (execCxlRecoveryEnter s) :=
  State.acts_whenHub (by simp)

theorem execCxlRetrainLimit_time (s : State) : s.keepsTime (execCxlRetrainLimit s) :=
  State.acts_whenHub (by simp)

theorem execCxlLinkDown_time (cause : LinkDownCause) (s : State) : s.keepsTime (execCxlLinkDown cause s) := by
  refine State.acts_whenHub ?_
  dsimp only
  split <;> simp

theorem execCxlLinkTrainingEnd_time (ok : Bool) (width : Nat) (rate : Nat) (s : State) :
    s.keepsTime (execCxlLinkTrainingEnd ok width rate s) :=
  State.acts_whenHub (by simp)

theorem execCxlSessionStart_time (s : State) : s.keepsTime (execCxlSessionStart s) :=
  State.acts_whenHub (by simp)

theorem execHdmDecoderCommit_time (base : Nat) (ways : Nat) (s : State) : s.keepsTime (execHdmDecoderCommit base ways s) :=
  State.acts_whenHub (by simp)

theorem execMemrdShared_time (dpa : Nat) (e : Ecc) (s : State) : s.keepsTime (execMemrdShared dpa e s) := by
  apply State.hostMem_time <;> simp

theorem execMemrdAny_time (dpa : Nat) (e : Ecc) (s : State) : s.keepsTime (execMemrdAny dpa e s) := by
  apply State.hostMem_time <;> simp

theorem execMemrdInvalid_time (dpa : Nat) (e : Ecc) (s : State) : s.keepsTime (execMemrdInvalid dpa e s) := by
  apply State.hostMem_time <;> simp

theorem execMeminvAny_time (dpa : Nat) (s : State) : s.keepsTime (execMeminvAny dpa s) := by
  apply State.hostMem_time <;> simp

theorem execMeminvInvalid_time (dpa : Nat) (s : State) : s.keepsTime (execMeminvInvalid dpa s) := by
  apply State.hostMem_time <;> simp

theorem execMemwrOwner_time (dpa : Nat) (bytes : List (Nat × Byte)) (w : HostWrite) (s : State) :
    s.keepsTime (execMemwrOwner dpa bytes w s) := by
  apply State.hostMem_time <;> simp

theorem execMemwrNonOwner_time (dpa : Nat) (bytes : List (Nat × Byte)) (w : HostWrite) (s : State) :
    s.keepsTime (execMemwrNonOwner dpa bytes w s) := by
  apply State.hostMem_time <;> simp

theorem execSnpinv_time (hpa : Nat) (s : State) : s.keepsTime (execSnpinv hpa s) := by
  apply State.hostSnoop_time
  simp

theorem execSnpdata_time (hpa : Nat) (s : State) : s.keepsTime (execSnpdata hpa s) := by
  apply State.hostSnoop_time
  simp

theorem execSnpcur_time (hpa : Nat) (s : State) : s.keepsTime (execSnpcur hpa s) := by
  apply State.hostSnoop_time
  simp

theorem execMsixSend_time (vec : Nat) (s : State) : s.keepsTime (execMsixSend vec s) :=
  State.acts_whenHub (by simp)

theorem execInvRingEntry_time (die : Nat) (s : State) : s.keepsTime (execInvRingEntry die s) :=
  State.acts_whenPowered (by simp)

theorem execInvalidationAck_time (inv : Nat) (atu : Nat) (s : State) : s.keepsTime (execInvalidationAck inv atu s) :=
  State.acts_whenPowered (by simp)

theorem execPdWdogExpire_time (p : Nat) (s : State) : s.keepsTime (execPdWdogExpire p s) :=
  State.acts_whenPowered (by simp)

theorem execPdWdogCountWrite_time (p : Nat) (v : BitVec 32) (s : State) : s.keepsTime (execPdWdogCountWrite p v s) :=
  State.acts_whenPowered (by simp)

theorem execPdWarmReset_time (v : BitVec 32) (s : State) : s.keepsTime (execPdWarmReset v s) :=
  State.acts_whenPowered (by simp)

theorem execWarmResetRelease_time (s : State) : s.keepsTime (execWarmResetRelease s) :=
  State.acts_whenPowered (by simp)

theorem execHartBootRelease_time (s : State) : s.keepsTime (execHartBootRelease s) :=
  State.acts_whenPowered (by simp)

theorem execRecordWriteStart_time (v : BitVec 32) (s : State) : s.keepsTime (execRecordWriteStart v s) := by
  refine State.acts_whenPowered ?_
  split
  · simp
  dsimp only
  split
  all_goals
    rename_i e
    have hu := State.pair_seen e (State.memRecord_time ..)
  · simp [hu]
  · split <;> simp [hu]

theorem execRecordWriteDone_time (verified : Bool) (s : State) : s.keepsTime (execRecordWriteDone verified s) :=
  State.acts_whenHub (by simp)

theorem execThermalTrip_time (die : Nat) (s : State) : s.keepsTime (execThermalTrip die s) :=
  State.acts_whenPowered (by simp)

theorem execDebugTokenSubmit_time (v : BitVec 64) (s : State) : s.keepsTime (execDebugTokenSubmit v s) :=
  State.acts_whenPowered (by simp)

theorem execCtlNop_time (c : Nat) (f : CtlF) (s : State) : s.keepsTime (execCtlNop c f s) := by
  unfold execCtlNop
  apply State.issue_time
  intro u k l
  simp

theorem execCtlB_time (c : Nat) (f : CtlF) (s : State) : s.keepsTime (execCtlB c f s) := by
  unfold execCtlB
  apply State.issue_time
  intro u k l
  simp

theorem execCtlLoop_time (c : Nat) (f : CtlF) (s : State) : s.keepsTime (execCtlLoop c f s) := by
  unfold execCtlLoop
  apply State.issue_time
  intro u k l
  simp

theorem execCtlCall_time (c : Nat) (f : CtlF) (s : State) : s.keepsTime (execCtlCall c f s) := by
  unfold execCtlCall
  apply State.issue_time
  intro u k l
  simp

theorem execCtlRet_time (c : Nat) (f : CtlF) (s : State) : s.keepsTime (execCtlRet c f s) := by
  unfold execCtlRet
  apply State.issue_time
  intro u k l
  simp

theorem execCtlEnd_time (c : Nat) (f : CtlF) (s : State) : s.keepsTime (execCtlEnd c f s) := by
  unfold execCtlEnd
  apply State.issue_time
  intro u k l
  simp

theorem execCtlTrap_time (c : Nat) (f : CtlF) (s : State) : s.keepsTime (execCtlTrap c f s) := by
  unfold execCtlTrap
  apply State.issue_time
  intro u k l
  simp

theorem execBar2Access_time (off : Nat) (n : Nat) (wr : Option (List Byte)) (s : State) :
    s.keepsTime (execBar2Access off n wr s) :=
  State.acts_whenPowered (by simp)

theorem execGath_time (c : Nat) (f : GathF) (s : State) : s.keepsTime (execGath c f s) := by
  unfold execGath
  apply State.issue_time
  intro u k l
  simp

theorem execWaitv_time (c : Nat) (f : WaitvF) (s : State) : s.keepsTime (execWaitv c f s) := by
  unfold execWaitv
  apply State.issue_time
  intro u k l
  simp

theorem execWaitvDeadlineExpiry_time (c : Nat) (s : State) : s.keepsTime (execWaitvDeadlineExpiry c s) := by
  refine State.acts_whenPowered ?_
  dsimp only
  repeat' split
  all_goals simp

theorem execSyncFence_time (c : Nat) (f : SyncF) (s : State) : s.keepsTime (execSyncFence c f s) := by
  unfold execSyncFence
  apply State.issue_time
  intro u k l
  simp

theorem execSyncBar_time (c : Nat) (f : SyncF) (s : State) : s.keepsTime (execSyncBar c f s) := by
  unfold execSyncBar
  apply State.issue_time
  intro u k l
  simp

theorem execWalkComplete_time (c : Nat) (s : State) : s.keepsTime (execWalkComplete c s) := by
  refine State.acts_whenPowered ?_
  simp only [Act.leads_withSome]
  intro l _
  split
  · simp
  · simp only [Act.leads_withSome]
    intro j _
    split <;> simp
  · simp

theorem execStreamDeadlineExpiry_time (c : Nat) (id : Nat) (s : State) : s.keepsTime (execStreamDeadlineExpiry c id s) := by
  refine State.acts_whenPowered ?_
  simp only [Act.leads_withSome]
  intros
  split <;> simp

theorem execLaunch_time (uid : Nat) (s : State) : s.keepsTime (execLaunch uid s) := by
  refine State.starts_time _ _ _ _ (fun o => ?_)
  generalize (if bitOf o.flags 1 then descInline o.desc else []) = inl
  extract_lets cores
  split
  · simp
  split
  all_goals
    rename_i e
    simp [State.pair_seen e (State.placeLaunch_time ..)]

theorem execLaunchRecipe_time (uid : Nat) (s : State) : s.keepsTime (execLaunchRecipe uid s) := by
  refine State.starts_time _ _ _ _ (fun o => ?_)
  simp

theorem execRecipeNodeStart_time (uid node : Nat) (s : State) : s.keepsTime (execRecipeNodeStart uid node s) := by
  refine State.acts_whenPowered ?_
  simp only [Act.leads_withSome, Act.leads_whenIt, Act.leads_next, State.causing_time]
  intro o _ body _ _
  split
  all_goals
    rename_i e
    have hu := State.pair_seen e (State.nodeBlock_time ..)
  · simp [hu]
  split
  all_goals
    rename_i e
    have hv := (State.pair_seen e (State.placeLaunch_time ..)).trans hu
    simp [hv]

theorem execInstall_time (uid : Nat) (s : State) : s.keepsTime (execInstall uid s) := by
  refine State.starts_time _ _ _ _ (fun o => ?_)
  simp

theorem execRemove_time (uid : Nat) (s : State) : s.keepsTime (execRemove uid s) := by
  refine State.starts_time _ _ _ _ (fun o => ?_)
  simp

theorem execWait_time (uid : Nat) (dev : Option Reply) (s : State) : s.keepsTime (execWait uid dev s) := by
  refine State.starts_time _ _ _ _ (fun o => ?_)
  simp

theorem execWaitReread_time (uid : Nat) (dev : Option Reply) (s : State) : s.keepsTime (execWaitReread uid dev s) := by
  refine State.acts_whenPowered ?_
  simp only [Act.leads_withSome, Act.leads_whenIt]
  intro o _ _
  split
  · simpa using State.waitBack_time s o _ _ dev
  · simp

theorem execPhase_time (uid : Nat) (s : State) : s.keepsTime (execPhase uid s) := by
  refine State.starts_time _ _ _ _ (fun o => ?_)
  simp

theorem execFence_time (uid : Nat) (s : State) : s.keepsTime (execFence uid s) := by
  refine State.starts_time _ _ _ _ (fun o => ?_)
  simp

theorem execInvalidateRange_time (uid : Nat) (s : State) : s.keepsTime (execInvalidateRange uid s) := by
  refine State.starts_time _ _ _ _ (fun o => ?_)
  simp only [Act.leads_whenIt]
  intro _
  split
  all_goals
    rename_i e
    simp [State.pair_seen e (State.feCtx_time ..)]

theorem execPeelHint_time (uid : Nat) (s : State) : s.keepsTime (execPeelHint uid s) := by
  refine State.starts_time _ _ _ _ (fun o => ?_)
  split
  all_goals
    rename_i e
    simp [State.pair_seen e (State.feCtx_time ..)]

theorem execNop_time (uid : Nat) (s : State) : s.keepsTime (execNop uid s) := by
  refine State.starts_time _ _ _ _ (fun o => ?_)
  simp

theorem execDescriptorAccept_time (die : Nat) (s : State) : s.keepsTime (execDescriptorAccept die s) :=
  State.acts_whenPowered (by simp)

theorem execDispatchShare_time (die : Nat) (s : State) : s.keepsTime (execDispatchShare die s) := by
  refine State.acts_whenPowered ?_
  simp only [Act.leads_whenIt]
  intro _
  split
  · simp
  split
  · simp
  split
  all_goals
    rename_i e
    have hu := State.pair_seen e (State.feCtx_time ..)
    simp [hu]

theorem execDispatchPacketWrite_time (die : Nat) (core : Nat) (s : State) :
    s.keepsTime (execDispatchPacketWrite die core s) :=
  State.acts_whenPowered (by simp)

theorem execStreamDataArrival_time (c tag : Nat) (r : Option Reply) (s : State) :
    s.keepsTime (execStreamDataArrival c tag r s) := by
  refine State.acts_whenPowered ?_
  simp only [Act.leads_withSome]
  intro t _
  split
  · simp
  simp only [Act.leads_withSome]
  intro t _
  split
  · simp
  split
  · simp
  simp only [Act.leads_withSome, Act.leads_next, State.after_time, State.freeRead_time, State.land_time]
  exact fun x hx => (State.arriving_time _ _ _ _ _ hx).trans (State.deadlineFirst_time ..)

theorem execDeviceReadTimeout_time (c : Nat) (tag : Nat) (s : State) : s.keepsTime (execDeviceReadTimeout c tag s) :=
  State.acts_whenPowered (by simp)

theorem execDeviceWriteTimeout_time (c tag : Nat) (s : State) : s.keepsTime (execDeviceWriteTimeout c tag s) := by
  refine State.acts_whenPowered ?_
  split
  · simp
  · simp only [Act.leads_withSome, Act.leads_whenIt, Act.leads_next]
    intro w _ _
    refine (State.after_time ..).trans ((State.freeWrite_time ..).trans ((State.draw_seen _).trans ?_))
    refine (State.modCore_seen ..).trans ((State.setReg_seen ..).trans ((State.bump_seen ..).trans ?_))
    exact State.timeoutRecord_time ..

theorem execWaitvReread_time (c : Nat) (dev : Option Reply) (s : State) : s.keepsTime (execWaitvReread c dev s) := by
  refine State.acts_whenPowered ?_
  simp only [Act.leads_withSome]
  intro l _
  split
  · split
    · simp
    · split <;> simp
  · simp

theorem execNonAllocatingRead_time (src : NaSrc) (e : Ecc) (s : State) : s.keepsTime (execNonAllocatingRead src e s) := by
  refine State.acts_whenPowered ?_
  dsimp only
  repeat' split
  all_goals simp

theorem execHartAmo_time (h pa : Nat) (op : HartAtomic) (wide : Bool) (v : BitVec 64) (pbmt : Pbmt) (s : State) :
    s.keepsTime (execHartAmo h pa op wide v pbmt s) := by
  have trap (k : Hart) (n : Nat) : (k.trapTurn (s.hartTrap h n none)).leads (fun t => t.time = s.time) := by
    simp [Hart.trapTurn]
  refine State.acts_whenPowered ?_
  generalize (if wide then 8 else 4) = n
  simp only [Act.leads_whenIt]
  intro _
  split
  · exact trap _ _
  split
  · exact trap _ _
  split
  · exact trap _ _
  simp only [Act.leads_whenIt]
  intro _
  split
  · simp
  · split <;> simp

theorem execProcessorDeviceTimeout_time (h : Nat) (id : Nat) (s : State) : s.keepsTime (execProcessorDeviceTimeout h id s) :=
  State.acts_whenPowered (by simp)

theorem execModuleFrameSend_time (s : State) : s.keepsTime (execModuleFrameSend s) :=
  State.acts_whenHub (by simp)

theorem execManagementChunk_time (bytes : List Byte) (s : State) : s.keepsTime (execManagementChunk bytes s) := by
  refine State.acts_whenHub ?_
  simp only [Act.leads_whenIt]
  intros
  repeat' split
  all_goals simp

theorem execMctpControl_time (body : List Byte) (s : State) : s.keepsTime (execMctpControl body s) := by
  refine State.message_time _ _ (fun u => ?_)
  simp

theorem execPldmType0_time (_body : List Byte) (s : State) : s.keepsTime (execPldmType0 _body s) := by
  refine State.message_time _ _ (fun u => ?_)
  simp

theorem execPldmType2_time (sensor : Nat) (s : State) : s.keepsTime (execPldmType2 sensor s) := by
  refine State.runtimeMessage_time _ _ (fun u => ?_)
  simp

theorem execPldmType5_time (region : Nat) (image : FlashRec) (s : State) : s.keepsTime (execPldmType5 region image s) := by
  refine State.message_time _ _ (fun u => ?_)
  simp

theorem execGetVersion_time (_body : List Byte) (s : State) : s.keepsTime (execGetVersion _body s) := by
  refine State.message_time _ _ (fun u => ?_)
  simp

theorem execGetCapabilities_time (_body : List Byte) (s : State) : s.keepsTime (execGetCapabilities _body s) := by
  refine State.message_time _ _ (fun u => ?_)
  simp

theorem execNegotiateAlgorithms_time (_body : List Byte) (s : State) : s.keepsTime (execNegotiateAlgorithms _body s) := by
  refine State.message_time _ _ (fun u => ?_)
  simp

theorem execGetDigests_time (_body : List Byte) (s : State) : s.keepsTime (execGetDigests _body s) := by
  refine State.message_time _ _ (fun u => ?_)
  simp

theorem execGetCertificate_time (_body : List Byte) (s : State) : s.keepsTime (execGetCertificate _body s) := by
  refine State.message_time _ _ (fun u => ?_)
  simp

theorem execChallenge_time (body : List Byte) (s : State) : s.keepsTime (execChallenge body s) := by
  refine State.message_time _ _ (fun u => ?_)
  simp

theorem execGetMeasurements_time (index : Nat) (s : State) : s.keepsTime (execGetMeasurements index s) := by
  refine State.message_time _ _ (fun u => ?_)
  simp

theorem execUnitQuery_time (path : BitVec 64) (s : State) : s.keepsTime (execUnitQuery path s) := by
  refine State.runtimeMessage_time _ _ (fun u => ?_)
  simp

theorem execUnitCmd_time (path : BitVec 64) (op : BitVec 3) (s : State) : s.keepsTime (execUnitCmd path op s) := by
  refine State.runtimeMessage_time _ _ (fun u => ?_)
  simp

theorem execServiceClear_time (paths : List (BitVec 64)) (s : State) : s.keepsTime (execServiceClear paths s) := by
  refine State.runtimeMessage_time _ _ (fun u => ?_)
  simp

theorem execDebugToken_time (body : List Byte) (s : State) : s.keepsTime (execDebugToken body s) := by
  refine State.runtimeMessage_time _ _ (fun u => ?_)
  simp

theorem execScanSelect_time (path : BitVec 64) (s : State) : s.keepsTime (execScanSelect path s) := by
  refine State.runtimeMessage_time _ _ (fun u => ?_)
  simp

theorem execLogRead_time (index : Nat) (s : State) : s.keepsTime (execLogRead index s) := by
  refine State.runtimeMessage_time _ _ (fun u => ?_)
  simp

theorem execScanInPacket_time (bits : Nat) (_data : List Byte) (crcOk : Bool) (s : State) :
    s.keepsTime (execScanInPacket bits _data crcOk s) :=
  State.acts_whenHub (by simp)

theorem execSclLds_time (c : Nat) (f : SclF) (s : State) : s.keepsTime (execSclLds c f s) := by
  unfold execSclLds
  apply State.issue_time
  intro u k l
  simp

theorem execSclSts_time (c : Nat) (f : SclF) (s : State) : s.keepsTime (execSclSts c f s) := by
  unfold execSclSts
  apply State.issue_time
  intro u k l
  simp

theorem execSclTdset_time (c : Nat) (f : SclF) (s : State) : s.keepsTime (execSclTdset c f s) := by
  unfold execSclTdset
  apply State.issue_time
  intro u k l
  simp

theorem execSclTdget0_time (c : Nat) (f : SclF) (s : State) : s.keepsTime (execSclTdget0 c f s) := by
  unfold execSclTdget0
  apply State.issue_time
  intro u k l
  simp

theorem execSclTdget1_time (c : Nat) (f : SclF) (s : State) : s.keepsTime (execSclTdget1 c f s) := by
  unfold execSclTdget1
  apply State.issue_time
  intro u k l
  simp

theorem execSclTdadj_time (c : Nat) (f : SclF) (s : State) : s.keepsTime (execSclTdadj c f s) := by
  unfold execSclTdadj
  apply State.issue_time
  intro u k l
  simp

theorem execSclRdsr_time (c : Nat) (f : SclF) (s : State) : s.keepsTime (execSclRdsr c f s) := by
  unfold execSclRdsr
  apply State.issue_time
  intro u k l
  simp

theorem execVopFinish_time (c : Nat) (s : State) : s.keepsTime (execVopFinish c s) := by
  refine State.acts_whenPowered ?_
  simp only [Act.leads_withSome]
  intros
  repeat' split
  all_goals simp

theorem execVopSeed_time (c : Nat) (f : VopF) (s : State) : s.keepsTime (execVopSeed c f s) := by
  unfold execVopSeed
  apply State.issue_time
  intro u k l
  simp

/-! Each command of a family does what the family does. -/

theorem execHartFence_time (h : Nat) (w : BitVec 32) (s : State) : s.keepsTime (execHartFence h w s) :=
  State.hartFence_time _ _ _

theorem execNwFenceCx_time (h : Nat) (w : BitVec 32) (s : State) : s.keepsTime (execNwFenceCx h w s) :=
  State.hartFence_time _ _ _

theorem execNwFenceRg_time (h : Nat) (w : BitVec 32) (s : State) : s.keepsTime (execNwFenceRg h w s) :=
  State.hartFence_time _ _ _

theorem execTld_time (c : Nat) (f : TldF) (s : State) : s.keepsTime (execTld c f s) := State.tld_time _ _ _

theorem execTldSc_time (c : Nat) (f : TldF) (s : State) : s.keepsTime (execTldSc c f s) := State.tld_time _ _ _

theorem execTst_time (c : Nat) (f : TldF) (s : State) : s.keepsTime (execTst c f s) := State.tst_time _ _ _ _

theorem execTstSc_time (c : Nat) (f : TldF) (s : State) : s.keepsTime (execTstSc c f s) := State.tst_time _ _ _ _

theorem execTstAdd_time (c : Nat) (f : TldF) (s : State) : s.keepsTime (execTstAdd c f s) := by
  unfold execTstAdd
  apply State.tst_time

theorem execAtomAdd_time (c : Nat) (f : AtomF) (s : State) : s.keepsTime (execAtomAdd c f s) := State.atom_time _ _ _ _

theorem execAtomMin_time (c : Nat) (f : AtomF) (s : State) : s.keepsTime (execAtomMin c f s) := State.atom_time _ _ _ _

theorem execAtomMax_time (c : Nat) (f : AtomF) (s : State) : s.keepsTime (execAtomMax c f s) := State.atom_time _ _ _ _

theorem execAtomSwap_time (c : Nat) (f : AtomF) (s : State) : s.keepsTime (execAtomSwap c f s) := State.atom_time _ _ _ _

theorem execAtomCompareSwap_time (c : Nat) (f : AtomF) (s : State) : s.keepsTime (execAtomCompareSwap c f s) :=
  State.atom_time _ _ _ _

theorem execSigWrite_time (c : Nat) (f : SigF) (s : State) : s.keepsTime (execSigWrite c f s) := State.sig_time _ _ _ _

theorem execSigAdd_time (c : Nat) (f : SigF) (s : State) : s.keepsTime (execSigAdd c f s) := State.sig_time _ _ _ _

theorem execCopy_time (c : Nat) (s : State) : s.keepsTime (execCopy c s) := State.builtin_time _ _ _

theorem execFill_time (c : Nat) (s : State) : s.keepsTime (execFill c s) := State.builtin_time _ _ _

theorem execCopy2d_time (c : Nat) (s : State) : s.keepsTime (execCopy2d c s) := State.builtin_time _ _ _

theorem execSclAdd_time (c : Nat) (f : SclF) (s : State) : s.keepsTime (execSclAdd c f s) := State.sclReg_time _ _ _ _

theorem execSclSub_time (c : Nat) (f : SclF) (s : State) : s.keepsTime (execSclSub c f s) := State.sclReg_time _ _ _ _

theorem execSclMul_time (c : Nat) (f : SclF) (s : State) : s.keepsTime (execSclMul c f s) := State.sclReg_time _ _ _ _

theorem execSclAnd_time (c : Nat) (f : SclF) (s : State) : s.keepsTime (execSclAnd c f s) := State.sclReg_time _ _ _ _

theorem execSclOr_time (c : Nat) (f : SclF) (s : State) : s.keepsTime (execSclOr c f s) := State.sclReg_time _ _ _ _

theorem execSclXor_time (c : Nat) (f : SclF) (s : State) : s.keepsTime (execSclXor c f s) := State.sclReg_time _ _ _ _

theorem execSclShl_time (c : Nat) (f : SclF) (s : State) : s.keepsTime (execSclShl c f s) := State.sclReg_time _ _ _ _

theorem execSclShr_time (c : Nat) (f : SclF) (s : State) : s.keepsTime (execSclShr c f s) := State.sclReg_time _ _ _ _

theorem execSclSar_time (c : Nat) (f : SclF) (s : State) : s.keepsTime (execSclSar c f s) := State.sclReg_time _ _ _ _

theorem execSclMin_time (c : Nat) (f : SclF) (s : State) : s.keepsTime (execSclMin c f s) := State.sclReg_time _ _ _ _

theorem execSclMax_time (c : Nat) (f : SclF) (s : State) : s.keepsTime (execSclMax c f s) := State.sclReg_time _ _ _ _

theorem execSclMinu_time (c : Nat) (f : SclF) (s : State) : s.keepsTime (execSclMinu c f s) := State.sclReg_time _ _ _ _

theorem execSclMaxu_time (c : Nat) (f : SclF) (s : State) : s.keepsTime (execSclMaxu c f s) := State.sclReg_time _ _ _ _

theorem execSclCmpeq_time (c : Nat) (f : SclF) (s : State) : s.keepsTime (execSclCmpeq c f s) := State.sclCmp_time _ _ _ _

theorem execSclCmpne_time (c : Nat) (f : SclF) (s : State) : s.keepsTime (execSclCmpne c f s) := State.sclCmp_time _ _ _ _

theorem execSclCmplt_time (c : Nat) (f : SclF) (s : State) : s.keepsTime (execSclCmplt c f s) := State.sclCmp_time _ _ _ _

theorem execSclCmpltu_time (c : Nat) (f : SclF) (s : State) : s.keepsTime (execSclCmpltu c f s) := State.sclCmp_time _ _ _ _

theorem execSclCmpge_time (c : Nat) (f : SclF) (s : State) : s.keepsTime (execSclCmpge c f s) := State.sclCmp_time _ _ _ _

theorem execSclCmpgeu_time (c : Nat) (f : SclF) (s : State) : s.keepsTime (execSclCmpgeu c f s) := State.sclCmp_time _ _ _ _

theorem execSclPand_time (c : Nat) (f : SclF) (s : State) : s.keepsTime (execSclPand c f s) := State.sclPred_time _ _ _ _

theorem execSclPor_time (c : Nat) (f : SclF) (s : State) : s.keepsTime (execSclPor c f s) := State.sclPred_time _ _ _ _

theorem execSclPxor_time (c : Nat) (f : SclF) (s : State) : s.keepsTime (execSclPxor c f s) := State.sclPred_time _ _ _ _

theorem execSclPandn_time (c : Nat) (f : SclF) (s : State) : s.keepsTime (execSclPandn c f s) := State.sclPred_time _ _ _ _

theorem execVopAdd_time (c : Nat) (f : VopF) (s : State) : s.keepsTime (execVopAdd c f s) := State.vop_time _ _ _ _

theorem execVopSub_time (c : Nat) (f : VopF) (s : State) : s.keepsTime (execVopSub c f s) := State.vop_time _ _ _ _

theorem execVopMul_time (c : Nat) (f : VopF) (s : State) : s.keepsTime (execVopMul c f s) := State.vop_time _ _ _ _

theorem execVopFma_time (c : Nat) (f : VopF) (s : State) : s.keepsTime (execVopFma c f s) := State.vop_time _ _ _ _

theorem execVopMin_time (c : Nat) (f : VopF) (s : State) : s.keepsTime (execVopMin c f s) := State.vop_time _ _ _ _

theorem execVopMax_time (c : Nat) (f : VopF) (s : State) : s.keepsTime (execVopMax c f s) := State.vop_time _ _ _ _

theorem execVopCmplt_time (c : Nat) (f : VopF) (s : State) : s.keepsTime (execVopCmplt c f s) := State.vop_time _ _ _ _

theorem execVopCmple_time (c : Nat) (f : VopF) (s : State) : s.keepsTime (execVopCmple c f s) := State.vop_time _ _ _ _

theorem execVopCmpeq_time (c : Nat) (f : VopF) (s : State) : s.keepsTime (execVopCmpeq c f s) := State.vop_time _ _ _ _

theorem execVopSel_time (c : Nat) (f : VopF) (s : State) : s.keepsTime (execVopSel c f s) := State.vop_time _ _ _ _

theorem execVopSqrt_time (c : Nat) (f : VopF) (s : State) : s.keepsTime (execVopSqrt c f s) := State.vop_time _ _ _ _

theorem execVopRcp_time (c : Nat) (f : VopF) (s : State) : s.keepsTime (execVopRcp c f s) := State.vop_time _ _ _ _

theorem execVopRsq_time (c : Nat) (f : VopF) (s : State) : s.keepsTime (execVopRsq c f s) := State.vop_time _ _ _ _

theorem execVopExp_time (c : Nat) (f : VopF) (s : State) : s.keepsTime (execVopExp c f s) := State.vop_time _ _ _ _

theorem execVopExp2_time (c : Nat) (f : VopF) (s : State) : s.keepsTime (execVopExp2 c f s) := State.vop_time _ _ _ _

theorem execVopLog_time (c : Nat) (f : VopF) (s : State) : s.keepsTime (execVopLog c f s) := State.vop_time _ _ _ _

theorem execVopLog2_time (c : Nat) (f : VopF) (s : State) : s.keepsTime (execVopLog2 c f s) := State.vop_time _ _ _ _

theorem execVopRsum_time (c : Nat) (f : VopF) (s : State) : s.keepsTime (execVopRsum c f s) := State.vop_time _ _ _ _

theorem execVopRmax_time (c : Nat) (f : VopF) (s : State) : s.keepsTime (execVopRmax c f s) := State.vop_time _ _ _ _

theorem execVopIadd_time (c : Nat) (f : VopF) (s : State) : s.keepsTime (execVopIadd c f s) := State.vop_time _ _ _ _

theorem execVopIsub_time (c : Nat) (f : VopF) (s : State) : s.keepsTime (execVopIsub c f s) := State.vop_time _ _ _ _

theorem execVopImin_time (c : Nat) (f : VopF) (s : State) : s.keepsTime (execVopImin c f s) := State.vop_time _ _ _ _

theorem execVopImax_time (c : Nat) (f : VopF) (s : State) : s.keepsTime (execVopImax c f s) := State.vop_time _ _ _ _

theorem execVopShl_time (c : Nat) (f : VopF) (s : State) : s.keepsTime (execVopShl c f s) := State.vop_time _ _ _ _

theorem execVopShr_time (c : Nat) (f : VopF) (s : State) : s.keepsTime (execVopShr c f s) := State.vop_time _ _ _ _

theorem execVopSar_time (c : Nat) (f : VopF) (s : State) : s.keepsTime (execVopSar c f s) := State.vop_time _ _ _ _

theorem execVopCvt_time (c : Nat) (f : VopF) (s : State) : s.keepsTime (execVopCvt c f s) := State.vop_time _ _ _ _

theorem execVopCopy_time (c : Nat) (f : VopF) (s : State) : s.keepsTime (execVopCopy c f s) := State.vop_time _ _ _ _

end Sys2Proof.Machine

end

section

/-!
### Ruled time under the tracker, the resets and register writes

What these do to ruled time leaves it within its fields (R17, R20, R21): `<function>_fields`.
-/

namespace Sys2Proof.Machine

/-! ### The tracker: what keeps ruled time within its fields -/

theorem State.ruling_eq_time (s : State) : s.ruling = s.time := rfl

@[simp] theorem State.rule_withRuling_time (s : State) (r : State → Ruling) :
    (s.rule (fun u => u.withRuling (r u))).time = r s := by simp [State.rule_time]

/-- A change of the tracker that is not one of ruled time: the line, the stroke and the tick stay. -/
def Ruling.sameTime (a b : Ruling) : Prop := a.line = b.line ∧ a.stroke = b.stroke ∧ a.tick = b.tick

theorem Ruling.sameTime.inFields {a b : Ruling} (h : a.sameTime b) (hb : b.inFields = true) : a.inFields = true := by
  obtain ⟨hl, hs, ht⟩ := h
  rw [Ruling.inFields, hl, hs, ht]
  exact hb

theorem Ruling.sameTime.refl {a : Ruling} : a.sameTime a := ⟨rfl, rfl, rfl⟩

theorem Ruling.sameTime.trans {a b c : Ruling} (h : a.sameTime b) (k : b.sameTime c) : a.sameTime c :=
  ⟨h.1.trans k.1, h.2.1.trans k.2.1, h.2.2.trans k.2.2⟩

theorem State.ite_sameTime {p : Prop} [Decidable p] {a b : State} {q : Ruling} (ha : a.time.sameTime q)
    (hb : b.time.sameTime q) : (if p then a else b).time.sameTime q := by split <;> assumption

theorem State.enterLost_sameTime (s : State) : s.enterLost.time.sameTime s.time := by
  simp [State.enterLost, State.rule_time, Ruling.sameTime, State.ruling_eq_time]

theorem State.tryLock_sameTime (s : State) : s.tryLock.time.sameTime s.time := by
  simp only [State.tryLock]
  split
  · split
    · simp [Ruling.sameTime, State.ruling_eq_time]
    · exact .refl
  · exact .refl

theorem State.acceptMark_sameTime (s : State) (t p measured : Nat) : (s.acceptMark t p measured).time.sameTime s.time := by
  simp only [State.acceptMark]
  refine (State.tryLock_sameTime _).trans ?_
  simp [Ruling.sameTime, State.ruling_eq_time]

theorem State.missLine_sameTime (s : State) : s.missLine.time.sameTime s.time := by
  simp only [State.missLine]
  split
  · exact .refl
  split
  · simp [Ruling.sameTime]
  split
  · simp [Ruling.sameTime, State.ruling_eq_time]
  · split
    · exact (State.enterLost_sameTime _).trans (by simp [Ruling.sameTime])
    · simp [Ruling.sameTime, State.ruling_eq_time]
  · split
    · exact (State.enterLost_sameTime _).trans (by simp [Ruling.sameTime])
    · simp [Ruling.sameTime, State.ruling_eq_time]
  · split <;> simp [Ruling.sameTime, State.ruling_eq_time]

theorem State.markLine_sameTime (s : State) : s.markLine.time.sameTime s.time := by
  simp only [State.markLine]
  split
  · simp [Ruling.sameTime, State.ruling_eq_time]
  · exact Ruling.sameTime.trans (by simp [Ruling.sameTime, State.ruling_eq_time]) (State.missLine_sameTime s)

theorem State.realign_sameTime (s : State) (n : Nat) : (s.realign n).time.sameTime s.time := by
  simp only [State.realign]
  repeat' split
  all_goals simp [State.rule_time, Ruling.sameTime, State.ruling_eq_time]

theorem State.slewSkipped_sameTime (s : State) : s.slewSkipped.time.sameTime s.time := by
  simp [State.slewSkipped, Ruling.sameTime, State.ruling_eq_time]

theorem State.frameLine_sameTime (s : State) (n : Nat) (full : Bool) : (s.frameLine n full).time.sameTime s.time := by
  simp only [State.frameLine]
  split
  · exact State.ite_sameTime .refl (by simp [State.rule_time, Ruling.sameTime])
  · split
    · exact (State.tryLock_sameTime _).trans (by simp [Ruling.sameTime, State.ruling_eq_time])
    · exact .refl
  · split
    · exact State.realign_sameTime s n
    · exact .refl
  · exact .refl

theorem Ruling.init_inFields : Ruling.init.inFields = true := rfl

theorem State.advanceLine_inFields (s : State) : s.advanceLine.time.inFields = true := by
  have h : (s.ruling.line + s.lineStep) % 2 ^ 48 < 2 ^ 48 := Nat.mod_lt _ (by decide)
  simp only [State.advanceLine]
  split <;> simpa [State.rule_time, Ruling.inFields] using h

theorem State.bootPitch_inFields (s : State) (c : FlashRec) (h : s.time.inFields = true) :
    (s.bootPitch c).time.inFields = true := by
  simp only [State.bootPitch]
  split
  · exact h
  · split
    · simpa using h
    · simp [Ruling.inFields, Ruling.init]

theorem State.bootSample_inFields (s : State) (straps : BitVec 8) : (s.bootSample straps).time.inFields = true := by
  simp only [State.bootSample]
  split <;> simp [Ruling.inFields, Ruling.init]

theorem State.moduleReset_inFields (s : State) (cold : Bool) : (s.moduleReset cold).time.inFields = true := by
  have hr : State.reset.time.inFields = true := rfl
  simp only [State.moduleReset]
  split <;> simpa using hr

/-! ### The tracker's commands -/

/-- Where ruled time lay within its fields before the command, it does so after it. -/
abbrev State.keepsFields (s : State) (o : Out) : Prop :=
  s.acts (fun t => s.time.inFields = true → t.time.inFields = true) o

theorem State.keepsTime.keepsFields {s : State} {o : Out} (h : s.keepsTime o) : s.keepsFields o :=
  State.acts_mono h (fun _ ht hs => by rwa [ht])

theorem State.acts_sameTime {s : State} {o : Out} (h : s.acts (fun t => t.time.sameTime s.time) o) : s.keepsFields o :=
  State.acts_mono h (fun _ ht hs => ht.inFields hs)

theorem execMarkEdge_fields (t : Nat) (s : State) : s.keepsFields (execMarkEdge t s) := by
  refine State.acts_sameTime (State.acts_whenHub ?_)
  dsimp only
  split
  · simp [Ruling.sameTime]
  split
  · refine (Act.leads_ite _ _ _ _).mpr ?_
    split
    · rw [Act.leads_ite, Act.leads_next, Act.leads_next]
      split
      · simp [Ruling.sameTime, State.ruling_eq_time]
      · exact State.acceptMark_sameTime ..
    · simp [Ruling.sameTime]
  · split
    · rw [Act.leads_ite, Act.leads_next, Act.leads_next]
      split
      · exact (State.acceptMark_sameTime ..).trans (by simp [Ruling.sameTime, State.ruling_eq_time])
      · simp [Ruling.sameTime, State.ruling_eq_time]
    · simp [Ruling.sameTime, State.ruling_eq_time]

theorem execBootPlateTimeout_fields (s : State) : s.keepsFields (execBootPlateTimeout s) :=
  State.acts_sameTime (State.acts_whenHub (by simpa using fun _ _ => State.enterLost_sameTime s))

theorem execRackFrame_fields (bytes : List Byte) (s : State) : s.keepsFields (execRackFrame bytes s) := by
  refine State.acts_sameTime (State.acts_whenHub ?_)
  simp only [Act.leads_whenIt, Act.leads_ite, Act.leads_next, State.withHatch_seen, State.withPower_time]
  intro _
  split
  · exact .refl
  split
  · simp [Ruling.sameTime]
  split
  · exact State.frameLine_sameTime ..
  · exact .refl

theorem execHatchClockLoss_fields (s : State) : s.keepsFields (execHatchClockLoss s) := by
  refine State.acts_sameTime (State.acts_whenHub ?_)
  simp only [Act.leads_whenIt, Act.leads_next, State.ite_seen, State.withPower_time, ite_self, State.rule_time,
    State.ruleFlag_time, State.withRuling_time]
  exact fun _ => ⟨rfl, rfl, rfl⟩

theorem execHatchClockReturn_fields (s : State) : s.keepsFields (execHatchClockReturn s) := by
  refine State.acts_sameTime (State.acts_whenHub ?_)
  simp [Ruling.sameTime, State.ruling_eq_time]

theorem execPitchWrite_fields (v : BitVec 32) (s : State) : s.keepsFields (execPitchWrite v s) := by
  refine State.acts_whenHub ?_
  have hi : ∀ (m : Nat) (b c : Bool),
      ({ Ruling.init with measured := m, rejected := b, ckLost := c } : Ruling).inFields = true := fun _ _ _ => rfl
  simp only [Act.leads_ite, Act.leads_next]
  split
  · exact id
  split
  · exact (Ruling.sameTime.inFields (by simp [Ruling.sameTime, State.ruling_eq_time]) ·)
  split
  · simp
  · simp [hi]

theorem execLineBoundary_fields (m : LineMeas) (s : State) : s.keepsFields (execLineBoundary m s) := by
  refine State.acts_whenHub ?_
  simp only [Act.leads_ite, Act.leads_next, State.linksLine_time, State.ite_seen, State.plateLine_time, State.ageLine_time,
    State.ageHub_time, State.powerLine_time, State.closeLine_time, State.commitLine_time, ite_self]
  split
  · refine ((State.slewSkipped_sameTime _).trans ((State.markLine_sameTime _).trans ?_)).inFields
    simp [Ruling.sameTime]
  · have hm : ∀ u : State, u.advanceLine.markLine.time.inFields = true := fun u =>
      (State.markLine_sameTime _).inFields (State.advanceLine_inFields u)
    exact fun _ => Ruling.sameTime.inFields (by simp [Ruling.sameTime, State.ruling_eq_time])
      (hm s.sendChunks.hatchLine.passTime.settleCeiling)

theorem execModuleWarmReset_fields (us : Nat) (s : State) : s.keepsFields (execModuleWarmReset us s) := by
  refine State.acts_whenHub ?_
  split
  · simp
  · simpa using fun _ => State.moduleReset_inFields s _

theorem execInputUndervoltage_fields (s : State) : s.keepsFields (execInputUndervoltage s) :=
  State.acts_whenHub (by simpa using fun _ => State.moduleReset_inFields s _)

theorem execModuleColdReset_fields (s : State) : s.keepsFields (execModuleColdReset .resetPin s) :=
  State.acts_whenHub (by simpa using fun _ => State.moduleReset_inFields s _)

theorem execResetRelease_fields (env : BootEnv) (s : State) : s.keepsFields (execResetRelease env s) := by
  refine State.acts_whenHub ?_
  simp only [Act.leads_whenIt]
  intro _
  have hb : (s.bootSample env.straps).bootPower.bootSelect.time.inFields = true := by
    simpa using State.bootSample_inFields s env.straps
  split
  · simpa using fun _ => hb
  · rename_i c _
    have hc := State.bootPitch_inFields _ c.2 hb
    simp [hc]

/-! ### Writes to the registers, and what stores and dispatches do by them -/

theorem State.orStay_fields {s : State} {o : Out} (h : s.keepsFields o) (hs : s.time.inFields = true) :
    (orStay s o).time.inFields = true := by
  cases o with
  | next t =>
    obtain ht | rfl := State.acts_next h rfl
    · exact ht hs
    · exact hs
  | fault _ => exact hs
  | refused _ => exact hs

@[simp] theorem State.orStay_keeps {s : State} {o : Out} (h : s.keepsTime o) : (orStay s o).time = s.time :=
  orStay_time h rfl

@[simp] theorem State.qctl_time (s : State) (d v : Nat) : (s.qctl d v).time = s.time := by
  simp only [State.qctl]
  split
  · exact State.orStay_keeps (execCreate_time ..)
  · exact State.orStay_keeps (execEnable_time ..)
  · exact State.orStay_keeps (execDisable_time ..)
  · exact State.orStay_keeps (execDestroy_time ..)
  · exact State.orStay_keeps (execResume_time ..)
  · simp

@[simp] theorem State.domainCtl_time (s : State) (v : Nat) : (s.domainCtl v).time = s.time := by
  simp only [State.domainCtl]
  split
  · exact (State.orStay_keeps (execGate_time ..)).trans (State.draw_seen s)
  · exact State.orStay_keeps (execUngate_time ..)
  · exact State.orStay_keeps (execQuery_time ..)
  · rfl

/-- Every state that a command of a register may come to has `p`. -/
def State.ends (o : Option State) (p : State → Prop) : Prop := ∀ t, o = some t → p t

@[simp] theorem State.ends_none (p : State → Prop) : State.ends none p := by simp [State.ends]

@[simp] theorem State.ends_some (t : State) (p : State → Prop) : State.ends (some t) p ↔ p t := by simp [State.ends]

@[simp] theorem State.ends_ite (c : Prop) [Decidable c] (a b : Option State) (p : State → Prop) :
    State.ends (if c then a else b) p ↔ if c then State.ends a p else State.ends b p := by split <;> rfl

theorem State.mcCommand_ends (s : State) (n x v : Nat) : State.ends (s.mcCommand n x v) (fun t => t.time = s.time) := by
  simp [State.mcCommand, execRemapReq_time, execHbmcDirQuery_time, execMarginStart_time]

theorem State.regCommand_fields (s : State) (b : Block0) (x v : Nat) (h : s.time.inFields = true) :
    State.ends (s.regCommand b x v) (fun t => t.time.inFields = true) := by
  have hmc : ∀ n, State.ends (s.mcCommand n x v) (fun t => t.time.inFields = true) := fun n t e => by
    show t.time.inFields = true
    rwa [State.mcCommand_ends s n x v t e]
  cases b with
  | rule => simp [State.regCommand, State.orStay_fields (execPitchWrite_fields _ s) h]
  | hbmc n => exact hmc n
  | dramc n => exact hmc (16 + n)
  | _ => simp [State.regCommand, h, execRecordWriteStart_time, execDebugTokenSubmit_time, execRasUnitQuery_time,
      execContextReset_time, execRasCtxQuery_time, execProofSubmit_time, execRasProofQuery_time, execCommitArm_time,
      execFeQquery_time, execFeHinv_time, execFeRecipeQuery_time, execCmdRingTailWrite_time, execDramcBlockQuery_time,
      execD2dQuery_time, execStepIssue_time, execFresetIssue_time, execPdWarmReset_time, execPdWdogCountWrite_time]

theorem State.regWrite_fields (s : State) (b : Block0) (r : RegRow) (y o size v : Nat) (h : s.time.inFields = true) :
    (s.regWrite b r y o size v).time.inFields = true := by
  simp only [State.regWrite]
  split
  · exact h
  · simpa using h
  · split
    · exact h
    split
    · rename_i e
      exact State.regCommand_fields s b y _ h _ e
    · simpa using h
  · split
    · rename_i e
      exact State.regCommand_fields _ b y _ (by simpa using h) _ e
    · simpa using h
  all_goals
    split
    · rename_i e
      exact State.regCommand_fields s b y _ h _ e
    · simpa using h

theorem State.writeMmio_fields (s : State) (o size v : Nat) (h : s.time.inFields = true) :
    (s.writeMmio o size v).time.inFields = true := by
  simp only [State.writeMmio]
  split
  · exact h
  · split <;> simpa using h
  · split <;> simpa using h
  · split <;> simpa using h
  · split
    · exact h
    split
    · exact h
    split
    · exact State.regWrite_fields _ _ _ _ _ _ _ (by simpa using h)
    · exact h

theorem State.writeMmioBytes_fields (s : State) (fuel o : Nat) (bs : List Byte) (h : s.time.inFields = true) :
    (s.writeMmioBytes fuel o bs).time.inFields = true := by
  induction fuel generalizing s o bs with
  | zero => exact h
  | succ fuel ih =>
    simp only [State.writeMmioBytes]
    split
    · exact h
    · exact ih _ _ _ (State.writeMmio_fields _ _ _ _ h)

theorem State.feStore_fields (s : State) (d uid ctx pa : Nat) (bs : List Byte) (h : s.time.inFields = true) :
    (s.feStore d uid ctx pa bs).time.inFields = true := by
  simp only [State.feStore]
  split
  · exact State.writeMmioBytes_fields _ _ _ _ h
  · simpa using h

theorem execStagedWrite_fields (off size : Nat) (v : BitVec 64) (s : State) : s.keepsFields (execStagedWrite off size v s) :=
  State.acts_whenHub (by simpa using fun _ => State.writeMmio_fields s _ _ _)

theorem execMsiWrite_fields (off size : Nat) (v : BitVec 64) (s : State) : s.keepsFields (execMsiWrite off size v s) :=
  State.acts_whenPowered (by simpa using fun _ => State.writeMmio_fields s _ _ _)

theorem execRegisterWrite_fields (off size : Nat) (v : BitVec 64) (s : State) :
    s.keepsFields (execRegisterWrite off size v s) :=
  State.acts_whenHub (by simpa using fun _ => State.writeMmio_fields s _ _ _)

theorem execBar0Access_fields (off size : Nat) (wr : Option (BitVec 64)) (s : State) :
    s.keepsFields (execBar0Access off size wr s) := by
  refine State.acts_whenHub ?_
  simp only [Act.leads_whenIt, Act.leads_ite]
  intro _
  split
  · simp
  · cases wr with
    | none => simp
    | some v => simpa using State.writeMmio_fields s off size v.toNat

theorem execSignal_fields (uid : Nat) (s : State) : s.keepsFields (execSignal uid s) := by
  refine State.acts_whenPowered ?_
  simp only [Act.leads_withSome, Act.leads_whenIt, Act.leads_andThen, Act.leads_ite, Act.leads_next, State.causing_time,
    State.opEnd_time]
  intro o _ _ _
  split
  · simp
  · exact State.feStore_fields s _ _ _ _ _

theorem execInlineWrite_fields (uid : Nat) (s : State) : s.keepsFields (execInlineWrite uid s) := by
  refine State.acts_whenPowered ?_
  simp only [Act.leads_withSome, Act.leads_whenIt, Act.leads_andThen, Act.leads_next, State.causing_time, State.opEnd_time]
  intro o _ _ _ h
  split
  · exact State.feStore_fields _ _ _ _ _ _ (State.feStore_fields _ _ _ _ _ _ h)
  · exact State.feStore_fields _ _ _ _ _ _ h

theorem State.feAcked_fields (s : State) (d tag : Nat) (ok : FeWrite → Bool) :
    (s.feAcked d tag ok).leads (fun t => s.time.inFields = true → t.time.inFields = true) := by
  simp only [State.feAcked, Act.leads_withSome, Act.leads_whenIt, Act.leads_next, State.afterAll_time, State.feAck_time]
  intro w _ _ h
  split
  · exact State.writeMmioBytes_fields _ _ _ _ h
  · exact h

theorem State.ackOf_fields (s : State) (c : Nat) (w : WTag) (r : Option Reply) (x : State × Option Nat)
    (e : s.ackOf c w r = some x) (h : s.time.inFields = true) : x.1.time.inFields = true := by
  have ha : ∀ y, s.ackOf c w r = some y → y.1.time.inFields = true := by
    simp only [State.ackOf]
    repeat' split
    all_goals simp [h, State.writeMmioBytes_fields]
  exact ha x e

theorem State.storePart_fields (s : State) (h pa : Nat) (bytes : List Byte) (f : Finds) (pbmt : Pbmt) (t : Target) :
    (s.storePart h pa bytes f pbmt t).leads (fun u => s.time.inFields = true → u.time.inFields = true) := by
  simp only [State.storePart, Act.leads_whenIt, Act.leads_ite]
  intro _
  split
  · simp
  intro _
  split
  · split
    · simp only [Act.leads_andThen, State.afterAll_time]
      exact Act.leads_mono (State.reqArrive_time _ _ s.time (by simp)) (fun t ht h => by rwa [ht])
    · simp
  · simp
  · simpa using State.writeMmioBytes_fields s _ _ _
  · simp

theorem execGlobalObservation_fields (c tag : Nat) (s : State) : s.keepsFields (execGlobalObservation c tag s) := by
  refine State.acts_whenPowered ?_
  simp only [Act.leads_whenIt, Act.leads_ite]
  intro _
  split
  · exact State.feAcked_fields s _ _ _
  repeat' split
  all_goals simp

theorem execWriteAck_fields (c tag : Nat) (r : Option Reply) (s : State) : s.keepsFields (execWriteAck c tag r s) := by
  refine State.acts_whenPowered ?_
  simp only [Act.leads_ite]
  split
  · exact State.feAcked_fields s _ _ _
  split
  · exact Act.leads_mono (State.hartAck_time s _ _ _) (fun t ht h => by rwa [ht])
  · simp only [Act.leads_withSome, Act.leads_next, State.after_time, State.freeWrite_time]
    exact fun w _ x hx => State.ackOf_fields s c w r x hx

theorem execHartStore_fields (h pa : Nat) (src : HartWrite) (pbmt : Pbmt) (s : State) :
    s.keepsFields (execHartStore h pa src pbmt s) := by
  refine State.acts_whenPowered ?_
  simp only [Act.leads_whenIt]
  intro _
  have htrap : ((s.hart h).trapTurn (s.hartTrap h 7 none)).leads (fun t => s.time.inFields = true → t.time.inFields = true) :=
  by
    simp [Hart.trapTurn]
  split
  · exact htrap
  · rw [Act.leads_ite]
    split
    · exact htrap
    · exact State.storePart_fields s _ _ _ _ _ _
  · rw [Act.leads_ite]
    split
    · exact htrap
    rename_i b u _ _
    have h1 := State.storePart_fields s h pa ((hartBytes src.data (s.hart h)).take (b - pa)) src.f pbmt
    split
    · rename_i x e
      have h2 := State.storePart_fields x h b ((hartBytes src.data (s.hart h)).drop (b - pa)) src.f pbmt u
      split
      · rename_i y e'
        exact (Act.leads_next _ _).mpr fun hs => h2 y e' (h1 _ x e hs)
      · exact Act.leads_mono h2 (fun _ k hs => k (h1 _ x e hs))
    · exact h1 _

/-! ### The dispatch unit -/

@[simp] theorem Dsp.fail_time (x : Dsp) (st : Nat) : (x.fail st).s.time = x.s.time := rfl

@[simp] theorem Dsp.ite_time (p : Prop) [Decidable p] (a b : Dsp) :
    (if p then a else b).s.time = if p then a.s.time else b.s.time := by split <;> rfl

@[simp] theorem Dsp.ite_fst_time {α : Type} (p : Prop) [Decidable p] (a b : Dsp × α) :
    (if p then a else b).1.s.time = if p then a.1.s.time else b.1.s.time := by split <;> rfl

@[simp] theorem Dsp.foldl_time {α : Type} (g : Dsp → α → Dsp) (x : Dsp) (l : List α)
    (hg : ∀ y a, (g y a).s.time = y.s.time) : (l.foldl g x).s.time = x.s.time := by
  induction l generalizing x with
  | nil => rfl
  | cons a l ih => rw [List.foldl_cons, ih, hg]

@[simp] theorem Dsp.foldl_fst_time {α β : Type} (g : Dsp × β → α → Dsp × β) (r : Dsp × β) (l : List α)
    (hg : ∀ r a, (g r a).1.s.time = r.1.s.time) : (l.foldl g r).1.s.time = r.1.s.time := by
  induction l generalizing r with
  | nil => rfl
  | cons a l ih => rw [List.foldl_cons, ih, hg]

@[simp] theorem Dsp.read_time (x : Dsp) (va n : Nat) : (x.read va n).1.s.time = x.s.time := by
  simp only [Dsp.read]
  split
  · rfl
  · split
    all_goals
      rename_i e
      simpa using State.pair_seen e (State.feLoad_time ..)

@[simp] theorem Dsp.reach_time (x : Dsp) (va : Nat) (a : Acc) (only : Bool) : (x.reach va a only).1.s.time = x.s.time := by
  simp only [Dsp.reach]
  split
  · rfl
  · split
    all_goals
      rename_i e
      simpa using State.pair_seen e (State.feTranslate_time ..)

@[simp] theorem Dsp.entry_time (x : Dsp) (e : Nat) : (x.entry e).1.s.time = x.s.time := by
  simp only [Dsp.entry]
  split <;> simp

@[simp] theorem Dsp.valid_time (x : Dsp) (e : Nat) : (x.valid e).1.s.time = x.s.time := by simp [Dsp.valid]

@[simp] theorem Dsp.miss_time (x : Dsp) (e : Nat) (blocks : List Nat) (wait : Bool) :
    (x.miss e blocks wait).s.time = x.s.time := by
  have hs : ∀ (u : State) (y : Dsp) (pa : Nat), u.time = x.s.time →
      (match u.sysAdd pa .add .i32 1 0 with
        | (t, some _) => t
        | (t, none) => t.refusePoison pa (some y.ctx) (some y.uid)).time = x.s.time := by
    intro u y pa hu
    split
    all_goals
      rename_i e
      simpa [hu] using State.pair_seen e (State.sysAdd_time ..)
  simp only [Dsp.miss, Dsp.ite_time, Dsp.ite_fst_time, Dsp.reach_time, ite_self]
  split
  · split
    · rfl
    · simp
  · split
    · rfl
    · refine (State.foldl_seen _ _ _ (fun u b => ?_)).trans (hs _ _ _ (by simp))
      simp

@[simp] theorem Dsp.evaluate_time (x : Dsp) (e : Nat) : (x.evaluate e).1.s.time = x.s.time := by
  simp only [Dsp.evaluate]
  split
  · rfl
  · simp

@[simp] theorem Dsp.checkSlots_time (x : Dsp) (raw : List Byte) : (x.checkSlots raw).s.time = x.s.time := by
  simp [Dsp.checkSlots]

@[simp] theorem Dsp.substitute_time (x : Dsp) (raw : List Byte) (t : Nat) (taken : List Nat) :
    (x.substitute raw t taken).1.s.time = x.s.time := by simp [Dsp.substitute]

@[simp] theorem Dsp.slot_time (x : Dsp) (raw : List Byte) (t c : Nat) (done : List Choice) :
    (x.slot raw t c done).1.s.time = x.s.time := by
  simp only [Dsp.slot]
  repeat' split
  all_goals simp

@[simp] theorem Dsp.decideAll_time (x : Dsp) (raw : List Byte) : (x.decideAll raw).1.s.time = x.s.time := by
  simp [Dsp.decideAll]

@[simp] theorem Dsp.setParts_time (x : Dsp) (u : Uses) (set : Nat) (experts : List Nat) :
    (x.setParts u set experts).1.s.time = x.s.time := by simp [Dsp.setParts]

@[simp] theorem Dsp.work_time (x : Dsp) (u : Uses) : (x.work u).1.s.time = x.s.time := by simp [Dsp.work]

@[simp] theorem Dsp.checkWork_time (x : Dsp) (w : Tbl (List Item)) : (x.checkWork w).s.time = x.s.time := by
  simp [Dsp.checkWork]

@[simp] theorem Dsp.open_time (x : Dsp) (o : Op) : (x.open o).s.time = x.s.time := by
  simp only [Dsp.open]
  repeat' split
  all_goals simp

@[simp] theorem Dsp.decide_time (x : Dsp) : x.decide.1.s.time = x.s.time := by simp [Dsp.decide]

@[simp] theorem Dsp.reuse_time (x : Dsp) : x.reuse.1.s.time = x.s.time := by simp [Dsp.reuse]

theorem Dsp.writeRows_fields (x : Dsp) (bs : List Byte) (h : x.s.time.inFields = true) :
    (x.writeRows bs).s.time.inFields = true := by
  have hr : ∀ l : List (Nat × Nat), (l.foldl (fun (r : Dsp × List Nat) p =>
      ((r.1.reach p.1 .store false).1, r.2 ++ [(r.1.reach p.1 .store false).2])) (x, [])).1.s.time = x.s.time := by simp
  have hf : ∀ (l : List ((Nat × Nat) × Nat)) (c : State × List Byte), c.1.time.inFields = true →
      (l.foldl (fun (c : State × List Byte) p =>
        (c.1.feStore x.d x.uid x.ctx p.2 (c.2.take p.1.2), c.2.drop p.1.2)) c).1.time.inFields = true := by
    intro l
    induction l with
    | nil => exact fun _ hc => hc
    | cons p l ih => exact fun c hc => ih _ (State.feStore_fields _ _ _ _ _ _ hc)
  simp only [Dsp.writeRows]
  split
  · rw [hr]; exact h
  · exact hf _ _ (by rw [hr]; exact h)

theorem State.runDispatch_fields (s : State) (o : Op) (asid root : Nat) (h : s.time.inFields = true) :
    (s.runDispatch o asid root).1.time.inFields = true := by
  simp only [State.runDispatch]
  split
  · simpa using h
  · simp only [State.modOp_seen, State.bumpBy_time]
    split
    · simpa using h
    · exact Dsp.writeRows_fields _ _ (by simpa using h)

theorem State.dispatch_fields (s : State) (uid : Nat) (reuse : Bool) : s.keepsFields (s.dispatch uid reuse) := by
  refine State.acts_whenPowered ?_
  simp only [Act.leads_withSome, Act.leads_whenIt, Act.leads_andThen, State.causing_time]
  intro o _ _ _
  split
  · rename_i e
    simp [State.pair_seen e (State.feCtx_time ..)]
  · rename_i u asid root e
    have hu : u.time = s.time := State.pair_seen e (State.feCtx_time ..)
    have hr : s.time.inFields = true →
        (if o.plan.isEmpty then u.runDispatch o asid root else (u, none, o.plan)).1.time.inFields = true := by
      intro h
      split
      · exact State.runDispatch_fields u o asid root (by rwa [hu])
      · rwa [hu]
    split
    all_goals
      rename_i e'
      rw [e'] at hr
      simpa using hr

end Sys2Proof.Machine

end

section

/-!
### Ruled time and power in every step

Every command, and the step on an empty queue.
-/

namespace Sys2Proof.Machine

/-! ### Every command -/

/-- Every command but the two that return the power acts with power alone, and leaves ruled time within its fields. -/
theorem exec_keepsFields (i : Instr) (s : State) :
    i = .inputPowerOn ∨ i = .moduleColdReset .power ∨ s.keepsFields (exec i s) := by
  have keeps : ∀ {o : Out}, s.keepsFields o → i = .inputPowerOn ∨ i = .moduleColdReset .power ∨ s.keepsFields o :=
    fun h => .inr (.inr h)
  have still : ∀ {o : Out}, s.keepsTime o → i = .inputPowerOn ∨ i = .moduleColdReset .power ∨ s.keepsFields o :=
    fun h => .inr (.inr h.keepsFields)
  cases i with
  | markEdge => exact keeps (execMarkEdge_fields ..)
  | lineBoundary => exact keeps (execLineBoundary_fields ..)
  | bootPlateTimeout => exact keeps (execBootPlateTimeout_fields ..)
  | rackFrame => exact keeps (execRackFrame_fields ..)
  | hatchClockLoss => exact keeps (execHatchClockLoss_fields ..)
  | hatchClockReturn => exact keeps (execHatchClockReturn_fields ..)
  | pitchWrite => exact keeps (execPitchWrite_fields ..)
  | stagedWrite => exact keeps (execStagedWrite_fields ..)
  | commitArm => exact still (execCommitArm_time ..)
  | sclAdd => exact still (execSclAdd_time ..)
  | sclSub => exact still (execSclSub_time ..)
  | sclMul => exact still (execSclMul_time ..)
  | sclAnd => exact still (execSclAnd_time ..)
  | sclOr => exact still (execSclOr_time ..)
  | sclXor => exact still (execSclXor_time ..)
  | sclShl => exact still (execSclShl_time ..)
  | sclShr => exact still (execSclShr_time ..)
  | sclSar => exact still (execSclSar_time ..)
  | sclMin => exact still (execSclMin_time ..)
  | sclMax => exact still (execSclMax_time ..)
  | sclMinu => exact still (execSclMinu_time ..)
  | sclMaxu => exact still (execSclMaxu_time ..)
  | sclCmpeq => exact still (execSclCmpeq_time ..)
  | sclCmpne => exact still (execSclCmpne_time ..)
  | sclCmplt => exact still (execSclCmplt_time ..)
  | sclCmpltu => exact still (execSclCmpltu_time ..)
  | sclCmpge => exact still (execSclCmpge_time ..)
  | sclCmpgeu => exact still (execSclCmpgeu_time ..)
  | sclPand => exact still (execSclPand_time ..)
  | sclPor => exact still (execSclPor_time ..)
  | sclPxor => exact still (execSclPxor_time ..)
  | sclPandn => exact still (execSclPandn_time ..)
  | sclLds => exact still (execSclLds_time ..)
  | sclSts => exact still (execSclSts_time ..)
  | sclTdset => exact still (execSclTdset_time ..)
  | sclTdget0 => exact still (execSclTdget0_time ..)
  | sclTdget1 => exact still (execSclTdget1_time ..)
  | sclTdadj => exact still (execSclTdadj_time ..)
  | sclRdsr => exact still (execSclRdsr_time ..)
  | ctlNop => exact still (execCtlNop_time ..)
  | ctlB => exact still (execCtlB_time ..)
  | ctlLoop => exact still (execCtlLoop_time ..)
  | ctlCall => exact still (execCtlCall_time ..)
  | ctlRet => exact still (execCtlRet_time ..)
  | ctlEnd => exact still (execCtlEnd_time ..)
  | ctlTrap => exact still (execCtlTrap_time ..)
  | tmma => exact still (execTmma_time ..)
  | tmmaP => exact still (execTmmaP_time ..)
  | tmmaRetire => exact still (execTmmaRetire_time ..)
  | vopAdd => exact still (execVopAdd_time ..)
  | vopSub => exact still (execVopSub_time ..)
  | vopMul => exact still (execVopMul_time ..)
  | vopFma => exact still (execVopFma_time ..)
  | vopMin => exact still (execVopMin_time ..)
  | vopMax => exact still (execVopMax_time ..)
  | vopCmplt => exact still (execVopCmplt_time ..)
  | vopCmple => exact still (execVopCmple_time ..)
  | vopCmpeq => exact still (execVopCmpeq_time ..)
  | vopSel => exact still (execVopSel_time ..)
  | vopSqrt => exact still (execVopSqrt_time ..)
  | vopRcp => exact still (execVopRcp_time ..)
  | vopRsq => exact still (execVopRsq_time ..)
  | vopExp => exact still (execVopExp_time ..)
  | vopExp2 => exact still (execVopExp2_time ..)
  | vopLog => exact still (execVopLog_time ..)
  | vopLog2 => exact still (execVopLog2_time ..)
  | vopRsum => exact still (execVopRsum_time ..)
  | vopRmax => exact still (execVopRmax_time ..)
  | vopIadd => exact still (execVopIadd_time ..)
  | vopIsub => exact still (execVopIsub_time ..)
  | vopImin => exact still (execVopImin_time ..)
  | vopImax => exact still (execVopImax_time ..)
  | vopShl => exact still (execVopShl_time ..)
  | vopShr => exact still (execVopShr_time ..)
  | vopSar => exact still (execVopSar_time ..)
  | vopCvt => exact still (execVopCvt_time ..)
  | vopCopy => exact still (execVopCopy_time ..)
  | vopSeed => exact still (execVopSeed_time ..)
  | vopFinish => exact still (execVopFinish_time ..)
  | tld => exact still (execTld_time ..)
  | tldSc => exact still (execTldSc_time ..)
  | tst => exact still (execTst_time ..)
  | tstSc => exact still (execTstSc_time ..)
  | tstAdd => exact still (execTstAdd_time ..)
  | tstAcc => exact still (execTstAcc_time ..)
  | gath => exact still (execGath_time ..)
  | atomAdd => exact still (execAtomAdd_time ..)
  | atomMin => exact still (execAtomMin_time ..)
  | atomMax => exact still (execAtomMax_time ..)
  | atomSwap => exact still (execAtomSwap_time ..)
  | atomCompareSwap => exact still (execAtomCompareSwap_time ..)
  | sigWrite => exact still (execSigWrite_time ..)
  | sigAdd => exact still (execSigAdd_time ..)
  | waitv => exact still (execWaitv_time ..)
  | waitvReread => exact still (execWaitvReread_time ..)
  | syncFence => exact still (execSyncFence_time ..)
  | syncBar => exact still (execSyncBar_time ..)
  | streamDataArrival => exact still (execStreamDataArrival_time ..)
  | writeAck => exact keeps (execWriteAck_fields ..)
  | streamDeadlineExpiry => exact still (execStreamDeadlineExpiry_time ..)
  | deviceWriteTimeout => exact still (execDeviceWriteTimeout_time ..)
  | deviceReadTimeout => exact still (execDeviceReadTimeout_time ..)
  | launchStart => exact still (execLaunchStart_time ..)
  | scratchScrub => exact still (execScratchScrub_time ..)
  | windowAccess => exact still (execWindowAccess_time ..)
  | windowAtomic => exact still (execWindowAtomic_time ..)
  | readShared => exact still (execReadShared_time ..)
  | readOwn => exact still (execReadOwn_time ..)
  | writeThroughWrite => exact still (execWriteThroughWrite_time ..)
  | nonAllocatingRead => exact still (execNonAllocatingRead_time ..)
  | nonAllocatingWrite => exact still (execNonAllocatingWrite_time ..)
  | farAtomic => exact still (execFarAtomic_time ..)
  | writeback => exact still (execWriteback_time ..)
  | evictionNotice => exact still (execEvictionNotice_time ..)
  | ownerForward => exact still (execOwnerForward_time ..)
  | clusterInvalidation => exact still (execClusterInvalidation_time ..)
  | clusterCacheRead => exact still (execClusterCacheRead_time ..)
  | heldWriteAck => exact still (execHeldWriteAck_time ..)
  | promote => exact still (execPromote_time ..)
  | evict => exact still (execEvict_time ..)
  | pin => exact still (execPin_time ..)
  | unpin => exact still (execUnpin_time ..)
  | setOwner => exact still (execSetOwner_time ..)
  | batch => exact still (execBatch_time ..)
  | t0Alloc => exact still (execT0Alloc_time ..)
  | t0Free => exact still (execT0Free_time ..)
  | t3Charge => exact still (execT3Charge_time ..)
  | batchStart => exact still (execBatchStart_time ..)
  | moveSwitch => exact still (execMoveSwitch_time ..)
  | moveSwitchComplete => exact still (execMoveSwitchComplete_time ..)
  | dramcBlockQuery => exact still (execDramcBlockQuery_time ..)
  | cmdRingTailWrite => exact still (execCmdRingTailWrite_time ..)
  | dispatchDecide => exact keeps (State.dispatch_fields ..)
  | dispatchReuse => exact keeps (State.dispatch_fields ..)
  | dispatchShare => exact still (execDispatchShare_time ..)
  | dispatchPacketWrite => exact still (execDispatchPacketWrite_time ..)
  | patrolScrubVisit => exact still (execPatrolScrubVisit_time ..)
  | remapReq => exact still (execRemapReq_time ..)
  | hbmTempRead => exact still (execHbmTempRead_time ..)
  | marginStart => exact still (execMarginStart_time ..)
  | marginRunDone => exact still (execMarginRunDone_time ..)
  | hbmcDirQuery => exact still (execHbmcDirQuery_time ..)
  | bisnpTimeout => exact still (execBisnpTimeout_time ..)
  | walkComplete => exact still (execWalkComplete_time ..)
  | invRingEntry => exact still (execInvRingEntry_time ..)
  | invalidationAck => exact still (execInvalidationAck_time ..)
  | nwFenceCx => exact still (execNwFenceCx_time ..)
  | nwFenceRg => exact still (execNwFenceRg_time ..)
  | pdWarmReset => exact still (execPdWarmReset_time ..)
  | warmResetRelease => exact still (execWarmResetRelease_time ..)
  | pdWdogExpire => exact still (execPdWdogExpire_time ..)
  | pdWdogCountWrite p v => exact still (execPdWdogCountWrite_time p v s)
  | msiWrite => exact keeps (execMsiWrite_fields ..)
  | processorDeviceTimeout => exact still (execProcessorDeviceTimeout_time ..)
  | create => exact still (execCreate_time ..)
  | enable => exact still (execEnable_time ..)
  | disable => exact still (execDisable_time ..)
  | destroy => exact still (execDestroy_time ..)
  | resume => exact still (execResume_time ..)
  | doorbellReread => exact still (execDoorbellReread_time ..)
  | doorbellPeriodicRead => exact still (execDoorbellPeriodicRead_time ..)
  | descriptorReread => exact still (execDescriptorReread_time ..)
  | descriptorAccept => exact still (execDescriptorAccept_time ..)
  | launch => exact still (execLaunch_time ..)
  | launchRecipe => exact still (execLaunchRecipe_time ..)
  | recipeNodeStart => exact still (execRecipeNodeStart_time ..)
  | inlineWrite => exact keeps (execInlineWrite_fields ..)
  | signal => exact keeps (execSignal_fields ..)
  | wait => exact still (execWait_time ..)
  | waitReread => exact still (execWaitReread_time ..)
  | phase => exact still (execPhase_time ..)
  | fence => exact still (execFence_time ..)
  | install => exact still (execInstall_time ..)
  | remove => exact still (execRemove_time ..)
  | invalidateRange => exact still (execInvalidateRange_time ..)
  | peelHint => exact still (execPeelHint_time ..)
  | nop => exact still (execNop_time ..)
  | copy => exact still (execCopy_time ..)
  | fill => exact still (execFill_time ..)
  | copy2d => exact still (execCopy2d_time ..)
  | feHinv => exact still (execFeHinv_time ..)
  | feQquery => exact still (execFeQquery_time ..)
  | feRecipeQuery => exact still (execFeRecipeQuery_time ..)
  | operationComplete => exact still (execOperationComplete_time ..)
  | completionWriteFail => exact still (execCompletionWriteFail_time ..)
  | intrHoldoffExpiry => exact still (execIntrHoldoffExpiry_time ..)
  | queueTimeout => exact still (execQueueTimeout_time ..)
  | coreStopTimeout => exact still (execCoreStopTimeout_time ..)
  | hangDetect => exact still (execHangDetect_time ..)
  | replayTimeout => exact still (execReplayTimeout_time ..)
  | contextReset => exact still (execContextReset_time ..)
  | rasCtxQuery => exact still (execRasCtxQuery_time ..)
  | pointDecision => exact still (execPointDecision_time ..)
  | voltageSettled => exact still (execVoltageSettled_time ..)
  | railExcess => exact still (execRailExcess_time ..)
  | limiterRatioStep => exact still (execLimiterRatioStep_time ..)
  | inputExcess => exact still (execInputExcess_time ..)
  | gate => exact still (execGate_time ..)
  | ungate => exact still (execUngate_time ..)
  | query => exact still (execQuery_time ..)
  | gatingComplete => exact still (execGatingComplete_time ..)
  | domainWake => exact still (execDomainWake_time ..)
  | sensorRead => exact still (execSensorRead_time ..)
  | thermalTrip => exact still (execThermalTrip_time ..)
  | inputUndervoltage => exact keeps (execInputUndervoltage_fields ..)
  | inputPowerOn => exact .inl rfl
  | proofSubmit => exact still (execProofSubmit_time ..)
  | proofStart => exact still (execProofStart_time ..)
  | proofEnd => exact still (execProofEnd_time ..)
  | proofSkip => exact still (execProofSkip_time ..)
  | suspect => exact still (execSuspect_time ..)
  | release => exact still (execRelease_time ..)
  | quarantine => exact still (execQuarantine_time ..)
  | coreReset => exact still (execCoreReset_time ..)
  | coreResetExecute => exact still (execCoreResetExecute_time ..)
  | quarantineApply => exact still (execQuarantineApply_time ..)
  | rasUnitQuery => exact still (execRasUnitQuery_time ..)
  | rasProofQuery => exact still (execRasProofQuery_time ..)
  | adlFlitCrcFail => exact still (execAdlFlitCrcFail_time ..)
  | laserLow => exact still (execLaserLow_time ..)
  | laserRecover => exact still (execLaserRecover_time ..)
  | rufenFlitReceive => exact still (execRufenFlitReceive_time ..)
  | rufenReplayTimeout => exact still (execRufenReplayTimeout_time ..)
  | nodeIsolate => exact still (execNodeIsolate_time ..)
  | remoteRequest => exact still (execRemoteRequest_time ..)
  | stepIssue => exact still (execStepIssue_time ..)
  | stepReceive => exact still (execStepReceive_time ..)
  | stepGateWrite => exact still (execStepGateWrite_time ..)
  | fresetIssue => exact still (execFresetIssue_time ..)
  | fresetReceive => exact still (execFresetReceive_time ..)
  | fresetAction => exact still (execFresetAction_time ..)
  | fresetEnd => exact still (execFresetEnd_time ..)
  | d2dQuery => exact still (execD2dQuery_time ..)
  | cxlRecoveryEnter => exact still (execCxlRecoveryEnter_time ..)
  | cxlRetrainLimit => exact still (execCxlRetrainLimit_time ..)
  | cxlLinkDown => exact still (execCxlLinkDown_time ..)
  | cxlSessionStart => exact still (execCxlSessionStart_time ..)
  | memrdShared => exact still (execMemrdShared_time ..)
  | memrdAny => exact still (execMemrdAny_time ..)
  | memrdInvalid => exact still (execMemrdInvalid_time ..)
  | meminvAny => exact still (execMeminvAny_time ..)
  | meminvInvalid => exact still (execMeminvInvalid_time ..)
  | memwrOwner => exact still (execMemwrOwner_time ..)
  | memwrNonOwner => exact still (execMemwrNonOwner_time ..)
  | snpinv => exact still (execSnpinv_time ..)
  | snpdata => exact still (execSnpdata_time ..)
  | snpcur => exact still (execSnpcur_time ..)
  | globalObservation => exact keeps (execGlobalObservation_fields ..)
  | bar0Access => exact keeps (execBar0Access_fields ..)
  | bar2Access => exact still (execBar2Access_time ..)
  | hdmDecoderCommit => exact still (execHdmDecoderCommit_time ..)
  | msixSend => exact still (execMsixSend_time ..)
  | moduleColdReset cause =>
    cases cause with
    | power => exact .inr (.inl rfl)
    | resetPin => exact .inr (.inr (execModuleColdReset_fields s))
  | moduleWarmReset => exact keeps (execModuleWarmReset_fields ..)
  | resetRelease => exact keeps (execResetRelease_fields ..)
  | hartBootRelease => exact still (execHartBootRelease_time ..)
  | recordWriteStart => exact still (execRecordWriteStart_time ..)
  | recordWriteDone => exact still (execRecordWriteDone_time ..)
  | debugTokenSubmit => exact still (execDebugTokenSubmit_time ..)
  | managementChunk => exact still (execManagementChunk_time ..)
  | mctpControl => exact still (execMctpControl_time ..)
  | pldmType0 body => exact still (execPldmType0_time body s)
  | pldmType2 => exact still (execPldmType2_time ..)
  | pldmType5 => exact still (execPldmType5_time ..)
  | getVersion body => exact still (execGetVersion_time body s)
  | getCapabilities body => exact still (execGetCapabilities_time body s)
  | negotiateAlgorithms body => exact still (execNegotiateAlgorithms_time body s)
  | getDigests body => exact still (execGetDigests_time body s)
  | getCertificate body => exact still (execGetCertificate_time body s)
  | challenge => exact still (execChallenge_time ..)
  | getMeasurements => exact still (execGetMeasurements_time ..)
  | unitQuery => exact still (execUnitQuery_time ..)
  | unitCmd => exact still (execUnitCmd_time ..)
  | serviceClear => exact still (execServiceClear_time ..)
  | debugToken => exact still (execDebugToken_time ..)
  | scanSelect => exact still (execScanSelect_time ..)
  | logRead => exact still (execLogRead_time ..)
  | scanInPacket bits data ok => exact still (execScanInPacket_time bits data ok s)
  | moduleFrameSend => exact still (execModuleFrameSend_time ..)
  | registerWrite => exact keeps (execRegisterWrite_fields ..)
  | readoutComplete => exact still (execReadoutComplete_time ..)
  | waitvDeadlineExpiry => exact still (execWaitvDeadlineExpiry_time ..)
  | proofRunDue => exact still (execProofRunDue_time ..)
  | adlModuleRetrainDone => exact still (execAdlModuleRetrainDone_time ..)
  | rufenPortTrained => exact still (execRufenPortTrained_time ..)
  | cxlLinkTrainingEnd => exact still (execCxlLinkTrainingEnd_time ..)
  | hostBisnpResponse => exact still (execHostBisnpResponse_time ..)
  | hartFence => exact still (execHartFence_time ..)
  | hartStore => exact keeps (execHartStore_fields ..)
  | hartAmo => exact still (execHartAmo_time ..)

theorem execInputPowerOn_next (s t : State) (h : execInputPowerOn s = .next t) : t = s ∨ t = s.moduleReset true := by
  simp only [execInputPowerOn] at h
  split at h
  · exact .inl (Host.Outcome.next.inj h).symm
  · exact .inr (Host.Outcome.next.inj h).symm

theorem execModuleColdReset_power (s : State) : execModuleColdReset .power s = execInputPowerOn s := rfl

theorem exec_inFields {i : Instr} {s t : State} (h : s.time.inFields = true) (e : exec i s = .next t) :
    t.time.inFields = true := by
  have hp : execInputPowerOn s = .next t → t.time.inFields = true := fun e => by
    obtain rfl | rfl := execInputPowerOn_next s t e
    · exact h
    · exact State.moduleReset_inFields s true
  obtain rfl | rfl | hk := exec_keepsFields i s
  · exact hp e
  · exact hp e
  · obtain ht | rfl := State.acts_next hk e
    · exact ht h
    · exact h

theorem State.idle_inFields (s : State) (h : s.time.inFields = true) : s.idle.time.inFields = true := by
  simp only [State.idle]
  split
  · rename_i hc
    simp only [Bool.and_eq_true] at hc
    simp only [Ruling.inFields, Bool.and_eq_true, decide_eq_true_eq, State.withRuling_time] at h ⊢
    obtain ⟨⟨hl, _⟩, _⟩ := h
    obtain ⟨_, hs⟩ := hc
    exact ⟨⟨hl, Nat.succ_lt_succ (of_decide_eq_true hs)⟩, by decide⟩
  · exact h

/-- Settles O59: every command but the return of power leaves ruled time within its fields (`exec_keepsFields`), the return of
power leaves the reset state's, and the step on an empty queue stops at stroke 15. -/
theorem ruledTimeStaysInFields : Obligations.RuledTimeStaysInFields := by
  unfold Obligations.RuledTimeStaysInFields
  intro s t h e
  rw [step] at e
  split at e
  · exact Host.Outcome.next.inj e ▸ State.idle_inFields s h
  · rename_i i rest _
    have hp : (s.withPending rest).time = s.time := State.withPending_seen s rest
    exact exec_inFields (by rwa [hp]) e

/-- Settles O4: a command that acts only with power faults exactly without it; the two that return the power are the rest. -/
theorem noPowerNothingHappens : Obligations.NoPowerNothingHappens := by
  unfold Obligations.NoPowerNothingHappens
  refine ⟨fun s t i hi e => ?_, fun s hi => ⟨s.moduleReset true, ?_, rfl⟩,
    fun s i f hi => ?_⟩
  · obtain h | h | h := exec_keepsFields i s
    · exact .inl h
    · exact .inr h
    · exact absurd e (State.acts_noPower h hi)
  · have he : execInputPowerOn s = .next (s.moduleReset true) := by simp [execInputPowerOn, hi]
    exact he
  · have hp : execInputPowerOn s ≠ .fault f := by simp [execInputPowerOn, hi]
    obtain rfl | rfl | h := exec_keepsFields i s
    · exact hp
    · exact hp
    · exact State.acts_noFault h hi f

end Sys2Proof.Machine

end

section

/-!
### Power domains, the thermal trip and the input

What GATE and UNGATE do to the list of gated domains, and what stays of it (R52, R529 to R536).
-/

namespace Sys2Proof.Machine

/-! ### Domains: R529, R536 -/

/-- The key of a memory controller's domain is odd (R529); those of all others are even. -/
theorem ctlDomain_odd (n : Nat) : ctlDomain n % 2 = 1 := by
  simp only [ctlDomain, keyOf]
  split <;> omega

theorem keyOf_even (die cl core unit : Nat) : keyOf die cl core unit % 2 = 0 := by
  simp only [keyOf]
  omega

theorem UnitKind.domain_even {u : UnitKind} {k : Nat} (h : u.domain = some k) (hc : ∀ n, u ≠ .controller n) : k % 2 = 0 := by
  cases u with
  | controller n => exact absurd rfl (hc n)
  | coreUnit c i =>
    simp only [UnitKind.domain, coreDomain] at h
    split at h
    · exact Option.some.inj h ▸ keyOf_even ..
    · cases h
  | engine c e => exact Option.some.inj h ▸ keyOf_even ..
  | clusterCache c => exact Option.some.inj h ▸ keyOf_even ..
  | frontEnd d => exact Option.some.inj h ▸ keyOf_even ..
  | hart x => exact Option.some.inj h ▸ keyOf_even ..
  | complex x => exact Option.some.inj h ▸ keyOf_even ..
  | slc i => exact Option.some.inj h ▸ keyOf_even ..
  | oe i => exact Option.some.inj h ▸ keyOf_even ..
  | hubUnit i => exact Option.some.inj h ▸ keyOf_even ..
  | _ => cases h

theorem State.domainOf_domain {s : State} {p : BitVec 64} {u : UnitKind} {k : Nat} (h : s.domainOf p = some (u, k)) :
    u.domain = some k := by
  simp only [State.domainOf] at h
  split at h
  · split at h
    · cases h
    · obtain ⟨x, hx, e⟩ := Option.map_eq_some_iff.mp h
      cases e
      exact hx
  · cases h

/-- The gated domains but those of memory controllers, and the domain a GATE waits for. -/
def Obs.gates : Obs (List Nat × List Nat) where
  part s := (s.power.gated.filter (fun k => k % 2 == 0), s.power.gating)
  withPop := by simp
  withRegs := by simp
  withCores := by simp
  withMem := by simp
  withCtls := by simp
  withPeel := by simp
  withXlat := by simp
  withPds := by simp
  withWork := by simp
  withRas := by simp
  withLinks := by simp
  withCxl := by simp
  withBoot := by simp
  withOut := by simp
  withFresh := by simp
  withPending := by simp
  wakeCtl s n := by
    simp only [State.wakeCtl]
    split
    · simp only [State.withPower_power, List.filter_filter, Prod.mk.injEq, and_true]
      refine List.filter_congr fun k _ => ?_
      have hn := ctlDomain_odd n
      by_cases h : k % 2 = 0
      · have : k ≠ ctlDomain n := by omega
        simp [h, this]
      · simp [h]
    · rfl

/-- They are not seen in the hatch bus. -/
def OffHatch.gates : OffHatch (List Nat × List Nat) where
  obs := Obs.gates
  withHatch := by simp [Obs.see, Obs.gates]

theorem OffHatch.gates_see (s : State) :
    OffHatch.gates.obs.see s = (s.power.gated.filter (fun k => k % 2 == 0), s.power.gating) := rfl

theorem State.isGated_of_gates {s t : State} (h : OffHatch.gates.obs.see t = OffHatch.gates.obs.see s) {k : Nat}
    (hk : k % 2 = 0) : t.isGated k = s.isGated k := by
  have hm : ∀ u : State, u.isGated k = (OffHatch.gates.obs.see u).1.contains k := fun u => by
    rw [OffHatch.gates_see, State.isGated, Bool.eq_iff_iff]
    simp [hk]
  rw [hm, hm, h]

theorem State.gating_of_gates {s t : State} (h : OffHatch.gates.obs.see t = OffHatch.gates.obs.see s) :
    t.power.gating = s.power.gating :=
  congrArg Prod.snd h

theorem mem_insertUp (x y : Nat) (l : List Nat) : x ∈ insertUp y l ↔ x = y ∨ x ∈ l := by
  induction l with
  | nil => simp [insertUp]
  | cons z l ih =>
    simp only [insertUp]
    split
    · simp
    split
    · rename_i e; subst e; simp
    · simp only [List.mem_cons, ih]; tauto

/-- The state in which a GATE has put the domain in the list, before the unit gives up what it holds. -/
def State.gatedAt (s : State) (k : Nat) : State :=
  s.withPower { s.power with gated := insertUp k s.power.gated, gating := s.power.gating.filter (· != k) }

theorem State.gatedAt_isGated (s : State) (k : Nat) : (s.gatedAt k).isGated k = true := by
  simp [State.isGated, State.gatedAt, mem_insertUp]

theorem State.gatedAt_gating (s : State) (k : Nat) : (s.gatedAt k).power.gating.contains k = false := by
  simp [State.gatedAt]

/-- What a domain's unit gives up as it is gated neither ungates another nor waits for one. -/
theorem State.gate_seen (s : State) {u : UnitKind} (k : Nat) (hu : ∀ i, u ≠ .slc i) :
    OffHatch.gates.obs.see (s.gate u k) = OffHatch.gates.obs.see (s.gatedAt k) := by
  simp only [State.gate, State.gatedAt]
  cases u with
  | slc i => exact absurd rfl (hu i)
  | clusterCache c => simp
  | coreUnit c i => simp
  | frontEnd d => simp
  | complex x => simp
  | _ => rfl

theorem State.slcGate_gates (s : State) (p i : Nat) : (s.slcGate p i).isGated (slcDomain p i) = true
    ∧ (s.slcGate p i).power.gating = s.power.gating := by
  simp only [State.slcGate]
  refine ⟨by simp [State.isGated, mem_insertUp], ?_⟩
  simp only [State.withPower_power]
  refine State.gating_of_gates ((State.foldl_seen _ _ _ (fun u l => ?_)).trans (State.answersFor_seen ..))
  simp

theorem State.gate_gated (s : State) {p : BitVec 64} {u : UnitKind} {k : Nat} (hd : s.domainOf p = some (u, k)) :
    (s.gate u k).isGated k = true ∧ (s.gate u k).power.gating.contains k = false := by
  have hk := State.domainOf_domain hd
  by_cases hs : ∃ i, u = .slc i
  · obtain ⟨i, rfl⟩ := hs
    obtain rfl : slcDomain (i / 8) (i % 8) = k := Option.some.inj hk
    obtain ⟨h1, h2⟩ := State.slcGate_gates (s.gatedAt (slcDomain (i / 8) (i % 8))) (i / 8) (i % 8)
    exact ⟨h1, h2 ▸ State.gatedAt_gating s _⟩
  by_cases hc : ∃ n, u = .controller n
  · obtain ⟨n, rfl⟩ := hc
    exact ⟨State.gatedAt_isGated s k, State.gatedAt_gating s k⟩
  · have hg := State.gate_seen s k (fun i e => hs ⟨i, e⟩)
    rw [State.isGated_of_gates hg (UnitKind.domain_even hk fun n e => hc ⟨n, e⟩), State.gating_of_gates hg]
    exact ⟨State.gatedAt_isGated s k, State.gatedAt_gating s k⟩

/-! ### Registers -/

theorem State.reg_setReg (s : State) (o : Nat) (v : BitVec 64) : (s.setReg o v).reg o = v := by
  simp [State.reg, State.setReg, Tbl.getD_setD_same]

theorem State.reg_setReg_other (s : State) {o a : Nat} (v : BitVec 64) (h : a ≠ o) : (s.setReg o v).reg a = s.reg a := by
  simp [State.reg, State.setReg, Tbl.getD_setD_other, h]

theorem State.regN_setReg (s : State) (o : Nat) (v : BitVec 64) : (s.setReg o v).regN o = v.toNat := by
  rw [State.regN, State.reg_setReg]

theorem bitOf_eq_testBit (n i : Nat) : bitOf n i = n.testBit i := by
  rw [bitOf, Nat.testBit_eq_decide_div_mod_eq, Nat.shiftRight_eq_div_pow]
  rfl

/-- A bit that has been set reads as set. -/
theorem bitOf_setBit_true (w : BitVec 64) {i : Nat} (hi : i < 64) : bitOf (setBit w i true).toNat i = true := by
  have hm : (2 ^ (i + 1 - i) - 1) <<< i = 2 ^ i := by simp [Nat.one_shiftLeft]
  have hp : 0 < 2 ^ i := Nat.two_pow_pos i
  have hq : (w.toNat - w.toNat / 2 ^ i % 2 * 2 ^ i) / 2 ^ i = w.toNat / 2 ^ i - w.toNat / 2 ^ i % 2 := by
    rw [Nat.mul_comm, Nat.sub_mul_div]
  simp only [setBit, setBits, hm, Nat.and_two_pow, b2n, if_true, Nat.one_shiftLeft, BitVec.toNat_ofNat, bitOf_eq_testBit,
    Nat.testBit_mod_two_pow, hi, decide_true, Bool.true_and, Nat.testBit_two_pow_self, Bool.toNat_true, one_mul]
  rw [Nat.testBit_eq_decide_div_mod_eq, Nat.testBit_eq_decide_div_mod_eq, Nat.add_div_right _ hp, decide_eq_true_eq]
  have hb : (decide (w.toNat / 2 ^ i % 2 = 1)).toNat = w.toNat / 2 ^ i % 2 := by
    obtain h | h := Nat.mod_two_eq_zero_or_one (w.toNat / 2 ^ i) <;> simp [h]
  rw [hb, hq]
  omega

/-! ### GATE, UNGATE and QUERY: R536 -/

theorem State.domainCommand_busy {s : State} (h : s.power.input = true) (hb : bitOf (s.regN (rPwr 0x50C)) 31 = true)
    (p : BitVec 64) (f : UnitKind → Nat → State) : s.domainCommand p f = .next s := by
  simp [State.domainCommand, whenHub, h, hb]

theorem State.domainCommand_none {s : State} (h : s.power.input = true) (hb : bitOf (s.regN (rPwr 0x50C)) 31 = false)
    {p : BitVec 64} (hd : s.domainOf p = none) (f : UnitKind → Nat → State) :
    s.domainCommand p f = .next (s.domainDone 2 false) := by
  simp [State.domainCommand, whenHub, h, hb, hd]

theorem State.domainCommand_some {s : State} (h : s.power.input = true) (hb : bitOf (s.regN (rPwr 0x50C)) 31 = false)
    {p : BitVec 64} {u : UnitKind} {k : Nat} (hd : s.domainOf p = some (u, k)) (f : UnitKind → Nat → State) :
    s.domainCommand p f = .next (f u k) := by
  simp [State.domainCommand, whenHub, h, hb, hd]

@[simp] theorem State.setReg_power (s : State) (o : Nat) (v : BitVec 64) : (s.setReg o v).power = s.power := by
  simp [State.setReg]

@[simp] theorem State.setReg_boot (s : State) (o : Nat) (v : BitVec 64) : (s.setReg o v).boot = s.boot := by
  simp [State.setReg]

theorem State.setReg_isGated (s : State) (o : Nat) (v : BitVec 64) (k : Nat) : (s.setReg o v).isGated k = s.isGated k := by
  rw [State.isGated, State.setReg_power, State.isGated]

theorem State.domainDone_isGated (s : State) (r : Nat) (g : Bool) (k : Nat) : (s.domainDone r g).isGated k = s.isGated k :=
  State.setReg_isGated ..

theorem State.domainDone_power (s : State) (r : Nat) (g : Bool) : (s.domainDone r g).power = s.power :=
  State.setReg_power ..

theorem State.wakeCore_isGated (s : State) (c : Nat) : (s.wakeCore c).isGated (coreDomain c) = false := by
  simp only [State.wakeCore]
  split
  · rw [State.isGated_of_gates (State.trimCheck_seen _) (show coreDomain c % 2 = 0 from keyOf_even ..)]
    simp [State.isGated]
  · rename_i h
    simpa [State.coreGated, State.isGated] using h

theorem State.ungate_isGated (s : State) {p : BitVec 64} {u : UnitKind} {k : Nat} (hd : s.domainOf p = some (u, k)) :
    (s.ungate u k).isGated k = false := by
  have hk := State.domainOf_domain hd
  cases u with
  | coreUnit c i =>
    simp only [UnitKind.domain] at hk
    split at hk
    · exact Option.some.inj hk ▸ State.wakeCore_isGated s c
    · cases hk
  | _ => simp [State.ungate, State.isGated]

@[simp] theorem State.alert_power (s : State) (n : Nat) : (s.alert n).power = s.power := by
  simp [State.alert, State.emitN, State.emit]

theorem State.startWrite_power (s : State) (region : Nat) (r : FlashRec) : (s.startWrite region r).power = s.power := by
  simp [State.startWrite, State.recStat]

theorem State.startWrite_writer (s : State) (region : Nat) (r : FlashRec) :
    (s.startWrite region r).boot.writer = some { region := region, bank := s.writeBank region, image := r } := by
  simp [State.startWrite, State.recStat]

theorem execThermalTrip_writes {s : State} {d : Nat} (h : s.running) (hd : d < 32) (hp : s.diePresent d = true)
    (ht : 115 ≤ s.power.temps.getD (fun _ => 0) d) :
    ∃ t w, execThermalTrip d s = .next t ∧ t.power.tripped = true ∧ t.boot.writer = some w ∧ w.region = 2 := by
  have hc : (d < 32 && s.diePresent d && 115 ≤ s.power.temps.getD (fun _ => 0) d : Bool) = true := by simp [hd, hp, ht]
  unfold execThermalTrip
  rw [whenPowered_running h, hc, whenIt_true]
  refine ⟨_, _, rfl, ?_, State.startWrite_writer .., rfl⟩
  rw [State.startWrite_power, State.alert_power, State.withPower_power]

theorem State.moduleReset_cold (s : State) : (s.moduleReset true).power.input = true
    ∧ (s.moduleReset true).boot.flash = s.boot.flash := ⟨rfl, rfl⟩

theorem State.withPower_self (s : State) {x : Power} (h : x = s.power) : s.withPower x = s := by rw [h]; rfl

theorem State.withPower_withPower (s : State) (x y : Power) : (s.withPower x).withPower y = s.withPower y := rfl

/-- What every command on a domain comes to, GATE, UNGATE and QUERY come to. -/
theorem exec_domainCommands (s : State) (p : BitVec 64) (w : Bool) (o : Out) (h : ∀ f, s.domainCommand p f = o) :
    ∀ cmd ∈ [Instr.gate p w, .ungate p, .query p], exec cmd s = o := by
  have hg : execGate p w s = o := h _
  have hu : execUngate p s = o := h _
  have hq : execQuery p s = o := h _
  intro cmd hc
  simp only [List.mem_cons, List.not_mem_nil, or_false] at hc
  obtain rfl | rfl | rfl := hc
  · exact hg
  · exact hu
  · exact hq

/-- Settles O47. What a GATE has put in the list of gated domains stays there, whatever the unit gives up
(`State.gate_gated`), and what UNGATE and a wake take from it is gone (`State.ungate_isGated`). -/
theorem domainsAndInput : Obligations.DomainsAndInput := by
  unfold Obligations.DomainsAndInput
  refine ⟨fun s p w hr => ⟨fun hb => ?_, fun hb => ⟨fun hd => ?_, fun u k hd => ?_⟩,
      fun u k hd => ⟨fun hg hy => ?_, fun hg hy => ?_⟩⟩,
    fun s d hr hd hp ht => ?_, fun s => ⟨fun hi => ?_, fun hi => ?_⟩⟩
  · exact exec_domainCommands s p w _ (State.domainCommand_busy hr.1 hb p)
  · exact exec_domainCommands s p w _ (State.domainCommand_none hr.1 hb hd)
  · have gate (f : UnitKind → Nat → State) := State.domainCommand_some hr.1 hb hd f
    refine ⟨gate _, ⟨_, gate _, ?_⟩, fun hg => (gate _).trans ?_, fun hg hf => (gate _).trans ?_,
      fun hg hf hy => ⟨(s.gate u k).domainDone 0 true, (gate _).trans ?_, ?_, ?_⟩,
      fun hg hf hy => ⟨(s.withPower { s.power with gating := [k] }).setRegBit (rPwr 0x50C) 31 true,
        (gate _).trans ?_, ?_, ?_, ?_⟩⟩
    · rw [State.domainDone_isGated, State.ungate_isGated s hd]
    · rw [if_pos hg]
    · rw [if_neg (by simp [hg]), if_pos hf]
    · rw [if_neg (by simp [hg]), if_neg (by simp [hf]), if_pos hy]
    · rw [State.domainDone_isGated, (State.gate_gated s hd).1]
    · exact State.regN_setReg ..
    · rw [if_neg (by simp [hg]), if_neg (by simp [hf]), if_neg (by simp [hy])]
    · rw [State.setRegBit, State.setReg_isGated]
      exact hg
    · rw [State.setRegBit, State.setReg_power]
      rfl
    · rw [State.setRegBit, State.regN_setReg]
      exact bitOf_setBit_true _ (by decide)
  · refine ⟨(s.gate u k).domainDone 0 true, (whenPowered_running hr _).trans ?_, ?_, ?_⟩
    · simp only [hd, withSome, hg, hy, Bool.and_self, whenIt_true, Act.out_next]
    · rw [State.domainDone_isGated, (State.gate_gated s hd).1]
    · rw [State.domainDone_power, (State.gate_gated s hd).2]
  · refine ⟨s.ungate u k, (whenPowered_running hr _).trans ?_, State.ungate_isGated s hd⟩
    simp [hd, withSome, hg, hy]
  · exact execThermalTrip_writes hr hd hp ht
  · obtain ⟨hin, hfl⟩ := State.moduleReset_cold s
    refine ⟨_, whenHub_input hi _, rfl, ?_, hfl⟩
    exact (State.withPower_withPower ..).trans (State.withPower_self _ (by rw [← hin]; rfl))
  · have he : execInputPowerOn s = .next (s.moduleReset true) := by simp [execInputPowerOn, hi]
    exact ⟨_, he, rfl, State.moduleReset_cold s⟩

end Sys2Proof.Machine

end

section

/-!
### Marks, boundaries, the pitch and commits

The commands of the ruling tracker (R18 to R48, R692).
-/

namespace Sys2Proof.Machine

/-! ### The alert stays raised while records are logged -/

theorem State.hatch_of_seen {s t : State} (h : Obs.hatch.see t = Obs.hatch.see s) : t.hatch = s.hatch := h

/-- The alert, once raised, stays raised in the state that follows. -/
structure State.keepsAlert (s t : State) : Prop where
  alert : s.hatch.alert = true → t.hatch.alert = true

theorem State.keepsAlert_refl (s : State) : s.keepsAlert s := ⟨id⟩

theorem State.keepsAlert_of_hatch {s t : State} (h : t.hatch = s.hatch) : s.keepsAlert t := ⟨fun ha => by rwa [h]⟩

theorem State.keepsAlert_trans {s t u : State} (h : s.keepsAlert t) (k : t.keepsAlert u) : s.keepsAlert u :=
  ⟨fun ha => k.alert (h.alert ha)⟩

theorem State.alert_alert (s : State) (n : Nat) : (s.alert n).hatch.alert = true := by
  simp [State.alert, State.emitN, State.emit]

theorem State.mgmt_keepsAlert (s : State) (a : List Nat) (b : List Byte) : s.keepsAlert (s.mgmt a b) :=
  ⟨fun h => by simpa [State.mgmt] using h⟩

theorem State.rasIntr_keepsAlert (s : State) (sev : Nat) : s.keepsAlert (s.rasIntr sev) := by
  simp only [State.rasIntr]
  split
  · exact ⟨fun _ => State.alert_alert ..⟩
  · refine State.keepsAlert_of_hatch ?_
    split
    · exact State.hatch_of_seen (State.msiTarget_seen ..)
    · rfl

theorem State.foldl_keepsAlert {β : Type} (g : State → β → State) (s : State) (l : List β)
    (hg : ∀ (u : State) x, u.keepsAlert (g u x)) : s.keepsAlert (l.foldl g s) := by
  induction l generalizing s with
  | nil => exact State.keepsAlert_refl _
  | cons x l ih => exact State.keepsAlert_trans (hg s x) (ih (g s x))

theorem State.logDrop_keepsAlert (s : State) (sev : Nat) : s.keepsAlert (s.logDrop sev) :=
  State.keepsAlert_trans
    (State.keepsAlert_of_hatch ((State.withRas_hatch ..).trans (State.hatch_of_seen (State.bump_seen ..))))
    (State.rasIntr_keepsAlert ..)

theorem State.logKeep_keepsAlert (s : State) (r : ErrRec) (w : Word) : s.keepsAlert (s.logKeep r w) := by
  have hm : ∀ (c : Prop) [Decidable c] (u : State) (a : List Nat) (b : List Byte),
      u.keepsAlert (if c then u.mgmt a b else u) := fun c _ u a b => by
    split
    · exact State.mgmt_keepsAlert ..
    · exact State.keepsAlert_refl _
  have hn : s.keepsAlert s.nextIndex := State.keepsAlert_of_hatch (State.hatch_of_seen (State.nextIndex_seen _))
  unfold State.logKeep
  extract_lets e u v
  have hv : s.keepsAlert v := State.keepsAlert_trans hn (hm ..)
  split
  · exact State.keepsAlert_trans hv (State.keepsAlert_of_hatch (State.withRas_hatch ..))
  · exact State.keepsAlert_trans hv (State.logDrop_keepsAlert ..)

/-- A write of the log's own, and the records that it makes. -/
theorem State.ownWrite_keepsAlert (s : State) (a : Nat) (bs : List Byte) : s.keepsAlert ((s.count a).ownWrite a bs).1 :=
  State.keepsAlert_of_hatch (State.hatch_of_seen ((State.ownWrite_seen ..).trans (State.count_seen ..)))

theorem State.logPut_keepsAlert (s : State) (e : LogEnt) : s.keepsAlert (s.logPut e) := by
  unfold State.logPut
  extract_lets size tail a r
  split
  · exact State.logDrop_keepsAlert ..
  have hr : s.keepsAlert r.1 := State.ownWrite_keepsAlert s a _
  refine State.keepsAlert_trans hr (State.keepsAlert_trans ?_
    (State.foldl_keepsAlert _ _ _ fun u x => State.logKeep_keepsAlert ..))
  exact State.keepsAlert_trans (State.keepsAlert_of_hatch (State.withRas_hatch ..)) (State.rasIntr_keepsAlert ..)

theorem State.logWaiting_keepsAlert (s : State) (n : Nat) : s.keepsAlert (s.logWaiting n) := by
  induction n generalizing s with
  | zero => exact State.keepsAlert_refl _
  | succ n ih =>
    simp only [State.logWaiting]
    split
    · exact State.keepsAlert_refl _
    split
    · exact State.keepsAlert_refl _
    · exact State.keepsAlert_trans (State.keepsAlert_of_hatch (State.withRas_hatch ..))
        (State.keepsAlert_trans (State.logPut_keepsAlert ..) (ih _))

theorem State.logFlush_keepsAlert (s : State) : s.keepsAlert s.logFlush := by
  simp only [State.logFlush]
  split
  · exact State.logWaiting_keepsAlert ..
  · exact State.keepsAlert_refl _

theorem State.hotPut_keepsAlert (s : State) (r : HotRec) : s.keepsAlert (s.hotPut r) := by
  unfold State.hotPut
  extract_lets size head a w
  refine State.keepsAlert_trans (t := w.2.foldl (fun s x => s.logKeep x s.now) w.1) ?_
    (State.keepsAlert_of_hatch (State.hatch_of_seen (State.setReg_seen ..)))
  exact State.keepsAlert_trans (State.ownWrite_keepsAlert s a _)
    (State.foldl_keepsAlert _ _ _ fun u x => State.logKeep_keepsAlert ..)

theorem State.hotFlush_keepsAlert (s : State) (n : Nat) : s.keepsAlert (s.hotFlush n) := by
  induction n generalizing s with
  | zero => exact State.keepsAlert_refl _
  | succ n ih =>
    simp only [State.hotFlush]
    split
    · exact State.keepsAlert_refl _
    split
    · exact State.keepsAlert_refl _
    · exact State.keepsAlert_trans (State.keepsAlert_of_hatch (State.withPeel_hatch ..))
        (State.keepsAlert_trans (State.hotPut_keepsAlert ..) (ih _))

theorem State.log_keepsAlert (s : State) (r : ErrRec) : s.keepsAlert (s.log r) := by
  simp only [State.log, State.logAt, State.recordsOut]
  refine State.keepsAlert_trans (State.logKeep_keepsAlert s r s.now)
    (State.keepsAlert_trans ?_ (State.hotFlush_keepsAlert ..))
  split
  · exact State.keepsAlert_refl _
  · exact State.logFlush_keepsAlert ..

theorem State.enterLost_alert (s : State) : s.enterLost.hatch.alert = true := by
  simp only [State.enterLost, State.timeRecord]
  exact (State.log_keepsAlert _ _).alert (State.alert_alert ..)

theorem State.enterLost_state (s : State) : s.enterLost.ruling.state = .lost := by
  simp [State.ruling_eq_time, State.enterLost, State.rule_time]

/-! ### Marks: R23, R24 -/

theorem State.tryLock_kept (s : State) : s.tryLock.time.predicted = s.time.predicted ∧ s.tryLock.time.marked = s.time.marked
    ∧ s.tryLock.time.missed = s.time.missed := by
  simp only [State.tryLock]
  split
  · split
    · simp [State.ruling_eq_time]
    · exact ⟨rfl, rfl, rfl⟩
  · exact ⟨rfl, rfl, rfl⟩

theorem State.tryLock_of_ne {s : State} (h : s.ruling.state ≠ .acquiring) : s.tryLock = s := by
  simp only [State.tryLock]
  split
  · rename_i e _
    exact absurd e h
  · rfl

/-- What the tracker holds as a mark has been taken, before the lock. -/
theorem State.acceptMark_time (s : State) (t p measured : Nat) :
    ∃ u : State, s.acceptMark t p measured = u.tryLock ∧ u.time.predicted = some (t + measured) ∧ u.time.marked = true
      ∧ u.time.missed = 0 ∧ u.time.state = if s.ruling.state = .flywheel then .locked else s.ruling.state := by
  refine ⟨_, rfl, ?_, ?_, ?_, ?_⟩
  · simp
  · simp
  · simp
  · simp only [State.withHatch_seen, State.rule_withRuling_time, State.ruling_eq_time, State.setReg_seen]
    rfl

theorem State.acceptMark_kept (s : State) (t p measured : Nat) :
    (s.acceptMark t p measured).ruling.predicted = some (t + measured) ∧ (s.acceptMark t p measured).ruling.marked = true
      ∧ (s.acceptMark t p measured).ruling.missed = 0 := by
  obtain ⟨u, e, hp, hm, hn, -⟩ := State.acceptMark_time s t p measured
  obtain ⟨kp, km, kn⟩ := State.tryLock_kept u
  rw [e]
  exact ⟨kp.trans hp, km.trans hm, kn.trans hn⟩

theorem State.acceptMark_locks {s : State} (h : s.ruling.state = .flywheel) (t p measured : Nat) :
    (s.acceptMark t p measured).ruling.state = .locked := by
  obtain ⟨u, e, -, -, -, hs⟩ := State.acceptMark_time s t p measured
  have hu : u.ruling.state = .locked := by rw [State.ruling_eq_time, hs, h]; rfl
  rw [e, State.tryLock_of_ne (by simp [hu]), hu]

/-! ### Boundaries: R21, R23, R42 -/

theorem State.slewHolds_of_ne {s : State} (h : s.ruling.state ≠ .slew) : s.slewHolds = false := by simp [State.slewHolds, h]

/-- The state in which the line of a boundary begins, before its number advances. -/
def State.beforeLine (s : State) : State := s.sendChunks.hatchLine.passTime.settleCeiling

theorem State.beforeLine_time (s : State) : s.beforeLine.time = s.time := by simp [State.beforeLine]

/-- Outside SLEW a boundary advances the line and looks for its mark; what follows in it leaves the tracker as it is. -/
theorem execLineBoundary_time (m : LineMeas) {s : State} (hi : s.power.input = true) (hs : s.ruling.state ≠ .slew) :
    ∃ t : State, execLineBoundary m s = .next t ∧ t.time =
      { s.beforeLine.advanceLine.markLine.time with
        slewSkip := s.beforeLine.advanceLine.markLine.ruling.state = .slew } := by
  have h0 : s.sendChunks.hatchLine.passTime.ruling = s.ruling := by simp [State.ruling_eq_time]
  unfold execLineBoundary
  rw [whenHub_input hi]
  dsimp only
  rw [State.slewHolds_of_ne (by rwa [h0])]
  simp only [Bool.false_eq_true, if_false, Act.out_ite, Act.out_next]
  split
  all_goals
    refine ⟨_, rfl, ?_⟩
    simp only [State.linksLine_time, State.ite_seen, State.plateLine_time, State.ageLine_time, State.ageHub_time, ite_self,
      State.powerLine_time, State.closeLine_time, State.commitLine_time, State.withRuling_time]
    rfl

theorem State.advanceLine_time (s : State) : s.advanceLine.time = { s.ruling with
    line := (s.ruling.line + s.lineStep) % 2 ^ 48, stroke := 0, tick := 0, jump := 0
    state := if s.ruling.state = .lost && s.ruling.jump != 0 then .locked else s.ruling.state } := by
  simp only [State.advanceLine]
  split
  · rw [State.rule_time]
    simp
  · simp

theorem State.markLine_time_of_marked {s : State} (h : s.ruling.marked = true) :
    s.markLine.time = { s.ruling with marked := false, sinceStart := s.ruling.sinceStart + 1 } := by
  simp [State.markLine, h]

theorem State.missLine_flywheel {s : State} (hs : s.ruling.state = .locked) (hp : s.ruling.predicted ≠ none) :
    s.missLine.ruling.state = .flywheel := by
  obtain ⟨p, hp⟩ := Option.ne_none_iff_exists'.mp hp
  have hb : (s.bump rRuleMissed).ruling = s.ruling := by simp [State.ruling_eq_time]
  simp only [State.missLine, hs, hb, hp, reduceCtorEq, if_false]
  rw [State.ruling_eq_time, State.rule_time, State.withRuling_time]

theorem State.markLine_flywheel {s : State} (hs : s.ruling.state = .locked) (hp : s.ruling.predicted ≠ none)
    (hm : s.ruling.marked = false) : s.markLine.time.state = .flywheel := by
  unfold State.markLine
  rw [if_neg (by simp [hm])]
  refine (congrArg Ruling.state (State.withRuling_time ..)).trans ?_
  exact State.missLine_flywheel hs hp

theorem execLineBoundary_marked (m : LineMeas) {s : State} (hi : s.power.input = true) (hs : s.ruling.state ≠ .slew)
    (hm : s.ruling.marked = true) : ∃ t : State, execLineBoundary m s = .next t
      ∧ t.ruling.line = (s.ruling.line + 1 + s.ruling.jump) % 2 ^ 48 ∧ t.ruling.stroke = 0 ∧ t.ruling.tick = 0 := by
  obtain ⟨t, e, ht⟩ := execLineBoundary_time m hi hs
  have hb : s.beforeLine.ruling = s.ruling := State.beforeLine_time s
  have ha : s.beforeLine.advanceLine.ruling.marked = true := by
    rw [State.ruling_eq_time, State.advanceLine_time, hb]; exact hm
  refine ⟨t, e, ?_⟩
  rw [State.ruling_eq_time, ht, State.markLine_time_of_marked ha, State.ruling_eq_time, State.advanceLine_time, hb,
    State.lineStep, hb, ← Nat.add_assoc]
  exact ⟨rfl, rfl, rfl⟩

theorem execLineBoundary_missed (m : LineMeas) {s : State} (hi : s.power.input = true) (hs : s.ruling.state = .locked)
    (hp : s.ruling.predicted ≠ none) (hm : s.ruling.marked = false) :
    ∃ t : State, execLineBoundary m s = .next t ∧ t.ruling.state = .flywheel := by
  obtain ⟨t, e, ht⟩ := execLineBoundary_time m hi (by simp [hs])
  have hb : s.beforeLine.ruling = s.ruling := State.beforeLine_time s
  have ha := State.advanceLine_time s.beforeLine
  rw [hb] at ha
  refine ⟨t, e, ?_⟩
  rw [State.ruling_eq_time, ht]
  refine State.markLine_flywheel ?_ ?_ ?_ <;> rw [State.ruling_eq_time, ha]
  · simp [hs]
  · exact hp
  · exact hm

/-! ### The pitch: R18 -/

theorem State.bump_reg {s : State} {o a : Nat} (h : a ≠ o) : (s.bump o).reg a = s.reg a := State.reg_setReg_other s _ h

theorem rPd_ne_rRuleCtl (p o : Nat) : rRuleCtl ≠ rPd p o := by
  simp only [rRuleCtl, rPd]
  omega

/-- The interrupt that a change of the tracker raises leaves the pitch as it is. -/
theorem State.msiTarget_pitch (s : State) (t : Nat) : (s.msiTarget t).reg rRuleCtl = s.reg rRuleCtl := by
  simp only [State.msiTarget, State.msi]
  split
  · rfl
  split
  · exact State.bump_reg (rPd_ne_rRuleCtl _ _)
  split
  · rfl
  · simp [State.reg]

theorem State.rule_pitch (s : State) (f : State → State) : (s.rule f).reg rRuleCtl = (f s).reg rRuleCtl := by
  simp only [State.rule]
  split
  · exact State.msiTarget_pitch ..
  · rfl

theorem execPitchWrite_new (v : BitVec 32) {s : State} (hi : s.power.input = true) (hp : s.boot.phase ≠ 2)
    (hv : v.toNat % 8 ≤ 4) (hn : v.toNat % 8 ≠ s.regN rRuleCtl % 8) :
    ∃ t : State, execPitchWrite v s = .next t ∧ t.regN rRuleCtl = v.toNat % 8
      ∧ (s.ruling.state ≠ .unruled → t.ruling.state = .acquiring ∧ t.ruling.line = 0) := by
  have hc : ∀ u : State, u.reg rRuleCtl = BitVec.ofNat 64 (v.toNat % 8) → u.regN rRuleCtl = v.toNat % 8 := fun u hu => by
    rw [State.regN, hu, BitVec.toNat_ofNat]
    omega
  have hr : ∀ w, (s.setReg rRuleCtl w).ruling = s.ruling := fun w => by simp [State.ruling_eq_time]
  unfold execPitchWrite
  rw [whenHub_input hi]
  dsimp only
  rw [if_neg (by simp only [Bool.or_eq_true, decide_eq_true_eq]; omega), if_neg hn, hr]
  split
  · rename_i hu
    exact ⟨_, rfl, hc _ (State.reg_setReg ..), fun h => absurd hu h⟩
  · refine ⟨_, rfl, hc _ ?_, fun _ => ?_⟩
    · rw [State.rule_pitch]
      simpa [State.reg] using State.reg_setReg s _ _
    · simp [State.ruling_eq_time, Ruling.init]

theorem whenHub_next {s : State} (hi : s.power.input = true) (a : Act) : ∃ t, whenHub s a = .next t := by
  rw [whenHub_input hi]
  cases a with
  | next t => exact ⟨t, rfl⟩
  | stay => exact ⟨s, rfl⟩

/-! ### Arming commits: R33 to R35, R38 -/

/-- The commit that COMMIT_ARM puts in the list (R34, R35). -/
theorem execCommitArm_pending (v : BitVec 32) {s : State} (hi : s.power.input = true) (h0 : v.toNat % 2 ^ 17 ≠ 0)
    (he : s.effective (v.toNat % 2 ^ 17) ≠ 0) (hl : s.regs.commits.length < 8)
    (hd : ∀ c ∈ s.regs.commits, c.mask &&& s.effective (v.toNat % 2 ^ 17) = 0) :
    ∃ t c, execCommitArm v s = .next t ∧ t.regs.commits = s.regs.commits ++ [c]
      ∧ c.mask = s.effective (v.toNat % 2 ^ 17)
      ∧ c.late = (!bitOf v.toNat 31 && !s.onTime (s.regN rCommitLine % 2 ^ 48))
      ∧ c.due = (if bitOf v.toNat 31 || (!bitOf v.toNat 31 && !s.onTime (s.regN rCommitLine % 2 ^ 48)) then s.earliestLine
        else s.regN rCommitLine % 2 ^ 48) := by
  have hn : ¬ (8 ≤ s.regs.commits.length || s.regs.commits.any (fun c => c.mask &&& s.effective (v.toNat % 2 ^ 17) != 0))
      = true := by
    simp only [Bool.or_eq_true, decide_eq_true_eq, List.any_eq_true, not_or, Nat.not_le]
    exact ⟨hl, fun ⟨c, hc, hm⟩ => by rw [hd c hc] at hm; cases hm⟩
  unfold execCommitArm
  rw [whenHub_input hi]
  dsimp only
  rw [if_neg h0, if_neg he, if_neg hn]
  refine ⟨_, _, rfl, congrArg Regs.commits (State.withRegs_regs ..), ?_⟩
  cases bitOf v.toNat 31
  · cases s.onTime (s.regN rCommitLine % 2 ^ 48) <;> exact ⟨rfl, rfl, rfl⟩
  · exact ⟨rfl, rfl, rfl⟩

/-- Settles O58: each command by the case of its own definition that the hypotheses choose. -/
theorem rulingCommands : Obligations.RulingCommands := by
  unfold Obligations.RulingCommands
  intro s hi
  refine ⟨fun e => ⟨whenHub_next hi _, fun hu => ?_, fun hu => ⟨fun hp hc => ?_, fun c hp hc ha => ?_,
      fun p hp => ⟨fun ha => ?_, fun ha hm => ?_⟩⟩⟩,
    fun m => ⟨whenHub_next hi _, fun _ hs => ⟨fun hm => ?_, fun hm hl hp => ?_⟩⟩, fun hs ht => ?_,
    fun v => ⟨fun h => ?_, fun hp hv he => ?_, fun hp hv hn => ?_⟩,
    fun v => ⟨fun h0 => ?_, fun h0 => ⟨fun he => ?_, fun he => ⟨fun hb => ?_, fun hl hd => ?_⟩⟩⟩⟩
  · exact (whenHub_input hi _).trans (by simp [hu])
  · refine (whenHub_input hi _).trans ?_
    dsimp only
    rw [if_neg hu, hp]
    dsimp only
    split
    · rename_i c e'
      rw [if_neg (Nat.not_le.mpr (hc c e'))]
      rfl
    · rfl
  · obtain ⟨hq, hm, -⟩ := State.acceptMark_kept (s.withRuling { s.ruling with good := 0 }) e (c + s.pitch) (e - c)
    refine ⟨_, (whenHub_input hi _).trans ?_, hq, hm⟩
    dsimp only
    rw [if_neg hu, hp, hc]
    dsimp only
    rw [if_pos ha]
    rfl
  · refine (whenHub_input hi _).trans ?_
    dsimp only
    rw [if_neg hu, hp]
    dsimp only
    rw [if_neg (Nat.not_le.mpr ha)]
    rfl
  · obtain ⟨-, hk, h0⟩ :=
  State.acceptMark_kept s e p (if s.ruling.missed = 0 then e + s.ruling.measured - p else s.ruling.measured)
    refine ⟨_, (whenHub_input hi _).trans ?_, hk, h0, fun hf => State.acceptMark_locks hf ..⟩
    dsimp only
    rw [if_neg hu, hp]
    dsimp only
    rw [if_pos ha, if_neg (by simp only [Bool.and_eq_true, decide_eq_true_eq]; omega)]
    rfl
  · exact execLineBoundary_marked m hi hs hm
  · exact execLineBoundary_missed m hi hl hp hm
  · refine ⟨s.enterLost, (whenHub_input hi _).trans ?_, State.enterLost_state s, State.enterLost_alert s⟩
    simp [hs, ht]
  · refine (whenHub_input hi _).trans ?_
    dsimp only
    rw [if_pos (by simpa using h)]
    rfl
  · refine (whenHub_input hi _).trans ?_
    dsimp only
    rw [if_neg (by simp only [Bool.or_eq_true, decide_eq_true_eq]; omega), if_pos he]
    rfl
  · exact execPitchWrite_new v hi hp hv hn
  · exact (whenHub_input hi _).trans (by dsimp only; rw [if_pos h0]; rfl)
  · exact (whenHub_input hi _).trans (by dsimp only; rw [if_neg h0, if_pos he]; rfl)
  · refine (whenHub_input hi _).trans ?_
    dsimp only
    rw [if_neg h0, if_neg he, if_pos (by simpa using hb)]
    rfl
  · exact execCommitArm_pending v hi h0 he hl hd

end Sys2Proof.Machine

end

section

/-!
### The hatch bus

Chunks, module and rack frames, scan packets and the hatch clock (R47, R646 to R658).
-/

namespace Sys2Proof.Machine

/-! ### What the hatch bus and its frames are made of -/

theorem State.rule_hatch (s : State) (f : State → State) : (s.rule f).hatch = (f s).hatch := by
  simp only [State.rule]
  split
  · exact State.hatch_of_seen (State.msiTarget_seen ..)
  · rfl

theorem State.msiTarget_power (s : State) (t : Nat) : (s.msiTarget t).power = s.power := by
  simp only [State.msiTarget, State.msi]
  split
  · rfl
  split
  · exact State.setReg_power ..
  split
  · rfl
  · simp

theorem State.rule_power (s : State) (f : State → State) : (s.rule f).power = (f s).power := by
  simp only [State.rule]
  split
  · exact State.msiTarget_power ..
  · rfl

theorem length_toBytes (n v : Nat) : (toBytes n v).length = n := by
  induction n generalizing v with
  | zero => rfl
  | succ n ih => rw [toBytes, List.length_cons, ih]

theorem length_upFrom (a n : Nat) : (upFrom a n).length = n := by
  induction n generalizing a with
  | zero => rfl
  | succ n ih => rw [upFrom, List.length_cons, ih]

/-- A module frame is 14 bytes (R652). -/
theorem State.frame_length (s : State) : (s.frameBody ++ toBytes 2 (crc16 s.frameBody)).length = 14 := by
  simp only [State.frameBody, List.length_append, length_toBytes]

theorem State.inStroke_append {s : State} {l : List Nat} (h : s.inStroke l = true) (k : List Nat) :
    s.inStroke (l ++ k) = true := by
  simp only [State.inStroke, Bool.or_eq_true, List.contains_append] at h ⊢
  exact h.imp_right .inl

/-! ### Chunks: R653, R654 -/

/-- A packet that is whole joins those held, when there is room. -/
theorem State.appendChunk_whole {s : State} {p : List Byte} (hp : 2 + leAt p 0 2 = p.length) (hr : s.hatch.rx.length < 8) :
    (s.appendChunk p).hatch.rx = s.hatch.rx ++ [p.drop 2] ∧ (s.appendChunk p).hatch.part = none := by
  have hl : (p.drop 2).take (leAt p 0 2) = p.drop 2 := List.take_of_length_le (by rw [List.length_drop]; omega)
  have hc : (2 ≤ p.length && 2 + leAt p 0 2 ≤ p.length : Bool) = true := by
    simp only [Bool.and_eq_true, decide_eq_true_eq]
    omega
  rw [State.appendChunk, if_pos hc, hl, State.takePacket]
  simp [hr]

/-- What a chunk comes to that fails its checks, and one that starts a packet. -/
theorem execManagementChunk_heard {s : State} {b : List Byte} (hi : s.power.input = true) (ho : s.busOpen = true)
    (hs : s.inStroke [4, 6, 8, 10, 12] = true) (hb : b.length < s.strokeCycles) :
    (chunkOk s.strokeCycles b = false → execManagementChunk b s =
      .next ((s.withHatch { s.hatch with part := none, skip := true }).bump (rHatch 0x10)))
    ∧ (chunkOk s.strokeCycles b = true → leAt b 0 1 % 128 ≠ 0 → bitOf (leAt b 0 1) 7 = true →
      execManagementChunk b s = .next (s.appendChunk ((b.drop 1).take (leAt b 0 1 % 128)))) := by
  have ht : b.take (s.strokeCycles - 1) = b := List.take_of_length_le (by omega)
  unfold execManagementChunk
  rw [whenHub_input hi]
  dsimp only
  rw [ht, ho, State.inStroke_append hs, Bool.and_self, whenIt_true]
  refine ⟨fun hc => ?_, fun hc hl hf => ?_⟩
  · rw [hc]
    rfl
  · rw [hc, if_neg (by decide), if_neg hl, if_pos hf]
    rfl

theorem execManagementChunk_bad {s : State} {b : List Byte} (hi : s.power.input = true) (ho : s.busOpen = true)
    (hs : s.inStroke [4, 6, 8, 10, 12] = true) (hb : b.length < s.strokeCycles) (hc : chunkOk s.strokeCycles b = false) :
    ∃ t : State, execManagementChunk b s = .next t ∧ t.hatch.part = none ∧ t.hatch.rx = s.hatch.rx
      ∧ t.regN (rHatch 0x10) = satInc 32 (s.regN (rHatch 0x10)) % 2 ^ 64 := by
  have hh : ∀ (u : State) o, (u.bump o).hatch = u.hatch := fun u o => State.hatch_of_seen (State.bump_seen ..)
  refine ⟨_, (execManagementChunk_heard hi ho hs hb).1 hc, ?_, ?_, ?_⟩
  · rw [hh, State.withHatch_hatch]
  · rw [hh, State.withHatch_hatch]
  · exact (State.regN_setReg ..).trans (BitVec.toNat_ofNat ..)

theorem execManagementChunk_whole {s : State} {b : List Byte} (hi : s.power.input = true) (ho : s.busOpen = true)
    (hs : s.inStroke [4, 6, 8, 10, 12] = true) (hb : b.length < s.strokeCycles) (hc : chunkOk s.strokeCycles b = true)
    (hf : bitOf (leAt b 0 1) 7 = true) (hl : 2 ≤ leAt b 0 1 % 128) {p : List Byte}
    (hp : p = (b.drop 1).take (leAt b 0 1 % 128))
    (hw : 2 + leAt p 0 2 = p.length) (hr : s.hatch.rx.length < 8) :
    ∃ t : State, execManagementChunk b s = .next t ∧ t.hatch.rx = s.hatch.rx ++ [p.drop 2] ∧ t.hatch.part = none :=
  ⟨s.appendChunk p, hp ▸ (execManagementChunk_heard hi ho hs hb).2 hc (by omega) hf, State.appendChunk_whole hw hr⟩

theorem execManagementChunk_next (b : List Byte) {s : State} (hi : s.power.input = true) :
    ∃ t : State, execManagementChunk b s = .next t := whenHub_next hi _

/-! ### Module frames and scan packets: R652, R658 -/

theorem execModuleFrameSend_open {s : State} (hi : s.power.input = true) (hf : s.hatch.framing ≠ .none)
    (hs : s.inStroke [2] = true) (ho : s.busOpen = true) :
    ∃ t o, execModuleFrameSend s = .next t ∧ t.out = o :: s.out ∧ t.withOut s.out = s ∧ o.kind = .frame
      ∧ o.bytes.length = 14 := by
  have he : execModuleFrameSend s =
      .next (s.emit { kind := .frame, args := [], bytes := s.frameBody ++ toBytes 2 (crc16 s.frameBody) }) := by
    refine (whenHub_input hi _).trans ?_
    have hn : (s.hatch.framing != .none) = true := bne_iff_ne.mpr hf
    rw [hs, ho, hn]
    rfl
  exact ⟨_, _, he, rfl, rfl, rfl, State.frame_length s⟩

theorem execModuleFrameSend_lost {s : State} (hi : s.power.input = true) (ho : s.busOpen = false) :
    execModuleFrameSend s = .next s := by
  refine (whenHub_input hi _).trans ?_
  rw [ho]
  cases (s.hatch.framing != .none && s.inStroke [2]) <;> rfl

theorem execScanInPacket_bad {s : State} (n : Nat) (data : List Byte) (hi : s.power.input = true) (ho : s.busOpen = true)
    (hc : s.hatch.scan = true) (hs : s.inStroke [14] = true) :
    execScanInPacket n data false s = .next (s.emitN .data [15, 0]) := by
  refine (whenHub_input hi _).trans ?_
  simp [ho, hc, hs]

theorem execScanInPacket_good {s : State} {n : Nat} (data : List Byte) (hi : s.power.input = true) (ho : s.busOpen = true)
    (hc : s.hatch.scan = true) (hs : s.inStroke [14] = true) (hn : n ≤ 8 * (s.strokeCycles - 4)) (hk : s.hatch.chain ≠ none) :
    ∃ t o, execScanInPacket n data true s = .next t ∧ t.out = o :: s.out ∧ o.args = [15, n]
      ∧ o.bytes.length = ceilDiv n 8 := by
  have he : execScanInPacket n data true s = .next (s.draw.1.emit
      { kind := .data, args := [15, n], bytes := (upFrom 0 (ceilDiv n 8)).map (Config.freeByte s.draw.2) }) := by
    refine (whenHub_input hi _).trans ?_
    obtain ⟨k, hk⟩ := Option.ne_none_iff_exists'.mp hk
    rw [ho, hc, hs, hk, if_neg (by simpa using hn)]
    rfl
  exact ⟨_, _, he, rfl, rfl, (List.length_map ..).trans (length_upFrom ..)⟩

/-! ### Rack frames and the hatch clock: R47, R651 -/

theorem State.busOpen_iff (s : State) :
    s.busOpen = true ↔ s.hatch.framing ≠ .none ∧ s.ruling.ckLost = false ∧ s.hatch.usable = true := by
  simp [State.busOpen, and_assoc]

theorem execRackFrame_lost {s : State} (b : List Byte) (hi : s.power.input = true) (hf : s.hatch.framing ≠ .none)
    (h : s.ruling.ckLost = true ∨ s.hatch.usable = false) : execRackFrame b s = .next s := by
  have hn : (s.hatch.framing != .none) = true := bne_iff_ne.mpr hf
  refine (whenHub_input hi _).trans ?_
  rw [hn, if_pos (by simpa using h)]
  rfl

theorem execRackFrame_invalid {s : State} {b : List Byte} (hi : s.power.input = true) (ho : s.busOpen = true)
    (h : b.length ≠ 14 ∨ rackValid b = false) : execRackFrame b s = .next (s.bump (rHatch 0xC)) := by
  obtain ⟨hf, hl, hu⟩ := s.busOpen_iff.mp ho
  have hn : (s.hatch.framing != .none) = true := bne_iff_ne.mpr hf
  have hv : rackValid b = false := by
    obtain h | h := h
    · simp [rackValid, h]
    · exact h
  refine (whenHub_input hi _).trans ?_
  rw [hn, hl, hu, hv]
  rfl

theorem execRackFrame_valid {s : State} {b : List Byte} (hi : s.power.input = true) (ho : s.busOpen = true)
    (hv : rackValid b = true) : ∃ t : State, execRackFrame b s = .next t
      ∧ t.power.grant = some (bitOf (leAt b 0 1) 6) ∧ (t.power.rackCap.map Prod.fst) = some (leAt b 7 2)
      ∧ (s.hatch.framing ≠ .marks → t.ruling = s.ruling) := by
  obtain ⟨hf, hl, hu⟩ := s.busOpen_iff.mp ho
  have hn : (s.hatch.framing != .none) = true := bne_iff_ne.mpr hf
  unfold execRackFrame
  rw [whenHub_input hi, hn, hl, hu, hv]
  refine ⟨_, rfl, rfl, rfl, fun hm => ?_⟩
  rw [if_neg hm]
  simp [State.ruling_eq_time]

theorem State.burstLine_lost {s : State} (hl : s.ruling.ckLost = true) (hs : s.ruling.state ≠ .unruled) :
    s.burstLine = false := by
  have hg : s.burstGranted = false := by
    simp only [State.burstGranted]
    split
    · rename_i e
      exact absurd e hs
    · rfl
    · rfl
    · rfl
    · rw [hl]; rfl
  rw [State.burstLine, hg, Bool.false_and]

/-- The loss of the clock as the tracker has it. -/
def State.clockMarked (s : State) : State := s.rule (fun u => (u.withRuling { u.ruling with ckLost := true }).ruleFlag 3)

theorem State.clockMarked_hatch (s : State) : s.clockMarked.hatch = s.hatch := by
  rw [State.clockMarked, State.rule_hatch]
  exact (State.hatch_of_seen (State.setRegBit_seen ..)).trans (State.withRuling_hatch ..)

theorem State.clockMarked_power (s : State) : s.clockMarked.power = s.power := by
  rw [State.clockMarked, State.rule_power]
  exact (State.setReg_power ..).trans (State.withRuling_power ..)

theorem State.clockMarked_ruling (s : State) : s.clockMarked.ruling = { s.ruling with ckLost := true } := by
  rw [State.clockMarked, State.ruling_eq_time, State.rule_time]
  exact (State.setRegBit_seen ..).trans (State.withRuling_time ..)

theorem execHatchClockLoss_drops {s : State} (hi : s.power.input = true) (hl : s.ruling.ckLost = false) :
    ∃ t : State, execHatchClockLoss s = .next t ∧ t.ruling.ckLost = true ∧ t.busOpen = false
      ∧ t.hatch.part = none ∧ t.power.grant = none
      ∧ t.hatch.tx = (s.hatch.tx.take 1).filterMap OutMsg.discard ++ s.hatch.tx.drop 1
      ∧ (s.power.decided = true → s.ruling.state ≠ .unruled → t.power.burstNext = false) := by
  obtain ⟨u, hu⟩ : ∃ u : State, (s.withHatch { s.hatch.discard with usable := false }).clockMarked = u := ⟨_, rfl⟩
  have hh : u.hatch = { s.hatch.discard with usable := false } := by rw [← hu, State.clockMarked_hatch, State.withHatch_hatch]
  have hp : u.power = s.power := by rw [← hu, State.clockMarked_power, State.withHatch_power]
  have hr : u.ruling = { s.ruling with ckLost := true } := by rw [← hu, State.clockMarked_ruling, State.withHatch_ruling]
  unfold execHatchClockLoss
  rw [whenHub_input hi, hl, Bool.not_false, whenIt_true]
  dsimp only
  rw [← State.clockMarked, hu]
  refine ⟨_, rfl, ?_⟩
  split
  · refine ⟨?_, ?_, ?_, ?_, ?_, fun _ hs => ?_⟩
    · rw [State.withPower_ruling, State.withPower_ruling, hr]
    · simp [State.busOpen, hr]
    · rw [State.withPower_hatch, State.withPower_hatch, hh]; rfl
    · rw [State.withPower_power, State.withPower_power]
    · rw [State.withPower_hatch, State.withPower_hatch, hh]; rfl
    · rw [State.withPower_power]
      refine State.burstLine_lost ?_ ?_ <;> rw [State.withPower_ruling, hr]
      exact hs
  · rename_i hd
    rw [State.withPower_power, hp] at hd
    refine ⟨?_, ?_, ?_, ?_, ?_, fun h _ => absurd h hd⟩
    · rw [State.withPower_ruling, hr]
    · simp [State.busOpen, hr]
    · rw [State.withPower_hatch, hh]; rfl
    · rw [State.withPower_power]
    · rw [State.withPower_hatch, hh]; rfl

/-- Settles O57: each command by the case of its own definition that the hypotheses choose. -/
theorem hatchBus : Obligations.HatchBus := by
  unfold Obligations.HatchBus
  intro s hi
  refine ⟨fun b ho hs hb => ⟨execManagementChunk_next b hi, execManagementChunk_bad hi ho hs hb, fun hc hf hl hw hr =>
      execManagementChunk_whole hi ho hs hb hc hf hl rfl hw hr⟩,
    fun hf hs => ⟨execModuleFrameSend_open hi hf hs, execModuleFrameSend_lost hi⟩,
    fun n data ho hc hs => ⟨execScanInPacket_bad n data hi ho hc hs, execScanInPacket_good data hi ho hc hs⟩,
    fun b hf => ⟨execRackFrame_lost b hi hf, execRackFrame_invalid hi, execRackFrame_valid hi⟩,
    execHatchClockLoss_drops hi, fun hl => (whenHub_input hi _).trans (by rw [hl]; rfl)⟩

end Sys2Proof.Machine

end

section

/-!
### Register writes and the BARs

What a write does by the class of its register, staged copies, and the accesses of the host (R32, R41, R595, R596, R661 to R667).
-/

namespace Sys2Proof.Machine

/-! #### The block and the register at an offset -/

/-- The pages of message files and the MSI-X table have no rows of registers. -/
theorem writeMmio_of_regAt {s : State} (h : s.running) {o x y : Nat} {b : Block0} {r : RegRow} {st : Bool}
    (hb : blockAt o = some (b, x)) (hr : regAt b x = some (r, y, st)) (size v : Nat) :
    s.writeMmio o size v = if s.blockPresent b && accessOk r x size
      then (s.touchMmio o).regWrite b r y (x % 0x8000 - y % 0x8000) size v else s := by
  have hon : s.blockOn b = s.blockPresent b := by simp [State.blockOn, h.2]
  unfold State.writeMmio
  rw [hb]
  cases b
  case mfile | sfile | msixTable => exact absurd hr (by simp [regAt, Block0.rows, rowAt])
  all_goals
    simp only [hon, hr]
    cases s.blockPresent _ <;> simp

/-- An access to a live register wakes its domain (R667) and changes nothing else. -/
theorem State.touchMmio_withPower (s : State) (o : Nat) : ∃ p, s.touchMmio o = s.withPower p := by
  unfold State.touchMmio
  split
  case h_5 => exact ⟨s.power, (State.withPower_self s rfl).symm⟩
  all_goals
    dsimp only
    split
    · exact ⟨s.power, (State.withPower_self s rfl).symm⟩
    · exact ⟨_, rfl⟩

/-! #### Staged copies -/

theorem State.regStaged_setStaged (s : State) (o : Nat) (v : BitVec 64) : (s.setStaged o v).regStaged o = v :=
  Tbl.getD_setD_same _ _ _ _

theorem State.regStaged_setStaged_other (s : State) {o a : Nat} (v : BitVec 64) (h : a ≠ o) :
    (s.setStaged o v).regStaged a = s.regStaged a :=
  Tbl.getD_setD_other _ _ _ _ _ h

/-! #### What a write does, by the class of the register -/

theorem State.regWrite_rws {r : RegRow} (h : r.cls = .rws) (s : State) (b : Block0) (y o size v : Nat) :
    s.regWrite b r y o size v = s.setStaged (b.base + y)
      (BitVec.ofNat 64 (mergeReg (s.regStaged (b.base + y)).toNat v o size &&& r.wmask)) := by
  simp only [State.regWrite, h]

theorem State.regWrite_locked {r : RegRow} (s : State) (h : r.cls = .ro ∨ r.cls = .rwl ∧ s.boot.phase = 2)
    (b : Block0) (y o size v : Nat) : s.regWrite b r y o size v = s := by
  obtain h | ⟨h, hp⟩ := h
  · simp only [State.regWrite, h]
  · simp only [State.regWrite, h, hp, if_true]

theorem State.regWrite_plain {r : RegRow} (s : State) (h : r.cls = .rw ∨ r.cls = .mixed) {b : Block0} {y o size v : Nat}
    (hc : s.regCommand b y (mergeReg (s.regN (b.base + y)) v o size) = none) :
    s.regWrite b r y o size v = s.setReg (b.base + y) (BitVec.ofNat 64 (takeFields r (s.regN (b.base + y))
      (mergeReg (s.regN (b.base + y)) v o size) (v % 2 ^ (8 * size) * 2 ^ (8 * o)))) := by
  obtain h | h := h <;> simp only [State.regWrite, h, hc]

/-! #### The two commands that write a register -/

theorem execRegisterWrite_eq {s : State} (hi : s.power.input = true) {off : Nat} (ho : off < 0x10000000) (size : Nat)
    (v : BitVec 64) : exec (.registerWrite off size v) s = .next (s.writeMmio off size v.toNat) := by
  have he : execRegisterWrite off size v s = .next (s.writeMmio off size v.toNat) := by
    simp only [execRegisterWrite, whenHub_input hi, decide_eq_true ho, whenIt_true, Act.out_next]
  exact he

theorem execStagedWrite_eq {s : State} (hi : s.power.input = true) {off : Nat} (ho : off < 0x10000000) (size : Nat)
    (v : BitVec 64) : exec (.stagedWrite off size v) s = .next (s.writeMmio off size v.toNat) := by
  have he : execStagedWrite off size v s = .next (s.writeMmio off size v.toNat) := by
    simp only [execStagedWrite, whenHub_input hi, decide_eq_true ho, whenIt_true, Act.out_next]
  exact he

theorem writeMmio_unmapped {off : Nat} (h : blockAt off = none) (s : State) (size v : Nat) : s.writeMmio off size v = s := by
  simp only [State.writeMmio, h]

section Register

variable {s : State} {off x y : Nat} {b : Block0} {r : RegRow} {st : Bool}

theorem writeMmio_refused (h : s.running) (hb : blockAt off = some (b, x)) (hr : regAt b x = some (r, y, st)) {size : Nat}
    (hn : s.blockPresent b = false ∨ accessOk r x size = false) (v : Nat) : s.writeMmio off size v = s := by
  rw [writeMmio_of_regAt h hb hr, if_neg]
  obtain hn | hn := hn <;> simp [hn]

/-- R32: a staged register takes the written bits that are writable, and its live value stays. -/
theorem writeMmio_staged (h : s.running) (hb : blockAt off = some (b, x)) (hr : regAt b x = some (r, y, st))
    (hc : r.cls = .rws) (size v : Nat) :
    let t := s.writeMmio off size v
    t.regs.live = s.regs.live ∧ t.mem = s.mem ∧ (∀ a, a ≠ b.base + y → t.regStaged a = s.regStaged a)
      ∧ (s.blockPresent b = true → accessOk r x size = true → t.regStaged (b.base + y) = BitVec.ofNat 64
          (mergeReg (s.regStaged (b.base + y)).toNat v (x % 0x8000 - y % 0x8000) size &&& r.wmask)) := by
  intro t
  obtain ⟨p, hp⟩ := s.touchMmio_withPower off
  by_cases ha : s.blockPresent b = true ∧ accessOk r x size = true
  · have ht : t = (s.withPower p).setStaged (b.base + y) (BitVec.ofNat 64
        (mergeReg (s.regStaged (b.base + y)).toNat v (x % 0x8000 - y % 0x8000) size &&& r.wmask)) := by
      simp only [t, writeMmio_of_regAt h hb hr, ha.1, ha.2, Bool.and_self, if_true, hp, State.regWrite_rws hc]
      rfl
    rw [ht]
    exact ⟨rfl, rfl, fun a hne => (State.regStaged_setStaged_other _ _ hne).trans rfl,
      fun _ _ => State.regStaged_setStaged _ _ _⟩
  · have ht : t = s := writeMmio_refused h hb hr (by simpa [or_iff_not_imp_left] using ha) v
    rw [ht]
    exact ⟨rfl, rfl, fun _ _ => rfl, fun h1 h2 => absurd ⟨h1, h2⟩ ha⟩

/-- R666: a read-only register, and a locked one after boot, changes nothing but what may wake. -/
theorem writeMmio_locked (h : s.running) (hb : blockAt off = some (b, x)) (hr : regAt b x = some (r, y, st)) {size : Nat}
    (hpres : s.blockPresent b = true) (hacc : accessOk r x size = true) (hc : r.cls = .ro ∨ r.cls = .rwl ∧ s.boot.phase = 2)
    (v : Nat) : (s.writeMmio off size v).withPower s.power = s := by
  obtain ⟨p, hp⟩ := s.touchMmio_withPower off
  rw [writeMmio_of_regAt h hb hr, hpres, hacc, Bool.and_self, if_pos rfl, hp,
    State.regWrite_locked (s.withPower p) hc, State.withPower_withPower, State.withPower_self s rfl]

/-- R41, R664: a register without a command takes its writable bits and its W1C clears. -/
theorem writeMmio_plain (h : s.running) (hb : blockAt off = some (b, x)) (hr : regAt b x = some (r, y, st)) {size : Nat}
    (hpres : s.blockPresent b = true) (hacc : accessOk r x size = true) (hc : r.cls = .rw ∨ r.cls = .mixed) {v : Nat}
    (hcmd : (s.touchMmio off).regCommand b y (mergeReg (s.regN (b.base + y)) v (x % 0x8000 - y % 0x8000) size) = none) :
    let t := s.writeMmio off size v
    t.reg (b.base + y) = BitVec.ofNat 64 (takeFields r (s.regN (b.base + y))
        (mergeReg (s.regN (b.base + y)) v (x % 0x8000 - y % 0x8000) size)
        (v % 2 ^ (8 * size) * 2 ^ (8 * (x % 0x8000 - y % 0x8000))))
      ∧ (∀ a, a ≠ b.base + y → t.reg a = s.reg a) ∧ t.mem = s.mem := by
  intro t
  obtain ⟨p, hp⟩ := s.touchMmio_withPower off
  rw [hp] at hcmd
  have ht : t = (s.withPower p).setReg (b.base + y) (BitVec.ofNat 64 (takeFields r (s.regN (b.base + y))
      (mergeReg (s.regN (b.base + y)) v (x % 0x8000 - y % 0x8000) size)
      (v % 2 ^ (8 * size) * 2 ^ (8 * (x % 0x8000 - y % 0x8000))))) := by
    simp only [t, writeMmio_of_regAt h hb hr, hpres, hacc, Bool.and_self, if_true, hp]
    exact State.regWrite_plain (s.withPower p) hc hcmd
  rw [ht]
  exact ⟨State.reg_setReg _ _ _, fun a hne => (State.reg_setReg_other _ _ hne).trans rfl, rfl⟩

end Register

/-! #### BAR 0 -/

theorem execBar0Access_refused {s : State} (hi : s.power.input = true) (hl : s.cxl.link = .up) {off size : Nat}
    (ho : off < 0x10000000) (hk : s.bar0Ok off size = false) (wr : Option (BitVec 64)) :
    exec (.bar0Access off size wr) s = .next (s.hostDone 0 off 2 []) := by
  have he : execBar0Access off size wr s = .next (s.hostDone 0 off 2 []) := by
    simp only [execBar0Access, whenHub_input hi, hl, decide_eq_true ho, beq_self_eq_true, Bool.and_self, whenIt_true, hk,
      Bool.not_false, if_true, Act.out_next]
  exact he

theorem execBar0Access_write {s : State} (hi : s.power.input = true) (hl : s.cxl.link = .up) {off size : Nat}
    (ho : off < 0x10000000) (hk : s.bar0Ok off size = true) (v : BitVec 64) :
    exec (.bar0Access off size (some v)) s = .next ((s.writeMmio off size v.toNat).hostDone 0 off 0 []) := by
  have he : execBar0Access off size (some v) s = .next ((s.writeMmio off size v.toNat).hostDone 0 off 0 []) := by
    simp only [execBar0Access, whenHub_input hi, hl, decide_eq_true ho, beq_self_eq_true, Bool.and_self, whenIt_true, hk,
      Bool.not_true, Bool.false_eq_true, if_false, Act.out_next]
  exact he

theorem execBar0Access_next {s : State} (hi : s.power.input = true) (off size : Nat) (wr : Option (BitVec 64)) :
    ∃ t : State, exec (.bar0Access off size wr) s = .next t :=
  whenHub_next hi _

/-! #### BAR 2 -/

theorem State.setReg_out (s : State) (o : Nat) (v : BitVec 64) : (s.setReg o v).out = s.out := rfl

theorem State.trimCheck_out (s : State) : s.trimCheck.out = s.out := by
  simp only [State.trimCheck]
  split
  · exact State.setReg_out _ _ _
  · rfl

theorem State.wakeCore_out (s : State) (c : Nat) : (s.wakeCore c).out = s.out := by
  unfold State.wakeCore
  split
  · exact State.trimCheck_out _
  · rfl

theorem State.windowStore_out (s : State) (c o : Nat) (bs : List Byte) : (s.windowStore c o bs).out = s.out :=
  s.wakeCore_out c

theorem getElem_upFrom (a n i : Nat) (h : i < (upFrom a n).length) : (upFrom a n)[i] = a + i := by
  induction n generalizing a i with
  | zero => exact absurd h (Nat.not_lt_zero i)
  | succ n ih =>
    cases i with
    | zero => rfl
    | succ i => exact (ih (a + 1) i (Nat.lt_of_succ_lt_succ h)).trans (Nat.succ_add_eq_add_succ a i)

/-- A scratchpad reads back what was written to it. -/
theorem State.scrRead_scrWrite (s : State) {c o : Nat} (hc : c < 128) (bs : List Byte) (ho : o + bs.length ≤ 0x400000) :
    (s.scrWrite c o bs).scrRead c o bs.length = bs := by
  refine List.ext_getElem (by simp [State.scrRead, length_upFrom]) fun i hi hb => ?_
  have hl : localPart (windowBase c + o + i) = windowBase c + o + i := by
    simp only [localPart, windowBase]
    omega
  simp only [State.scrRead, List.getElem_map, getElem_upFrom, State.rawByte, hl]
  exact putBytes_getD_same _ _ _ _ _ hb

theorem State.corePresent_lt {s : State} {c : Nat} (h : s.corePresent c = true) : c < 128 := by
  by_contra hc
  simp [State.corePresent, State.coreState, Nat.le_of_not_lt hc] at h

theorem whenPowered_next {s : State} (h : s.running) (a : Act) : ∃ t, whenPowered s a = .next t := by
  rw [whenPowered_running h, ← whenHub_input h.1 a]
  exact whenHub_next h.1 a

/-- A range within one line is one piece of the line's command. -/
theorem linesOf_within {a n : Nat} (hn : 1 ≤ n) (h : a % 128 + n ≤ 128) : linesOf a n = [a / 128] := by
  have hq : (a + n - 1) / 128 - a / 128 + 1 = 1 := by omega
  rw [linesOf, if_neg (Nat.one_le_iff_ne_zero.mp hn), hq]
  rfl

section Bar2

variable {s : State} {off n : Nat} {wr : Option (List Byte)}

theorem execBar2Access_next (h : s.running) : ∃ t : State, exec (.bar2Access off n wr) s = .next t :=
  whenPowered_next h _

theorem execBar2Access_line (h : s.running) (hl : s.cxl.link = .up) (hw : ∀ bs, wr = some bs → n = bs.length) (hn : 1 ≤ n)
    (hend : off + n ≤ 0x20000000) (hin : off % 128 + n ≤ 128) :
    exec (.bar2Access off n wr) s = .next (s.bar2Piece off n wr) := by
  have ha : max off (off / 128 * 128) = off := by omega
  have hk : min (off + n) (off / 128 * 128 + 128) - off = n := by omega
  have he : execBar2Access off n wr s = .next (s.bar2Piece off n wr) := by
    cases wr with
    | none =>
      simp only [execBar2Access, whenPowered_running h, hl, beq_self_eq_true, hn, hend, decide_true, Bool.and_self,
        whenIt_true, Act.out_next, linesOf_within hn hin, List.foldl_cons, List.foldl_nil, ha, hk, Option.map_none]
    | some bs =>
      obtain rfl := hw bs rfl
      simp only [execBar2Access, whenPowered_running h, hl, beq_self_eq_true, hn, hend, decide_true, Bool.and_self,
        whenIt_true, Act.out_next, linesOf_within hn hin, List.foldl_cons, List.foldl_nil, ha, hk, Option.map_some, Nat.sub_self,
        List.drop_zero, List.take_length]
  exact he

theorem bar2Piece_absent (hc : s.corePresent (off / 0x400000) = false) : s.bar2Piece off n wr = s.hostDone 2 off 2 [] := by
  simp only [State.bar2Piece, hc, Bool.not_false, if_true]

theorem bar2Piece_store (hc : s.corePresent (off / 0x400000) = true) (bs : List Byte) :
    s.bar2Piece off n (some bs) = (s.windowStore (off / 0x400000) (off % 0x400000) bs).hostDone 2 off 0 [] := by
  simp only [State.bar2Piece, hc, Bool.not_true, Bool.false_eq_true, if_false]

end Bar2

/-- R596: a legal write through BAR 2 stands in the core's scratchpad and is completed. -/
theorem bar2Piece_performed {s : State} {off : Nat} {bs : List Byte} (hin : off % 128 + bs.length ≤ 128)
    (hc : s.corePresent (off / 0x400000) = true) :
    let t := s.bar2Piece off bs.length (some bs)
    t.scrRead (off / 0x400000) (off % 0x400000) bs.length = bs
      ∧ t.out = { kind := .data, args := [22, 2, off, 0], bytes := [] } :: s.out := by
  simp only [bar2Piece_store hc]
  exact ⟨State.scrRead_scrWrite _ (State.corePresent_lt hc) bs (by omega),
    congrArg (_ :: ·) (State.windowStore_out _ _ _ _)⟩

/-! #### The obligation -/

/-- Settles O54: a write is the write of its register, by the class of its row; an access of the host is the write of the
offset or of the core's window, and its completion. -/
theorem registerWrites : Obligations.RegisterWrites := by
  refine ⟨?mmio, ?bar0, ?bar2⟩
  case mmio =>
    intro s off size x y b r st v h ho hb hr
    rw [execRegisterWrite_eq h.1 ho, execStagedWrite_eq h.1 ho]
    refine ⟨fun hc => ⟨_, rfl, writeMmio_staged h hb hr hc size v.toNat⟩,
      fun hn => by rw [writeMmio_refused h hb hr hn], fun hp ha => ⟨fun hc => ?_, fun hc => ?_⟩⟩
    · exact ⟨_, rfl, writeMmio_locked h hb hr hp ha hc v.toNat⟩
    · intro old at_ full hcmd
      exact ⟨_, rfl, writeMmio_plain h hb hr hp ha hc hcmd⟩
  case bar0 =>
    intro s off size v h ho
    rw [execRegisterWrite_eq h.1 ho, execStagedWrite_eq h.1 ho]
    refine ⟨⟨_, rfl⟩, ⟨_, rfl⟩, fun hb => ?_, fun hl wr => ⟨fun hk => ?_, fun hk => ?_⟩⟩
    · rw [writeMmio_unmapped hb]
      exact ⟨rfl, rfl⟩
    · exact execBar0Access_refused h.1 hl ho hk wr
    · exact ⟨execBar0Access_next h.1 off size wr, execBar0Access_write h.1 hl ho hk v⟩
  case bar2 =>
    intro s off n wr h hl hw hn hend
    have hlen : ∀ bs, wr = some bs → n = bs.length := by
      rintro bs rfl
      exact hw
    refine ⟨execBar2Access_next h, fun hin hc => ?_, fun bs hbs hin hc => ?_⟩
    · rw [execBar2Access_line h hl hlen hn hend hin, bar2Piece_absent hc]
    · subst hbs
      obtain rfl := hlen bs rfl
      exact ⟨_, execBar2Access_line h hl hlen hn hend hin, bar2Piece_performed hin hc⟩

end Sys2Proof.Machine

end

section

/-!
### Proofs of the family of 02_cubes_and_engine_array: the retirement of a TMMA

Accumulator tiles after a list of writes, the output elements of a TMMA, and TMMA_RETIRE (R61, R64, R72, R83).
-/

namespace Sys2Proof.Machine

/-! #### Accumulator elements and writes to them -/

theorem mem_upFrom {a n x : Nat} : x ∈ upFrom a n ↔ a ≤ x ∧ x < a + n := by
  induction n generalizing a with
  | zero => simp only [upFrom, List.not_mem_nil, false_iff]; omega
  | succ n ih => simp only [upFrom, List.mem_cons, ih]; omega

theorem mem_twinEngines {twin : Bool} {e e' : Nat} :
    e' ∈ twinEngines twin e ↔ e' = e ∨ (twin = true ∧ e' = e + 1) := by
  cases twin <;> simp [twinEngines]

/-- Elements of different places have different keys (R72: eight tiles of 32 × 32 elements). -/
theorem accKey_inj {e e' t t' x x' y y' : Nat} (ht : t < 8) (ht' : t' < 8) (hx : x < 32) (hx' : x' < 32) (hy : y < 32)
    (hy' : y' < 32) : accKey e t x y = accKey e' t' x' y' ↔ e = e' ∧ t = t' ∧ x = x' ∧ y = y' := by
  unfold accKey
  omega

theorem Core.accAt_accPut_same {k : Core} {e e' t t' x x' y y' : Nat} (h : accKey e' t' x' y' = accKey e t x y)
    (v : BitVec 32) : (k.accPut e' t' x' y' v).accAt e t x y = v := by
  simp [Core.accAt, Core.accPut, h, Tbl.get?_put_same]

theorem Core.accAt_accPut_other (k : Core) {e e' t t' x x' y y' : Nat} (h : accKey e' t' x' y' ≠ accKey e t x y)
    (v : BitVec 32) : (k.accPut e' t' x' y' v).accAt e t x y = k.accAt e t x y := by
  simp [Core.accAt, Core.accPut, Tbl.get?_put_other _ _ _ _ (Ne.symm h)]

/-- Write one output element, given with its engine. -/
def Core.accWriteOne (t : Nat) (k : Core) (w : Nat × Nat × Nat × Nat) : Core :=
  k.accPut w.1 t w.2.1 w.2.2.1 (BitVec.ofNat 32 w.2.2.2)

/-- The writes to a pair of engines are one list of writes. -/
theorem Core.accWrite_eq_foldl (k : Core) (es : List Nat) (t : Nat) (out : List (Nat × Nat × Nat)) :
    k.accWrite es t out = (es.product out).foldl (Core.accWriteOne t) k := by
  simp only [List.product, List.foldl_flatMap, List.foldl_map]
  rfl

/-- What every single write keeps, the writes keep. -/
theorem Core.accWrite_keeps {α : Type} (p : Core → α) (hp : ∀ k e t x y v, p (Core.accPut k e t x y v) = p k) (k : Core)
    (es : List Nat) (t : Nat) (out : List (Nat × Nat × Nat)) : p (k.accWrite es t out) = p k := by
  rw [Core.accWrite_eq_foldl]
  induction es.product out generalizing k with
  | nil => rfl
  | cons w ws ih => exact (ih _).trans (hp ..)

@[simp] theorem Core.accWrite_regs (k : Core) (es : List Nat) (t : Nat) (out : List (Nat × Nat × Nat)) :
    (k.accWrite es t out).regs = k.regs := Core.accWrite_keeps Core.regs (fun _ _ _ _ _ _ => rfl) k es t out

@[simp] theorem Core.accWrite_jobs (k : Core) (es : List Nat) (t : Nat) (out : List (Nat × Nat × Nat)) :
    (k.accWrite es t out).jobs = k.jobs := Core.accWrite_keeps Core.jobs (fun _ _ _ _ _ _ => rfl) k es t out

/-- An element that no write names is kept. -/
theorem Core.accAt_foldl_other {t t' e x y : Nat} {ws : List (Nat × Nat × Nat × Nat)} (k : Core)
    (h : ∀ w ∈ ws, accKey w.1 t w.2.1 w.2.2.1 ≠ accKey e t' x y) :
    (ws.foldl (Core.accWriteOne t) k).accAt e t' x y = k.accAt e t' x y := by
  induction ws generalizing k with
  | nil => rfl
  | cons w ws ih =>
    rw [List.forall_mem_cons] at h
    exact (ih _ h.2).trans (Core.accAt_accPut_other k h.1 _)

/-- An element holds what was written to it, when all the writes to it write one value. -/
theorem Core.accAt_foldl_same {t e x y : Nat} {v : BitVec 32} {ws : List (Nat × Nat × Nat × Nat)} (k : Core)
    (hv : ∀ w ∈ ws, accKey w.1 t w.2.1 w.2.2.1 = accKey e t x y → BitVec.ofNat 32 w.2.2.2 = v)
    (h : ∃ w ∈ ws, accKey w.1 t w.2.1 w.2.2.1 = accKey e t x y) :
    (ws.foldl (Core.accWriteOne t) k).accAt e t x y = v := by
  induction ws generalizing k with
  | nil => simp at h
  | cons w ws ih =>
    rw [List.forall_mem_cons] at hv
    by_cases later : ∃ w ∈ ws, accKey w.1 t w.2.1 w.2.2.1 = accKey e t x y
    · exact ih _ hv.2 later
    · have hw : accKey w.1 t w.2.1 w.2.2.1 = accKey e t x y := by simpa [later] using h
      calc ((w :: ws).foldl (Core.accWriteOne t) k).accAt e t x y
          = (Core.accWriteOne t k w).accAt e t x y := Core.accAt_foldl_other _ (by simpa using later)
        _ = BitVec.ofNat 32 w.2.2.2 := Core.accAt_accPut_same hw _
        _ = v := hv.1 hw

/-! #### A rectangle of output elements -/

/-- The writes of the elements of `m` rows and `n` columns, `g i j` in element (i, j). -/
def rectOut (m n : Nat) (g : Nat → Nat → Nat) : List (Nat × Nat × Nat) :=
  (upFrom 0 m).flatMap (fun i => (upFrom 0 n).map (fun j => (i, j, g i j)))

theorem mem_rectOut {m n : Nat} {g : Nat → Nat → Nat} {o : Nat × Nat × Nat} :
    o ∈ rectOut m n g ↔ o.1 < m ∧ o.2.1 < n ∧ o.2.2 = g o.1 o.2.1 := by
  obtain ⟨i, j, v⟩ := o
  simp only [rectOut, List.mem_flatMap, List.mem_map, mem_upFrom, Prod.mk.injEq]
  constructor
  · rintro ⟨_, ⟨_, hi⟩, _, ⟨_, hj⟩, rfl, rfl, rfl⟩
    exact ⟨by omega, by omega, rfl⟩
  · rintro ⟨hi, hj, rfl⟩
    exact ⟨i, by omega, j, by omega, rfl, rfl, rfl⟩

section Rectangle
variable {m n t : Nat} {g : Nat → Nat → Nat} (hm : m ≤ 32) (hn : n ≤ 32) (ht : t < 8)
include hm hn ht

/-- A write of the rectangle goes to the element of its key, with that element's value. -/
theorem mem_product_rectOut {es : List Nat} {e t' x y : Nat} (ht' : t' < 8) (hx : x < 32) (hy : y < 32)
    {w : Nat × Nat × Nat × Nat} (hw : w ∈ es.product (rectOut m n g))
    (hk : accKey w.1 t w.2.1 w.2.2.1 = accKey e t' x y) : e ∈ es ∧ t' = t ∧ x < m ∧ y < n ∧ w.2.2.2 = g x y := by
  obtain ⟨e', i, j, v⟩ := w
  rw [List.pair_mem_product, mem_rectOut] at hw
  obtain ⟨he, hi : i < m, hj : j < n, hv : v = g i j⟩ := hw
  obtain ⟨rfl, rfl, rfl, rfl⟩ := (accKey_inj ht ht' (hi.trans_le hm) hx (hj.trans_le hn) hy).mp hk
  exact ⟨he, rfl, hi, hj, hv⟩

theorem Core.accAt_accWrite_inside (k : Core) {es : List Nat} {e x y : Nat} (he : e ∈ es) (hx : x < m) (hy : y < n) :
    (k.accWrite es t (rectOut m n g)).accAt e t x y = BitVec.ofNat 32 (g x y) := by
  rw [Core.accWrite_eq_foldl]
  refine Core.accAt_foldl_same k (fun w hw hk => ?_) ⟨(e, x, y, g x y), ?_, rfl⟩
  · obtain ⟨_, _, _, _, hv⟩ := mem_product_rectOut hm hn ht ht (by omega) (by omega) hw hk
    rw [hv]
  · exact List.pair_mem_product.mpr ⟨he, mem_rectOut.mpr ⟨hx, hy, rfl⟩⟩

theorem Core.accAt_accWrite_outside (k : Core) {es : List Nat} {e t' x y : Nat} (ht' : t' < 8) (hx : x < 32)
    (hy : y < 32) (h : ¬ (e ∈ es ∧ t' = t ∧ x < m ∧ y < n)) :
    (k.accWrite es t (rectOut m n g)).accAt e t' x y = k.accAt e t' x y := by
  rw [Core.accWrite_eq_foldl]
  refine Core.accAt_foldl_other k (fun w hw hk => h ?_)
  obtain ⟨he, htt, hxm, hyn, _⟩ := mem_product_rectOut hm hn ht ht' hx hy hw hk
  exact ⟨he, htt, hxm, hyn⟩

end Rectangle

/-! #### A TMMA that completes -/

/-- The result of the updates of R61 in element (x, y): from row x of A, row y of B and the old element. -/
def State.tmmaElem (s : State) (c : Nat) (f : TmmaF) (a b : Td) (fa fb : Fmt) (koff x y : Nat) : Nat :=
  let kk := kTotal fa fb f.rpt.toNat
  outElem fa fb kk f.zero ((s.core c).accAt f.eng.toNat f.acc.toNat x y).toNat
    (s.rowBits c fa (a.base + x * a.stride + koff * fa.width / 8) kk)
    (s.rowBits c fb (b.base + y * b.stride + koff * fb.width / 8) kk)
    (fun t => s.tileScale c a x (koff / 32 + t / 4)) (fun t => s.tileScale c b y (koff / 32 + t / 4))

theorem State.tmmaOut_eq_rectOut (s : State) (c : Nat) (f : TmmaF) (a b : Td) (fa fb : Fmt) (koff : Nat) :
    s.tmmaOut c f a b fa fb koff = rectOut a.rows b.rows (s.tmmaElem c f a b fa fb koff) := rfl

/-- The output elements of a TMMA that meets no uncorrectable word. -/
theorem State.engineRun_tmma {s : State} {c koff : Nat} {j : Job} {f : TmmaF} {da db : BitVec 128} {fa fb : Fmt}
    (hk : j.kind = .tmma f da db koff) (hp : pairOf (tdOf da) (tdOf db) = some (fa, fb))
    (hg : (s.engineRun c j).1 = none) :
    s.engineRun c j = (none, s.tmmaOut c f (tdOf da) (tdOf db) fa fb koff) := by
  refine Prod.ext hg ?_
  simp only [State.engineRun, hk, hp]

/-- An instruction with no destination in the scratchpad changes its own core alone when it completes. -/
theorem State.finishJob_of_dest_nil (s : State) (c : Nat) {j : Job} (late : Bool) (h : j.kind.dest = []) :
    ∃ g, s.finishJob c j late = s.modCore c g := by
  simp only [State.finishJob, h, List.foldl_nil]
  exact ⟨_, rfl⟩

theorem State.finishJob_jobs (s : State) (c : Nat) {j : Job} (late : Bool) (h : j.kind.dest = []) (hl : j.lp = none) :
    ((s.finishJob c j late).core c).jobs = (s.core c).jobs.filter (fun x => x.seq != j.seq) := by
  simp only [State.finishJob, h, hl, List.foldl_nil, State.core_modCore_same]

theorem State.finishJob_accAt (s : State) (c : Nat) {j : Job} (late : Bool) (h : j.kind.dest = []) (hl : j.lp = none)
    (e t x y : Nat) : ((s.finishJob c j late).core c).accAt e t x y = (s.core c).accAt e t x y := by
  simp only [State.finishJob, h, hl, List.foldl_nil, State.core_modCore_same]
  rfl

theorem State.twinCore_of_launch {s : State} {c : Nat} {l : Launch} (h : (s.core c).launch = some l) :
    s.twinCore c = l.twin := by simp [State.twinCore, h]

/-- TMMA_RETIRE of an instruction that meets no uncorrectable word and that no fault has overtaken: its output elements
are written on each engine of the pair, and it leaves its unit. -/
theorem execTmmaRetire_clean {s : State} {c eng e t : Nat} {l : Launch} {j : Job} {b : Bool} {out : List (Nat × Nat × Nat)}
    (h : s.running) (hl : (s.core c).launch = some l) (hj : (s.core c).onEngine eng false = some j)
    (ha : j.kind.accTile = some (e, t, b)) (ht : j.tainted = false) (hr : s.engineRun c j = (none, out)) :
    execTmmaRetire c eng none s
      = .next (((s.modCore c (fun k => k.accWrite (twinEngines l.twin eng) t out)).finishJob c j false).after c) := by
  simp [execTmmaRetire, whenPowered_running h, hj, ha, ht, hr, State.twinCore_of_launch hl]

/-! #### The obligation -/

/-- Settles O20: the state before the units go on is that of `execTmmaRetire_clean`; its tile is the rectangle of the
output elements over the old one. -/
theorem tmmaRetires : Obligations.TmmaRetires := by
  intro s c l eng j f da db koff fa fb h hl hj hk he ht hlp hp hra hrb hg
  have hd : j.kind.dest = [] := by rw [hk]; rfl
  have hacc : f.acc.toNat < 8 := f.acc.isLt
  have hr := State.engineRun_tmma hk hp hg
  rw [State.tmmaOut_eq_rectOut] at hr
  have hu := execTmmaRetire_clean h hl hj (by rw [hk]; rfl) ht hr
  refine ⟨_, hu, State.settles_self _ c, ?frame, ?regs, ?jobs, ?written, ?kept⟩
  case frame =>
    obtain ⟨g, hfin⟩ := State.finishJob_of_dest_nil (s.modCore c _) c false hd
    rw [hfin]
    exact State.onlyCore_modCore (State.onlyCore_modCore (State.onlyCore_refl s c) _) _
  case regs =>
    rw [State.finishJob_sameRegs _ c j false c, State.core_modCore_same, Core.accWrite_regs]
  case jobs =>
    rw [State.finishJob_jobs _ c false hd hlp, State.core_modCore_same, Core.accWrite_jobs]
  case written =>
    intro e x y hin hx hy
    rw [State.finishJob_accAt _ c false hd hlp, State.core_modCore_same,
      Core.accAt_accWrite_inside hra hrb hacc _ (mem_twinEngines.mpr hin) hx hy, ← he]
    rfl
  case kept =>
    intro e t x y ht8 hx hy hout
    rw [State.finishJob_accAt _ c false hd hlp, State.core_modCore_same]
    exact Core.accAt_accWrite_outside hra hrb hacc _ ht8 hx hy (by rwa [mem_twinEngines])

end Sys2Proof.Machine

end

section

/-!
### Data that comes back to a stream unit: R133, R187, R236, R455
-/

namespace Sys2Proof.Machine

/-! #### Scratchpad writes -/

theorem State.scrWrite_bytes (s : State) (c o : Nat) (bs : List Byte) :
    (s.scrWrite c o bs).mem.bytes = putBytes s.mem.blank s.mem.bytes (windowBase c + o) bs := by
  simp only [State.scrWrite, State.withMem_mem]

theorem State.scrWrite_undef (s : State) (c o : Nat) (bs : List Byte) : (s.scrWrite c o bs).mem.undef = s.mem.undef := by
  simp only [State.scrWrite, State.withMem_mem]

theorem Mem.blank_congr {m n : Mem} (h : m.undef = n.undef) : m.blank = n.blank := by
  funext a
  simp only [Mem.blank, h]

theorem State.scrWrite_rawByte_other (s : State) (c o x : Nat) (bs : List Byte)
    (h : localPart x < windowBase c + o ∨ windowBase c + o + bs.length ≤ localPart x) :
    (s.scrWrite c o bs).rawByte x = s.rawByte x := by
  rw [State.rawByte, Mem.blank_congr (State.scrWrite_undef s c o bs), State.scrWrite_bytes, putBytes_getD_other _ _ _ _ _ h,
    State.rawByte]

/-! #### The instruction a tag belongs to -/

theorem mem_of_find?_seq {l : List Job} {n : Nat} {j : Job} (h : l.find? (fun j => j.seq == n) = some j) :
    j ∈ l ∧ j.seq = n :=
  ⟨List.mem_of_find?_eq_some h, by simpa using List.find?_some h⟩

/-- A deadline that has not come leaves what arrives to arrive (R187). -/
theorem State.deadlineFirst_of_pending {s : State} {c : Nat} {t : RTag}
    (h : ∀ j, (s.core c).jobs.find? (fun j => j.seq == t.job) = some j → j.deadline.all (fun d => !s.reached d) = true) :
    s.deadlineFirst c t = s := by
  cases hj : (s.core c).jobs.find? (fun j => j.seq == t.job) with
  | none => simp only [State.deadlineFirst, hj]
  | some j =>
    cases he : j.deadline with
    | none => simp only [State.deadlineFirst, hj, he]
    | some d =>
      have hd := h j hj
      rw [he, Option.all_some, Bool.not_eq_true'] at hd
      simp only [State.deadlineFirst, hj, he, hd, Bool.false_eq_true, if_false]

theorem State.any_tainted_eq_false {s : State} {c n : Nat}
    (h : ∀ j ∈ (s.core c).jobs, j.seq = n → j.tainted = false) :
    (s.core c).jobs.any (fun j => j.seq == n && j.tainted) = false := by
  simp only [List.any_eq_false, Bool.and_eq_true, beq_iff_eq, not_and, Bool.not_eq_true]
  exact h

/-! #### Bytes that land -/

theorem State.selfRead_of_elsewhere {s : State} {c : Nat} {t : RTag} (h : t.target ≠ .window c) :
    s.selfRead c t = fun _ => false := by
  funext x
  unfold State.selfRead
  repeat' split
  all_goals simp [h]

theorem selfBytes_none (k o : Nat) (bs : List Byte) : selfBytes (fun _ => false) k o bs = bs := by
  simp only [selfBytes, Bool.false_eq_true, if_false]
  exact List.map_fst_zip (by rw [length_upFrom])

/-- Good bytes from elsewhere than the core's own window, of an instruction that no fault has overtaken, go to the place of
their piece. -/
theorem State.landRead_clean {s : State} {c : Nat} {t : RTag} (bs : List Byte) (hw : t.target ≠ .window c)
    (ht : ∀ j ∈ (s.core c).jobs, j.seq = t.job → j.tainted = false) :
    s.landRead c t bs [] = s.scrWrite c t.off bs := by
  simp [State.landRead, State.any_tainted_eq_false ht, State.selfRead_of_elsewhere hw, selfBytes_none, hw]

/-- The same of bytes that no built-in program has asked for. -/
theorem State.land_clean {s : State} {c : Nat} {t : RTag} (bs : List Byte) (hw : t.target ≠ .window c)
    (hj : ∀ j ∈ (s.core c).jobs, j.seq = t.job → j.tainted = false ∧ ∀ g, j.kind ≠ .builtin g) :
    s.land c t bs [] = s.scrWrite c t.off bs := by
  rw [← State.landRead_clean bs hw fun j hm hq => (hj j hm hq).1]
  unfold State.land
  split
  · rename_i j h
    obtain ⟨hm, hq⟩ := mem_of_find?_seq h
    split
    · rename_i g hg
      exact absurd hg ((hj j hm hq).2 g)
    · simp
  · rfl

/-- Bytes that a built-in program has asked for, and that has requests left, go to its pending copy (R455). -/
theorem State.land_builtin {s : State} {c : Nat} {t : RTag} {j : Job} {g : Prog} (bs : List Byte)
    (hj : (s.core c).jobs.find? (fun j => j.seq == t.job) = some j) (hk : j.kind = .builtin g) (hs : g.step ≠ 0) :
    s.land c t bs [] = s.setJob c { j with kind := .builtin (g.put t.off
      ((g.moves.filter (fun m => m.dst == t.off)).map (fun m => { m with src := none, bytes := bs }))) } := by
  simp [State.land, hj, hk, State.landMove, hs]

theorem State.setJob_find? (s : State) (c : Nat) {n : Nat} {j x : Job}
    (hj : (s.core c).jobs.find? (fun j => j.seq == n) = some j) (hx : x.seq = n) :
    ((s.setJob c x).core c).jobs.find? (fun j => j.seq == n) = some x := by
  simp only [State.setJob, State.core_modCore_same]
  have hp : (fun j : Job => j.seq == n) ∘ (fun y : Job => if (y.seq == x.seq) = true then x else y)
      = fun j => j.seq == n := by
    funext y
    simp only [Function.comp, hx]
    split <;> simp_all
  rw [List.find?_map, hp, hj]
  simp [(mem_of_find?_seq hj).2, hx]

theorem State.freeRead_reads (s : State) (c tag : Nat) :
    ((s.freeRead c tag).core c).reads = (s.core c).reads.filter (fun x => x.tag != tag) := by
  simp only [State.freeRead, State.core_modCore_same]

theorem State.freeRead_jobs (s : State) (c tag : Nat) : ((s.freeRead c tag).core c).jobs = (s.core c).jobs := by
  simp only [State.freeRead, State.core_modCore_same]

theorem State.freeRead_sameRegs {s t : State} (h : s.sameRegs t) (c tag : Nat) : s.sameRegs (t.freeRead c tag) :=
  State.sameRegs_modCore h c _ fun _ => rfl

/-! #### STREAM_DATA_ARRIVAL -/

/-- Data of module memory, served good, arrives for a live tag whose deadline has not come. -/
theorem execStreamDataArrival_served {s : State} {c tag : Nat} {t : RTag} {bs : List Byte} (h : s.running)
    (ht : s.rtag c tag = some t) (hg : t.target = .tiered) (hv : t.served = some (bs, []))
    (hd : s.deadlineFirst c t = s) (hl : t.dead = false) (he : t.early = false) :
    execStreamDataArrival c tag none s = .next (((s.land c t bs []).freeRead c tag).after c) := by
  simp [execStreamDataArrival, whenPowered_running h, ht, hd, hl, he, State.arriving, hg, hv]

/-- What arrives for a tag whose instruction has gone is discarded. -/
theorem execStreamDataArrival_dead {s : State} {c tag : Nat} {t : RTag} (h : s.running) (ht : s.rtag c tag = some t)
    (hl : t.dead = true) (hj : ∀ j ∈ (s.core c).jobs, j.seq ≠ t.job) :
    execStreamDataArrival c tag none s = .next ((s.freeRead c tag).after c) := by
  have hd : s.deadlineFirst c t = s := State.deadlineFirst_of_pending fun j hf =>
    absurd (mem_of_find?_seq hf).2 (hj j (mem_of_find?_seq hf).1)
  simp [execStreamDataArrival, whenPowered_running h, ht, hd, hl]

/-! #### DEVICE_READ_TIMEOUT -/

theorem State.timedOut_window (s : State) {t : Target} {n c : Nat} (h : s.timedOut t n = true) : t ≠ .window c := by
  rintro rfl
  simp [State.timedOut] at h

/-- The state in which a timed-out read's bytes land: the record is logged and STATUS shows the device timeout (R236). -/
def State.readTimedOut (s : State) (c : Nat) (t : RTag) : State :=
  (s.timeoutRecord (s.readCause c t) (s.timeoutUnit c t.target true) t.pa).modCore c fun k =>
    { k with devTimeout := k.devTimeout || !t.past }

@[simp] theorem State.timeoutRecord_cores (s : State) (w : Cause) (unit : BitVec 64) (pa : Nat) :
    (s.timeoutRecord w unit pa).cores = s.cores :=
  State.logBy_cores _ _ _

theorem State.readTimedOut_core (s : State) (c : Nat) (t : RTag) :
    (s.readTimedOut c t).core c = { s.core c with devTimeout := (s.core c).devTimeout || !t.past } := by
  rw [State.readTimedOut, State.core_modCore_same, State.core_of_cores s _ (State.timeoutRecord_cores ..)]

theorem State.readTimedOut_sameRegs (s : State) (c : Nat) (t : RTag) : s.sameRegs (s.readTimedOut c t) :=
  State.sameRegs_modCore (State.sameRegs_cores (State.sameRegs_refl s) (State.timeoutRecord_cores ..)) _ _ fun _ => rfl

theorem execDeviceReadTimeout_live {s : State} {c tag : Nat} {t : RTag} (h : s.running) (ht : s.rtag c tag = some t)
    (hx : s.timedOut t.target t.sent = true) (he : t.early = false) (hl : t.dead = false)
    (hd : s.deadlineFirst c t = s) :
    execDeviceReadTimeout c tag s = .next ((((s.readTimedOut c t).land c t
      ((upFrom 0 t.len).map (fun _ => 0xFF)) []).freeRead c tag).after c) := by
  simp [execDeviceReadTimeout, whenPowered_running h, ht, hx, he, hd, hl, State.readTimedOut]

/-! #### The obligation -/

/-- Settles O22: in each case what lands is known before the tag is freed: a scratchpad write, a request of the built-in
program replaced, or nothing. -/
theorem readData : Obligations.ReadData := by
  refine ⟨?lands, ?builtin, ?dead, ?timeout⟩
  case lands =>
    intro s c tag t bs h ht hg hc ho hv hn hj hd hl he
    have hw : t.target ≠ .window c := by rw [hg]; exact nofun
    have hp : s.deadlineFirst c t = s := State.deadlineFirst_of_pending fun j hf =>
      hd j (mem_of_find?_seq hf).1 (mem_of_find?_seq hf).2
    refine ⟨_, execStreamDataArrival_served h ht hg hv hp hl he, State.settles_self _ c, ?_⟩
    rw [State.land_clean bs hw hj, ← hn]
    refine ⟨State.freeRead_sameRegs (State.sameRegs_cores (State.sameRegs_refl s) (State.scrWrite_cores ..)) c tag,
      State.scrRead_scrWrite s hc bs (by rw [hn]; exact ho), rfl,
      fun x hx => State.scrWrite_rawByte_other s c t.off x bs hx, ?_⟩
    rw [State.freeRead_reads, State.core_of_cores _ _ (State.scrWrite_cores ..)]
  case builtin =>
    intro s c tag t bs j g h ht hg hv hl he hj hk hd hs
    have hp : s.deadlineFirst c t = s := State.deadlineFirst_of_pending fun x hf => by
      rw [← Option.some.inj (hj.symm.trans hf), hd]
      rfl
    refine ⟨_, execStreamDataArrival_served h ht hg hv hp hl he, State.settles_self _ c, ?_⟩
    rw [State.land_builtin bs hj hk hs]
    refine ⟨State.onlyCore_modCore (State.onlyCore_modCore (State.onlyCore_refl s c) _) _,
      State.freeRead_sameRegs (State.setJob_sameRegs s c _) c tag, ?_, ?_⟩
    · rw [State.freeRead_reads, State.setJob, State.core_modCore_same]
    · rw [State.freeRead_jobs]
      exact State.setJob_find? s c hj (mem_of_find?_seq hj).2
  case dead =>
    intro s c tag t h ht hl hj
    exact ⟨_, execStreamDataArrival_dead h ht hl hj, State.settles_self _ c,
      State.onlyCore_modCore (State.onlyCore_refl s c) _, State.freeRead_reads s c tag⟩
  case timeout =>
    intro s c tag t h ht hx he hl hpast hj hc ho
    have hk := State.readTimedOut_core s c t
    have hw : t.target ≠ .window c := State.timedOut_window s hx
    have hjobs : ∀ j ∈ ((s.readTimedOut c t).core c).jobs, j.seq = t.job → j.tainted = false ∧ ∀ g, j.kind ≠ .builtin g := by
      rw [hk]
      exact fun j hm hq => (hj j hm hq).2
    have hp : s.deadlineFirst c t = s := State.deadlineFirst_of_pending fun j hf => by
      rw [(hj j (mem_of_find?_seq hf).1 (mem_of_find?_seq hf).2).1]
      rfl
    have hn : ((upFrom 0 t.len).map fun _ => (0xFF : Byte)).length = t.len := by rw [List.length_map, length_upFrom]
    refine ⟨_, execDeviceReadTimeout_live h ht hx he hl hp, State.settles_self _ c, ?_⟩
    rw [State.land_clean _ hw hjobs]
    refine ⟨?_, ?_, State.freeRead_sameRegs (State.sameRegs_cores (State.readTimedOut_sameRegs s c t)
      (State.scrWrite_cores ..)) c tag, ?_⟩
    · rw [State.freeRead, State.core_modCore_same, State.core_of_cores _ _ (State.scrWrite_cores ..), hk, hpast]
      exact Bool.or_true _
    · have hr := State.scrRead_scrWrite (s.readTimedOut c t) hc ((upFrom 0 t.len).map fun _ => (0xFF : Byte))
        (o := t.off) (by rw [hn]; exact ho)
      rwa [hn] at hr
    · rw [State.freeRead_reads, State.core_of_cores _ _ (State.scrWrite_cores ..), hk]

end Sys2Proof.Machine

end

section

/-!
### Records that nothing takes yet: R553, R554

While the log is not usable and no hot-block record waits, a record takes its index and stays in the hub, or is dropped: memory is as
it was, and so is every register but those that tell of records and of lost interrupts.
-/

namespace Sys2Proof.Machine

/-- The registers that a record alone can change: the next index, the count of dropped records, the counts of lost MSIs. -/
def recordReg (o : Nat) : Prop := o = rRas 0xC ∨ o = rRas 0x14 ∨ ∃ p, o = rPd p 0x24

/-- What a record leaves as it is when it goes no further than the hub. -/
structure State.Recorded (s t : State) : Prop where
  pop : t.pop = s.pop
  mem : t.mem = s.mem
  peel : t.peel = s.peel
  xlat : t.xlat = s.xlat
  reg : ∀ o, ¬ recordReg o → t.reg o = s.reg o

namespace State.Recorded

variable {s t u : State}

theorem refl (s : State) : s.Recorded s := ⟨rfl, rfl, rfl, rfl, fun _ _ => rfl⟩

theorem trans (h : s.Recorded t) (g : t.Recorded u) : s.Recorded u :=
  ⟨g.pop.trans h.pop, g.mem.trans h.mem, g.peel.trans h.peel, g.xlat.trans h.xlat,
    fun o ho => (g.reg o ho).trans (h.reg o ho)⟩

theorem ite {p : Prop} [Decidable p] (h : s.Recorded t) (g : s.Recorded u) : s.Recorded (if p then t else u) := by
  split
  · exact h
  · exact g

theorem setReg (s : State) {o : Nat} (v : BitVec 64) (ho : recordReg o) : s.Recorded (s.setReg o v) :=
  ⟨rfl, rfl, rfl, rfl, fun _ ha => State.reg_setReg_other s v (fun e => ha (e ▸ ho))⟩

theorem bump (s : State) {o : Nat} (ho : recordReg o) : s.Recorded (s.bump o) := setReg s _ ho

theorem withRas (s : State) (x : Ras) : s.Recorded (s.withRas x) := ⟨rfl, rfl, rfl, rfl, fun _ _ => rfl⟩

theorem modOp (s : State) (u : Nat) (f : Op → Op) : s.Recorded (s.modOp u f) := ⟨rfl, rfl, rfl, rfl, fun _ _ => rfl⟩

theorem mgmt (s : State) (a : List Nat) (b : List Byte) : s.Recorded (s.mgmt a b) := ⟨rfl, rfl, rfl, rfl, fun _ _ => rfl⟩

theorem alert (s : State) (n : Nat) : s.Recorded (s.alert n) := ⟨rfl, rfl, rfl, rfl, fun _ _ => rfl⟩

theorem msi (s : State) (h f i : Nat) : s.Recorded (s.msi h f i) :=
  ite (bump s (.inr (.inr ⟨_, rfl⟩))) (ite (refl s) ⟨rfl, rfl, rfl, rfl, fun _ _ => rfl⟩)

theorem msiTarget (s : State) (n : Nat) : s.Recorded (s.msiTarget n) := ite (refl s) (msi s _ _ _)

theorem rasIntr (s : State) (sev : Nat) : s.Recorded (s.rasIntr sev) := by
  have h : s.Recorded (if bitOf (s.regN (rRas 0x18)) 31 && bitsOf (s.regN (rRas 0x18)) 30 29 ≤ sev
      then s.msiTarget (s.regN (rRas 0x18) % 2 ^ 21) else s) := ite (msiTarget s _) (refl s)
  exact ite (h.trans (alert _ 4)) h

theorem logDrop (s : State) (sev : Nat) : s.Recorded (s.logDrop sev) :=
  ((bump s (.inr (.inl rfl))).trans (withRas _ _)).trans (rasIntr _ sev)

theorem nextIndex (s : State) : s.Recorded s.nextIndex := (withRas s _).trans (setReg _ _ (.inl rfl))

theorem logKeep (s : State) (r : ErrRec) (w : Word) : s.Recorded (s.logKeep r w) := by
  simp only [State.logKeep]
  refine (nextIndex s).trans ?_
  have h := ite (p := (s.nextIndex.hubRuns && (decide (2 ≤ r.sev) || decide (r.cls = 0x0C))) = true)
    (mgmt s.nextIndex [0x01, 2, r.cls, r.sev, (s.entry r w).index] []) (refl s.nextIndex)
  exact h.trans (ite (withRas _ _) (logDrop _ _))

theorem regN (h : s.Recorded t) {o : Nat} (ho : ¬ recordReg o) : t.regN o = s.regN o := by
  rw [State.regN, State.regN, h.reg o ho]

theorem node (h : s.Recorded t) : t.node = s.node := by
  unfold State.node
  rw [h.pop, h.xlat]

theorem logUsable (h : s.Recorded t) : t.logUsable = s.logUsable := by
  have h8 : ¬ recordReg (rRas 0x8) := by
    rintro (e | e | ⟨p, e⟩) <;> simp only [rRas, rPd] at e <;> omega
  have h0 : ¬ recordReg (rRas 0x0) := by
    rintro (e | e | ⟨p, e⟩) <;> simp only [rRas, rPd] at e <;> omega
  unfold State.logUsable State.inTiered State.tieredEnd
  rw [h.node, h.regN h8, h.regN h0, h.peel]

end State.Recorded

/-- Neither the log nor the hot-block ring has anything to write. -/
def State.hubKeeps (s : State) : Prop := s.logUsable = false ∧ s.peel.hot = []

theorem State.recordsOff.hubKeeps {s : State} (h : s.recordsOff) : s.hubKeeps := ⟨h.1, h.2.2⟩

theorem State.Recorded.hubKeeps {s t : State} (h : s.Recorded t) (hs : s.hubKeeps) : t.hubKeeps :=
  ⟨h.logUsable.trans hs.1, (congrArg Peel.hot h.peel).trans hs.2⟩

theorem State.recordsOut_of_hubKeeps {s : State} (h : s.hubKeeps) : s.recordsOut = s := by
  simp [State.recordsOut, State.logFlush, h.1, h.2, State.hotFlush]

theorem State.log_recorded {s : State} (h : s.hubKeeps) (r : ErrRec) : s.Recorded (s.log r) := by
  have hk := State.Recorded.logKeep s r s.now
  rwa [State.log, State.logAt, State.recordsOut_of_hubKeeps (hk.hubKeeps h)]

theorem State.logBy_recorded {s : State} (h : s.hubKeeps) (w : Cause) (r : ErrRec) : s.Recorded (s.logBy w r) := by
  simp only [State.logBy]
  split
  · exact (State.log_recorded h _).trans (State.Recorded.modOp _ _ _)
  · exact State.log_recorded h _

end Sys2Proof.Machine

end

section

/-!
### The ends of writes: R133, R190, R203, R234, R606
-/

namespace Sys2Proof.Machine

theorem State.wtag_tag {s : State} {c tag : Nat} {w : WTag} (h : s.wtag c tag = some w) : w.tag = tag := by
  simpa using List.find?_some h

@[simp] theorem State.modCore_mem (s : State) (c : Nat) (f : Core → Core) : (s.modCore c f).mem = s.mem := rfl

@[simp] theorem State.setReg_mem (s : State) (o : Nat) (v : BitVec 64) : (s.setReg o v).mem = s.mem := rfl

@[simp] theorem State.draw_mem (s : State) : s.draw.1.mem = s.mem := rfl

@[simp] theorem State.modCore_regN (s : State) (c o : Nat) (f : Core → Core) : (s.modCore c f).regN o = s.regN o := rfl

@[simp] theorem State.draw_regN (s : State) (o : Nat) : s.draw.1.regN o = s.regN o := rfl

/-! #### A write tag is freed -/

/-- Whether a free value is drawn shows in no core. -/
theorem State.core_ite_draw (s : State) (p : Prop) [Decidable p] (c : Nat) :
    (if p then s.draw.1 else s).core c = s.core c := by
  split <;> rfl

theorem State.freeWrite_writes (s : State) (c : Nat) (w : WTag) (old : Option Nat) :
    ((s.freeWrite c w old).core c).writes = (s.core c).writes.filter (fun y => y.tag != w.tag) := by
  simp only [State.freeWrite, State.core_modCore_same, State.core_ite_draw]
  congr 1
  split <;> rfl

/-- The effect of an instruction that no fault has overtaken is on its own core. -/
theorem State.freeWrite_onlyCore {s : State} {c : Nat} {w : WTag} (old : Option Nat)
    (ht : ∀ j ∈ (s.core c).jobs, j.seq = w.job → j.tainted = false) : s.onlyCore (s.freeWrite c w old) c := by
  simp only [State.freeWrite, State.any_tainted_eq_false ht, Bool.false_eq_true, if_false]
  exact State.onlyCore_modCore (State.onlyCore_refl s c) _

/-- The register of an ATOM that no fault has overtaken takes the old value (R190). -/
theorem State.freeWrite_atom {s : State} {c r v : Nat} {w : WTag} {j : Job}
    (ht : ∀ j ∈ (s.core c).jobs, j.seq = w.job → j.tainted = false)
    (hj : (s.core c).jobs.find? (fun j => j.seq == w.job) = some j) (hr : j.rd = some r) :
    ((s.freeWrite c w (some v)).core c).s = (s.core c).s.setD (fun _ => 0) r (BitVec.ofNat 64 v) := by
  simp only [State.freeWrite, State.any_tainted_eq_false ht, Bool.false_eq_true, if_false, State.core_modCore_same, hj,
    Option.bind_some, hr]

/-- A write that gives no value leaves the registers. -/
theorem State.freeWrite_regs (s : State) (c : Nat) (w : WTag) :
    ((s.freeWrite c w none).core c).regs = (s.core c).regs := by
  simp only [State.freeWrite, State.core_modCore_same, State.core_ite_draw]
  cases ((s.core c).jobs.find? (fun j => j.seq == w.job)).bind Job.rd <;> rfl

@[simp] theorem State.freeWrite_mem (s : State) (c : Nat) (w : WTag) (old : Option Nat) :
    (s.freeWrite c w old).mem = s.mem := by
  simp only [State.freeWrite, State.modCore_mem]
  split <;> rfl

theorem State.freeWrite_regN (s : State) (c : Nat) (w : WTag) (old : Option Nat) (o : Nat) :
    (s.freeWrite c w old).regN o = s.regN o := by
  simp only [State.freeWrite, State.modCore_regN]
  split <;> rfl

/-! #### WRITE_ACK -/

/-- A performed write to module memory is acknowledged, one of scope SYSTEM once its home has performed what the slice holds of
it (R133, R203). -/
theorem State.tagDone_performed {s : State} {c : Nat} {w : WTag} (hp : w.stage = .performed)
    (hs : 2 ≤ w.scope → s.heldDone c w.tag = true) : s.tagDone c w = true := by
  have hd : w.doneAt w.scope = true := by
    unfold WTag.doneAt
    split <;> simp [hp]
  have hh : (decide (w.scope ≤ 1) || s.heldDone c w.tag) = true := by
    rcases Nat.lt_or_ge 1 w.scope with h | h
    · simp [hs h]
    · simp [h]
  simp [State.tagDone, hp, hd, hh]

theorem execWriteAck_tiered {s : State} {c tag : Nat} {w : WTag} (h : s.running) (hc : c < 256)
    (hw : s.wtag c tag = some w) (hg : w.target = .tiered) (hd : s.tagDone c w = true) :
    execWriteAck c tag none s = .next ((s.freeWrite c w w.old).after c) := by
  have h1 : ¬ 1024 ≤ c := by omega
  have h2 : ¬ 256 ≤ c := by omega
  simp [execWriteAck, whenPowered_running h, h1, h2, hw, State.ackOf, hg, hd]

/-! #### GLOBAL_OBSERVATION -/

theorem execGlobalObservation_sent {s : State} {c tag : Nat} {w : WTag} (h : s.running) (hc : c < 256)
    (hx : s.cxl.session = true) (hw : s.wtag c tag = some w) (hg : w.target = .host) (hs : w.stage = .sent)
    (ho : s.timedOut .host w.sent = false) :
    execGlobalObservation c tag s = .next ((s.performed c tag none).after c) := by
  have h1 : ¬ 1024 ≤ c := by omega
  have h2 : ¬ 512 ≤ c := by omega
  have h3 : ¬ 256 ≤ c := by omega
  simp [execGlobalObservation, whenPowered_running h, hx, h1, h2, h3, hw, hg, hs, ho]

/-! #### DEVICE_WRITE_TIMEOUT -/

/-- The state in which a write that has timed out gives up its tag: the record is logged, the die counts the discarded write and
shows its page and context, and STATUS shows the timeout to what waits (R234, R235). -/
def State.writeTimedOut (s : State) (c : Nat) (w : WTag) (page : BitVec 64) : State :=
  (((s.timeoutRecord (.tile w.code.1 w.code.2 (s.core c).launch) (s.timeoutUnit c w.target false) w.pa).bump
    (rFe (c / 32) 0xA00)).setReg (rFe (c / 32) 0xA08) page).modCore c fun x =>
      { x with syncTimeout := x.syncTimeout || (s.core c).waitsDrain
               devTimeout := x.devTimeout || (s.core c).waitsRelease w }

theorem execDeviceWriteTimeout_sent {s : State} {c tag : Nat} {w : WTag} (h : s.running) (hc : c < 1024)
    (hw : s.wtag c tag = some w) (hs : w.stage = .sent) (ho : s.timedOut w.target w.sent = true) :
    ∃ page, execDeviceWriteTimeout c tag s = .next (((s.writeTimedOut c w page).draw.1.freeWrite c w
      (some (Config.freeWord (s.writeTimedOut c w page).draw.2).toNat)).after c) := by
  have h1 : ¬ 1024 ≤ c := by omega
  apply Exists.intro
  simp only [execDeviceWriteTimeout, whenPowered_running h, if_neg h1, hw, withSome_some, hs, ho, beq_self_eq_true,
    Bool.and_self, whenIt_true, Act.out_next]
  rfl

theorem State.timeoutRecord_recorded {s : State} (h : s.hubKeeps) (w : Cause) (unit : BitVec 64) (pa : Nat) :
    s.Recorded (s.timeoutRecord w unit pa) :=
  State.logBy_recorded h _ _

theorem State.writeTimedOut_writes (s : State) (c : Nat) (w : WTag) (page : BitVec 64) :
    ((s.writeTimedOut c w page).core c).writes = (s.core c).writes := by
  rw [State.writeTimedOut, State.core_modCore_same, State.core_of_cores s _ (by simp)]

theorem rFe_not_recordReg {d : Nat} (hd : d < 32) : ¬ recordReg (rFe d 0xA00) := by
  rintro (e | e | ⟨p, e⟩) <;> simp only [rRas, rPd, rFe] at e <;> omega

theorem satInc_eq_min {k n : Nat} (h : n < 2 ^ k) : satInc k n = min (n + 1) (2 ^ k - 1) := by
  unfold satInc
  split <;> omega

theorem State.bump_regN {s : State} {o : Nat} (h : s.regN o < 2 ^ 32) :
    (s.bump o).regN o = min (s.regN o + 1) (2 ^ 32 - 1) := by
  rw [State.bump, State.regN_setReg, satInc_eq_min h, BitVec.toNat_ofNat, Nat.mod_eq_of_lt (by omega)]

/-- The die's count of discarded writes grows by one, up to its maximum (R235). -/
theorem State.writeTimedOut_regN {s : State} {c : Nat} (w : WTag) (page : BitVec 64) (hc : c < 1024) (hr : s.hubKeeps)
    (hn : s.regN (rFe (c / 32) 0xA00) < 2 ^ 32) :
    (s.writeTimedOut c w page).regN (rFe (c / 32) 0xA00) = min (s.regN (rFe (c / 32) 0xA00) + 1) (2 ^ 32 - 1) := by
  have hk := (State.timeoutRecord_recorded hr (.tile w.code.1 w.code.2 (s.core c).launch) (s.timeoutUnit c w.target false)
    w.pa).regN (rFe_not_recordReg (d := c / 32) (by omega))
  have hne : rFe (c / 32) 0xA00 ≠ rFe (c / 32) 0xA08 := by
    simp only [rFe]
    omega
  rw [State.writeTimedOut, State.modCore_regN, State.regN, State.reg_setReg_other _ _ hne, ← State.regN,
    State.bump_regN (by rwa [hk]), hk]

theorem State.writeTimedOut_mem {s : State} (c : Nat) (w : WTag) (page : BitVec 64) (hr : s.hubKeeps) :
    (s.writeTimedOut c w page).mem = s.mem := by
  rw [State.writeTimedOut, State.modCore_mem, State.setReg_mem, State.bump, State.setReg_mem,
    (State.timeoutRecord_recorded hr _ _ _).mem]

/-! #### The obligation -/

/-- Settles O23: an acknowledgement frees its tag at once, an observation marks it, and a timeout frees it in the state that its
record and its count leave. -/
theorem writeEnds : Obligations.WriteEnds := by
  refine ⟨?ack, ?observed, ?timeout⟩
  case ack =>
    intro s c tag w h hc hw hg hp hs ht
    have htag := State.wtag_tag hw
    refine ⟨_, execWriteAck_tiered h hc hw hg (State.tagDone_performed hp (by rwa [htag])), State.settles_self _ c,
      State.freeWrite_onlyCore _ ht, ?_, ?_, ?_⟩
    · rw [State.freeWrite_writes, htag]
    · intro j r v hj hr hv
      rw [hv]
      exact State.freeWrite_atom ht hj hr
    · intro hv
      rw [hv]
      exact State.freeWrite_regs s c w
  case observed =>
    intro s c tag w h hc hx hw hg hs ho
    refine ⟨_, execGlobalObservation_sent h hc hx hw hg hs ho, State.settles_self _ c,
      State.onlyCore_modCore (State.onlyCore_refl s c) _, ?_, ?_⟩
    · rw [State.performed, State.core_modCore_same]
      rfl
    · rw [State.performed, State.core_modCore_same]
  case timeout =>
    intro s c tag w h hc hw hs ho hr hn
    obtain ⟨page, hx⟩ := execDeviceWriteTimeout_sent h hc hw hs ho
    refine ⟨_, hx, State.settles_self _ c, ?_, ?_, fun a => ?_⟩
    · rw [State.freeWrite_writes, State.wtag_tag hw, State.core_of_cores _ _ (State.draw_cores _),
        State.writeTimedOut_writes]
    · rw [State.freeWrite_regN, State.draw_regN]
      exact State.writeTimedOut_regN w page hc hr.hubKeeps hn
    · rw [State.rawByte, State.freeWrite_mem, State.draw_mem, State.writeTimedOut_mem c w page hr.hubKeeps, State.rawByte]

end Sys2Proof.Machine

end

section

/-!
### Window ports and patrol scrub: R128, R147 to R151, R413
-/

namespace Sys2Proof.Machine

/-! #### Bytes and numbers -/

theorem ofBytes_append (a b : List Byte) : ofBytes (a ++ b) = ofBytes a + 256 ^ a.length * ofBytes b := by
  induction a with
  | nil => simp [ofBytes]
  | cons x a ih =>
    rw [List.cons_append, ofBytes, ih, ofBytes, List.length_cons, Nat.pow_succ]
    ring

theorem ofBytes_lt (l : List Byte) : ofBytes l < 256 ^ l.length := by
  induction l with
  | nil => simp [ofBytes]
  | cons x l ih =>
    have hx := x.isLt
    rw [ofBytes, List.length_cons, Nat.pow_succ]
    omega

/-- A word of bytes that begin with `a` shows `a` in its low bits. -/
theorem ofNat_ofBytes_append_mod {w : Nat} {a b : List Byte} (h : 8 * (a.length + b.length) = w) :
    (BitVec.ofNat w (ofBytes (a ++ b))).toNat % 2 ^ (8 * a.length) = ofBytes a := by
  have hp (n : Nat) : 2 ^ (8 * n) = 256 ^ n := by rw [Nat.pow_mul]
  have hlt : ofBytes (a ++ b) < 2 ^ w := by
    have hab := ofBytes_lt (a ++ b)
    rwa [List.length_append, ← hp, h] at hab
  rw [BitVec.toNat_ofNat, Nat.mod_eq_of_lt hlt, hp, ofBytes_append, Nat.add_mul_mod_self_left,
    Nat.mod_eq_of_lt (ofBytes_lt a)]

/-! #### The port -/

theorem State.wakeCore_of_awake {s : State} (c : Nat) (h : s.power.gated = []) : s.wakeCore c = s := by
  simp [State.wakeCore, State.coreGated, h]

/-- What a window address names: a core, and an offset that is aligned as the address is. -/
theorem State.windowOf_spec {s : State} {pa c o : Nat} (h : s.windowOf pa = some (c, o)) :
    c < 128 ∧ 0x060000000000 ≤ localPart pa ∧ o = (localPart pa - 0x060000000000) % 0x400000 := by
  simp only [State.windowOf] at h
  split at h
  · cases h
  · split at h
    · rename_i ha
      split at h
      · rename_i hp
        obtain ⟨rfl, rfl⟩ := Prod.mk.inj (Option.some.inj h)
        rw [Bool.and_eq_true, decide_eq_true_eq] at ha
        exact ⟨State.corePresent_lt hp, ha.1, rfl⟩
      · cases h
    · cases h

theorem State.windowStore_awake {s : State} (c o : Nat) (bs : List Byte) (h : s.power.gated = []) :
    s.windowStore c o bs = (s.portUsed c).scrWrite c o bs := by
  rw [State.windowStore, State.wakeCore_of_awake c h]

theorem State.windowLoad_good {s : State} {c o n : Nat} (w : Cause) (h : s.power.gated = [])
    (hb : s.rowsBad c o 0 1 n = none) : s.windowLoad c o n w = (s.portUsed c, s.scrRead c o n, false) := by
  have hp : (s.portUsed c).rowsBad c o 0 1 n = none := hb
  simp only [State.windowLoad, State.wakeCore_of_awake c h, hp]
  rfl

theorem State.windowLoad_bad {s : State} {c o n off : Nat} (w : Cause) (h : s.power.gated = [])
    (hb : s.rowsBad c o 0 1 n = some off) :
    s.windowLoad c o n w = ((s.portUsed c).scratchRecord c off w, s.scrRead c o n, true) := by
  have hp : (s.portUsed c).rowsBad c o 0 1 n = some off := hb
  simp only [State.windowLoad, State.wakeCore_of_awake c h, hp]
  rfl

theorem State.portUsed_sameRegs (s : State) (c : Nat) : s.sameRegs (s.portUsed c) :=
  State.sameRegs_modCore (State.sameRegs_refl s) c _ fun _ => rfl

/-- A write at the port leaves its bytes, and every other byte and every register as it was. -/
theorem State.portWrite {s : State} {c o : Nat} (hc : c < 128) {bs : List Byte} (ho : o + bs.length ≤ 0x400000) :
    ((s.portUsed c).scrWrite c o bs).scrRead c o bs.length = bs
      ∧ s.sameRegs ((s.portUsed c).scrWrite c o bs)
      ∧ ∀ x, localPart x < windowBase c + o ∨ windowBase c + o + bs.length ≤ localPart x →
          ((s.portUsed c).scrWrite c o bs).rawByte x = s.rawByte x :=
  ⟨State.scrRead_scrWrite _ hc bs ho, State.sameRegs_cores (State.portUsed_sameRegs s c) (State.scrWrite_cores ..),
    fun x hx => State.scrWrite_rawByte_other _ c o x bs hx⟩

/-! #### What a hart gets -/

theorem State.hart_setHart (s : State) (h : Nat) (k : Hart) : (s.setHart h k).hart h = k := by
  simp [State.hart, State.setHart, Tbl.getD_setD_same]

theorem State.hartTrap_trap (s : State) (h cause : Nat) (tval : Option Nat) :
    ((s.hartTrap h cause tval).hart h).trap = some { cause := cause, tval := tval } := by
  rw [State.hartTrap, State.hart_setHart]

theorem State.hartGets_mem (s : State) (h : Nat) (vec : Option Nat) (pa : Nat) (bs : List Byte) :
    (s.hartGets h vec pa bs false).mem = s.mem := by
  cases vec <;> rfl

theorem State.hartGets_out (s : State) (h : Nat) (vec : Option Nat) (pa : Nat) (bs : List Byte) :
    (s.hartGets h vec pa bs false).out = s.out := by
  cases vec <;> rfl

theorem State.hartGets_cores (s : State) (h : Nat) (vec : Option Nat) (pa : Nat) (bs : List Byte) :
    (s.hartGets h vec pa bs false).cores = s.cores := by
  cases vec <;> rfl

/-- The vector register of a vector load takes the bytes, and above them keeps its own; no other changes (R401). -/
theorem State.hartGets_vec (s : State) (h v pa : Nat) (bs : List Byte) :
    ((s.hartGets h (some v) pa bs false).hart h).v = (s.hart h).v.setD (fun _ => 0) v
      (BitVec.ofNat 512 (ofBytes (bs.take 64 ++
        (toBytes 64 ((s.hart h).v.getD (fun _ => 0) v).toNat).drop bs.length))) := by
  simp only [State.hartGets, Bool.false_eq_true, if_false, State.hart_setHart]

theorem State.hartGets_low (s : State) (h v pa : Nat) {bs : List Byte} (hb : bs.length ≤ 64) :
    (((s.hartGets h (some v) pa bs false).hart h).v.getD (fun _ => 0) v).toNat % 2 ^ (8 * bs.length) = ofBytes bs := by
  have hlen : 8 * (bs.length + ((toBytes 64 ((s.hart h).v.getD (fun _ => 0) v).toNat).drop bs.length).length) = 512 := by
    rw [List.length_drop, length_toBytes]
    omega
  rw [State.hartGets_vec, Tbl.getD_setD_same, List.take_of_length_le hb, ofNat_ofBytes_append_mod hlen]

/-! #### WINDOW_ACCESS and WINDOW_ATOMIC -/

theorem execWindowAccess_store {s : State} {who : Agent} {pa n c o : Nat} {bs : List Byte} (h : s.running)
    (hg : s.power.gated = []) (hw : s.windowOf pa = some (c, o)) (h1 : 1 ≤ bs.length) (h2 : bs.length ≤ 128)
    (ho : o + bs.length ≤ scratchSize) (hm : s.hartMay who pa bs.length false true = true) :
    execWindowAccess who pa n (some bs) s = .next ((s.portUsed c).scrWrite c o bs) := by
  simp [execWindowAccess, whenPowered_running h, hw, h1, h2, ho, hm, State.windowStore_awake c o bs hg]

theorem execWindowAccess_load_hart {s : State} {i : Nat} {a : HartAcc} {pa n c o : Nat} (h : s.running)
    (hg : s.power.gated = []) (hw : s.windowOf pa = some (c, o)) (h1 : 1 ≤ n) (h2 : n ≤ 128) (ho : o + n ≤ scratchSize)
    (hb : s.rowsBad c o 0 1 n = none) (hm : s.hartMay (.hart i a) pa n true false = true) :
    execWindowAccess (.hart i a) pa n none s = .next (((s.portUsed c).emit
      { kind := .data, args := [agentId (.hart i a), pa, 0], bytes := s.scrRead c o n }).hartGets i a.vec pa
        (s.scrRead c o n) false) := by
  simp [execWindowAccess, whenPowered_running h, hw, h1, h2, ho, hm, State.windowLoad_good _ hg hb]

theorem execWindowAccess_load_other {s : State} {who : Agent} {pa n c o : Nat} (hh : hartOf who = none) (h : s.running)
    (hg : s.power.gated = []) (hw : s.windowOf pa = some (c, o)) (h1 : 1 ≤ n) (h2 : n ≤ 128) (ho : o + n ≤ scratchSize)
    (hb : s.rowsBad c o 0 1 n = none) (hm : s.hartMay who pa n true false = true) :
    execWindowAccess who pa n none s = .next ((s.portUsed c).emit
      { kind := .data, args := [agentId who, pa, 0], bytes := s.scrRead c o n }) := by
  cases who with
  | hart i a => cases hh
  | _ => simp [execWindowAccess, whenPowered_running h, hw, h1, h2, ho, hm, State.windowLoad_good _ hg hb, b2n]

theorem execWindowAccess_load_bad {s : State} {i : Nat} {a : HartAcc} {pa n c o off : Nat} (h : s.running)
    (hg : s.power.gated = []) (hw : s.windowOf pa = some (c, o)) (h1 : 1 ≤ n) (h2 : n ≤ 128) (ho : o + n ≤ scratchSize)
    (hb : s.rowsBad c o 0 1 n = some off) (hm : s.hartMay (.hart i a) pa n true false = true) :
    execWindowAccess (.hart i a) pa n none s
      = .next (((s.portUsed c).scratchRecord c off .request).hartTrap i 19 (some pa)) := by
  simp [execWindowAccess, whenPowered_running h, hw, h1, h2, ho, hm, State.windowLoad_bad _ hg hb]

theorem execWindowAccess_absent {s : State} {i : Nat} {a : HartAcc} {pa n : Nat} {wr : Option (List Byte)} (h : s.running)
    (hw : s.windowOf pa = none) (hn : nodePart pa = s.node) (hp : inWindows pa = true)
    (hm : s.hartMay (.hart i a) pa n wr.isNone wr.isSome = true) :
    execWindowAccess (.hart i a) pa n wr s = .next (s.hartTrap i (if wr.isSome then 7 else 5) none) := by
  have hm' : s.hartMay (.hart i { off := 0, n := 0 }) pa n wr.isNone wr.isSome = true := hm
  simp only [execWindowAccess, whenPowered_running h, hw, hartOf, hn, hp, hm', decide_true, Bool.and_self, whenIt_true,
    Act.out_next]

theorem execWindowAtomic_good {s : State} {who : Agent} {pa c o : Nat} {op : AtomOp} {f : AtomFmt} {v cmp : BitVec 64}
    (h : s.running) (hg : s.power.gated = []) (hw : s.windowOf pa = some (c, o)) (hf : atomIsFloat f = false)
    (hp : pa % atomBytes f = 0) (hb : s.rowsBad c o 0 1 (atomBytes f) = none)
    (hm : s.hartMay who pa (atomBytes f) true true = true) :
    execWindowAtomic who pa op f v cmp s = .next (((s.portUsed c).scrWrite c o (toBytes (atomBytes f)
      (atomNew op f (ofBytes (s.scrRead c o (atomBytes f))) v.toNat cmp.toNat))).emitN .data
        [agentId who, pa, ofBytes (s.scrRead c o (atomBytes f))]) := by
  simp [execWindowAtomic, whenPowered_running h, hw, hf, hp, hm, State.windowAtomic, State.windowLoad_good _ hg hb]

/-! #### Scrub -/

theorem State.rawByte_congr {s t : State} (hb : t.mem.bytes = s.mem.bytes) (hu : t.mem.undef = s.mem.undef) (x : Nat) :
    t.rawByte x = s.rawByte x := by
  rw [State.rawByte, State.rawByte, hb, Mem.blank_congr hu]

/-- What patrol scrub does where it finds a word that it cannot correct (R128). -/
def State.scrubFound (s : State) (c row : Nat) (e : EccHit) : State :=
  (s.scrSpoil c (bankRowOffset row + e.place * 8) 8).scratchRecord c (bankRowOffset row + e.place * 8) .none

@[simp] theorem State.scrSpoil_cores (s : State) (c o n : Nat) : (s.scrSpoil c o n).cores = s.cores := by
  simp only [State.scrSpoil, State.withMem_cores]

theorem State.withMem_hubKeeps {s : State} (h : s.hubKeeps) (m : Mem) : (s.withMem m).hubKeeps := h

theorem State.scrSpoil_rawByte (s : State) (c o n x : Nat) : (s.scrSpoil c o n).rawByte x = s.rawByte x := by
  refine State.rawByte_congr ?_ ?_ x <;> simp only [State.scrSpoil, State.withMem_mem]

theorem State.scrubFound_sameRegs (s : State) (c row : Nat) (e : EccHit) : s.sameRegs (s.scrubFound c row e) := by
  refine State.sameRegs_cores (State.sameRegs_refl s) ?_
  rw [State.scrubFound, State.scratchRecord_cores, State.scrSpoil_cores]

theorem State.scratchRecord_recorded {s : State} (h : s.hubKeeps) (c off : Nat) (w : Cause) :
    s.Recorded (s.scratchRecord c off w) :=
  State.logBy_recorded h w _

theorem State.scrubFound_keeps {s : State} (h : s.hubKeeps) (c row : Nat) (e : EccHit) :
    (s.scrubFound c row e).hubKeeps ∧ ∀ x, (s.scrubFound c row e).rawByte x = s.rawByte x := by
  have hs : (s.scrSpoil c (bankRowOffset row + e.place * 8) 8).hubKeeps := State.withMem_hubKeeps h _
  have hr := State.scratchRecord_recorded hs c (bankRowOffset row + e.place * 8) .none
  refine ⟨hr.hubKeeps hs, fun x => ?_⟩
  rw [State.scrubFound, State.rawByte, hr.mem, ← State.rawByte, State.scrSpoil_rawByte]

theorem State.foldl_scrubFound_rawByte {s : State} (h : s.hubKeeps) (c row : Nat) (es : List EccHit) (x : Nat) :
    (es.foldl (fun s e => s.scrubFound c row e) s).rawByte x = s.rawByte x := by
  induction es generalizing s with
  | nil => rfl
  | cons e es ih =>
    obtain ⟨hk, hb⟩ := State.scrubFound_keeps h c row e
    rw [List.foldl_cons, ih hk, hb]

theorem execScratchScrub_row {s : State} {c row : Nat} {errs : List EccHit} (h : s.running) (hc : s.corePresent c = true)
    (hr : row < 32768) (he : ∀ e ∈ errs, e.place < 16) :
    execScratchScrub c row errs s
      = .next ((errs.filter (fun e => e.hard)).foldl (fun s e => s.scrubFound c row e) s) := by
  have hall : errs.all (fun e => decide (e.place < 16)) = true := by simpa using he
  simp only [execScratchScrub, whenPowered_running h, hc, hr, hall, decide_true, Bool.and_self, whenIt_true, Act.out_next]
  rfl

/-! #### The obligation -/

/-- Settles O26: each access is performed at the bank in the state that its use of the port leaves. -/
theorem windowPorts : Obligations.WindowPorts := by
  refine ⟨?access, ?absent, ?hart, ?atomic, ?scrub⟩
  case access =>
    intro s who pa n c o h hg hw
    have hc := (State.windowOf_spec hw).1
    refine ⟨fun bs h1 h2 ho hm => ?_, fun h1 h2 ho hb hm => ?_⟩
    · obtain ⟨hread, hregs, hrest⟩ := State.portWrite (s := s) hc ho
      exact ⟨_, execWindowAccess_store h hg hw h1 h2 ho hm, hread, hregs, hrest⟩
    · cases hh : hartOf who with
      | none => exact ⟨_, execWindowAccess_load_other hh h hg hw h1 h2 ho hb hm, rfl, State.portUsed_sameRegs s c, rfl⟩
      | some i =>
        cases who with
        | hart i a =>
          exact ⟨_, execWindowAccess_load_hart h hg hw h1 h2 ho hb hm, State.hartGets_mem .., State.sameRegs_cores
            (State.portUsed_sameRegs s c) (State.hartGets_cores ..), State.hartGets_out ..⟩
        | _ => cases hh
  case absent => exact fun s i a pa n wr h hw hn hp hm => execWindowAccess_absent h hw hn hp hm
  case hart =>
    intro s i a pa n c o h hg hw h1 h2 ho hm
    refine ⟨fun hb => ?_, fun v hb hv h64 => ?_⟩
    · obtain ⟨off, hb⟩ := Option.ne_none_iff_exists'.mp hb
      exact ⟨_, execWindowAccess_load_bad h hg hw h1 h2 ho hb hm, State.hartTrap_trap ..⟩
    · have hn : (s.scrRead c o n).length = n := by rw [State.scrRead, List.length_map, length_upFrom]
      refine ⟨_, execWindowAccess_load_hart h hg hw h1 h2 ho hb hm, ?_, fun r hr => ?_⟩
      · rw [hv]
        have hlow := State.hartGets_low ((s.portUsed c).emit
          { kind := .data, args := [agentId (.hart i a), pa, 0], bytes := s.scrRead c o n }) i v pa (hn.trans_le h64)
        rwa [hn] at hlow
      · rw [hv, State.hartGets_vec, Tbl.getD_setD_other _ _ _ _ _ hr]
        rfl
  case atomic =>
    intro s who pa c o op f v cmp h hg hw hf hp hb hm old
    obtain ⟨hc, hlo, hoff⟩ := State.windowOf_spec hw
    have hlen := length_toBytes (atomBytes f) (atomNew op f old v.toNat cmp.toNat)
    have ho : o + atomBytes f ≤ 0x400000 := by
      simp only [localPart] at hlo hoff
      rcases hf with rfl | rfl <;> simp only [atomBytes] at hp ⊢ <;> omega
    obtain ⟨hread, hregs, hrest⟩ := State.portWrite (s := s) hc (hlen.symm ▸ ho)
    rw [hlen] at hread hrest
    refine ⟨_, execWindowAtomic_good h hg hw ?_ hp hb hm, hregs, rfl, hread, hrest⟩
    rcases hf with rfl | rfl <;> rfl
  case scrub =>
    intro s c row errs h hc hr he
    refine ⟨_, execScratchScrub_row h hc hr he, State.sameRegs_foldl (State.sameRegs_refl s) _
      (fun u e => State.scrubFound_sameRegs u c row e) _, fun hs => ?_, fun hoff x =>
      State.foldl_scrubFound_rawByte hoff.hubKeeps c row _ x⟩
    rw [List.filter_eq_nil_iff.mpr (by simpa using hs)]
    rfl

end Sys2Proof.Machine

end

section

/-!
### The unit states and the pending command under the operations of the model

The homes, the log and the units of the cores change of `State.ras` the log's own fields alone. The lemmas of `Obs` say nothing of
`State.ras`; one rewriting rule for each function, `<function>_view`, says it of every part of `State.ras` that those fields
do not show in.
-/

namespace Sys2Proof.Machine

/-- A part of `State.ras`, seen with the population, in which the log's index, its waiting records and its overflow do not
show. -/
structure RasView (α : Type) where
  part : Pop → Ras → α
  logged : ∀ (p : Pop) (r : Ras) (i : Nat) (o : Bool) (w : List LogEnt),
    part p { r with logIndex := i, overflow := o, waiting := w } = part p r

/-- What is seen of a state. -/
def RasView.see {α : Type} (ν : RasView α) (s : State) : α := ν.part s.pop s.ras

/-- The population, the states of the units, and the command that waits. -/
def RasView.units : RasView (Pop × Tbl (Nat × Nat) × Option UnitCmd) where
  part p r := (p, r.units, r.cmd)
  logged _ _ _ _ _ := rfl

section

variable {α : Type} {ν : RasView α}

@[simp] theorem State.withRegs_view (s : State) (x : Regs) : ν.see (s.withRegs x) = ν.see s := rfl
@[simp] theorem State.withCores_view (s : State) (x : Tbl Core) : ν.see (s.withCores x) = ν.see s := rfl
@[simp] theorem State.withMem_view (s : State) (x : Mem) : ν.see (s.withMem x) = ν.see s := rfl
@[simp] theorem State.withCtls_view (s : State) (x : Tbl MemCtl) : ν.see (s.withCtls x) = ν.see s := rfl
@[simp] theorem State.withPeel_view (s : State) (x : Peel) : ν.see (s.withPeel x) = ν.see s := rfl
@[simp] theorem State.withXlat_view (s : State) (x : Xlat) : ν.see (s.withXlat x) = ν.see s := rfl
@[simp] theorem State.withPds_view (s : State) (x : Pds) : ν.see (s.withPds x) = ν.see s := rfl
@[simp] theorem State.withWork_view (s : State) (x : Work) : ν.see (s.withWork x) = ν.see s := rfl
@[simp] theorem State.withPower_view (s : State) (x : Power) : ν.see (s.withPower x) = ν.see s := rfl
@[simp] theorem State.withLinks_view (s : State) (x : Links) : ν.see (s.withLinks x) = ν.see s := rfl
@[simp] theorem State.withCxl_view (s : State) (x : Cxl) : ν.see (s.withCxl x) = ν.see s := rfl
@[simp] theorem State.withBoot_view (s : State) (x : Boot) : ν.see (s.withBoot x) = ν.see s := rfl
@[simp] theorem State.withHatch_view (s : State) (x : Hatch) : ν.see (s.withHatch x) = ν.see s := rfl
@[simp] theorem State.withOut_view (s : State) (x : List Output) : ν.see (s.withOut x) = ν.see s := rfl
@[simp] theorem State.withFresh_view (s : State) (x : Nat) : ν.see (s.withFresh x) = ν.see s := rfl
@[simp] theorem State.withPending_view (s : State) (x : List Instr) : ν.see (s.withPending x) = ν.see s := rfl

/-- The log's own fields do not show. -/
@[simp] theorem State.withRas_logged_view (s : State) (i : Nat) (o : Bool) (w : List LogEnt) :
    ν.see (s.withRas { s.ras with logIndex := i, overflow := o, waiting := w }) = ν.see s :=
  ν.logged s.pop s.ras i o w

@[simp] theorem State.ite_view (p : Prop) [Decidable p] (a b : State) :
    ν.see (if p then a else b) = if p then ν.see a else ν.see b := apply_ite _ _ _ _

@[simp] theorem State.ite_fst_view {β : Type} (p : Prop) [Decidable p] (a b : State × β) :
    ν.see (if p then a else b).1 = if p then ν.see a.1 else ν.see b.1 := by split <;> rfl

@[simp] theorem State.foldl_view {β : Type} (g : State → β → State) (s : State) (l : List β)
    (hg : ∀ u x, ν.see (g u x) = ν.see u) : ν.see (l.foldl g s) = ν.see s := by
  induction l generalizing s with
  | nil => rfl
  | cons x l ih => rw [List.foldl_cons, ih, hg]

@[simp] theorem State.foldl_fst_view {β γ : Type} (g : State × γ → β → State × γ) (r : State × γ) (l : List β)
    (hg : ∀ r x, ν.see (g r x).1 = ν.see r.1) : ν.see (l.foldl g r).1 = ν.see r.1 := by
  induction l generalizing r with
  | nil => rfl
  | cons x l ih => rw [List.foldl_cons, ih, hg]

@[simp] theorem State.setReg_view (s : State) (o : Nat) (v : BitVec 64) : ν.see (s.setReg o v) = ν.see s := by
  simp [State.setReg]

@[simp] theorem State.setRegBit_view (s : State) (o i : Nat) (b : Bool) : ν.see (s.setRegBit o i b) = ν.see s := by
  simp [State.setRegBit]

@[simp] theorem State.bump_view (s : State) (o : Nat) : ν.see (s.bump o) = ν.see s := by simp [State.bump]

@[simp] theorem State.draw_view (s : State) : ν.see s.draw.1 = ν.see s := by simp [State.draw]

@[simp] theorem State.emit_view (s : State) (o : Output) : ν.see (s.emit o) = ν.see s := by simp [State.emit]

@[simp] theorem State.emitN_view (s : State) (k : OutKind) (args : List Nat) : ν.see (s.emitN k args) = ν.see s := by
  simp [State.emitN]

@[simp] theorem State.mgmt_view (s : State) (args : List Nat) (bytes : List Byte) :
    ν.see (s.mgmt args bytes) = ν.see s := by
  simp [State.mgmt]

@[simp] theorem State.msi_view (s : State) (h f ident : Nat) : ν.see (s.msi h f ident) = ν.see s := by simp [State.msi]

@[simp] theorem State.msiTarget_view (s : State) (t : Nat) : ν.see (s.msiTarget t) = ν.see s := by simp [State.msiTarget]

@[simp] theorem State.alert_view (s : State) (cause : Nat) : ν.see (s.alert cause) = ν.see s := by simp [State.alert]

@[simp] theorem State.setRemap_view (s : State) (b : Nat) (r : Remap) : ν.see (s.setRemap b r) = ν.see s := by
  simp [State.setRemap]

@[simp] theorem State.homeWrite_view (s : State) (pa : Nat) (bs : List Byte) : ν.see (s.homeWrite pa bs) = ν.see s := by
  simp [State.homeWrite]

@[simp] theorem State.setPoison_view (s : State) (secs : List Nat) : ν.see (s.setPoison secs) = ν.see s := by
  simp [State.setPoison]

@[simp] theorem State.setCore_view (s : State) (c : Nat) (k : Core) : ν.see (s.setCore c k) = ν.see s := by
  simp [State.setCore]

@[simp] theorem State.modCore_view (s : State) (c : Nat) (f : Core → Core) : ν.see (s.modCore c f) = ν.see s := by
  simp [State.modCore]

@[simp] theorem State.setCluster_view (s : State) (k : Nat) (x : Cluster) : ν.see (s.setCluster k x) = ν.see s := by
  simp [State.setCluster]

@[simp] theorem State.setCtl_view (s : State) (n : Nat) (x : MemCtl) : ν.see (s.setCtl n x) = ν.see s := by
  simp [State.setCtl]

@[simp] theorem State.setFe_view (s : State) (d : Nat) (x : Fe) : ν.see (s.setFe d x) = ν.see s := by simp [State.setFe]

@[simp] theorem State.setHart_view (s : State) (h : Nat) (x : Hart) : ν.see (s.setHart h x) = ν.see s := by
  simp [State.setHart]

@[simp] theorem State.modOp_view (s : State) (uid : Nat) (f : Op → Op) : ν.see (s.modOp uid f) = ν.see s := by
  simp [State.modOp]

@[simp] theorem State.scrWrite_view (s : State) (c o : Nat) (bs : List Byte) : ν.see (s.scrWrite c o bs) = ν.see s := by
  simp [State.scrWrite]

@[simp] theorem State.scrClear_view (s : State) (c : Nat) : ν.see (s.scrClear c) = ν.see s := by simp [State.scrClear]

@[simp] theorem State.wakeCtl_view (s : State) (n : Nat) : ν.see (s.wakeCtl n) = ν.see s := by
  simp only [State.wakeCtl]
  split <;> simp

@[simp] theorem State.mirror_view (s : State) (pa n : Nat) : ν.see (s.mirror pa n) = ν.see s := by
  simp only [State.mirror]
  split <;> simp

@[simp] theorem State.mirrorWhole_view (s : State) (line : Nat) (secs : List Nat) :
    ν.see (s.mirrorWhole line secs) = ν.see s := by
  simp [State.mirrorWhole]

@[simp] theorem State.homeStore_view (s : State) (pa : Nat) (bs : List Byte) : ν.see (s.homeStore pa bs) = ν.see s := by
  simp [State.homeStore]

@[simp] theorem State.overwrite_view (s : State) (secs : List Nat) : ν.see (s.overwrite secs) = ν.see s := by
  simp [State.overwrite]

@[simp] theorem State.setDir_view (s : State) (line : Nat) (e : DirEntry) : ν.see (s.setDir line e) = ν.see s := by
  simp [State.setDir]

@[simp] theorem State.notice_view (s : State) (line i : Nat) : ν.see (s.notice line i) = ν.see s := by simp [State.notice]

@[simp] theorem State.clusterInval_view (s : State) (k line : Nat) : ν.see (s.clusterInval k line) = ν.see s := by
  simp [State.clusterInval]

@[simp] theorem State.doorbellLost_view (s : State) (d line : Nat) : ν.see (s.doorbellLost d line) = ν.see s := by
  simp [State.doorbellLost]

@[simp] theorem State.setSlc_view (s : State) (p i : Nat) (l : List SlcLine) : ν.see (s.setSlc p i l) = ν.see s := by
  simp [State.setSlc]

@[simp] theorem State.slcDrop_view (s : State) (p line : Nat) : ν.see (s.slcDrop p line) = ν.see s := by simp [State.slcDrop]

@[simp] theorem State.upperDrop_view (s : State) (p line : Nat) : ν.see (s.upperDrop p line) = ν.see s := by
  simp [State.upperDrop]

@[simp] theorem State.dieDrop_view (s : State) (p line : Nat) : ν.see (s.dieDrop p line) = ν.see s := by simp [State.dieDrop]

@[simp] theorem State.dropCopy_view (s : State) (line i : Nat) : ν.see (s.dropCopy line i) = ν.see s := by
  simp [State.dropCopy]

@[simp] theorem State.flush_view (s : State) (line : Nat) : ν.see (s.flush line) = ν.see s := by simp [State.flush]

@[simp] theorem State.hostSilent_view (s : State) (line : Nat) : ν.see (s.hostSilent line).1 = ν.see s := by
  simp [State.hostSilent]

@[simp] theorem State.hostShows_view (s : State) (line : Nat) (bs : List (Nat × Byte)) :
    ν.see (s.hostShows line bs) = ν.see s := by
  simp [State.hostShows]

@[simp] theorem State.snoopNow_view (s : State) (line : Nat) : ν.see (s.snoopNow line).1 = ν.see s := by simp [State.snoopNow]

@[simp] theorem State.lostCopy_view (s : State) (line i : Nat) : ν.see (s.lostCopy line i).1 = ν.see s := by
  simp [State.lostCopy]

@[simp] theorem State.askOwner_view (s : State) (line : Nat) : ν.see (s.askOwner line).1 = ν.see s := by
  simp only [State.askOwner]
  split <;> simp

@[simp] theorem State.reclaim_view (s : State) (line : Nat) : ν.see (s.reclaim line).1 = ν.see s := by
  simp only [State.reclaim]
  split <;> simp

@[simp] theorem State.enrol_view (s : State) (b source ctx : Nat) : ν.see (s.enrol b source ctx) = ν.see s := by
  simp [State.enrol]

@[simp] theorem State.count_view (s : State) (pa : Nat) : ν.see (s.count pa) = ν.see s := by simp [State.count]

@[simp] theorem State.ownWrite_view (s : State) (pa : Nat) (bs : List Byte) : ν.see (s.ownWrite pa bs).1 = ν.see s := by
  simp [State.ownWrite]

@[simp] theorem State.rasIntr_view (s : State) (sev : Nat) : ν.see (s.rasIntr sev) = ν.see s := by
  simp [State.rasIntr]

@[simp] theorem State.nextIndex_view (s : State) : ν.see s.nextIndex = ν.see s := by simp [State.nextIndex]

@[simp] theorem State.logDrop_view (s : State) (sev : Nat) : ν.see (s.logDrop sev) = ν.see s := by
  rw [State.logDrop, State.rasIntr_view]
  exact ν.logged s.pop s.ras _ _ _

@[simp] theorem State.logKeep_view (s : State) (r : ErrRec) (time : Word) : ν.see (s.logKeep r time) = ν.see s := by
  simp [State.logKeep]

@[simp] theorem State.logPut_view (s : State) (e : LogEnt) : ν.see (s.logPut e) = ν.see s := by simp [State.logPut]

@[simp] theorem State.logWaiting_view (s : State) (n : Nat) : ν.see (s.logWaiting n) = ν.see s := by
  induction n generalizing s with
  | zero => rfl
  | succ n ih =>
    simp only [State.logWaiting]
    repeat' split
    all_goals simp [ih]

@[simp] theorem State.logFlush_view (s : State) : ν.see s.logFlush = ν.see s := by simp [State.logFlush]

@[simp] theorem State.hotPut_view (s : State) (r : HotRec) : ν.see (s.hotPut r) = ν.see s := by simp [State.hotPut]

@[simp] theorem State.hotFlush_view (s : State) (n : Nat) : ν.see (s.hotFlush n) = ν.see s := by
  induction n generalizing s with
  | zero => rfl
  | succ n ih =>
    simp only [State.hotFlush]
    repeat' split
    all_goals simp [ih]

@[simp] theorem State.recordsOut_view (s : State) : ν.see s.recordsOut = ν.see s := by simp [State.recordsOut]

@[simp] theorem State.logAt_view (s : State) (r : ErrRec) (time : Word) : ν.see (s.logAt r time) = ν.see s := by
  simp [State.logAt]

@[simp] theorem State.log_view (s : State) (r : ErrRec) : ν.see (s.log r) = ν.see s := by simp [State.log]

@[simp] theorem State.touch_view (s : State) (pa : Nat) : ν.see (s.touch pa) = ν.see s := by simp [State.touch]

@[simp] theorem State.recall_view (s : State) (line : Nat) : ν.see (s.recall line) = ν.see s := by simp [State.recall]

@[simp] theorem State.logOp_view (s : State) (uid : Nat) (r : ErrRec) : ν.see (s.logOp uid r) = ν.see s := by
  simp [State.logOp]

@[simp] theorem State.setPort_view (s : State) (p : Nat) (x : Port) : ν.see (s.setPort p x) = ν.see s := by
  simp [State.setPort]

@[simp] theorem State.sendOn_view (s : State) (p type dest src hops sgen dgen : Nat) (slots : List Byte) (info : List Nat) :
    ν.see (s.sendOn p type dest src hops sgen dgen slots info) = ν.see s := by
  simp [State.sendOn]

@[simp] theorem State.sendFlit_view (s : State) (n type : Nat) (slots : List Byte) (info : List Nat) :
    ν.see (s.sendFlit n type slots info) = ν.see s := by
  simp only [State.sendFlit]
  split <;> simp

@[simp] theorem State.sendMsg_view (s : State) (n : Nat) (data : List Byte) (info : List Nat) :
    ν.see (s.sendMsg n data info) = ν.see s := by
  simp [State.sendMsg]

@[simp] theorem State.respond_view (s : State) (node tag : Nat) (err : Bool) (bs : List Byte) (mask : Nat) :
    ν.see (s.respond node tag err bs mask) = ν.see s := by
  simp [State.respond]

@[simp] theorem State.takeSpare_view (s : State) (n row : Nat) : ν.see (s.takeSpare n row) = ν.see s := by
  simp [State.takeSpare]

@[simp] theorem State.tallyRow_view (s : State) (n row : Nat) : ν.see (s.tallyRow n row).1 = ν.see s := by
  simp [State.tallyRow]

@[simp] theorem State.rowBad_view (s : State) (n row addr : Nat) : ν.see (s.rowBad n row addr) = ν.see s := by
  simp [State.rowBad]

@[simp] theorem State.flawRead_view (s : State) (n : Nat) (f : EccFind) : ν.see (s.flawRead n f) = ν.see s := by
  simp [State.flawRead]

@[simp] theorem State.takeFlaws_view (s : State) (p : EccFind → Bool) : ν.see (s.takeFlaws p).1 = ν.see s := by
  simp [State.takeFlaws]

@[simp] theorem State.noteFlaws_view (s : State) (e : Ecc) : ν.see (s.noteFlaws e) = ν.see s := by simp [State.noteFlaws]

@[simp] theorem State.copyRow_view (s : State) (n row : Nat) : ν.see (s.copyRow n row) = ν.see s := by
  simp [State.copyRow]

@[simp] theorem State.remapRow_view (s : State) (n row cause : Nat) : ν.see (s.remapRow n row cause) = ν.see s := by
  simp [State.remapRow]

@[simp] theorem State.correctedRow_view (s : State) (n row : Nat) : ν.see (s.correctedRow n row) = ν.see s := by
  simp [State.correctedRow]

@[simp] theorem State.rowFailed_view (s : State) (n row addr : Nat) : ν.see (s.rowFailed n row addr) = ν.see s := by
  simp [State.rowFailed]

@[simp] theorem State.uncorrectable_view (s : State) (n row sec : Nat) :
    ν.see (s.uncorrectable n row sec) = ν.see s := by
  simp [State.uncorrectable]

@[simp] theorem State.eccFind_view (s : State) (n : Nat) (f : EccFind) : ν.see (s.eccFind n f) = ν.see s := by
  simp [State.eccFind]

@[simp] theorem State.findFlaws_view (s : State) (p : EccFind → Bool) (found : State → EccFind → State) (n : Nat)
    (hf : ∀ u f, ν.see (found u f) = ν.see u) : ν.see (s.findFlaws p found n) = ν.see s := by
  induction n generalizing s with
  | zero => rfl
  | succ n ih =>
    simp only [State.findFlaws]
    split
    · rfl
    · rw [ih, hf, State.withMem_view]

@[simp] theorem State.checkLine_view (s : State) (line : Nat) : ν.see (s.checkLine line) = ν.see s := by
  simp [State.checkLine]

@[simp] theorem State.noticeTo_view (s : State) (line k : Nat) : ν.see (s.noticeTo line k) = ν.see s := by
  simp [State.noticeTo]

@[simp] theorem State.clusterFill_view (s : State) (k line : Nat) : ν.see (s.clusterFill k line) = ν.see s := by
  simp [State.clusterFill]

@[simp] theorem State.slcUse_view (s : State) (h line : Nat) : ν.see (s.slcUse h line) = ν.see s := by
  simp only [State.slcUse]
  repeat' split
  all_goals simp

@[simp] theorem State.l2Fill_view (s : State) (h line : Nat) : ν.see (s.l2Fill h line) = ν.see s := by
  simp only [State.l2Fill]
  split <;> simp

@[simp] theorem State.l1Fill_view (s : State) (h line : Nat) : ν.see (s.l1Fill h line) = ν.see s := by simp [State.l1Fill]

@[simp] theorem State.dieUse_view (s : State) (h line : Nat) : ν.see (s.dieUse h line) = ν.see s := by simp [State.dieUse]

@[simp] theorem State.serve_view (s : State) (c : Nat) (t : RTag) (bs : List Byte) : ν.see (s.serve c t bs) = ν.see s := by
  simp [State.serve]

@[simp] theorem State.serveCluster_view (s : State) (k line : Nat) : ν.see (s.serveCluster k line) = ν.see s := by
  simp [State.serveCluster]

@[simp] theorem State.mixReads_view (s : State) (writer line : Nat) : ν.see (s.mixReads writer line) = ν.see s := by
  simp [State.mixReads]

@[simp] theorem State.noteWrote_view (s : State) (c seq pa n : Nat) : ν.see (s.noteWrote c seq pa n) = ν.see s := by
  simp [State.noteWrote]

@[simp] theorem State.performed_view (s : State) (c tag : Nat) (old : Option Nat) :
    ν.see (s.performed c tag old) = ν.see s := by
  simp [State.performed]

@[simp] theorem State.rowHolding_view (s : State) (pa : Nat) : ν.see (s.rowHolding pa).1 = ν.see s := by
  simp [State.rowHolding]

@[simp] theorem State.refusePoison_view (s : State) (pa : Nat) (ctx uid : Option Nat) :
    ν.see (s.refusePoison pa ctx uid) = ν.see s := by
  simp only [State.refusePoison]
  split <;> simp

@[simp] theorem State.addElems_view (s : State) (ctx uid : Option Nat) (f : AtomFmt) (pa : Nat) (l : List Nat) :
    ν.see (s.addElems ctx uid f pa l) = ν.see s := by
  induction l generalizing s pa with
  | nil => rfl
  | cons v l ih => simp [State.addElems, ih]

@[simp] theorem State.performTag_view (s : State) (c tag : Nat) : ν.see (s.performTag c tag) = ν.see s := by
  simp only [State.performTag]
  repeat' split
  all_goals simp

@[simp] theorem State.deliver_view (s : State) (who : Agent) (pa n tag : Nat) : ν.see (s.deliver who pa n tag) = ν.see s := by
  simp only [State.deliver]
  split <;> simp

@[simp] theorem State.hartTrap_view (s : State) (h cause : Nat) (tval : Option Nat) :
    ν.see (s.hartTrap h cause tval) = ν.see s := by
  simp [State.hartTrap]

@[simp] theorem State.hartGets_view (s : State) (h : Nat) (vec : Option Nat) (pa : Nat) (bs : List Byte) (bad : Bool) :
    ν.see (s.hartGets h vec pa bs bad) = ν.see s := by
  simp only [State.hartGets]
  repeat' split
  all_goals simp

@[simp] theorem State.consume_view (s : State) (who : Agent) (line : Nat) : ν.see (s.consume who line) = ν.see s := by
  simp only [State.consume]
  split <;> simp

@[simp] theorem State.keepWay_view (s : State) (line old : Nat) : ν.see (s.keepWay line old) = ν.see s := by
  simp only [State.keepWay]
  split <;> simp

@[simp] theorem State.hostBytes_view (s : State) (line : Nat) (bs : List (Nat × Byte)) (poison : Bool) :
    ν.see (s.hostBytes line bs poison) = ν.see s := by
  simp [State.hostBytes]

@[simp] theorem State.dropAll_view (s : State) (line : Nat) (e : DirEntry) (me : Option Nat) :
    ν.see (s.dropAll line e me) = ν.see s := by
  simp only [State.dropAll]
  split <;> simp

@[simp] theorem State.ownLost_view (s : State) (line : Nat) (who : Agent) : ν.see (s.ownLost line who) = ν.see s := by
  simp only [State.ownLost]
  split <;> simp

@[simp] theorem State.homeReply_view (s : State) (r : HomeReq) (pa v : Nat) (refused : Bool) :
    ν.see (s.homeReply r pa v refused) = ν.see s := by
  simp only [State.homeReply]
  split <;> simp

@[simp] theorem State.hartDone_view (s : State) (who : Agent) (id : Nat) : ν.see (s.hartDone who id) = ν.see s := by
  simp only [State.hartDone]
  split <;> simp

@[simp] theorem State.reqAccess_view (s : State) (r : HomeReq) : ν.see (s.reqAccess r) = ν.see s := by
  simp only [State.reqAccess]
  split <;> simp

@[simp] theorem State.performReq_view (s : State) (r : HomeReq) : ν.see (s.performReq r) = ν.see s := by
  simp only [State.performReq]
  repeat' split
  all_goals simp

@[simp] theorem State.startReq_view (s : State) (r : HomeReq) : ν.see (s.startReq r) = ν.see s := by
  simp only [State.startReq]
  split <;> simp

@[simp] theorem State.startEvict_view (s : State) (line : Nat) : ν.see (s.startEvict line) = ν.see s := by
  simp only [State.startEvict]
  split <;> simp

@[simp] theorem State.drain_view (s : State) (n : Nat) : ν.see (s.drain n) = ν.see s := by
  induction n generalizing s with
  | zero => rfl
  | succ n ih =>
    simp only [State.drain]
    repeat' split
    all_goals simp [ih]

@[simp] theorem State.drainAll_view (s : State) : ν.see s.drainAll = ν.see s := by simp [State.drainAll]

@[simp] theorem State.endTxn_view (s : State) (t : Txn) : ν.see (s.endTxn t) = ν.see s := by simp [State.endTxn]

@[simp] theorem State.answer_view (s : State) (line i : Nat) (q : α) (h : ν.see s = q) :
    (s.answer line i).leads (fun t => ν.see t = q) := by
  simp [State.answer, h]

theorem State.answerOr_view (s : State) (l i : Nat) :
    ν.see (match s.answer l i with | .next t => t | _ => s) = ν.see s := by
  have h := State.answer_view s l i (ν.see s) rfl
  cases e : s.answer l i with
  | next t => exact h t e
  | stay => rfl

@[simp] theorem State.answerNow_view (s : State) (line i : Nat) : ν.see (s.answerNow line i) = ν.see s := by
  simp only [State.answerNow]
  refine (State.answerOr_view _ line i).trans ?_
  simp

@[simp] theorem State.finishLine_view (s : State) (line n : Nat) : ν.see (s.finishLine line n) = ν.see s := by
  induction n generalizing s with
  | zero => rfl
  | succ n ih =>
    simp only [State.finishLine]
    split <;> simp [ih]

@[simp] theorem State.takeFrame_view (s : State) (m : Move) : ν.see (s.takeFrame m) = ν.see s := by
  simp [State.takeFrame]

@[simp] theorem State.finishSwitch_view (s : State) (line : Nat) : ν.see (s.finishSwitch line) = ν.see s := by
  simp only [State.finishSwitch]
  split <;> simp

@[simp] theorem State.lineTurn_view (s : State) (line : Nat) : ν.see (s.lineTurn line) = ν.see s := by
  simp [State.lineTurn]

@[simp] theorem State.sysWrite_view (s : State) (pa : Nat) (bs : List Byte) : ν.see (s.sysWrite pa bs) = ν.see s := by
  simp [State.sysWrite]

@[simp] theorem State.trimCheck_view (s : State) : ν.see s.trimCheck = ν.see s := by simp [State.trimCheck]

@[simp] theorem State.wakeCore_view (s : State) (c : Nat) : ν.see (s.wakeCore c) = ν.see s := by simp [State.wakeCore]

@[simp] theorem State.writeInline_view (s : State) (c : Nat) (g : Staged) : ν.see (s.writeInline c g) = ν.see s := by
  simp [State.writeInline]

@[simp] theorem State.fillSlots_view (s : State) (c : Nat) : ν.see (s.fillSlots c) = ν.see s := by
  simp only [State.fillSlots]
  repeat' split
  all_goals simp

@[simp] theorem State.stage_view (s : State) (c : Nat) (g : Staged) : ν.see (s.stage c g) = ν.see s := by simp [State.stage]

@[simp] theorem State.placeAgain_view (s : State) (c : Nat) (g : Staged) : ν.see (s.placeAgain c g) = ν.see s := by
  simp only [State.placeAgain]
  split <;> simp

@[simp] theorem State.returnStaged_view (s : State) (c : Nat) : ν.see (s.returnStaged c) = ν.see s := by
  simp [State.returnStaged]

@[simp] theorem State.ringDone_view (s : State) (d status : Nat) : ν.see (s.ringDone d status) = ν.see s := by
  simp [State.ringDone]

@[simp] theorem State.invalDone_view (s : State) (i : Inval) : ν.see (s.invalDone i) = ν.see s := by
  simp only [State.invalDone]
  split <;> simp

@[simp] theorem State.atusGone_view (s : State) (gone : Nat → Bool) : ν.see (s.atusGone gone) = ν.see s := by
  simp [State.atusGone]

@[simp] theorem State.capChange_view (s : State) : ν.see s.capChange = ν.see s := by simp [State.capChange]

@[simp] theorem State.cmdDone_view (s : State) (seq res : Nat) : ν.see (s.cmdDone seq res) = ν.see s := by simp [State.cmdDone]

end

end Sys2Proof.Machine

end

section

/-!
### Unit commands, core reset and quarantine: R153, R545 to R558
-/

namespace Sys2Proof.Machine

/-! #### The state of a core -/

theorem State.coreState_congr {s t : State} (hp : t.pop = s.pop) (hu : t.ras.units = s.ras.units) (c : Nat) :
    t.coreState c = s.coreState c := by
  unfold State.coreState State.adPresent State.unitOut State.unitRec
  rw [hp, hu]

theorem State.coreState_of_view {s t : State} (h : RasView.units.see t = RasView.units.see s) (c : Nat) :
    t.coreState c = s.coreState c :=
  State.coreState_congr (congrArg Prod.fst h) (congrArg (fun x => x.2.1) h) c

theorem State.cmd_of_view {s t : State} (h : RasView.units.see t = RasView.units.see s) : t.ras.cmd = s.ras.cmd :=
  congrArg (fun x => x.2.2) h

/-- A core that is in service or SUSPECT is on a present die and in a cluster in service, and its state is the one recorded
for it. -/
theorem State.coreState_lt_two {s : State} {c : Nat} (h : s.coreState c < 2) :
    (128 ≤ c || !s.adPresent (c / 32)) = false ∧ s.unitRec (clusterKey (c / 8)) < 2
      ∧ s.unitRec (coreKey c) = s.coreState c := by
  unfold State.coreState State.unitOut at h ⊢
  split at h
  · omega
  next hp =>
    rw [Bool.not_eq_true] at hp
    split at h
    next ho => simp only [decide_eq_true_eq] at ho; omega
    next ho =>
      rw [decide_eq_true_eq] at ho
      simp only [hp, Bool.false_eq_true, if_false, decide_eq_true_eq, ho, true_and, and_true]
      omega

theorem clusterKey_ne_coreKey (c : Nat) : clusterKey (c / 8) ≠ coreKey c := by
  simp only [clusterKey, coreKey, keyOf]
  omega

theorem State.unitRec_put_same (s : State) (k new line : Nat) :
    (s.withRas { s.ras with units := s.ras.units.put k (new, line) }).unitRec k = new := by
  unfold State.unitRec
  rw [State.withRas_ras, Tbl.get?_put_same]

theorem State.unitRec_put_other (s : State) {k j : Nat} (new line : Nat) (h : j ≠ k) :
    (s.withRas { s.ras with units := s.ras.units.put k (new, line) }).unitRec j = s.unitRec j := by
  unfold State.unitRec
  rw [State.withRas_ras, Tbl.get?_put_other _ _ _ _ h]

theorem State.coreState_setUnit {s : State} {c : Nat} (h : s.coreState c < 2) (new seq : Nat) (intent : Bool) :
    (s.setUnit (coreKey c) new seq intent).coreState c = new := by
  obtain ⟨hp, ho, hr⟩ := State.coreState_lt_two h
  simp only [State.setUnit]
  split
  next he => exact hr.symm.trans he
  next =>
    refine (State.coreState_of_view (State.log_view _ _) c).trans ?_
    unfold State.coreState State.unitOut
    rw [State.unitRec_put_same, State.unitRec_put_other _ _ _ (clusterKey_ne_coreKey c)]
    refine (if_neg (Bool.eq_false_iff.mp hp)).trans (if_neg ?_)
    simpa using ho

theorem State.setUnit_cmd (s : State) (key new seq : Nat) (intent : Bool) :
    (s.setUnit key new seq intent).ras.cmd = s.ras.cmd := by
  simp only [State.setUnit]
  split
  · rfl
  · exact (State.cmd_of_view (State.log_view _ _)).trans rfl

theorem State.suspectCore_coreState {s : State} {c : Nat} (h : s.coreState c = 0 ∨ s.coreState c = 1) (seq : Nat)
    (intent : Bool) : (s.suspectCore c seq intent).coreState c = 1 := by
  unfold State.suspectCore
  split
  next h0 =>
    refine (State.coreState_of_view (State.returnStaged_view _ _) c).trans ?_
    exact State.coreState_setUnit (by omega) 1 seq intent
  next h0 => exact h.resolve_left h0

theorem State.cmdDone_coreState (s : State) (seq res c : Nat) : (s.cmdDone seq res).coreState c = s.coreState c :=
  State.coreState_of_view (State.cmdDone_view _ _ _) c

theorem State.cmdDone_cmd (s : State) (seq res : Nat) : (s.cmdDone seq res).ras.cmd = s.ras.cmd :=
  State.cmd_of_view (State.cmdDone_view _ _ _)

theorem State.cmdWait_cmd (s : State) (m : UnitCmd) : (s.cmdWait m).ras.cmd = some m :=
  State.cmd_of_view (State.setRegBit_view _ _ _ _)

theorem State.cmdWait_coreState (s : State) (m : UnitCmd) (c : Nat) : (s.cmdWait m).coreState c = s.coreState c := by
  refine (State.coreState_of_view (State.setRegBit_view _ _ _ _) c).trans ?_
  exact State.coreState_congr rfl rfl c

/-! #### The four commands: R557, R558 -/

/-- Each of the four commands is `State.unitCommand` with an operation code of its own (R558). -/
theorem exec_unitCommands {s : State} (h : s.power.input = true) (p : BitVec 64) (q : BitVec 8) {cmd : Instr}
    (hc : cmd ∈ [Instr.suspect p q, .release p q, .quarantine p q, .coreReset p q]) :
    ∃ op, exec cmd s = .next (s.unitCommand p op q.toNat) := by
  simp only [List.mem_cons, List.not_mem_nil, or_false] at hc
  obtain rfl | rfl | rfl | rfl := hc
  · exact ⟨1, whenHub_input h _⟩
  · exact ⟨2, whenHub_input h _⟩
  · exact ⟨3, whenHub_input h _⟩
  · exact ⟨4, whenHub_input h _⟩

section

variable {s : State} {p : BitVec 64} {seq : Nat}

theorem State.unitCommand_repeated (op : Nat) (h : seq = s.ras.lastSeq) : s.unitCommand p op seq = s := if_pos h

/-- The state a command with a new SEQ acts on. -/
def State.heard (s : State) (seq : Nat) : State := s.withRas { s.ras with lastSeq := seq }

theorem State.unitCommand_busy (op : Nat) (h : seq ≠ s.ras.lastSeq) (hm : s.ras.cmd ≠ none) :
    s.unitCommand p op seq = (s.heard seq).cmdDone seq 2 := by
  have hb : (s.heard seq).ras.cmd.isSome = true := Option.isSome_iff_ne_none.mpr hm
  exact (if_neg h).trans (if_pos hb)

theorem State.heard_coreState (c : Nat) : (s.heard seq).coreState c = s.coreState c := State.coreState_congr rfl rfl c

theorem State.unitCommand_noUnit (op : Nat) (h : seq ≠ s.ras.lastSeq) (hm : s.ras.cmd = none) (hu : s.unitOf p = none) :
    s.unitCommand p op seq = (s.heard seq).cmdDone seq 3 := by
  have hb : s.ras.cmd.isSome = false := by simp [hm]
  have hv : (s.heard seq).unitOf p = none := hu
  simp only [State.heard] at hv
  simp only [State.unitCommand, if_neg h, State.withRas_ras, hb, Bool.false_eq_true, if_false, hv, State.heard]

/-- What each unit command does to a core in service or SUSPECT while no command waits, by its operation code. -/
def State.coreCommand (s : State) (c : Nat) (p : BitVec 64) (op seq : Nat) : State :=
  match op with
  | 1 => (s.suspectCore c seq true).cmdDone seq 0
  | 2 => ((if s.coreState c = 1 then s.setUnit (coreKey c) 0 seq true else s).fillSlots c).cmdDone seq 0
  | 3 => (s.suspectCore c seq true).cmdWait { path := p, op := 3, seq := seq }
  | 4 => s.cmdWait { path := p, op := 4, seq := seq }
  | 0 => s.cmdDone seq 0
  | _ => s.cmdDone seq 1

theorem State.unitCommand_core {c : Nat} (op : Nat) (h : seq ≠ s.ras.lastSeq) (hm : s.ras.cmd = none)
    (hu : s.unitOf p = some (.core c)) (hc : s.coreState c < 2) :
    s.unitCommand p op seq = (s.heard seq).coreCommand c p op seq := by
  have hb : s.ras.cmd.isSome = false := by simp [hm]
  have hv : (s.heard seq).unitOf p = some (.core c) := hu
  have h2 : (s.heard seq).coreState c ≠ 2 := by rw [State.heard_coreState]; omega
  have h3 : (s.heard seq).coreState c ≠ 3 := by rw [State.heard_coreState]; omega
  simp only [State.heard] at hv h2 h3
  simp only [State.unitCommand, if_neg h, State.withRas_ras, hb, Bool.false_eq_true, if_false, hv, State.heard,
    State.unitState, UnitKind.itsCore, UnitKind.quarantinable, UnitKind.cores, Bool.not_true, h2, h3, List.foldl_cons,
    List.foldl_nil, State.coreCommand]
  rfl

theorem State.suspect_core {c : Nat} (h : s.coreState c = 0) : (s.coreCommand c p 1 seq).coreState c = 1 :=
  (State.cmdDone_coreState ..).trans (State.suspectCore_coreState (.inl h) seq true)

theorem State.release_core {c : Nat} (h : s.coreState c = 1) : (s.coreCommand c p 2 seq).coreState c = 0 := by
  refine (State.cmdDone_coreState ..).trans ?_
  rw [State.coreState_of_view (State.fillSlots_view _ _), if_pos h]
  exact State.coreState_setUnit (by omega) 0 seq true

theorem State.quarantine_core {c : Nat} (h : s.coreState c = 0 ∨ s.coreState c = 1) :
    (s.coreCommand c p 3 seq).coreState c = 1 :=
  (State.cmdWait_coreState ..).trans (State.suspectCore_coreState h seq true)

end

/-! #### The reset of a core: R153 -/

/-- A core without its staged launches. -/
def Core.unstaged (k : Core) : Core := { k with staged := [] }

/-- No core of `t` differs from that of `s` in more than its staged launches. -/
def State.sameUnstaged (s t : State) : Prop := ∀ d, (t.core d).unstaged = (s.core d).unstaged

namespace State.sameUnstaged

variable {s t u : State}

theorem trans (h : s.sameUnstaged t) (g : t.sameUnstaged u) : s.sameUnstaged u := fun d => (g d).trans (h d)

theorem of_cores (h : t.cores = s.cores) : s.sameUnstaged t := fun d =>
  congrArg Core.unstaged (State.core_of_cores s t h d)

theorem foldl {α : Type} (g : State → α → State) (hg : ∀ u x, State.sameUnstaged u (g u x)) (l : List α) (s : State) :
    s.sameUnstaged (l.foldl g s) := by
  induction l generalizing s with
  | nil => exact of_cores rfl
  | cons x l ih => exact (hg s x).trans (ih _)

theorem setStaged (s : State) (c : Nat) (f : List Staged → List Staged) :
    s.sameUnstaged (s.modCore c (fun k => { k with staged := f k.staged })) := by
  intro d
  simp only [State.modCore, State.core_setCore]
  split
  next e => subst e; rfl
  next => rfl

theorem fillSlots (s : State) (c : Nat) : s.sameUnstaged (s.fillSlots c) := by
  simp only [State.fillSlots]
  repeat' split
  · exact of_cores rfl
  · exact of_cores rfl
  · exact of_cores rfl
  next w _ =>
    exact ((of_cores (State.writeInline_cores _ _ _)).trans (setStaged _ c (· ++ [w.2]))).trans
      (of_cores (State.modOp_cores _ _ _))

theorem stage (s : State) (c : Nat) (g : Staged) : s.sameUnstaged (s.stage c g) :=
  (of_cores (State.modOp_cores _ _ _)).trans (fillSlots _ c)

theorem placeAgain (s : State) (c : Nat) (g : Staged) : s.sameUnstaged (s.placeAgain c g) := by
  simp only [State.placeAgain]
  split
  · exact (of_cores (State.modOp_cores _ _ _)).trans (stage _ _ g)
  · exact of_cores (State.modOp_cores _ _ _)

end State.sameUnstaged

/-- A core as it stands after its reset, before its staged launches are placed again. -/
def State.freshCore (s : State) (c : Nat) : Core :=
  { Core.init with nextSeq := (s.core c).nextSeq, nextTag := (s.core c).nextTag, reads := (s.core c).reads,
                   accDraw := s.fresh }

/-- The state in which a core that is reset has been cleared and its staged launches wait to be placed again. -/
def State.cleared (s : State) (c : Nat) : State :=
  let u := (s.setCore c (s.freshCore c)).draw.1
  u.withXlat { u.xlat with l1 := u.xlat.l1.erase c }

theorem State.resetCore_eq (s : State) (c : Nat) :
    s.resetCore c = (s.core c).staged.foldl (fun u g => u.placeAgain c g) (s.cleared c) := rfl

theorem State.cleared_core (s : State) (c : Nat) : (s.cleared c).core c = s.freshCore c :=
  (State.core_of_cores (s.setCore c (s.freshCore c)) _ rfl c).trans (State.core_setCore_same s c _)

theorem State.resetCore_unstaged (s : State) (c : Nat) :
    ((s.resetCore c).core c).unstaged = (s.freshCore c).unstaged := by
  rw [State.resetCore_eq, ← State.cleared_core]
  exact State.sameUnstaged.foldl _ (fun u g => State.sameUnstaged.placeAgain u c g) _ _ c

theorem State.resetCore_staged {s : State} {c : Nat} (h : (s.core c).staged = []) : ((s.resetCore c).core c).staged = [] := by
  rw [State.resetCore_eq, h, List.foldl_nil, State.cleared_core]
  rfl

theorem State.cmdDone_cores (s : State) (seq res : Nat) : (s.cmdDone seq res).cores = s.cores := by
  simp [State.cmdDone, State.mgmt, apply_ite State.cores]

theorem execCoreResetExecute_ready {s : State} {c : Nat} {m : UnitCmd} (h : s.running) (hm : s.ras.cmd = some m)
    (hu : s.unitOf m.path = some (.core c)) (ho : m.op = 4) (hl : (s.core c).launch = none) (hr : (s.core c).reads = [])
    (hw : (s.core c).writes = []) (hd : s.drained c = true) :
    exec (.coreResetExecute c) s
      = .next (((s.resetCore c).withRas { s.ras with cmd := none }).cmdDone m.seq 0) := by
  refine (whenPowered_running h _).trans ?_
  simp [hm, hu, ho, hl, hr, hw, hd, Act.out]

/-! #### The quarantine of a core: R548 -/

theorem State.applyQuarantine_core_view (s : State) (c seq : Nat) (intent : Bool) :
    RasView.units.see (s.applyQuarantine (.core c) seq intent)
      = RasView.units.see (s.setUnit (coreKey c) 2 seq intent) :=
  (State.atusGone_view _ _).trans (State.capChange_view _)

theorem execQuarantineApply_core {s : State} {c : Nat} {m : UnitCmd} (h : s.running) (hm : s.ras.cmd = some m)
    (hu : s.unitOf m.path = some (.core c)) (ho : m.op = 3) (hl : s.ruling.stroke = 0) (hw : s.ras.waits = [])
    (hq : s.mayQuarantine (.core c) = true) :
    exec .quarantineApply s
      = .next (((s.withRas { s.ras with cmd := none }).applyQuarantine (.core c) m.seq true).cmdDone m.seq 0) := by
  refine (whenHub_input h.1 _).trans ?_
  have hv : (s.withRas { s.ras with cmd := none }).unitOf m.path = some (.core c) := hu
  simp only [hw] at hv
  simp [hm, hu, ho, hl, hw, hq, hv, Act.out]

/-! #### O49 -/

/-- Settles O49: the four commands are `State.unitCommand`, whose outcome for a core in service or SUSPECT is
`State.coreCommand`; what follows a change of unit state keeps the unit states and the pending command (`RasView.units`), and
what places a reset core's launches again changes the staged launches of cores alone (`State.sameUnstaged`). -/
theorem unitCommands : Obligations.UnitCommands := by
  refine ⟨fun s p q hs => ⟨fun hq cmd hc => ?_, fun cmd hc => ?_, fun hq => ⟨fun hm cmd hc => ?_, fun hm hu cmd hc => ?_,
    fun c hm hu => ⟨fun h0 => ?_, fun h1 => ?_, fun h => ⟨?_, ?_⟩⟩⟩⟩, fun s c m hs hm hu =>
    ⟨fun ho hl hr hw hd => ?_, fun ho hl hw hc hq => ?_⟩⟩
  · obtain ⟨op, e⟩ := exec_unitCommands hs.1 p q hc
    rw [e, State.unitCommand_repeated op hq]
  · obtain ⟨op, e⟩ := exec_unitCommands hs.1 p q hc
    exact ⟨_, e⟩
  · obtain ⟨op, e⟩ := exec_unitCommands hs.1 p q hc
    rw [e, State.unitCommand_busy op hq hm]
    rfl
  · obtain ⟨op, e⟩ := exec_unitCommands hs.1 p q hc
    rw [e, State.unitCommand_noUnit op hq hm hu]
    rfl
  · refine ⟨_, whenHub_input hs.1 _, ?_⟩
    rw [State.unitCommand_core 1 hq hm hu (by omega)]
    exact State.suspect_core ((State.heard_coreState c).trans h0)
  · refine ⟨_, whenHub_input hs.1 _, ?_⟩
    rw [State.unitCommand_core 2 hq hm hu (by omega)]
    exact State.release_core ((State.heard_coreState c).trans h1)
  · refine ⟨_, whenHub_input hs.1 _, ?_⟩
    rw [State.unitCommand_core 4 hq hm hu (by omega)]
    exact State.cmdWait_cmd _ _
  · refine ⟨_, whenHub_input hs.1 _, ?_⟩
    rw [State.unitCommand_core 3 hq hm hu (by omega)]
    exact ⟨State.cmdWait_cmd _ _, State.quarantine_core (by rwa [State.heard_coreState])⟩
  · refine ⟨_, execCoreResetExecute_ready hs hm hu ho hl hr hw hd, State.cmdDone_cmd _ _ _, ?_⟩
    have hc : (((s.resetCore c).withRas { s.ras with cmd := none }).cmdDone m.seq 0).core c = (s.resetCore c).core c :=
      State.core_of_cores _ _ ((State.cmdDone_cores _ _ _).trans (State.withRas_cores _ _)) c
    rw [hc]
    have hk := State.resetCore_unstaged s c
    exact ⟨congrArg Core.s hk, congrArg Core.t hk, congrArg Core.p hk, congrArg Core.rnd hk, congrArg Core.ibuf hk,
      State.resetCore_staged⟩
  · refine ⟨_, execQuarantineApply_core hs hm hu ho hl hw hq, ?_, ?_⟩
    · rw [State.cmdDone_cmd, State.cmd_of_view (State.applyQuarantine_core_view _ _ _ _), State.setUnit_cmd]
      rfl
    · rw [State.cmdDone_coreState, State.coreState_of_view (State.applyQuarantine_core_view _ _ _ _)]
      have hn : (s.withRas { s.ras with cmd := none }).coreState c < 2 := (State.coreState_congr rfl rfl c).trans_lt hc
      exact State.coreState_setUnit hn 2 m.seq true

end Sys2Proof.Machine

end

section

/-!
### The words of the tile instructions: R162 to R193

A word is a chain of fields joined by `++`. Each class has one lemma that says how its class, its operation code and its fields read
back from its word; the row of a word then is the row of its operation code.
-/

namespace Sys2Proof

/-! #### Fields of a word -/

section Fields
variable {a b : Nat} (x : BitVec a) (y : BitVec b) {i n : Nat}

@[simp] theorem extractLsb'_append_high (h : b ≤ i) : (x.append y).extractLsb' i n = x.extractLsb' (i - b) n :=
  BitVec.extractLsb'_append_eq_of_le h

@[simp] theorem extractLsb'_append_low (h : i + n ≤ b) : (x.append y).extractLsb' i n = y.extractLsb' i n :=
  BitVec.extractLsb'_append_eq_of_add_le h

@[simp] theorem getLsbD_append_high (h : b ≤ i) : (x.append y).getLsbD i = x.getLsbD (i - b) := by
  rw [BitVec.append_eq, BitVec.getLsbD_append, if_neg (by omega)]

@[simp] theorem getLsbD_append_low (h : i < b) : (x.append y).getLsbD i = y.getLsbD i := by
  rw [BitVec.append_eq, BitVec.getLsbD_append, if_pos h]

end Fields

theorem extWord_of_extOk {h : Hdr} {e : BitVec 64} (he : extOk h e = true) : extWord h e = e := by
  cases hx : h.x <;> simp_all [extWord, extOk]

/-- A header that is not marked as reserved is its three fields. -/
theorem Hdr.eq_mk {h : Hdr} (hr : h.reserved = false) : h = { x := h.x, pred := h.pred, pneg := h.pneg } := by
  rw [← hr]

theorem sclWord_fields (op : BitVec 6) {f : SclF} (hr : f.h.reserved = false) (he : extOk f.h f.ext = true) :
    (sclWord op f).extractLsb' 60 4 = 0 ∧ (sclWord op f).extractLsb' 49 6 = op ∧ sclFields (sclWord op f) f.ext = f := by
  have hh : hdrOf (sclWord op f) = f.h := by
    rw [Hdr.eq_mk hr]
    simp [-BitVec.append_eq, -BitVec.getLsbD_eq_getElem, hdrOf, sclWord, hdrBits, HAppend.hAppend]
  rw [sclFields, hh, extWord_of_extOk he]
  simp [-BitVec.append_eq, -BitVec.getLsbD_eq_getElem, sclWord, hdrBits, HAppend.hAppend]

theorem ctlWord_fields (op : BitVec 5) {f : CtlF} (hr : f.h.reserved = false) :
    (ctlWord op f).extractLsb' 60 4 = 1 ∧ (ctlWord op f).extractLsb' 50 5 = op ∧ ctlFields (ctlWord op f) = f := by
  have hh : hdrOf (ctlWord op f) = f.h := by
    rw [Hdr.eq_mk hr]
    simp [-BitVec.append_eq, -BitVec.getLsbD_eq_getElem, hdrOf, ctlWord, hdrBits, HAppend.hAppend]
  rw [ctlFields, hh]
  simp [-BitVec.append_eq, -BitVec.getLsbD_eq_getElem, ctlWord, hdrBits, HAppend.hAppend]

theorem tmmaWord_fields (cls : BitVec 4) {f : TmmaF} (hr : f.h.reserved = false) :
    (tmmaWord cls f).extractLsb' 60 4 = cls ∧ tmmaFields (tmmaWord cls f) = f := by
  have hh : hdrOf (tmmaWord cls f) = f.h := by
    rw [Hdr.eq_mk hr]
    simp [-BitVec.append_eq, -BitVec.getLsbD_eq_getElem, hdrOf, tmmaWord, hdrBits, HAppend.hAppend]
  rw [tmmaFields, hh]
  simp [-BitVec.append_eq, -BitVec.getLsbD_eq_getElem, tmmaWord, hdrBits, HAppend.hAppend]

theorem vopWord_fields (op : BitVec 6) {f : VopF} (hr : f.h.reserved = false) :
    (vopWord op f).extractLsb' 60 4 = 4 ∧ (vopWord op f).extractLsb' 49 6 = op ∧ vopFields (vopWord op f) = f := by
  have hh : hdrOf (vopWord op f) = f.h := by
    rw [Hdr.eq_mk hr]
    simp [-BitVec.append_eq, -BitVec.getLsbD_eq_getElem, hdrOf, vopWord, hdrBits, HAppend.hAppend]
  rw [vopFields, hh]
  simp [-BitVec.append_eq, -BitVec.getLsbD_eq_getElem, vopWord, hdrBits, HAppend.hAppend]

theorem tldWord_fields (cls : BitVec 4) {f : TldF} (hr : f.h.reserved = false) (he : extOk f.h f.ext = true) :
    (tldWord cls f).extractLsb' 60 4 = cls ∧ tldFields (tldWord cls f) f.ext = f := by
  have hh : hdrOf (tldWord cls f) = f.h := by
    rw [Hdr.eq_mk hr]
    simp [-BitVec.append_eq, -BitVec.getLsbD_eq_getElem, hdrOf, tldWord, hdrBits, HAppend.hAppend]
  rw [tldFields, hh, extWord_of_extOk he]
  simp [-BitVec.append_eq, -BitVec.getLsbD_eq_getElem, tldWord, hdrBits, HAppend.hAppend]

theorem gathWord_fields {f : GathF} (hr : f.h.reserved = false) (he : extOk f.h f.ext = true) :
    (gathWord f).extractLsb' 60 4 = 7 ∧ gathFields (gathWord f) f.ext = f := by
  have hh : hdrOf (gathWord f) = f.h := by
    rw [Hdr.eq_mk hr]
    simp [-BitVec.append_eq, -BitVec.getLsbD_eq_getElem, hdrOf, gathWord, hdrBits, HAppend.hAppend]
  rw [gathFields, hh, extWord_of_extOk he]
  simp [-BitVec.append_eq, -BitVec.getLsbD_eq_getElem, gathWord, hdrBits, HAppend.hAppend]

theorem atomWord_fields (op : BitVec 3) {f : AtomF} (hr : f.h.reserved = false) :
    (atomWord op f).extractLsb' 60 4 = 8 ∧ (atomWord op f).extractLsb' 52 3 = op ∧ atomFields (atomWord op f) = f := by
  have hh : hdrOf (atomWord op f) = f.h := by
    rw [Hdr.eq_mk hr]
    simp [-BitVec.append_eq, -BitVec.getLsbD_eq_getElem, hdrOf, atomWord, hdrBits, HAppend.hAppend]
  rw [atomFields, hh]
  simp [-BitVec.append_eq, -BitVec.getLsbD_eq_getElem, atomWord, hdrBits, HAppend.hAppend]

theorem syncWord_fields (op : BitVec 2) {f : SyncF} (hr : f.h.reserved = false) :
    (syncWord op f).extractLsb' 60 4 = 9 ∧ (syncWord op f).extractLsb' 53 2 = op ∧ syncFields (syncWord op f) = f := by
  have hh : hdrOf (syncWord op f) = f.h := by
    rw [Hdr.eq_mk hr]
    simp [-BitVec.append_eq, -BitVec.getLsbD_eq_getElem, hdrOf, syncWord, hdrBits, HAppend.hAppend]
  rw [syncFields, hh]
  simp [-BitVec.append_eq, -BitVec.getLsbD_eq_getElem, syncWord, hdrBits, HAppend.hAppend]

theorem sigWord_fields (op : BitVec 1) {f : SigF} (hr : f.h.reserved = false) :
    (sigWord op f).extractLsb' 60 4 = 10 ∧ (sigWord op f).getLsbD 54 = op.getLsbD 0 ∧ sigFields (sigWord op f) = f := by
  have hh : hdrOf (sigWord op f) = f.h := by
    rw [Hdr.eq_mk hr]
    simp [-BitVec.append_eq, -BitVec.getLsbD_eq_getElem, hdrOf, sigWord, hdrBits, HAppend.hAppend]
  rw [sigFields, hh]
  simp [-BitVec.append_eq, -BitVec.getLsbD_eq_getElem, sigWord, hdrBits, HAppend.hAppend]

theorem waitvWord_fields {f : WaitvF} (hr : f.h.reserved = false) (he : extOk f.h f.ext = true) :
    (waitvWord f).extractLsb' 60 4 = 11 ∧ waitvFields (waitvWord f) f.ext = f := by
  have hh : hdrOf (waitvWord f) = f.h := by
    rw [Hdr.eq_mk hr]
    simp [-BitVec.append_eq, -BitVec.getLsbD_eq_getElem, hdrOf, waitvWord, hdrBits, HAppend.hAppend]
  rw [waitvFields, hh, extWord_of_extOk he]
  simp [-BitVec.append_eq, -BitVec.getLsbD_eq_getElem, waitvWord, hdrBits, HAppend.hAppend]

/-! #### From a word back to its row -/

section Decode
variable {c : Nat} {i : Instr}

theorem decodeTile_of_tileRow {w e : BitVec 64} (h : tileRow c w e = some i) : decodeTile c w e = i := by
  rw [decodeTile, h, Option.getD_some]

theorem decodeTile_sclWord {op : BitVec 6} {f : SclF} (hr : f.h.reserved = false) (he : extOk f.h f.ext = true)
    (hi : sclRow c op f = some i) : decodeTile c (sclWord op f) f.ext = i := by
  obtain ⟨hc, ho, hf⟩ := sclWord_fields op hr he
  refine decodeTile_of_tileRow ?_
  simp [tileRow, hc, ho, hf, hi]

theorem decodeTile_ctlWord {op : BitVec 5} {f : CtlF} (e : BitVec 64) (hr : f.h.reserved = false)
    (hi : ctlRow c op f = some i) : decodeTile c (ctlWord op f) e = i := by
  obtain ⟨hc, ho, hf⟩ := ctlWord_fields op hr
  refine decodeTile_of_tileRow ?_
  simp [tileRow, hc, ho, hf, hi]

theorem decodeTile_vopWord {op : BitVec 6} {f : VopF} (e : BitVec 64) (hr : f.h.reserved = false)
    (hi : vopRow c op f = some i) : decodeTile c (vopWord op f) e = i := by
  obtain ⟨hc, ho, hf⟩ := vopWord_fields op hr
  refine decodeTile_of_tileRow ?_
  simp [tileRow, hc, ho, hf, hi]

theorem decodeTile_atomWord {op : BitVec 3} {f : AtomF} (e : BitVec 64) (hr : f.h.reserved = false)
    (hi : atomRow c op f = some i) : decodeTile c (atomWord op f) e = i := by
  obtain ⟨hc, ho, hf⟩ := atomWord_fields op hr
  refine decodeTile_of_tileRow ?_
  simp [tileRow, hc, ho, hf, hi]

theorem decodeTile_tmmaWord {f : TmmaF} (e : BitVec 64) (hr : f.h.reserved = false) :
    decodeTile c (tmmaWord 2 f) e = .tmma c f ∧ decodeTile c (tmmaWord 3 f) e = .tmmaP c f := by
  obtain ⟨hc, hf⟩ := tmmaWord_fields 2 hr
  obtain ⟨hc', hf'⟩ := tmmaWord_fields 3 hr
  generalize tmmaWord 2 f = w at *
  generalize tmmaWord 3 f = w' at *
  exact ⟨decodeTile_of_tileRow (by simp [tileRow, hc, hf]), decodeTile_of_tileRow (by simp [tileRow, hc', hf'])⟩

/-- A word of class TLD is read by its SC bit (R180). -/
theorem decodeTile_tldWord {f : TldF} (hr : f.h.reserved = false) (he : extOk f.h f.ext = true) :
    decodeTile c (tldWord 5 f) f.ext = if f.sc then .tldSc c f else .tld c f := by
  obtain ⟨hc, hf⟩ := tldWord_fields 5 hr he
  generalize tldWord 5 f = w at *
  refine decodeTile_of_tileRow ?_
  cases hs : f.sc <;> simp [tileRow, hc, hf, hs]

/-- A word of class TST is read by its ACC, ADD and SC bits, in this order (R180, R183, R184). -/
theorem decodeTile_tstWord {f : TldF} (hr : f.h.reserved = false) (he : extOk f.h f.ext = true) :
    decodeTile c (tldWord 6 f) f.ext
      = if f.acc then .tstAcc c f else if f.add then .tstAdd c f else if f.sc then .tstSc c f else .tst c f := by
  obtain ⟨hc, hf⟩ := tldWord_fields 6 hr he
  generalize tldWord 6 f = w at *
  refine decodeTile_of_tileRow ?_
  cases ha : f.acc <;> cases hd : f.add <;> cases hs : f.sc <;> simp [tileRow, hc, hf, ha, hd, hs]

theorem decodeTile_gathWord {f : GathF} (hr : f.h.reserved = false) (he : extOk f.h f.ext = true) :
    decodeTile c (gathWord f) f.ext = .gath c f := by
  obtain ⟨hc, hf⟩ := gathWord_fields hr he
  exact decodeTile_of_tileRow (by simp [tileRow, hc, hf])

theorem decodeTile_waitvWord {f : WaitvF} (hr : f.h.reserved = false) (he : extOk f.h f.ext = true) :
    decodeTile c (waitvWord f) f.ext = .waitv c f := by
  obtain ⟨hc, hf⟩ := waitvWord_fields hr he
  exact decodeTile_of_tileRow (by simp [tileRow, hc, hf])

theorem decodeTile_syncWord {f : SyncF} (e : BitVec 64) (hr : f.h.reserved = false) :
    decodeTile c (syncWord 0 f) e = .syncFence c f ∧ decodeTile c (syncWord 1 f) e = .syncBar c f := by
  obtain ⟨hc, ho, hf⟩ := syncWord_fields 0 hr
  obtain ⟨hc', ho', hf'⟩ := syncWord_fields 1 hr
  generalize syncWord 0 f = w at *
  generalize syncWord 1 f = w' at *
  exact ⟨decodeTile_of_tileRow (by simp [tileRow, hc, ho, hf]), decodeTile_of_tileRow (by simp [tileRow, hc', ho', hf'])⟩

theorem decodeTile_sigWord {f : SigF} (e : BitVec 64) (hr : f.h.reserved = false) :
    decodeTile c (sigWord 0 f) e = .sigWrite c f ∧ decodeTile c (sigWord 1 f) e = .sigAdd c f := by
  obtain ⟨hc, ho, hf⟩ := sigWord_fields 0 hr
  obtain ⟨hc', ho', hf'⟩ := sigWord_fields 1 hr
  generalize sigWord 0 f = w at *
  generalize sigWord 1 f = w' at *
  exact ⟨decodeTile_of_tileRow (by simp [-BitVec.getLsbD_eq_getElem, tileRow, hc, ho, hf]),
    decodeTile_of_tileRow (by simp [-BitVec.getLsbD_eq_getElem, tileRow, hc', ho', hf'])⟩

end Decode

/-! #### What a word is read as -/

section Rows
variable {c : Nat} {i : Instr}

theorem tileOf_of_sclRow {op : BitVec 6} {f : SclF} (h : sclRow c op f = some i) : Machine.tileOf i = some (c, f.h) := by
  unfold sclRow at h
  split at h <;> cases h <;> rfl

theorem tileOf_of_ctlRow {op : BitVec 5} {f : CtlF} (h : ctlRow c op f = some i) : Machine.tileOf i = some (c, f.h) := by
  unfold ctlRow at h
  split at h <;> cases h <;> rfl

theorem tileOf_of_vopRow {op : BitVec 6} {f : VopF} (h : vopRow c op f = some i) : Machine.tileOf i = some (c, f.h) := by
  unfold vopRow at h
  split at h <;> cases h <;> rfl

theorem tileOf_of_atomRow {op : BitVec 3} {f : AtomF} (h : atomRow c op f = some i) : Machine.tileOf i = some (c, f.h) := by
  unfold atomRow at h
  split at h <;> cases h <;> rfl

/-- A word that a row names is a tile instruction of the core with the header of the word. -/
theorem tileOf_of_tileRow {w e : BitVec 64} (h : tileRow c w e = some i) : Machine.tileOf i = some (c, hdrOf w) := by
  unfold tileRow at h
  split at h
  · exact tileOf_of_sclRow h
  · exact tileOf_of_ctlRow h
  · cases h; rfl
  · cases h; rfl
  · exact tileOf_of_vopRow h
  · split at h <;> cases h <;> rfl
  · dsimp only at h
    repeat' split at h
    all_goals cases h; rfl
  · cases h; rfl
  · exact tileOf_of_atomRow h
  · split at h <;> cases h <;> rfl
  · split at h <;> cases h <;> rfl
  · cases h; rfl
  · cases h

/-- The classes 0xC to 0xF are reserved (R163). -/
theorem tileRow_of_reserved_class {w : BitVec 64} (e : BitVec 64) (h : 12 ≤ (w.extractLsb' 60 4).toNat) :
    tileRow c w e = none := by
  unfold tileRow
  split
  case h_13 => rfl
  all_goals omega

/-- Operations 5 to 7 of ATOM are reserved (R190). -/
theorem tileRow_atom_eq_none {w : BitVec 64} (e : BitVec 64) (h : (w.extractLsb' 60 4).toNat = 8) :
    tileRow c w e = none ↔ 5 ≤ (w.extractLsb' 52 3).toNat := by
  simp only [tileRow, h, atomRow]
  split <;> simp_all
  omega

/-- Forms 2 and 3 of SYNC are reserved (R193). -/
theorem tileRow_sync_eq_none {w : BitVec 64} (e : BitVec 64) (h : (w.extractLsb' 60 4).toNat = 9) :
    tileRow c w e = none ↔ 2 ≤ (w.extractLsb' 53 2).toNat := by
  simp only [tileRow, h]
  split <;> simp_all
  omega

/-- What any two words are read as: a tile instruction of the core, marked as reserved where no row names them. -/
theorem decodeTile_spec (c : Nat) (w e : BitVec 64) :
    ∃ h, Machine.tileOf (decodeTile c w e) = some (c, h) ∧ (h.reserved = true ↔ tileRow c w e = none) := by
  cases hr : tileRow c w e with
  | none => exact ⟨_, by rw [decodeTile, hr]; rfl, by simp⟩
  | some i =>
    refine ⟨hdrOf w, ?_, by simp [hdrOf]⟩
    rw [decodeTile_of_tileRow hr]
    exact tileOf_of_tileRow hr

end Rows

/-! #### The obligations -/

/-- The words of a well-formed tile instruction that its header does not mark as reserved are read as the instruction. -/
theorem decodeTile_encodeTile {i : Instr} {c : Nat} {h : Hdr} (hw : wellFormed i = true)
    (ht : Machine.tileOf i = some (c, h)) (hr : h.reserved = false) :
    ∃ w e, encodeTile i = some (w, e) ∧ decodeTile c w e = i := by
  cases i with
  | sclAdd c f | sclSub c f | sclMul c f | sclAnd c f | sclOr c f | sclXor c f | sclShl c f | sclShr c f | sclSar c f
  | sclMin c f | sclMax c f | sclMinu c f | sclMaxu c f | sclCmpeq c f | sclCmpne c f | sclCmplt c f | sclCmpltu c f
  | sclCmpge c f | sclCmpgeu c f | sclPand c f | sclPor c f | sclPxor c f | sclPandn c f | sclLds c f | sclSts c f
  | sclTdset c f | sclTdget0 c f | sclTdget1 c f | sclTdadj c f | sclRdsr c f =>
    obtain ⟨rfl, rfl⟩ := Prod.mk.inj (Option.some.inj ht)
    exact ⟨_, _, rfl, decodeTile_sclWord hr (Bool.and_eq_true_iff.mp hw).2 rfl⟩
  | ctlNop c f | ctlB c f | ctlLoop c f | ctlCall c f | ctlRet c f | ctlEnd c f | ctlTrap c f =>
    obtain ⟨rfl, rfl⟩ := Prod.mk.inj (Option.some.inj ht)
    exact ⟨_, _, rfl, decodeTile_ctlWord 0 hr rfl⟩
  | vopAdd c f | vopSub c f | vopMul c f | vopFma c f | vopMin c f | vopMax c f | vopCmplt c f | vopCmple c f | vopCmpeq c f
  | vopSel c f | vopSqrt c f | vopRcp c f | vopRsq c f | vopExp c f | vopExp2 c f | vopLog c f | vopLog2 c f | vopRsum c f
  | vopRmax c f | vopIadd c f | vopIsub c f | vopImin c f | vopImax c f | vopShl c f | vopShr c f | vopSar c f | vopCvt c f
  | vopCopy c f | vopSeed c f =>
    obtain ⟨rfl, rfl⟩ := Prod.mk.inj (Option.some.inj ht)
    exact ⟨_, _, rfl, decodeTile_vopWord 0 hr rfl⟩
  | atomAdd c f | atomMin c f | atomMax c f | atomSwap c f | atomCompareSwap c f =>
    obtain ⟨rfl, rfl⟩ := Prod.mk.inj (Option.some.inj ht)
    exact ⟨_, _, rfl, decodeTile_atomWord 0 hr rfl⟩
  | tmma c f =>
    obtain ⟨rfl, rfl⟩ := Prod.mk.inj (Option.some.inj ht)
    exact ⟨_, _, rfl, (decodeTile_tmmaWord 0 hr).1⟩
  | tmmaP c f =>
    obtain ⟨rfl, rfl⟩ := Prod.mk.inj (Option.some.inj ht)
    exact ⟨_, _, rfl, (decodeTile_tmmaWord 0 hr).2⟩
  | syncFence c f =>
    obtain ⟨rfl, rfl⟩ := Prod.mk.inj (Option.some.inj ht)
    exact ⟨_, _, rfl, (decodeTile_syncWord 0 hr).1⟩
  | syncBar c f =>
    obtain ⟨rfl, rfl⟩ := Prod.mk.inj (Option.some.inj ht)
    exact ⟨_, _, rfl, (decodeTile_syncWord 0 hr).2⟩
  | sigWrite c f =>
    obtain ⟨rfl, rfl⟩ := Prod.mk.inj (Option.some.inj ht)
    exact ⟨_, _, rfl, (decodeTile_sigWord 0 hr).1⟩
  | sigAdd c f =>
    obtain ⟨rfl, rfl⟩ := Prod.mk.inj (Option.some.inj ht)
    exact ⟨_, _, rfl, (decodeTile_sigWord 0 hr).2⟩
  | gath c f =>
    obtain ⟨rfl, rfl⟩ := Prod.mk.inj (Option.some.inj ht)
    exact ⟨_, _, rfl, decodeTile_gathWord hr (Bool.and_eq_true_iff.mp hw).2⟩
  | waitv c f =>
    obtain ⟨rfl, rfl⟩ := Prod.mk.inj (Option.some.inj ht)
    exact ⟨_, _, rfl, decodeTile_waitvWord hr (Bool.and_eq_true_iff.mp hw).2⟩
  | tld c f | tldSc c f =>
    obtain ⟨rfl, rfl⟩ := Prod.mk.inj (Option.some.inj ht)
    simp only [wellFormed, Bool.and_eq_true, Bool.not_eq_true'] at hw
    exact ⟨_, _, rfl, (decodeTile_tldWord hr (by simp [hw])).trans (by simp [hw])⟩
  | tst c f | tstSc c f | tstAdd c f | tstAcc c f =>
    obtain ⟨rfl, rfl⟩ := Prod.mk.inj (Option.some.inj ht)
    simp only [wellFormed, Bool.and_eq_true, Bool.not_eq_true'] at hw
    exact ⟨_, _, rfl, (decodeTile_tstWord hr (by simp [hw])).trans (by simp [hw])⟩
  | _ => cases ht

/-- Settles O5: an instruction's words are read as its row by the lemma of its class, and a word with no row is a reserved one. -/
theorem tileWordsRoundTrip : Obligations.TileWordsRoundTrip := by
  refine ⟨fun i c h hw ht hr => decodeTile_encodeTile hw ht hr, fun c w e => ?_⟩
  obtain ⟨h, ht, hr⟩ := decodeTile_spec c w e
  exact ⟨h, ht, hr, fun hc => hr.mpr (tileRow_of_reserved_class e hc), fun hc => hr.trans (tileRow_atom_eq_none e hc),
    fun hc => hr.trans (tileRow_sync_eq_none e hc)⟩

/-- Settles O6: the four words are closed terms, which `decodeTile` evaluates. -/
theorem specWordsDecode : Obligations.SpecWordsDecode := by
  unfold Obligations.SpecWordsDecode
  decide

end Sys2Proof

end

section

/-!
### The scalar instructions: R155 to R157, R164, R166
-/

namespace Sys2Proof.Machine

/-! #### What an instruction waits for -/

/-- An instruction that names no descriptor, no unit and no accumulator tile waits for its scalars and predicates alone (R120). -/
theorem Core.mustWait_of_sources {k : Core} {i : Ins} (hr : i.reads = []) (hw : i.writes = []) (hu : i.unit = none)
    (ha : i.acc = none) (hs : ∀ r ∈ i.srcS, k.pendS r = false) (hp : ∀ p ∈ i.srcP, k.pendP p = false) :
    k.mustWait i = false := by
  have hz : k.hazard [] [] = false := by simp [Core.hazard]
  simp only [Core.mustWait, hr, hw, hu, ha, hz, Bool.or_false, Bool.or_eq_false_iff, List.any_eq_false, Bool.not_eq_true]
  exact ⟨hs, hp⟩

theorem sclIllegal_of_sclLegal {f : SclF} (h : sclLegal f) : sclIllegal f = false := by
  obtain ⟨hr, hx⟩ := h
  cases hi : f.imm <;> simp_all [sclIllegal]

theorem Core.mustWait_sclIns {k : Core} {f : SclF} {more : List Nat} (h : k.sclReady f) (hm : ∀ r ∈ more, k.pendS r = false) :
    k.mustWait (sclIns f more) = false := by
  obtain ⟨ha, hb⟩ := h
  refine Core.mustWait_of_sources rfl rfl rfl rfl (fun r hr => ?_) nofun
  simp only [sclIns, List.cons_append, List.mem_cons, List.mem_append] at hr
  obtain rfl | hr | hr := hr
  · exact ha
  · cases hi : f.imm
    · simp only [hi, Bool.false_eq_true, if_false, List.mem_singleton] at hr
      exact hr ▸ hb hi
    · simp [hi] at hr
  · exact hm r hr

theorem IssueFaults.first_empty : ({} : IssueFaults).first = none := by decide

/-! #### Registers and predicates -/

theorem State.modCore_setCore_core (s : State) (c : Nat) (k : Core) (g : Core → Core) :
    ((s.setCore c k).modCore c g).core c = g k := by
  rw [State.core_modCore_same, State.core_setCore_same]

/-- Moving past an instruction and changing the core alone changes nothing else. -/
theorem State.onlyCore_setCore_modCore (s : State) (c : Nat) (k : Core) (g : Core → Core) :
    s.onlyCore ((s.setCore c k).modCore c g) c :=
  State.onlyCore_modCore (State.onlyCore_setCore (State.onlyCore_refl s c) k) g

/-- An instruction whose whole effect is a change of its core. -/
theorem State.issuesTo_modCore {s : State} {c : Nat} {l : Launch} {x : Instr} {i : Ins}
    {faults : Core → Launch → IssueFaults} {g : Core → Launch → Core → Core}
    (hx : exec x s = s.issue c i faults fun s k l => s.modCore c (g k l))
    (h : s.canRun c i.h l) (hi : i.illegal = false) (hw : (s.core c).mustWait i = false)
    (hf : (faults (s.core c) l).first = none) : s.issuesTo x c (g (s.core c) l ((s.core c).past i.h)) :=
  State.issuesTo_of x i faults _ hx h hi hw hf (State.modCore_setCore_core ..) (State.onlyCore_setCore_modCore ..)

section Scalar
variable {s : State} {c : Nat} {l : Launch} {f : SclF} {i : Instr}

theorem sclReg_issuesTo {op : Word → Word → Word} (hx : exec i s = s.sclReg c f op) (h : s.canRun c f.h l)
    (hl : sclLegal f) (hr : (s.core c).sclReady f) :
    s.issuesTo i c (((s.core c).past f.h).setS f.rd.toNat (op ((s.core c).sreg f.ra.toNat) ((s.core c).sclB f))) :=
  State.issuesTo_modCore hx h (sclIllegal_of_sclLegal hl) (Core.mustWait_sclIns hr nofun) IssueFaults.first_empty

theorem sclCmp_issuesTo {op : Word → Word → Bool} (hx : exec i s = s.sclCmp c f op) (h : s.canRun c f.h l)
    (hl : sclLegal f) (hr : (s.core c).sclReady f) :
    s.issuesTo i c (((s.core c).past f.h).setP (f.rd.toNat % 8)
      (op ((s.core c).sreg f.ra.toNat) ((s.core c).sclB f))) :=
  State.issuesTo_modCore hx h (sclIllegal_of_sclLegal hl) (Core.mustWait_sclIns hr nofun) IssueFaults.first_empty

theorem sclPred_issuesTo {op : Bool → Bool → Bool} (hx : exec i s = s.sclPred c f op) (h : s.canRun c f.h l)
    (hl : sclLegal f) (ha : (s.core c).pendP (f.ra.toNat % 8) = false) (hb : (s.core c).pendP (f.rb.toNat % 8) = false) :
    s.issuesTo i c (((s.core c).past f.h).setP (f.rd.toNat % 8)
      (op ((s.core c).preg (f.ra.toNat % 8)) ((s.core c).preg (f.rb.toNat % 8)))) :=
  State.issuesTo_modCore hx h (sclIllegal_of_sclLegal hl)
    (Core.mustWait_of_sources rfl rfl rfl rfl nofun (by simp [ha, hb])) IssueFaults.first_empty

end Scalar

/-! #### The operations on numbers -/

section Words
variable (a b : Word)

theorem ofInt_toInt_sub : BitVec.ofInt 64 (a.toInt - b.toInt) = a - b := by
  rw [Int.sub_eq_add_neg, BitVec.ofInt_add, BitVec.ofInt_neg, BitVec.ofInt_toInt, BitVec.ofInt_toInt, BitVec.sub_eq_add_neg]

theorem ofNat_toNat_and : BitVec.ofNat 64 (a.toNat &&& b.toNat) = a &&& b := by
  rw [← BitVec.toNat_and, BitVec.ofNat_toNat, BitVec.setWidth_eq]

theorem ofNat_toNat_or : BitVec.ofNat 64 (a.toNat ||| b.toNat) = a ||| b := by
  rw [← BitVec.toNat_or, BitVec.ofNat_toNat, BitVec.setWidth_eq]

theorem ofNat_toNat_xor : BitVec.ofNat 64 (a.toNat ^^^ b.toNat) = a ^^^ b := by
  rw [← BitVec.toNat_xor, BitVec.ofNat_toNat, BitVec.setWidth_eq]

theorem ofNat_toNat_mul_two_pow (n : Nat) : BitVec.ofNat 64 (a.toNat * 2 ^ n) = a <<< n := by
  rw [← Nat.shiftLeft_eq]
  rfl

theorem ofNat_toNat_div_two_pow (n : Nat) : BitVec.ofNat 64 (a.toNat / 2 ^ n) = a >>> n := by
  rw [← Nat.shiftRight_eq_div_pow, ← BitVec.toNat_ushiftRight, BitVec.ofNat_toNat, BitVec.setWidth_eq]

theorem ofInt_toInt_div_two_pow (n : Nat) : BitVec.ofInt 64 (a.toInt / 2 ^ n) = a.sshiftRight n := by
  rw [BitVec.sshiftRight, Int.shiftRight_eq_div_pow]
  norm_cast

theorem ite_toInt_le_min : (if a.toInt ≤ b.toInt then a else b) = if b.slt a then b else a := by
  by_cases h : b.toInt < a.toInt
  · simp [BitVec.slt, h, Int.not_le.mpr h]
  · simp [BitVec.slt, h, Int.not_lt.mp h]

/-- Words that are neither less than the other are equal, so that the maximum may be told by a strict comparison. -/
theorem ite_toInt_le_max : (if a.toInt ≤ b.toInt then b else a) = if a.slt b then b else a := by
  obtain h | h | h := lt_trichotomy a.toInt b.toInt
  · simp [BitVec.slt, h, h.le]
  · simp [BitVec.toInt_inj.mp h]
  · simp [BitVec.slt, Int.not_le.mpr h, Int.not_lt.mpr h.le]

theorem ite_toNat_le_min : (if a.toNat ≤ b.toNat then a else b) = if b.ult a then b else a := by
  by_cases h : b.toNat < a.toNat
  · simp [BitVec.ult, h, Nat.not_le.mpr h]
  · simp [BitVec.ult, h, Nat.not_lt.mp h]

theorem ite_toNat_le_max : (if a.toNat ≤ b.toNat then b else a) = if a.ult b then b else a := by
  obtain h | h | h := lt_trichotomy a.toNat b.toNat
  · simp [BitVec.ult, h, h.le]
  · simp [BitVec.eq_of_toNat_eq h]
  · simp [BitVec.ult, Nat.not_le.mpr h, Nat.not_lt.mpr h.le]

end Words

/-- Settles O7: each instruction is `State.sclReg` of the machine's operation, which is the operation on numbers. -/
theorem scalarArithmetic : Obligations.ScalarArithmetic := by
  intro s c l f i op hop h hl hr
  have key {op' : Word → Word → Word} (hx : exec i s = s.sclReg c f op') (he : ∀ a b, op a b = op' a b) :
      s.issuesTo i c (((s.core c).past f.h).setS f.rd.toNat (op ((s.core c).sreg f.ra.toNat) ((s.core c).sclB f)))
        ∧ (f.rd = 0 → s.issuesTo i c ((s.core c).past f.h)) := by
    have hi := sclReg_issuesTo hx h hl hr
    rw [he]
    refine ⟨hi, fun h0 => ?_⟩
    rwa [h0] at hi
  simp only [List.mem_cons, List.not_mem_nil, or_false, Prod.mk.injEq] at hop
  obtain ⟨rfl, rfl⟩ | ⟨rfl, rfl⟩ | ⟨rfl, rfl⟩ | ⟨rfl, rfl⟩ | ⟨rfl, rfl⟩ | ⟨rfl, rfl⟩ | ⟨rfl, rfl⟩ | ⟨rfl, rfl⟩ | ⟨rfl, rfl⟩
    | ⟨rfl, rfl⟩ | ⟨rfl, rfl⟩ | ⟨rfl, rfl⟩ | ⟨rfl, rfl⟩ := hop
  · exact key rfl fun _ _ => rfl
  · exact key rfl ofInt_toInt_sub
  · exact key rfl fun _ _ => rfl
  · exact key rfl ofNat_toNat_and
  · exact key rfl ofNat_toNat_or
  · exact key rfl ofNat_toNat_xor
  · exact key (op' := fun a b => a <<< (b.toNat % 64)) rfl fun a b => ofNat_toNat_mul_two_pow a (b.toNat % 64)
  · exact key (op' := fun a b => a >>> (b.toNat % 64)) rfl fun a b => ofNat_toNat_div_two_pow a (b.toNat % 64)
  · exact key (op' := fun a b => a.sshiftRight (b.toNat % 64)) rfl fun a b => ofInt_toInt_div_two_pow a (b.toNat % 64)
  · exact key (op' := fun a b => if b.slt a then b else a) rfl ite_toInt_le_min
  · exact key (op' := fun a b => if a.slt b then b else a) rfl ite_toInt_le_max
  · exact key (op' := fun a b => if b.ult a then b else a) rfl ite_toNat_le_min
  · exact key (op' := fun a b => if a.ult b then b else a) rfl ite_toNat_le_max

end Sys2Proof.Machine

end

section

/-!
### Scalar comparisons, predicates, descriptors and special values: R155, R157, R166
-/

namespace Sys2Proof.Machine

/-! #### Comparisons and predicates -/

theorem Core.preg_zero (k : Core) : k.preg 0 = true := by simp [Core.preg]

theorem Core.setP_zero (k : Core) (b : Bool) : k.setP 0 b = k := by simp [Core.setP]

/-- A predicate reads back as it was written; the others read as before (R155). -/
theorem Core.preg_setP (k : Core) (b : Bool) {p q : Nat} (hq : q < 8) (h0 : p ≠ 0) :
    (k.setP p b).preg q = if q = p then b else k.preg q := by
  have hbit : (BitVec.ofNat 8 (2 ^ p)).getLsbD q = decide (p = q) := by
    rw [BitVec.getLsbD_ofNat, Nat.testBit_two_pow, decide_eq_true hq, Bool.true_and]
  have hk : (k.setP p b).p.getLsbD q = if q = p then b else k.p.getLsbD q := by
    cases b
    · simp only [Core.setP, if_neg h0, Bool.false_eq_true, if_false, BitVec.getLsbD_and, BitVec.getLsbD_not, hbit]
      grind
    · simp only [Core.setP, if_neg h0, if_true, BitVec.getLsbD_or, hbit]
      grind
  simp only [Core.preg, hk]
  by_cases he : q = p
  · simp [he, h0]
  · simp [he]

/-- Settles O8: each instruction is `State.sclCmp` or `State.sclPred` of the machine's operation, which is the one on numbers. -/
theorem scalarPredicates : Obligations.ScalarPredicates := by
  refine ⟨fun s c l f i op hop h hl hr => ?_, fun s c l f i op hop h hl ha hb => ?_,
    fun k b => ⟨k.preg_zero, k.setP_zero b, fun _ _ _ hq h0 => k.preg_setP b hq h0⟩⟩
  · have key {op' : Word → Word → Bool} (hx : exec i s = s.sclCmp c f op') (he : ∀ a b, op a b = op' a b) :
        s.issuesTo i c (((s.core c).past f.h).setP (f.rd.toNat % 8)
          (op ((s.core c).sreg f.ra.toNat) ((s.core c).sclB f))) := by
      rw [he]
      exact sclCmp_issuesTo hx h hl hr
    simp only [List.mem_cons, List.not_mem_nil, or_false, Prod.mk.injEq] at hop
    obtain ⟨rfl, rfl⟩ | ⟨rfl, rfl⟩ | ⟨rfl, rfl⟩ | ⟨rfl, rfl⟩ | ⟨rfl, rfl⟩ | ⟨rfl, rfl⟩ := hop
    · exact key (op' := fun a b => a == b) rfl fun a b => by rw [Bool.eq_iff_iff]; simp [BitVec.toNat_inj]
    · exact key (op' := fun a b => a != b) rfl fun a b => by rw [Bool.eq_iff_iff]; simp [BitVec.toNat_inj]
    · exact key (op' := fun a b => a.slt b) rfl fun _ _ => rfl
    · exact key (op' := fun a b => a.ult b) rfl fun _ _ => rfl
    · exact key (op' := fun a b => !a.slt b) rfl fun a b => by rw [Bool.eq_iff_iff]; simp [BitVec.slt]
    · exact key (op' := fun a b => !a.ult b) rfl fun a b => by rw [Bool.eq_iff_iff]; simp [BitVec.ult]
  · simp only [List.mem_cons, List.not_mem_nil, or_false, Prod.mk.injEq] at hop
    obtain ⟨rfl, rfl⟩ | ⟨rfl, rfl⟩ | ⟨rfl, rfl⟩ | ⟨rfl, rfl⟩ := hop
    · exact sclPred_issuesTo (op := fun a b => a && b) rfl h hl ha hb
    · exact sclPred_issuesTo (op := fun a b => a || b) rfl h hl ha hb
    · exact sclPred_issuesTo (op := fun a b => a != b) rfl h hl ha hb
    · exact sclPred_issuesTo (op := fun a b => a && !b) rfl h hl ha hb

end Sys2Proof.Machine

end

section

/-!
### Scalar instructions on descriptors and special values: R157, R166
-/

namespace Sys2Proof.Machine

/-! #### Descriptors -/

theorem extractLsb'_eq_ofNat_div {w : Nat} (d : BitVec w) (a n : Nat) :
    d.extractLsb' a n = BitVec.ofNat n (d.toNat / 2 ^ a) := by
  rw [BitVec.extractLsb', Nat.shiftRight_eq_div_pow]

theorem tdAdjust_toNat (d : BitVec 128) (b : Word) :
    (tdAdjust d b).toNat = d.toNat / 2 ^ 22 * 2 ^ 22 + (d.toNat + b.toNat) % 2 ^ 22 := by
  have hd := d.isLt
  have hlo : (d.extractLsb' 0 22 + b.extractLsb' 0 22).toNat = (d.toNat + b.toNat) % 2 ^ 22 := by
    simp only [BitVec.toNat_add, BitVec.extractLsb'_toNat, Nat.shiftRight_zero, Nat.add_mod_mod, Nat.mod_add_mod]
  have hhi : (d.extractLsb' 22 106).toNat = d.toNat / 2 ^ 22 := by
    rw [BitVec.extractLsb'_toNat, Nat.shiftRight_eq_div_pow, Nat.mod_eq_of_lt (by omega)]
  rw [tdAdjust, BitVec.toNat_append, hhi, hlo, ← Nat.shiftLeft_add_eq_or_of_lt (Nat.mod_lt _ (by omega)),
    Nat.shiftLeft_eq]

/-- BASE of a descriptor moves modulo 2^22, and every other bit stays (R166). -/
theorem tdAdjust_base (d : BitVec 128) (b : Word) :
    (tdAdjust d b).toNat % 2 ^ 22 = (d.toNat + b.toNat) % 2 ^ 22 ∧ (tdAdjust d b).toNat / 2 ^ 22 = d.toNat / 2 ^ 22 := by
  rw [tdAdjust_toNat]
  omega

/-! #### Special values -/

/-- The special values that are no free ones (R157); the words 7 to 31 are zero. -/
theorem State.special_spec {s : State} {c n : Nat} {k : Core} {l : Launch} {v : Word}
    (h : (n, v) ∈ [(1, BitVec.ofNat 64 l.rank), (2, BitVec.ofNat 64 l.cores),
        (3, BitVec.ofNat 64 (l.ctx % 2 ^ 12 + l.gen % 2 ^ 8 * 2 ^ 12)), (4, s.now), (5, k.status)]
      ∨ 7 ≤ n ∧ v = 0 ∨ n = 0 ∧ v = s.corePath c 0xC 0) : s.special c k l n = v := by
  simp only [List.mem_cons, List.not_mem_nil, or_false, Prod.mk.injEq] at h
  obtain (⟨rfl, rfl⟩ | ⟨rfl, rfl⟩ | ⟨rfl, rfl⟩ | ⟨rfl, rfl⟩ | ⟨rfl, rfl⟩) | ⟨hn, rfl⟩ | ⟨rfl, rfl⟩ := h
  case inr.inl => unfold State.special; split <;> simp_all
  all_goals rfl

section Descriptors
variable {s : State} {c : Nat} {l : Launch} {f : SclF}

theorem Core.pendS_immediate (hb : f.imm = false → (s.core c).pendS f.rb.toNat = false) :
    ∀ r ∈ (if f.imm then [] else [f.rb.toNat]), (s.core c).pendS r = false := by
  cases hm : f.imm <;> simp_all

theorem execSclRdsr_runs (h : s.canRun c f.h l) (hl : sclLegal f) (hb : f.imm = false → (s.core c).pendS f.rb.toNat = false) :
    exec (.sclRdsr c f) s = .next (((if ((s.core c).sclB f).toNat % 32 = 6
        then (s.setCore c ((s.core c).past f.h)).draw.1 else s.setCore c ((s.core c).past f.h)).modCore c fun x =>
      x.setS f.rd.toNat (s.special c (s.core c) l (((s.core c).sclB f).toNat % 32))).after c) := by
  rw [show exec (.sclRdsr c f) s = execSclRdsr c f s from rfl, execSclRdsr, State.issue_runs _ _ _ h
    (sclIllegal_of_sclLegal hl) (Core.mustWait_of_sources rfl rfl rfl rfl (Core.pendS_immediate hb) (by simp))
    IssueFaults.first_empty]
  rfl

/-- Settles O9: each instruction is a change of its core alone; one that shows CYCLES also draws a free value. -/
theorem scalarDescriptors : Obligations.ScalarDescriptors := by
  intro s c l f h hl k k'
  have hi := sclIllegal_of_sclLegal hl
  have change {i : Instr} {src : List Nat} {g : Core → Launch → Core → Core} (hs : ∀ r ∈ src, k.pendS r = false)
      (hx : exec i s = s.issue c { h := f.h, illegal := sclIllegal f, srcS := src } (fun _ _ => {})
        fun s k l => s.modCore c (g k l)) : s.issuesTo i c (g k l k') :=
    State.issuesTo_modCore hx h hi (Core.mustWait_of_sources rfl rfl rfl rfl hs nofun) IssueFaults.first_empty
  refine ⟨fun ha hb => ?set, ?get0, ?get1, fun hb => ⟨?adj, ?special, ?cycles⟩⟩
  case set =>
    exact change (g := fun k _ x => x.setT (f.rd.toNat % 16) (k.sreg f.rb.toNat ++ k.sreg f.ra.toNat))
      (src := [f.ra.toNat, f.rb.toNat]) (by simpa using ⟨ha, hb⟩) rfl
  case get0 =>
    exact change (src := []) (g := fun k _ x => x.setS f.rd.toNat ((k.treg (f.ra.toNat % 16)).extractLsb' 0 64)) nofun rfl
  case get1 =>
    rw [← extractLsb'_eq_ofNat_div]
    exact change (src := []) (g := fun k _ x => x.setS f.rd.toNat ((k.treg (f.ra.toNat % 16)).extractLsb' 64 64)) nofun
      rfl
  case adj =>
    refine ⟨_, ?_, tdAdjust_base (k.treg (f.rd.toNat % 16)) (k.sclB f)⟩
    exact change (g := fun k _ x => x.setT (f.rd.toNat % 16) (tdAdjust (k.treg (f.rd.toNat % 16)) (k.sclB f)))
      (Core.pendS_immediate hb) rfl
  case special =>
    intro hn v hv
    refine ⟨_, execSclRdsr_runs h hl hb, ?_, ?_, State.settles_self _ c⟩
    · rw [if_neg hn, State.modCore_setCore_core, State.special_spec hv]
    · rw [if_neg hn]
      exact State.onlyCore_setCore_modCore ..
  case cycles =>
    intro hn
    have hx := execSclRdsr_runs h hl hb
    rw [if_pos hn] at hx
    refine ⟨_, s.special c k l ((k.sclB f).toNat % 32), hx, ?_, ?_, State.settles_self _ c⟩
    · rw [State.core_modCore_same, State.core_of_cores _ _ (State.draw_cores _), State.core_setCore_same]
    · exact State.onlyCore_setCore_modCore ..

end Descriptors

end Sys2Proof.Machine

end

section

/-!
### Loads and stores of the scratchpad by SCL, and the exceptions that operands raise: R166, R167, R195, R198
-/

namespace Sys2Proof.Machine

/-! #### Exceptions at issue -/

section Raises
variable {s : State} {c : Nat} {l : Launch} {x : Instr} {i : Ins} {faults : Core → Launch → IssueFaults}
  {body : State → Core → Launch → State}

/-- ALIGNMENT is raised with the address of its cause (R199). -/
theorem State.raises_align (hx : exec x s = s.issue c i faults body) (h : s.canRun c i.h l) (hi : i.illegal = false)
    (hw : (s.core c).mustWait i = false) (hf : (faults (s.core c) l).first = some excAlign) :
    s.raises x c excAlign (faults (s.core c) l).va 0 :=
  State.raises_of x i faults body hx h hi hw hf (by decide)

/-- The exceptions that report neither an address nor a code (R199). -/
theorem State.raises_plain {code : Nat} (hx : exec x s = s.issue c i faults body) (h : s.canRun c i.h l)
    (hi : i.illegal = false) (hw : (s.core c).mustWait i = false) (hf : (faults (s.core c) l).first = some code)
    (hc : code ≠ excAlign ∧ code ≠ excTrap ∧ code ≠ excUncorrectable) : s.raises x c code 0 0 := by
  obtain ⟨ha, ht, hu⟩ := hc
  have hr := State.raises_of x i faults body hx h hi hw hf hu
  rwa [if_neg ha, if_neg ht] at hr

end Raises

/-! #### The note of a write -/

@[simp] theorem State.noteWrote_mem (s : State) (c q a n : Nat) : (s.noteWrote c q a n).mem = s.mem := by
  rw [State.noteWrote]
  split <;> rfl

/-- A core with no instruction in flight notes nothing. -/
theorem State.noteWrote_of_jobs_nil {s : State} {c : Nat} (q a n : Nat) (h : (s.core c).jobs = []) :
    s.noteWrote c q a n = s := by
  simp [State.noteWrote, h]

/-- The note is all that changes. -/
theorem State.noteWrote_core (s : State) (c q a n : Nat) (w : List Wrote) :
    { (s.noteWrote c q a n).core c with wrote := w } = { s.core c with wrote := w } := by
  rw [State.noteWrote]
  split
  · rw [State.core_modCore_same]
  · rfl

theorem State.onlyCore_noteWrote {s t : State} {c : Nat} (h : s.onlyCore t c) (q a n : Nat) :
    s.onlyCore (t.noteWrote c q a n) c := by
  rw [State.noteWrote]
  split
  · exact State.onlyCore_modCore h _
  · exact h

/-! #### Bytes are those of memory alone -/

theorem State.scrRead_congr {s t : State} (h : t.mem = s.mem) (c o n : Nat) : t.scrRead c o n = s.scrRead c o n := by
  rw [State.scrRead, State.scrRead, funext (State.rawByte_congr (congrArg Mem.bytes h) (congrArg Mem.undef h))]

/-! #### LDS and STS -/

section Scratch
variable {s : State} {c : Nat} {l : Launch} {f : SclF}

theorem Core.scratchFaults_first (k : Core) (f : SclF) : (k.scratchFaults f).first =
    if k.scratchAddr f % 8 = 0 then if 0x3FFFF8 < k.scratchAddr f then some excBounds else none else some excAlign := by
  by_cases ha : k.scratchAddr f % 8 = 0 <;> by_cases hb : 0x3FFFF8 < k.scratchAddr f <;>
    simp [Core.scratchFaults, IssueFaults.first, ha, hb]

theorem execSclLds_issue : exec (.sclLds c f) s = s.issue c (sclIns f []) (fun k _ => k.scratchFaults f) fun s k _ =>
    if s.scrBad c (k.scratchAddr f) 8 then
      (s.scratchRecord c (k.scratchAddr f) (.tile 0 0x20 k.launch)).issueFault c
        { code := excUncorrectable, pc := k.pc.toNat, va := 0, trap := 0 }
    else s.modCore c (fun x => x.setS f.rd.toNat (BitVec.ofNat 64 (ofBytes (s.scrRead c (k.scratchAddr f) 8)))) := rfl

theorem execSclSts_issue : exec (.sclSts c f) s
    = s.issue c (sclIns f [f.rd.toNat]) (fun k _ => k.scratchFaults f) fun s k _ =>
      (s.scrWrite c (k.scratchAddr f) (toBytes 8 (k.sreg f.rd.toNat).toNat)).noteWrote c k.nextSeq
        (windowBase c + k.scratchAddr f) 8 := rfl

/-- An access that is misaligned, or lies outside the scratchpad, raises (R167). -/
theorem scratch_raises {i : Instr} {more : List Nat} {body : State → Core → Launch → State}
    (hx : exec i s = s.issue c (sclIns f more) (fun k _ => k.scratchFaults f) body) (h : s.canRun c f.h l)
    (hl : sclLegal f) (hr : (s.core c).sclReady f) (hm : ∀ r ∈ more, (s.core c).pendS r = false) :
    ((s.core c).scratchAddr f % 8 ≠ 0 → s.raises i c excAlign ((s.core c).scratchAddr f) 0)
      ∧ ((s.core c).scratchAddr f % 8 = 0 → 0x3FFFF8 < (s.core c).scratchAddr f → s.raises i c excBounds 0 0) := by
  have hi := sclIllegal_of_sclLegal hl
  have hw := Core.mustWait_sclIns hr hm
  have hf := (s.core c).scratchFaults_first f
  refine ⟨fun ha => ?_, fun ha hb => ?_⟩
  · rw [if_neg ha] at hf
    exact State.raises_align hx h hi hw hf
  · rw [if_pos ha, if_pos hb] at hf
    exact State.raises_plain hx h hi hw hf (by decide)

theorem Core.scratchFaults_inside {k : Core} (ha : k.scratchAddr f % 8 = 0) (hb : k.scratchAddr f ≤ 0x3FFFF8) :
    (k.scratchFaults f).first = none := by
  rw [k.scratchFaults_first f, if_pos ha, if_neg (Nat.not_lt.mpr hb)]

theorem sclLds_issuesTo (h : s.canRun c f.h l) (hl : sclLegal f) (hr : (s.core c).sclReady f)
    (ha : (s.core c).scratchAddr f % 8 = 0) (hb : (s.core c).scratchAddr f ≤ 0x3FFFF8)
    (hg : s.scrBad c ((s.core c).scratchAddr f) 8 = false) :
    s.issuesTo (.sclLds c f) c (((s.core c).past f.h).setS f.rd.toNat
      (BitVec.ofNat 64 (ofBytes (s.scrRead c ((s.core c).scratchAddr f) 8)))) := by
  have hg' : ¬ (s.setCore c ((s.core c).past f.h)).scrBad c ((s.core c).scratchAddr f) 8 = true := by
    rw [Bool.not_eq_true]
    exact hg
  refine State.issuesTo_of _ _ _ _ execSclLds_issue h (sclIllegal_of_sclLegal hl) (Core.mustWait_sclIns hr (by simp))
    (Core.scratchFaults_inside ha hb) ?_ ?_
  all_goals dsimp only [sclIns]
  all_goals rw [if_neg hg']
  · exact State.modCore_setCore_core ..
  · exact State.onlyCore_setCore_modCore ..

/-- The state in which a core stores register RD: it has moved past the instruction, and the bytes are written. -/
def State.sclStored (s : State) (c : Nat) (f : SclF) : State :=
  (s.setCore c ((s.core c).past f.h)).scrWrite c ((s.core c).scratchAddr f) (toBytes 8 ((s.core c).sreg f.rd.toNat).toNat)

theorem execSclSts_runs (h : s.canRun c f.h l) (hl : sclLegal f) (hr : (s.core c).sclReady f)
    (hd : (s.core c).pendS f.rd.toNat = false) (ha : (s.core c).scratchAddr f % 8 = 0)
    (hb : (s.core c).scratchAddr f ≤ 0x3FFFF8) :
    exec (.sclSts c f) s = .next (((s.sclStored c f).noteWrote c (s.core c).nextSeq
      (windowBase c + (s.core c).scratchAddr f) 8).after c) :=
  execSclSts_issue.trans (State.issue_runs _ _ _ h (sclIllegal_of_sclLegal hl) (Core.mustWait_sclIns hr (by simpa using hd))
    (Core.scratchFaults_inside ha hb))

theorem State.sclStored_core : (s.sclStored c f).core c = (s.core c).past f.h := by
  rw [State.sclStored, State.core_of_cores _ _ (State.scrWrite_cores ..), State.core_setCore_same]

theorem State.onlyCore_sclStored : (s.withMem (s.sclStored c f).mem).onlyCore (s.sclStored c f) c :=
  State.onlyCore_setCore (State.onlyCore_refl (s.withMem (s.sclStored c f).mem) c) ((s.core c).past f.h)

/-- Settles O10: LDS changes its core, STS the bytes of its place; what either checks is `Core.scratchFaults`. -/
theorem scratchLoadStore : Obligations.ScratchLoadStore := by
  intro s c l f h hl hr k a
  have lds := scratch_raises execSclLds_issue h hl hr (by simp)
  have sts (hd : k.pendS f.rd.toNat = false) := scratch_raises execSclSts_issue h hl hr (by simpa using hd)
  refine ⟨fun ha hb => ⟨fun hg => sclLds_issuesTo h hl hr ha hb hg, fun hc hd => ?_⟩,
    fun ha => ⟨lds.1 ha, fun hd => (sts hd).1 ha⟩, fun ha hb => ⟨lds.2 ha hb, fun hd => (sts hd).2 ha hb⟩⟩
  have hn := length_toBytes 8 (k.sreg f.rd.toNat).toNat
  refine ⟨_, execSclSts_runs h hl hr hd ha hb, ?_, fun hj => ?_, ?_, State.settles_self _ c, ?_, fun x hx => ?_, ?_⟩
  · rw [State.noteWrote_core, State.sclStored_core]
    rfl
  · rw [State.noteWrote_of_jobs_nil _ _ _ (by rw [State.sclStored_core]; exact hj), State.sclStored_core]
  · rw [State.noteWrote_mem]
    exact State.onlyCore_noteWrote State.onlyCore_sclStored ..
  · have hs : a + 8 ≤ 0x400000 := by omega
    have hrd := State.scrRead_scrWrite (s.setCore c (k.past f.h)) hc (o := a) (toBytes 8 (k.sreg f.rd.toNat).toNat)
      (by rw [hn]; exact hs)
    rw [hn] at hrd
    exact (State.scrRead_congr (State.noteWrote_mem ..) ..).trans hrd
  · rw [State.rawByte_congr (congrArg Mem.bytes (State.noteWrote_mem ..)) (congrArg Mem.undef (State.noteWrote_mem ..))]
    exact State.scrWrite_rawByte_other _ c a x _ (by rw [hn]; exact hx)
  · rw [State.noteWrote_mem]
    exact ⟨rfl, rfl, rfl⟩

end Scratch

end Sys2Proof.Machine

end

section

/-!
### The control instructions: R168 to R171
-/

namespace Sys2Proof.Machine

/-- PC + 8 × OFFSET, on 64 bits. -/
theorem ctlTarget_eq (pc : Word) (f : CtlF) : ctlTarget pc f = BitVec.ofInt 64 (pc.toInt + 8 * f.offset.toInt) := by
  rw [BitVec.ofInt_add, BitVec.ofInt_mul, BitVec.ofInt_toInt, ← BitVec.signExtend]
  rfl

section Control
variable {s : State} {c : Nat} {l : Launch} {f : CtlF} {src : List Nat}

theorem ctlIns_legal (hx : f.h.x = false) (hr : f.rsv = 0) : (ctlIns f src).illegal = false := by simp [ctlIns, hx, hr]

theorem Core.mustWait_ctlIns {k : Core} (hs : ∀ r ∈ src, k.pendS r = false) : k.mustWait (ctlIns f src) = false :=
  Core.mustWait_of_sources rfl rfl rfl rfl hs nofun

theorem execCtlNop_issue : exec (.ctlNop c f) s = s.issue c (ctlIns f []) (fun _ _ => {}) fun s _ _ => s := rfl

theorem execCtlB_issue : exec (.ctlB c f) s = s.issue c (ctlIns f []) (fun _ _ => {}) fun s k _ =>
    s.modCore c (fun x => { x with pc := ctlTarget k.pc f, loops := leaveLoops k.loops (ctlTarget k.pc f).toNat }) := rfl

theorem execCtlCall_issue : exec (.ctlCall c f) s
    = s.issue c (ctlIns f []) (fun k _ => { stack := 8 ≤ k.rets.length }) fun s k _ =>
      s.modCore c (fun x => { x with pc := ctlTarget k.pc f, loops := k.loops, rets := (k.pc + 8) :: k.rets }) := rfl

theorem execCtlRet_issue : exec (.ctlRet c f) s
    = s.issue c (ctlIns f []) (fun k _ => { stack := k.rets.isEmpty }) fun s k _ =>
      s.modCore c (fun x => { x with pc := k.rets.head?.getD 0, loops := k.loops, rets := k.rets.tail }) := rfl

theorem execCtlEnd_issue : exec (.ctlEnd c f) s = s.issue c (ctlIns f []) (fun _ _ => {}) fun s k _ =>
    s.modCore c (fun x => { x with block := .ending, pc := k.pc, loops := k.loops }) := rfl

theorem execCtlTrap_issue : exec (.ctlTrap c f) s
    = s.issue c (ctlIns f []) (fun _ _ => { trap := true, code := f.offset.toNat % 2 ^ 16 }) fun s _ _ => s := rfl

/-- What a loop makes of its core `x`, which read `k` at issue: it skips the body on a count of zero, else enters it (R169). -/
def Core.loopStart (k : Core) (f : CtlF) (x : Core) : Core :=
  if (k.sreg f.ra.toNat).toNat = 0 then
    { x with loops := (loopBack k.loops [(ctlTarget k.pc f).toNat]).1
             pc := match (loopBack k.loops [(ctlTarget k.pc f).toNat]).2 with
               | some a => BitVec.ofNat 64 a
               | none => ctlTarget k.pc f + 8 }
  else
    { x with loops := { first := (k.pc + 8).toNat, last := (ctlTarget k.pc f).toNat, left := (k.sreg f.ra.toNat).toNat } :: k.loops
             pc := k.pc + 8 }

theorem execCtlLoop_issue : exec (.ctlLoop c f) s = s.issue c (ctlIns f [f.ra.toNat])
    (fun k _ => { stack := f.offset.toInt < 1 || 4 ≤ k.loops.length }) fun s k _ => s.modCore c (k.loopStart f) := by
  show execCtlLoop c f s = _
  rw [execCtlLoop]
  congr
  funext s k _
  by_cases hn : (k.sreg f.ra.toNat).toNat = 0
  · rw [if_pos hn]
    exact congrArg (s.setCore c) (if_pos hn).symm
  · rw [if_neg hn]
    exact congrArg (s.setCore c) (if_neg hn).symm

theorem IssueFaults.first_stack {b : Bool} : ({ stack := b } : IssueFaults).first = if b then some excStack else none := by
  cases b <;> rfl

/-- An instruction that the loop or the return stack has no place for. -/
theorem ctl_raises_stack {x : Instr} {body : State → Core → Launch → State} {p : Core → Bool}
    (hx : exec x s = s.issue c (ctlIns f src) (fun k _ => { stack := p k }) body) (h : s.canRun c f.h l)
    (hl : (ctlIns f src).illegal = false) (hs : ∀ r ∈ src, (s.core c).pendS r = false) (hp : p (s.core c) = true) :
    s.raises x c excStack 0 0 :=
  State.raises_plain hx h hl (Core.mustWait_ctlIns hs) (by simp [IssueFaults.first_stack, hp]) (by decide)

/-- A legal CTL whose stack has room changes its core as its body says. -/
theorem ctl_issuesTo {x : Instr} {p : Core → Bool} {g : Core → Launch → Core → Core}
    (hx : exec x s = s.issue c (ctlIns f src) (fun k _ => { stack := p k }) fun s k l => s.modCore c (g k l))
    (h : s.canRun c f.h l) (hl : (ctlIns f src).illegal = false) (hs : ∀ r ∈ src, (s.core c).pendS r = false)
    (hp : p (s.core c) = false) : s.issuesTo x c (g (s.core c) l ((s.core c).past f.h)) :=
  State.issuesTo_modCore hx h hl (Core.mustWait_ctlIns hs) (by simp [IssueFaults.first_stack, hp])

end Control

/-- Settles O11: each CTL is one change of its core; a loop chooses its change by its count. -/
theorem controlFlow : Obligations.ControlFlow := by
  intro s c l f h hx hr k k' dest
  have hd : dest = ctlTarget k.pc f := (ctlTarget_eq k.pc f).symm
  have hl (src) : (ctlIns f src).illegal = false := ctlIns_legal hx hr
  have start (hs : ∀ r ∈ [f.ra.toNat], k.pendS r = false) (ho : 1 ≤ f.offset.toInt) (hn : k.loops.length < 4) :
      s.issuesTo (.ctlLoop c f) c (k.loopStart f k') :=
    ctl_issuesTo execCtlLoop_issue h (hl _) hs 
      (Bool.or_eq_false_iff.mpr ⟨decide_eq_false (Int.not_lt.mpr ho), decide_eq_false (Nat.not_le.mpr hn)⟩)
  refine ⟨?nop, ?b, fun hn => ?call, fun hn => ?callFull, fun r rs hk => ?ret, fun hk => ?retEmpty,
    fun hs => ⟨fun hn => ?loopBad, fun ho hn hc => ?loop, fun ho hn hc => ?loopZero⟩⟩
  case nop =>
    exact State.issuesTo_of _ _ _ _ execCtlNop_issue h (hl []) (Core.mustWait_ctlIns nofun) IssueFaults.first_empty
      (State.core_setCore_same ..) (State.onlyCore_setCore (State.onlyCore_refl s c) _)
  case b =>
    rw [hd]
    exact State.issuesTo_modCore execCtlB_issue h (hl []) (Core.mustWait_ctlIns nofun) IssueFaults.first_empty
  case call =>
    rw [hd]
    exact ctl_issuesTo execCtlCall_issue h (hl []) nofun (by simpa using hn)
  case callFull => exact ctl_raises_stack execCtlCall_issue h (hl []) nofun (by simpa using hn)
  case ret =>
    have e : s.issuesTo (.ctlRet c f) c { k' with pc := k.rets.head?.getD 0, loops := k.loops, rets := k.rets.tail } :=
      ctl_issuesTo execCtlRet_issue h (hl []) nofun (by rw [hk]; rfl)
    simpa only [hk, List.head?_cons, Option.getD_some, List.tail_cons] using e
  case retEmpty => exact ctl_raises_stack execCtlRet_issue h (hl []) nofun (by rw [hk]; rfl)
  all_goals have hs : ∀ r ∈ [f.ra.toNat], k.pendS r = false := by simpa using hs
  case loopBad =>
    exact ctl_raises_stack execCtlLoop_issue h (hl _) hs (by simpa using hn)
  case loop =>
    have e := start hs ho hn
    rwa [Core.loopStart, if_neg hc, ← hd] at e
  case loopZero =>
    have e := start hs ho (by simp [hn])
    rwa [Core.loopStart, if_pos hc, hn, ← hd] at e

/-! #### The branch back from the last word of a loop body -/

section LoopBack
variable {e : LoopEnt} {rest : List LoopEnt} {ends : List Nat}

theorem loopBack_again (h : e.last ∈ ends) (hn : 2 ≤ e.left) :
    loopBack (e :: rest) ends = ({ e with left := e.left - 1 } :: rest, some e.first) := by
  simp [loopBack, h, hn]

theorem loopBack_done (h : e.last ∈ ends) (hn : e.left ≤ 1) : loopBack (e :: rest) ends = loopBack rest ends := by
  rw [loopBack, if_pos (by simpa using h), if_neg (by omega)]

/-- Where the innermost loop does not end, the stack stays. -/
theorem loopBack_inside {loops : List LoopEnt} (h : ∀ o ∈ loops, o.last ∉ ends) : loopBack loops ends = (loops, none) := by
  cases loops with
  | nil => rfl
  | cons o os => simp [loopBack, h o (by simp)]

/-- The words at which an instruction at `pc` ends a loop body: its own, or its extension word's, never another. -/
theorem Core.past_eq (k : Core) (h : Hdr) : k.past h =
    let r := loopBack k.loops (if h.x then [k.pc.toNat, k.pc.toNat + 8] else [k.pc.toNat])
    { k with loops := r.1
             pc := match r.2 with
               | some a => BitVec.ofNat 64 a
               | none => k.pc + BitVec.ofNat 64 (hdrLen h)
             waiting := false, still := 0 } := by
  rw [Core.past, Core.advance, hdrLen]
  cases h.x <;> rfl

end LoopBack

/-- Settles O12. -/
theorem loopBranchBack : Obligations.LoopBranchBack := by
  intro k h e rest hk hpc lastWord
  let ends := if h.x then [k.pc.toNat, k.pc.toNat + 8] else [k.pc.toNat]
  have hmem : lastWord ∈ ends := by cases hx : h.x <;> simp [ends, lastWord, hx]
  have hends (x : Nat) (h1 : x ≠ lastWord) (h2 : x ≠ k.pc.toNat) : x ∉ ends := by
    cases hx : h.x <;> simp_all [ends, lastWord]
  have hnext : (k.pc + BitVec.ofNat 64 (hdrLen h)).toNat = k.pc.toNat + (if h.x then 16 else 8) := by
    cases hx : h.x <;> simp [hdrLen, hx, BitVec.toNat_add] <;> omega
  rw [Core.past_eq, hk]
  refine ⟨fun he hn hf => ?_, fun he hn ho => ?_, fun h1 h2 => ?_⟩
  · rw [loopBack_again (he ▸ hmem) hn]
    exact ⟨rfl, by simpa using Nat.mod_eq_of_lt hf⟩
  · rw [loopBack_done (he ▸ hmem) hn, loopBack_inside fun o hm => hends _ (ho o hm).1 (ho o hm).2]
    exact ⟨rfl, hnext⟩
  · have hi : loopBack (e :: rest) ends = (e :: rest, none) := by simp [loopBack, hends _ h1 h2]
    rw [hi]
    exact ⟨rfl, hnext⟩

end Sys2Proof.Machine

end

section

/-!
### A core with nothing in flight goes on: R120, R171, R193
-/

namespace Sys2Proof.Machine

/-! #### The rounds of a core with nothing in flight -/

/-- A core with no instruction and no write in flight: its units have nothing to do. -/
def Core.noneInFlight (k : Core) : Prop := k.jobs = [] ∧ k.writes = []

theorem State.round_of_noneInFlight {s : State} {c : Nat} (h : (s.core c).noneInFlight) :
    (((s.acceptWrites c).beginUnits c).pump c 4096).endStreams c = s.setCore c (s.core c) := by
  obtain ⟨hj, hw⟩ := h
  have hself : ((s.setCore c (s.core c)).core c).jobs = [] := by rw [State.core_setCore_same, hj]
  have haccept : s.acceptWrites c = s := by rw [State.acceptWrites, hw, List.foldl_nil]
  have hbegin : s.beginUnits c = s.setCore c (s.core c) := by
    rw [State.beginUnits, State.modCore, hj, List.map_nil]
    exact congrArg (s.setCore c) (congrArg (fun js => { s.core c with jobs := js }) hj.symm)
  have hpump : (s.setCore c (s.core c)).pump c 4096 = s.setCore c (s.core c) := by
    have hnone : (s.setCore c (s.core c)).pumpOne c = none := by
      simp only [State.pumpOne, Core.streamHead, hself, List.find?_nil, Option.bind_none, Option.bind_fun_none, ite_self]
    rw [show (4096 : Nat) = 4095 + 1 from rfl, State.pump, hnone]
  rw [haccept, hbegin, hpump, State.endStreams, hself, List.foldl_nil]

theorem State.alike_trans {s t u : State} (h : s.alike t) (g : t.alike u) : s.alike u :=
  ⟨g.1.trans h.1, fun d => (g.2 d).trans (h.2 d)⟩

/-- No core listed is draining: after an event none is left to stop. -/
def State.noneDrains (s : State) : Prop := ∀ e ∈ s.cores, e.2.block ≠ .draining

theorem State.noneDrains_setCore {s : State} {c : Nat} {k : Core} (h : s.noneDrains) (hk : k.block ≠ .draining) :
    (s.setCore c k).noneDrains := by
  intro e he
  simp only [State.setCore, State.withCores_cores, Tbl.setD] at he
  split at he
  · exact h e (Tbl.mem_erase _ _ _ he)
  · obtain rfl | he := Tbl.mem_put _ _ _ _ he
    · exact hk
    · exact h e he

theorem State.sweep_of_noneDrains {s : State} (h : s.noneDrains) : s.sweep = s := by
  have hf : s.cores.filter (fun _ k => k.block == .draining) = [] := by
    simp only [Tbl.filter, List.filter_eq_nil_iff]
    exact fun e he => by simpa using h e he
  rw [State.sweep, hf]
  rfl

/-- What holds issue is all that an event on such a core can end. -/
theorem State.settle_of_noneInFlight {s : State} {c : Nat} (n : Nat) (h : (s.core c).noneInFlight) :
    ∃ u, s.alike u ∧ (s.noneDrains → (s.core c).block ≠ .draining → u.noneDrains) ∧ s.settle c n = u.unblock c := by
  induction n generalizing s with
  | zero => exact ⟨s, ⟨rfl, fun _ => rfl⟩, fun hd _ => hd, rfl⟩
  | succ n ih =>
    have hself := State.core_setCore_same s c (s.core c)
    obtain ⟨u, hu, hd, e⟩ := ih (s := s.setCore c (s.core c)) (by rwa [hself])
    exact ⟨u, State.alike_trans (State.alike_setCore s c) hu,
      fun h hk => hd (State.noneDrains_setCore h hk) (by rwa [hself]),
      by rw [State.settle, State.round_of_noneInFlight h, e]⟩

theorem State.alike_cluster {s t : State} (h : s.alike t) (k : Nat) : t.cluster k = s.cluster k := by
  show (t.withCores []).cluster k = (s.withCores []).cluster k
  rw [h.1]

/-- A core without writes, for which the slice holds none, has drained its store buffer (R233). -/
theorem State.drained_of_noneInFlight {s : State} {c : Nat} (h : (s.core c).noneInFlight)
    (hh : ∀ x ∈ (s.cluster (c / 8)).held, x.core ≠ c) : s.drained c = true := by
  have hany : (s.cluster (c / 8)).held.any (fun x => x.core == c && !x.done) = false := by
    simp only [List.any_eq_false, Bool.and_eq_true, beq_iff_eq, not_and]
    exact fun x hx e => absurd e (hh x hx)
  simp [State.drained, State.writesDone, h.2, hany]

/-! #### A core that holds no launch gets none from another's end -/

theorem Core.stop_launch (k : Core) : k.stop.launch = k.launch := by
  rw [Core.stop]
  split <;> rfl

theorem Core.setP_launch (k : Core) (p : Nat) (b : Bool) : (k.setP p b).launch = k.launch := by
  rw [Core.setP]
  split <;> rfl

theorem State.modCore_launch (s : State) (c d : Nat) (f : Core → Core) (hf : ∀ k, (f k).launch = k.launch) :
    ((s.modCore c f).core d).launch = (s.core d).launch := by
  rw [State.modCore, State.core_setCore]
  split
  · next e => rw [e, hf]
  · rfl

theorem State.foldl_modCore_launch (f : Core → Core) (hf : ∀ k, (f k).launch = k.launch) (d : Nat) (l : List Nat) (s : State) :
    ((l.foldl (fun s c => s.modCore c f) s).core d).launch = (s.core d).launch := by
  induction l generalizing s with
  | nil => rfl
  | cons c l ih => rw [List.foldl_cons, ih, State.modCore_launch _ _ _ _ hf]

theorem State.mapVals_launch (s : State) (d : Nat) (f : Core → Core) (h : ∀ k, (f k).launch = k.launch) :
    ((s.withCores (s.cores.mapVals f)).core d).launch = (s.core d).launch := by
  simp only [State.core, State.withCores_cores, Tbl.getD, Tbl.get?_mapVals]
  cases s.cores.get? d with
  | none => rfl
  | some k => exact h k

theorem State.stopLaunch_launch (s : State) (u n d : Nat) : ((s.stopLaunch u n).core d).launch = (s.core d).launch := by
  rw [State.stopLaunch, State.core_of_cores _ _ (State.modOp_cores ..), State.core_of_cores _ _ (State.withWork_cores ..)]
  refine State.mapVals_launch s d _ fun k => ?_
  dsimp only
  split
  · next l hl =>
    split
    · exact Core.stop_launch _
    · rfl
  · rfl

/-- The end of core `c`'s part of a launch: `c` holds none, and the others hold theirs. -/
theorem State.partEnd_launch (s : State) (c d : Nat) :
    ((s.partEnd c).core d).launch = if d = c then none else (s.core d).launch := by
  cases hl : (s.core c).launch with
  | none =>
    have e : s.partEnd c = s := by simp only [State.partEnd, hl]
    rw [e]
    split
    · next hd => rw [hd, hl]
    · rfl
  | some l =>
    have hk : ((s.setCore c (s.core c).idle).core d).launch = if d = c then none else (s.core d).launch := by
      rw [State.core_setCore]
      split <;> rfl
    simp only [State.partEnd, hl]
    rw [State.core_of_cores _ _ (State.opCheck_cores ..)]
    split
    · rw [State.stopLaunch_launch, State.core_of_cores _ _ (State.modOp_cores ..), hk]
    · rw [State.core_of_cores _ _ (State.modOp_cores ..), hk]

theorem State.barCheck_launch (s : State) (c d : Nat) : ((s.barCheck c).core d).launch = (s.core d).launch := by
  simp only [State.barCheck]
  split
  · split
    · refine State.foldl_modCore_launch _ (fun k => ?_) d _ s
      split
      · exact Core.setP_launch k _ _
      · rfl
    · rfl
  · rfl

theorem State.unblock_launch_none {s : State} {d : Nat} (c : Nat) (h : (s.core d).launch = none) :
    ((s.unblock c).core d).launch = none := by
  have part (f : Core → Core) (hf : ∀ k, (f k).launch = k.launch) : (((s.modCore c f).partEnd c).core d).launch = none := by
    rw [State.partEnd_launch, State.modCore_launch _ _ _ _ hf, h, ite_self]
  simp only [State.unblock]
  split
  · split
    · rw [State.core_setCore]
      split
      · next e => rw [← h, e]; exact Core.setP_launch _ _ _
      · exact h
    · exact h
  · rw [State.barCheck_launch, h]
  · split
    · exact part _ fun _ => rfl
    · exact h
  · split
    · exact part _ fun _ => rfl
    · exact h
  · exact h

theorem State.sweep_launch_none {s : State} {d : Nat} (h : (s.core d).launch = none) : (s.sweep.core d).launch = none := by
  rw [State.sweep]
  generalize (s.cores.filter _).map Prod.fst = l
  induction l generalizing s with
  | nil => exact h
  | cons c l ih => exact ih (State.unblock_launch_none c h)

/-- A core that waits for its end and has nothing in flight reports its part of the launch complete (R171). -/
theorem State.after_launch_of_ending {s : State} {c : Nat} (h : (s.core c).noneInFlight) (hb : (s.core c).block = .ending)
    (hh : ∀ x ∈ (s.cluster (c / 8)).held, x.core ≠ c) : ((s.after c).core c).launch = none := by
  obtain ⟨u, hu, -, e⟩ := State.settle_of_noneInFlight 8 h
  rw [State.after, e]
  refine State.sweep_launch_none ?_
  have hk : u.core c = s.core c := hu.2 c
  have hd : u.drained c = true :=
    State.drained_of_noneInFlight (by rwa [hk]) (by rwa [State.alike_cluster hu])
  simp only [State.unblock, hk, hb, h.1, hd, List.isEmpty_nil, Bool.and_self, if_true]
  rw [State.partEnd_launch, if_pos rfl]

/-! #### END and TRAP -/

/-- An instruction that leaves its core's registers alone leaves them all alone, also with what follows. -/
theorem State.issuesTo_sameRegs {s : State} {i : Instr} {c : Nat} {k : Core} (h : s.issuesTo i c k)
    (hk : k.regs = (s.core c).regs) : ∃ t, exec i s = .next t ∧ s.sameRegs t := by
  obtain ⟨u, hx, hc, ⟨-, ho⟩, hs, -⟩ := h
  refine ⟨_, hx, State.sameRegs_trans (fun d => ?_) hs⟩
  by_cases hd : d = c
  · rw [hd, hc, hk]
  · rw [ho d hd]

/-- Settles O13: what follows END on a core with nothing in flight is `State.after_launch_of_ending`. -/
theorem endAndTrap : Obligations.EndAndTrap := by
  intro s c l f h hx hr
  have hl : (ctlIns f []).illegal = false := ctlIns_legal hx hr
  have hi : s.issuesTo (.ctlEnd c f) c { s.core c with block := .ending, waiting := false, still := 0 } :=
    State.issuesTo_modCore execCtlEnd_issue h hl (Core.mustWait_ctlIns nofun) IssueFaults.first_empty
  refine ⟨hi, State.issuesTo_sameRegs hi rfl, fun hj hw hh => ?_, ?_⟩
  · obtain ⟨u, hx, hk, ho, -⟩ := hi
    have hcl : u.cluster (c / 8) = s.cluster (c / 8) := by
      show (u.withCores []).cluster (c / 8) = (s.withCores []).cluster (c / 8)
      rw [ho.1]
    exact ⟨_, hx, State.after_launch_of_ending (by rw [hk]; exact ⟨hj, hw⟩) (by rw [hk]) (by rwa [hcl])⟩
  · exact State.raises_of _ _ _ _ execCtlTrap_issue h hl (Core.mustWait_ctlIns nofun) rfl (by decide)

end Sys2Proof.Machine

end

section

/-!
### Predicates, held issue and reserved words, for every tile instruction: R120, R163, R164
-/

namespace Sys2Proof.Machine

/-- An outcome is an issue on core `c` under header `h`. -/
def State.issuesUnder (s : State) (o : Out) (c : Nat) (h : Hdr) : Prop :=
  ∃ (x : Ins) (faults : Core → Launch → IssueFaults) (body : State → Core → Launch → State),
    o = s.issue c x faults body ∧ x.h = h

section Under
variable (s : State) (c : Nat)

theorem State.sclReg_under (f : SclF) (op : Word → Word → Word) : s.issuesUnder (s.sclReg c f op) c f.h := by
  exact ⟨_, _, _, rfl, rfl⟩

theorem State.sclCmp_under (f : SclF) (op : Word → Word → Bool) : s.issuesUnder (s.sclCmp c f op) c f.h := by
  exact ⟨_, _, _, rfl, rfl⟩

theorem State.sclPred_under (f : SclF) (op : Bool → Bool → Bool) : s.issuesUnder (s.sclPred c f op) c f.h := by
  exact ⟨_, _, _, rfl, rfl⟩

theorem State.vop_under (op : Nat) (f : VopF) : s.issuesUnder (s.vop c op f) c f.h := by
  unfold State.vop
  exact ⟨_, _, _, rfl, rfl⟩

theorem State.tld_under (f : TldF) : s.issuesUnder (s.tld c f) c f.h := by
  unfold State.tld
  exact ⟨_, _, _, rfl, rfl⟩

theorem State.tst_under (f : TldF) (faults : Core → Launch → IssueFaults) : s.issuesUnder (s.tst c f faults) c f.h := by
  unfold State.tst
  exact ⟨_, _, _, rfl, rfl⟩

theorem State.atom_under (op : AtomOp) (f : AtomF) : s.issuesUnder (s.atom c op f) c f.h := by
  unfold State.atom
  exact ⟨_, _, _, rfl, rfl⟩

theorem State.sig_under (add : Bool) (f : SigF) : s.issuesUnder (s.sig c add f) c f.h := by
  unfold State.sig
  exact ⟨_, _, _, rfl, rfl⟩

end Under

/-- Every tile instruction is an issue, under its own header. -/
theorem exec_tile_under {i : Instr} {c : Nat} {h : Hdr} (ht : tileOf i = some (c, h)) (s : State) :
    s.issuesUnder (exec i s) c h := by
  cases i <;> cases ht
  all_goals
    delta exec
    dsimp only
  case sclAdd | sclSub | sclMul | sclAnd | sclOr | sclXor | sclShl | sclShr | sclSar | sclMin | sclMax | sclMinu | sclMaxu =>
    exact State.sclReg_under ..
  case sclCmpeq | sclCmpne | sclCmplt | sclCmpltu | sclCmpge | sclCmpgeu => exact State.sclCmp_under ..
  case sclPand | sclPor | sclPxor | sclPandn => exact State.sclPred_under ..
  case vopAdd | vopSub | vopMul | vopFma | vopMin | vopMax | vopCmplt | vopCmple | vopCmpeq | vopSel | vopSqrt | vopRcp | vopRsq
    | vopExp | vopExp2 | vopLog | vopLog2 | vopRsum | vopRmax | vopIadd | vopIsub | vopImin | vopImax | vopShl | vopShr | vopSar
    | vopCvt | vopCopy => exact State.vop_under ..
  case tld | tldSc => exact State.tld_under ..
  case tst => unfold execTst; exact State.tst_under ..
  case tstSc => unfold execTstSc; exact State.tst_under ..
  case tstAdd => unfold execTstAdd; exact State.tst_under ..
  case atomAdd | atomMin | atomMax | atomSwap | atomCompareSwap => exact State.atom_under ..
  case sigWrite | sigAdd => exact State.sig_under ..
  case gath => unfold execGath; exact ⟨_, _, _, rfl, rfl⟩
  case waitv => unfold execWaitv; exact ⟨_, _, _, rfl, rfl⟩
  case syncFence => unfold execSyncFence; exact ⟨_, _, _, rfl, rfl⟩
  case syncBar => unfold execSyncBar; exact ⟨_, _, _, rfl, rfl⟩
  case tmma => unfold execTmma; exact ⟨_, _, _, rfl, rfl⟩
  case tmmaP => unfold execTmmaP; exact ⟨_, _, _, rfl, rfl⟩
  case tstAcc => unfold execTstAcc; exact ⟨_, _, _, rfl, rfl⟩
  all_goals exact ⟨_, _, _, rfl, rfl⟩

/-- The state in which core `c` has raised `code` with no address and no trap code. -/
theorem State.raises_issueFault {s : State} {i : Instr} {c code : Nat} (hc : code ≠ excUncorrectable)
    (hx : exec i s = .next ((s.issueFault c { code := code, pc := (s.core c).pc.toNat, va := 0, trap := 0 }).after c)) :
    s.raises i c code 0 0 := by
  refine ⟨_, hx, ?_, State.settles_self _ c, ?_⟩
  all_goals
    simp only [State.issueFault]
    rw [if_neg hc]
  · exact State.onlyCore_modCore (State.onlyCore_refl s c) _
  · exact State.core_modCore_same ..

/-- A core that can issue a word that is not its row's, or that its fields forbid, raises whatever the predicate (R163, R164). -/
theorem State.issue_illegal {s : State} {i : Instr} {c : Nat} {l : Launch} {x : Ins} {faults : Core → Launch → IssueFaults}
    {body : State → Core → Launch → State} (hx : exec i s = s.issue c x faults body) (h : s.canIssue c x.h l)
    (hi : (x.illegal || x.h.reserved) = true) : s.raises i c excIllegal 0 0 :=
  State.raises_issueFault (by decide) (by rw [hx, State.issue_can x faults body h, if_pos hi])

/-- A core that can issue a legal word which its predicate keeps from executing moves past it (R164). -/
theorem State.issue_passed {s : State} {i : Instr} {c : Nat} {l : Launch} {x : Ins} {faults : Core → Launch → IssueFaults}
    {body : State → Core → Launch → State} (hx : exec i s = s.issue c x faults body) (h : s.canIssue c x.h l)
    (hi : (x.illegal || x.h.reserved) = false) (he : (s.core c).executes x.h = false) :
    s.issuesTo i c ((s.core c).past x.h) :=
  ⟨_, by rw [hx, State.issue_can x faults body h, hi, he]; rfl, State.core_setCore_same ..,
    State.onlyCore_setCore (State.onlyCore_refl s c) _, State.settles_self _ c⟩

/-- Settles O14: every tile instruction is an issue (`exec_tile_under`), whose outcomes `State.issue_can` lists. -/
theorem predicatedIssue : Obligations.PredicatedIssue := by
  refine ⟨fun s i c h l ht hc => ⟨rfl, fun hp hn => ?_, fun he => ?_⟩, fun s i c h ht hr hl hb => ?_,
    fun s i c h l ht hc hr => ?_⟩
  · rw [Core.executes, hp, hn]
    rfl
  all_goals obtain ⟨x, faults, body, hx, rfl⟩ := exec_tile_under ht s
  · cases hi : x.illegal || x.h.reserved
    · exact .inl (State.issue_passed hx hc hi he)
    · exact .inr (State.issue_illegal hx hc hi)
  · exact hx.trans (State.issue_blocked x faults body hr hl hb)
  · exact State.issue_illegal hx hc (by rw [hr, Bool.or_true])

end Sys2Proof.Machine

end

section

/-!
### Instructions that enter a unit's queue: TMMA, TMMA.P and the VOPs: R79, R111, R121, R172 to R179
-/

namespace Sys2Proof.Machine

/-! #### What an instruction of a unit waits for, and the queue it enters -/

/-- An instruction of a unit whose sources are final waits for its descriptors, a queue entry and its accumulator tile alone
(R75, R120 to R122). -/
theorem Core.mustWait_of_free {k : Core} {i : Ins} {u : Nat} (hu : i.unit = some u) (hf : k.free u i.reads i.writes)
    (ha : ∀ e a b, i.acc = some (e, a, b) → k.accHold e a b = false) (hs : ∀ r ∈ i.srcS, k.pendS r = false)
    (hp : i.srcP = []) : k.mustWait i = false := by
  obtain ⟨hz, hr⟩ := hf
  have hS : i.srcS.any k.pendS = false := by simpa using hs
  simp only [Core.mustWait, hS, hp, hz, hu, hr, List.any_nil, Bool.not_true, Bool.or_false, Bool.false_or]
  cases h : i.acc with
  | none => rfl
  | some t => exact ha t.1 t.2.1 t.2.2 h

/-- A core that names no descriptor meets no hazard. -/
theorem Core.free_of_room {k : Core} {u : Nat} (h : k.room u = true) : k.free u [] [] := ⟨by simp [Core.hazard], h⟩

theorem State.enqueue_past_core (s : State) (c : Nat) (i : Ins) (u : Nat) (kind : JobKind) (g : Job → Job) :
    ((s.setCore c ((s.core c).past i.h)).enqueue c (s.core c) i u kind g).core c
      = ((s.core c).past i.h).queued (g ((s.core c).job u kind i.reads i.writes)) :=
  State.modCore_setCore_core ..

section Queue
variable {s : State} {c : Nat} {l : Launch} {x : Instr} {i : Ins} {faults : Core → Launch → IssueFaults}
  {body : State → Core → Launch → State} {u : Nat} {kind : JobKind} {g : Job → Job}

/-- An instruction whose whole effect is an entry in a unit's queue. -/
theorem State.issuesTo_enqueue (hx : exec x s = s.issue c i faults body) (h : s.canRun c i.h l) (hi : i.illegal = false)
    (hw : (s.core c).mustWait i = false) (hf : (faults (s.core c) l).first = none)
    (hb : body (s.setCore c ((s.core c).past i.h)) (s.core c) l
      = (s.setCore c ((s.core c).past i.h)).enqueue c (s.core c) i u kind g) :
    s.issuesTo x c (((s.core c).past i.h).queued (g ((s.core c).job u kind i.reads i.writes))) := by
  refine State.issuesTo_of x i faults body hx h hi hw hf ?_ ?_
  all_goals rw [hb]
  · exact State.enqueue_past_core ..
  · exact State.onlyCore_setCore_modCore ..

end Queue

/-! #### TMMA and TMMA.P -/

section Tmma
variable {s : State} {c : Nat} {l : Launch} {f : TmmaF}

/-- What a TMMA or a TMMA.P needs at issue, given what makes its word illegal. -/
def tmmaIns (illegal : Bool) (f : TmmaF) : Ins :=
  { h := f.h, illegal := illegal, srcS := [f.sk.toNat], reads := [f.ta.toNat, f.tb.toNat]
    unit := some f.eng.toNat, acc := some (f.eng.toNat, f.acc.toNat, true) }

theorem execTmma_issue : exec (.tmma c f) s
    = s.issue c (tmmaIns (f.h.x || f.rsv != 0) f) (s.tmmaFaults c f) fun s k _ =>
      s.enqueue c k (tmmaIns (f.h.x || f.rsv != 0) f) f.eng.toNat
        (.tmma f (k.treg f.ta.toNat) (k.treg f.tb.toNat) (k.sreg f.sk.toNat).toNat) id := rfl

/-- A TMMA.P whose table has good check bits enters the queue with it. -/
theorem execTmmaP_issue : ∃ body, exec (.tmmaP c f) s
      = s.issue c (tmmaIns (f.h.x || f.rsv != 0 || f.zero) f) (s.tmmapFaults c f) body
    ∧ ∀ (t : State) (k : Core) (l : Launch), t.rowsBad c (k.sreg f.sk.toNat).toNat 0 1 256 = none →
      body t k l = t.enqueue c k (tmmaIns (f.h.x || f.rsv != 0 || f.zero) f) f.eng.toNat
        (.tmmap f (k.treg f.ta.toNat) (k.treg f.tb.toNat) (t.scrRead c (k.sreg f.sk.toNat).toNat 256)) id := by
  refine ⟨?body, ?_, fun t k l h => ?_⟩
  case refine_1 =>
    show execTmmaP c f s = _
    unfold execTmmaP
    rfl
  simp only [h]
  rfl

theorem Core.mustWait_tmmaIns {k : Core} (p : Bool) (hs : k.pendS f.sk.toNat = false)
    (hf : k.free f.eng.toNat [f.ta.toNat, f.tb.toNat] []) (ha : k.accHold f.eng.toNat f.acc.toNat true = false) :
    k.mustWait (tmmaIns p f) = false := by
  refine Core.mustWait_of_free rfl hf (fun e a b h => ?_) (by simpa [tmmaIns] using hs) rfl
  cases h
  exact ha

theorem State.engineOk_of_absent {e : Nat} (twin : Bool) (h : s.enginePresent c e = false) : s.engineOk c twin e = false := by
  cases twin <;> simp [State.engineOk, h]

theorem IssueFaults.first_engine {x : IssueFaults} (h : x.engine = true) : x.first = some excEngine := if_pos h

theorem State.tmmaFaults_engine (k : Core) : (s.tmmaFaults c f k l).engine = !s.engineOk c l.twin f.eng.toNat := by
  rw [State.tmmaFaults]
  split <;> rfl

theorem State.tmmapFaults_engine (k : Core) : (s.tmmapFaults c f k l).engine = !s.engineOk c l.twin f.eng.toNat := by
  rw [State.tmmapFaults]
  split <;> rfl

end Tmma

/-- Settles O15. -/
theorem tmmaIssue : Obligations.TmmaIssue := by
  intro s c l f h hx hr k e hs hfree ha
  have hlegal : (tmmaIns (f.h.x || f.rsv != 0) f).illegal = false := by simp [tmmaIns, hx, hr]
  have hlegalP (hz : f.zero = false) : (tmmaIns (f.h.x || f.rsv != 0 || f.zero) f).illegal = false := by
    simp [tmmaIns, hx, hr, hz]
  have hwait (b : Bool) : k.mustWait (tmmaIns b f) = false := Core.mustWait_tmmaIns b hs hfree ha
  obtain ⟨body, hxP, hbody⟩ := execTmmaP_issue (s := s) (c := c) (f := f)
  refine ⟨fun hp => ?_, fun hf => ?_, fun hz hf hb => ?_⟩
  · have hengine := State.engineOk_of_absent l.twin hp
    refine ⟨?_, fun hz => ?_⟩
    · exact State.raises_plain execTmma_issue h hlegal (hwait _)
        (IssueFaults.first_engine (by rw [State.tmmaFaults_engine, hengine]; rfl)) (by decide)
    · exact State.raises_plain hxP h (hlegalP hz) (hwait _)
        (IssueFaults.first_engine (by rw [State.tmmapFaults_engine, hengine]; rfl)) (by decide)
  · exact State.issuesTo_enqueue execTmma_issue h hlegal (hwait _) hf rfl
  · exact State.issuesTo_enqueue hxP h (hlegalP hz) (hwait _) hf (hbody _ k l hb)

end Sys2Proof.Machine

end

section

/-!
### The vector unit's instructions at issue: R111, R112, R176 to R179
-/

namespace Sys2Proof.Machine

section Vop
variable {s : State} {c : Nat} {l : Launch} {op : Nat} {f : VopF}

/-- What a VOP checks of its descriptors at issue (R160, R177, R178). -/
def vopFaults (op : Nat) (f : VopF) (k : Core) : IssueFaults :=
  let d := tdOf (k.treg f.td.toNat)
  let a := tdOf (k.treg f.ts1.toNat)
  let b := tdOf (k.treg f.ts2.toNat)
  let t := tdOf (k.treg f.ts3.toNat)
  { format := vopFormatBad op f d a b t, shape := vopShapeBad op f d a b t, bounds := vopBoundsBad op f d a b t }

/-- The entry of a VOP in the vector unit's queue. -/
def vopKind (op : Nat) (f : VopF) (k : Core) : JobKind :=
  .vop op f (k.treg f.td.toNat) (k.treg f.ts1.toNat) (k.treg f.ts2.toNat) (k.treg f.ts3.toNat) (k.sreg f.rs.toNat) k.rnd

/-- The S that a VOP leaves at issue (R111, R179). -/
def vopRnd (f : VopF) (k : Core) : Word :=
  if stochastic f (tdOf (k.treg f.td.toNat)) (tdOf (k.treg f.ts1.toNat)) then
    stochAdvance k.rnd ((tdOf (k.treg f.td.toNat)).rows * (tdOf (k.treg f.td.toNat)).elems)
  else k.rnd

theorem State.vop_issue : s.vop c op f = s.issue c (vopIns op f) (fun k _ => vopFaults op f k) fun s k _ =>
    (if stochastic f (tdOf (k.treg f.td.toNat)) (tdOf (k.treg f.ts1.toNat)) then
      s.modCore c (fun x => { x with
        rnd := stochAdvance k.rnd ((tdOf (k.treg f.td.toNat)).rows * (tdOf (k.treg f.td.toNat)).elems) })
    else s).enqueue c k (vopIns op f) 4 (vopKind op f k) id := rfl

theorem stochastic_iff (d a : Td) : stochastic f d a = true ↔ f.sr = true ∧ ¬(a.fmt = 10 ∧ d.fmt = 9) := by
  simp [stochastic, imp_iff_not_or]

theorem vopFaults_first {k : Core} (h1 : (vopFaults op f k).format = false) (h2 : (vopFaults op f k).shape = false)
    (h3 : (vopFaults op f k).bounds = false) : (vopFaults op f k).first = none := by
  simp [IssueFaults.first, h1, h2, h3]
  simp [vopFaults]

theorem Core.mustWait_vopIns {k : Core}
    (hs : (vopClass op).twoSource = true ∧ f.bc = 3 ∨ vopClass op = .seed → k.pendS f.rs.toNat = false)
    (hf : k.free 4 (vopIns op f).reads (vopIns op f).writes) : k.mustWait (vopIns op f) = false := by
  refine Core.mustWait_of_free rfl hf nofun (fun r hr => ?_) rfl
  have hr' : ((vopClass op).twoSource = true ∧ f.bc = 3 ∨ vopClass op = .seed) ∧ r = f.rs.toNat := by simpa [vopIns] using hr
  obtain ⟨hb, rfl⟩ := hr'
  exact hs hb

theorem vop_issuesTo {i : Instr} (hx : exec i s = s.vop c op f) (h : s.canRun c f.h l) (hi : vopIllegal op f = false)
    (hw : (s.core c).mustWait (vopIns op f) = false) (hf : (vopFaults op f (s.core c)).first = none) :
    s.issuesTo i c ({ (s.core c).past f.h with rnd := vopRnd f (s.core c) }.queued
      ((s.core c).job 4 (vopKind op f (s.core c)) (vopIns op f).reads (vopIns op f).writes)) := by
  refine State.issuesTo_of i (vopIns op f) _ _ (hx.trans State.vop_issue) h hi hw hf ?_ ?_
  all_goals by_cases hs : stochastic f (tdOf ((s.core c).treg f.td.toNat)) (tdOf ((s.core c).treg f.ts1.toNat)) = true
  all_goals simp only [vopRnd, hs, if_true, if_false, Bool.false_eq_true]
  · rw [State.enqueue, State.core_modCore_same, State.modCore_setCore_core]
    rfl
  · exact State.enqueue_past_core s c (vopIns op f) ..
  · exact State.onlyCore_modCore (State.onlyCore_setCore_modCore ..) _
  · exact State.onlyCore_setCore_modCore ..

/-- VOP_SEED has the operation code 0x3F of the table of R176. -/
theorem execVopSeed_issue : exec (.vopSeed c f) s = s.issue c (vopIns 0x3F f) (fun _ _ => {}) fun s k _ =>
    s.modCore c (fun x => { x with rnd := k.sreg f.rs.toNat }) := rfl

end Vop

/-- Settles O16: all operations but seed share `State.vop`. -/
theorem vopIssue : Obligations.VopIssue := by
  constructor
  · intro s c l f op i hm h hi k d a b t hrs hfree hfmt hshape hbounds
    have hop : exec i s = s.vop c op f ∧ vopClass op ≠ .seed := by
      generalize hp : (op, i) = p at hm
      fin_cases hm <;> cases hp <;> exact ⟨rfl, by decide⟩
    obtain ⟨hx, hc⟩ := hop
    have hwr : (vopIns op f).writes = [f.td.toNat] := if_neg hc
    have hw : k.mustWait (vopIns op f) = false := by
      refine Core.mustWait_vopIns (fun hb => hrs ?_) (hwr ▸ hfree)
      obtain ⟨-, hbc⟩ := hb.resolve_right hc
      exact hbc
    have e := vop_issuesTo hx h hi hw (vopFaults_first hfmt hshape hbounds)
    rw [hwr] at e
    have hr : vopRnd f k = if f.sr = true ∧ ¬(a.fmt = 10 ∧ d.fmt = 9) then stochAdvance k.rnd (d.rows * d.elems) else k.rnd :=
      if_congr (stochastic_iff d a) rfl rfl
    rwa [hr] at e
  · intro s c l f h hi hrs hroom
    exact State.issuesTo_modCore execVopSeed_issue h hi
      (Core.mustWait_vopIns (fun _ => hrs) (Core.free_of_room hroom)) IssueFaults.first_empty

end Sys2Proof.Machine

end

section

/-!
### TLD, GATH and the forms of TST at issue: R121, R180 to R189, R212
-/

namespace Sys2Proof.Machine

/-! #### Entries of the stream unit's queue -/

section Stream
variable {s : State} {c : Nat} {l : Launch} {x : Instr} {i : Ins} {faults : Core → Launch → IssueFaults}
  {body : State → Core → Launch → State} {kind : JobKind} {g : Job → Job}

/-- An instruction whose effect is an entry in a unit's queue, with issue halted behind it when it is an acquire (R212). -/
theorem State.issuesTo_acquire (hx : exec x s = s.issue c i faults body) (h : s.canRun c i.h l) (hi : i.illegal = false)
    (hw : (s.core c).mustWait i = false) (hf : (faults (s.core c) l).first = none)
    (hg : (g ((s.core c).job 5 kind i.reads i.writes)).seq = (s.core c).nextSeq)
    (hb : body (s.setCore c ((s.core c).past i.h)) (s.core c) l
      = ((s.setCore c ((s.core c).past i.h)).enqueue c (s.core c) i 5 kind g).holdAcquire c (s.core c).nextSeq
          (g ((s.core c).job 5 kind i.reads i.writes)).acquire) :
    s.issuesTo x c ((((s.core c).past i.h).queued (g ((s.core c).job 5 kind i.reads i.writes))).acquiring
      (g ((s.core c).job 5 kind i.reads i.writes))) := by
  refine State.issuesTo_of x i faults body hx h hi hw hf ?_ ?_
  all_goals
    rw [hb, State.holdAcquire]
    split
  case refine_1.isTrue ha => rw [State.core_modCore_same, State.enqueue_past_core, Core.acquiring, if_pos ha, hg]
  case refine_1.isFalse ha => rw [State.enqueue_past_core, Core.acquiring, if_neg ha]
  case refine_2.isTrue => exact State.onlyCore_modCore (State.onlyCore_setCore_modCore ..) _
  case refine_2.isFalse => exact State.onlyCore_setCore_modCore ..

end Stream

/-! #### TLD and GATH -/

/-- The entry of a move with its extension word: its predicate, acquire, scope and deadline (R185, R186, R212). -/
def Job.moving (j : Job) (lp : Option Nat) (acquire : Bool) (scope : Nat) (deadline : Option Nat) : Job :=
  { j with lp := lp, acquire := acquire, scope := scope, deadline := deadline }

/-- What a TLD or GATH does at issue: it enters the queue, or completes with LATE (R186, R187). -/
def State.moveBody (s : State) (c : Nat) (k : Core) (i : Ins) (w : BitVec 64) (kind : JobKind) (acquire : Bool) (scope : Nat) :
    State :=
  if s.latePast k i.h w then s.lateAtIssue c (lpOf i.h w)
  else (s.enqueue c k i 5 kind (fun j => j.moving (lpOf i.h w) acquire scope (s.deadlineOf k i.h w))).holdAcquire c k.nextSeq acquire

section Move
variable {s : State} {c : Nat} {l : Launch} {x : Instr} {i : Ins} {faults : Core → Launch → IssueFaults} {w : BitVec 64}
  {kind : Core → JobKind} {acquire : Bool} {scope : Nat}

theorem State.latePast_setCore (k k' : Core) (h : Hdr) : (s.setCore c k').latePast k h w = s.latePast k h w := rfl

theorem State.issuesTo_move
    (hx : exec x s = s.issue c i faults fun s k _ => s.moveBody c k i w (kind k) acquire scope) (h : s.canRun c i.h l)
    (hi : i.illegal = false) (hw : (s.core c).mustWait i = false) (hf : (faults (s.core c) l).first = none)
    (hlate : s.latePast (s.core c) i.h w = false) :
    let j := ((s.core c).job 5 (kind (s.core c)) i.reads i.writes).moving (lpOf i.h w) acquire scope
      (s.deadlineOf (s.core c) i.h w)
    s.issuesTo x c ((((s.core c).past i.h).queued j).acquiring j) := by
  refine State.issuesTo_acquire (g := fun j => j.moving (lpOf i.h w) acquire scope (s.deadlineOf (s.core c) i.h w)) hx h hi hw hf
    rfl ?_
  rw [State.moveBody, State.latePast_setCore, hlate, if_neg Bool.false_ne_true]
  rfl

theorem State.latePast_hasExt {k : Core} {h : Hdr} (hl : s.latePast k h w = true) : h.x = true := by
  simp only [State.latePast, Bool.and_eq_true] at hl
  exact hl.1.1

theorem State.issuesTo_moveLate
    (hx : exec x s = s.issue c i faults fun s k _ => s.moveBody c k i w (kind k) acquire scope) (h : s.canRun c i.h l)
    (hi : i.illegal = false) (hw : (s.core c).mustWait i = false) (hf : (faults (s.core c) l).first = none)
    (hlate : s.latePast (s.core c) i.h w = true) :
    s.issuesTo x c (((s.core c).past i.h).noteLate.setP (extOf w).lp true) := by
  have hb : (s.setCore c ((s.core c).past i.h)).moveBody c (s.core c) i w (kind (s.core c)) acquire scope
      = (s.setCore c ((s.core c).past i.h)).modCore c (fun k => k.noteLate.setP (extOf w).lp true) := by
    rw [State.moveBody, State.latePast_setCore, if_pos hlate, lpOf, if_pos (State.latePast_hasExt hlate)]
    rfl
  refine State.issuesTo_of x i faults _ hx h hi hw hf ?_ ?_
  all_goals rw [hb]
  · exact State.modCore_setCore_core ..
  · exact State.onlyCore_setCore_modCore ..

end Move

section Tld
variable {s : State} {c : Nat} {l : Launch} {f : TldF}

/-- What a TLD needs at issue. -/
def tldIns (f : TldF) : Ins :=
  { h := f.h
    illegal := f.add || f.acc || f.eng != 0 || f.atile != 0 || f.rsv != 0 || f.mark = 2 || f.scope = 3 || extBad f.h f.ext false
    srcS := [f.ra.toNat, f.rs.toNat] ++ extSrc f.h f.ext, writes := [f.td.toNat], unit := some 5 }

theorem State.tld_issue : s.tld c f = s.issue c (tldIns f) (tldFaults f) fun s k _ =>
    s.moveBody c k (tldIns f) f.ext
      (.tld f (k.treg f.td.toNat) (k.sreg f.ra.toNat).toNat (k.rowDist f (tdOf (k.treg f.td.toNat)))) (f.mark = 1)
      f.scope.toNat := by
  unfold State.tld
  rfl

/-- What a TST needs at issue. -/
def tstIns (f : TldF) : Ins :=
  { h := f.h, illegal := f.h.x || f.eng != 0 || f.atile != 0 || f.rsv != 0 || f.mark = 1 || f.scope = 3
    srcS := [f.ra.toNat, f.rs.toNat], reads := [f.td.toNat], unit := some 5 }

theorem State.tst_issue {faults : Core → Launch → IssueFaults} : s.tst c f faults = s.issue c (tstIns f) faults fun s k _ =>
    s.enqueue c k (tstIns f) 5
      (.tst f (k.treg f.td.toNat) (k.sreg f.ra.toNat).toNat (k.rowDist f (tdOf (k.treg f.td.toNat))))
      (fun j => { j with release := f.mark = 2, scope := f.scope.toNat }) := by
  unfold State.tst
  rfl

theorem tldIns_legal (h1 : f.add = false) (h2 : f.acc = false) (h3 : f.eng = 0) (h4 : f.atile = 0) (h5 : f.rsv = 0)
    (h6 : f.mark ≠ 2) (h7 : f.scope ≠ 3) (h8 : extBad f.h f.ext false = false) : (tldIns f).illegal = false := by
  simpa [tldIns, h1, h2, h3, h4, h5, h8] using And.intro h6 h7

theorem Core.mustWait_tldIns {k : Core} (ha : k.pendS f.ra.toNat = false) (hs : k.pendS f.rs.toNat = false)
    (he : ∀ r ∈ extSrc f.h f.ext, k.pendS r = false) (hf : k.free 5 [] [f.td.toNat]) : k.mustWait (tldIns f) = false :=
  Core.mustWait_of_free rfl hf nofun (by simp [tldIns, ha, hs]; exact he) rfl

/-- A TST whose word is legal, whose sources are final and whose checks find nothing enters the queue. -/
theorem tst_issuesTo {i : Instr} {faults : Core → Launch → IssueFaults} (hi : exec i s = s.tst c f faults)
    (hf : (faults (s.core c) l).first = none) (h : s.canRun c f.h l) (h1 : f.h.x = false) (h2 : f.eng = 0)
    (h3 : f.atile = 0) (h4 : f.rsv = 0) (h5 : f.mark ≠ 1) (h6 : f.scope ≠ 3) (ha : (s.core c).pendS f.ra.toNat = false)
    (hs : (s.core c).pendS f.rs.toNat = false) (hfree : (s.core c).free 5 [f.td.toNat] []) :
    s.issuesTo i c (((s.core c).past f.h).queued
      { (s.core c).job 5 (.tst f ((s.core c).treg f.td.toNat) ((s.core c).sreg f.ra.toNat).toNat
          ((s.core c).rowDist f (tdOf ((s.core c).treg f.td.toNat)))) [f.td.toNat] [] with
        release := f.mark = 2, scope := f.scope.toNat }) :=
  State.issuesTo_enqueue (hi.trans State.tst_issue) h (by simpa [tstIns, h1, h2, h3, h4] using And.intro h5 h6)
    (Core.mustWait_of_free rfl hfree nofun (by simp [tstIns, ha, hs]) rfl) hf rfl

end Tld

section Gath
variable {s : State} {c : Nat} {l : Launch} {f : GathF}

/-- What a GATH needs at issue. -/
def gathIns (f : GathF) : Ins :=
  { h := f.h, illegal := f.rsv != 0 || f.mark = 2 || f.scope = 3 || extBad f.h f.ext true
    srcS := [f.rp.toNat, f.rl.toNat] ++ extSrc f.h f.ext, reads := [f.ti.toNat], writes := [f.td.toNat], unit := some 5 }

theorem execGath_issue : exec (.gath c f) s = s.issue c (gathIns f) (gathFaults f) fun s k _ =>
    s.moveBody c k (gathIns f) f.ext
      (.gath f (k.treg f.td.toNat) (k.treg f.ti.toNat) (k.sreg f.rp.toNat).toNat (k.sreg f.rl.toNat).toNat) (f.mark = 1)
      f.scope.toNat := by
  show execGath c f s = _
  unfold execGath
  rfl

theorem gathIns_legal (h1 : f.rsv = 0) (h2 : f.mark ≠ 2) (h3 : f.scope ≠ 3) (h4 : extBad f.h f.ext true = false) :
    (gathIns f).illegal = false := by
  simpa [gathIns, h1, h4] using And.intro h2 h3

theorem Core.mustWait_gathIns {k : Core} (hp : k.pendS f.rp.toNat = false) (hl : k.pendS f.rl.toNat = false)
    (he : ∀ r ∈ extSrc f.h f.ext, k.pendS r = false) (hf : k.free 5 [f.ti.toNat] [f.td.toNat]) :
    k.mustWait (gathIns f) = false :=
  Core.mustWait_of_free rfl hf nofun (by simp [gathIns, hp, hl]; exact he) rfl

end Gath

/-! #### The forms of TST -/

theorem execTst_eq (s : State) (c : Nat) (f : TldF) : exec (.tst c f) s
    = s.tst c { f with sc := false, add := false, acc := false } (tldFaults { f with sc := false, add := false, acc := false }) := by
  show execTst c f s = _
  unfold execTst
  rfl

theorem execTstSc_eq (s : State) (c : Nat) (f : TldF) : exec (.tstSc c f) s
    = s.tst c { f with sc := true, add := false, acc := false } (tldFaults { f with sc := true, add := false, acc := false }) := by
  show execTstSc c f s = _
  unfold execTstSc
  rfl

theorem IssueFaults.first_eq_none {x : IssueFaults} : x.first = none ↔ x.engine = false ∧ x.format = false
    ∧ x.shape = false ∧ x.align = false ∧ x.bounds = false ∧ x.stack = false ∧ x.trap = false := by
  rw [IssueFaults.first]
  split_ifs <;> simp_all

/-- What a TST.ADD checks at issue (R184). -/
def tstAddFaults (g : TldF) (k : Core) (l : Launch) : IssueFaults :=
  { tldFaults g k l with
    format := !addFormat (tdOf (k.treg g.td.toNat)) || g.sc
    align := addFormat (tdOf (k.treg g.td.toNat)) && ((k.sreg g.ra.toNat).toNat % ((tdOf (k.treg g.td.toNat)).width / 8) != 0
      || k.rowDist g (tdOf (k.treg g.td.toNat)) % ((tdOf (k.treg g.td.toNat)).width / 8) != 0)
    va := (k.sreg g.ra.toNat).toNat }

theorem execTstAdd_eq (s : State) (c : Nat) (f : TldF) :
    exec (.tstAdd c f) s = s.tst c { f with add := true, acc := false } (tstAddFaults { f with add := true, acc := false }) := by
  show execTstAdd c f s = _
  unfold execTstAdd
  rfl

theorem tstAddFaults_first {g : TldF} {k : Core} {l : Launch} (h : (tldFaults g k l).first = none) (hs : g.sc = false)
    (hf : addFormat (tdOf (k.treg g.td.toNat)) = true)
    (ha : (k.sreg g.ra.toNat).toNat % ((tdOf (k.treg g.td.toNat)).width / 8) = 0)
    (hd : k.rowDist g (tdOf (k.treg g.td.toNat)) % ((tdOf (k.treg g.td.toNat)).width / 8) = 0) :
    (tstAddFaults g k l).first = none := by
  obtain ⟨h1, -, h3, -, h5, h6, h7⟩ := IssueFaults.first_eq_none.mp h
  exact IssueFaults.first_eq_none.mpr ⟨h1, by simp [tstAddFaults, hs, hf], h3, by simp [tstAddFaults, ha, hd], h5, h6, h7⟩

/-- Settles O17: TLD and GATH share `State.moveBody`, the forms of TST share `State.tst`. -/
theorem streamMoveIssue : Obligations.StreamMoveIssue := by
  refine ⟨?tld, ?gath, ?tst⟩
  case tld =>
    intro s c l f sc i hm h k d g h1 h2 h3 h4 h5 h6 h7 h8 ha hs he hfree hf
    have hx : exec i s = s.tld c g := by
      generalize hp : (sc, i) = p at hm
      fin_cases hm <;> cases hp <;> rfl
    have hi : (tldIns g).illegal = false := tldIns_legal h1 h2 h3 h4 h5 h6 h7 h8
    have hw : k.mustWait (tldIns g) = false := Core.mustWait_tldIns ha hs he hfree
    exact ⟨State.issuesTo_move (hx.trans State.tld_issue) h hi hw hf, State.issuesTo_moveLate (hx.trans State.tld_issue) h hi hw hf⟩
  case gath =>
    intro s c l f h k h1 h2 h3 h4 hp hl he hfree hf
    have hi : (gathIns f).illegal = false := gathIns_legal h1 h2 h3 h4
    have hw : k.mustWait (gathIns f) = false := Core.mustWait_gathIns hp hl he hfree
    exact ⟨State.issuesTo_move execGath_issue h hi hw hf, State.issuesTo_moveLate execGath_issue h hi hw hf⟩
  case tst =>
    intro s c l f g i hm h k d h1 h2 h3 h4 h5 h6 ha hs hfree hf hadd
    have issue {g : TldF} {i : Instr} (hg : g = { f with sc := g.sc, add := g.add, acc := g.acc })
        (e : ∃ faults, exec i s = s.tst c g faults ∧ (faults k l).first = none) :
        s.issuesTo i c ((k.past g.h).queued { k.job 5 (.tst g (k.treg g.td.toNat) (k.sreg g.ra.toNat).toNat
          (k.rowDist g (tdOf (k.treg g.td.toNat)))) [g.td.toNat] [] with release := g.mark = 2, scope := g.scope.toNat }) := by
      obtain ⟨faults, hx, hf⟩ := e
      rw [hg] at hx ⊢
      exact tst_issuesTo hx hf h h1 h2 h3 h4 h5 h6 ha hs hfree
    generalize hp : (g, i) = p at hm
    fin_cases hm <;> cases hp
    · exact issue rfl ⟨_, execTst_eq s c f, hf⟩
    · exact issue rfl ⟨_, execTstSc_eq s c f, hf⟩
    · obtain ⟨hs, hfmt, ha, hd⟩ := hadd rfl
      exact issue rfl ⟨_, execTstAdd_eq s c f, tstAddFaults_first hf hs hfmt ha hd⟩

end Sys2Proof.Machine

end


section

/-!
### ATOM, SIG and the accumulator form of TST at issue: R121, R183, R190, R191, R211, R212
-/

namespace Sys2Proof.Machine

section Atom
variable {s : State} {c : Nat} {l : Launch} {op : AtomOp} {f : AtomF}

/-- What an ATOM needs at issue. -/
def atomIns (op : AtomOp) (f : AtomF) : Ins :=
  { h := f.h, illegal := f.h.x || f.rsv != 0 || 5 ≤ f.fmt.toNat || f.scope = 3
    srcS := [f.ra.toNat, f.rb.toNat] ++ (if op = .cas then [f.rc.toNat] else []), unit := some 5 }

/-- What an ATOM checks at issue (R190). -/
def atomFaults (op : AtomOp) (f : AtomF) (k : Core) : IssueFaults :=
  { format := op != .add && 2 ≤ f.fmt.toNat, align := (k.sreg f.ra.toNat).toNat % atomBytes (atomFmt f) != 0
    va := (k.sreg f.ra.toNat).toNat }

/-- The entry of an ATOM with its register, its release and acquire, and its scope (R190, R211, R212). -/
def Job.atomic (j : Job) (f : AtomF) : Job :=
  { j with rd := if f.rd = 0 then none else some f.rd.toNat, release := 2 ≤ f.mark.toNat
           acquire := f.mark = 1 || f.mark = 3, scope := f.scope.toNat }

theorem State.atom_issue : s.atom c op f = s.issue c (atomIns op f) (fun k _ => atomFaults op f k) fun s k _ =>
    (s.enqueue c k (atomIns op f) 5
      (.atom op f (k.sreg f.ra.toNat).toNat (k.sreg f.rb.toNat).toNat (k.sreg f.rc.toNat).toNat)
      (fun j => j.atomic f)).holdAcquire c k.nextSeq (f.mark = 1 || f.mark = 3) := by
  unfold State.atom
  rfl

theorem mark_releases (m : BitVec 2) : decide (2 ≤ m.toNat) = decide (m = 2 ∨ m = 3) := by
  revert m
  decide

theorem Job.atomic_eq (j : Job) (f : AtomF) : j.atomic f =
    { j with rd := if f.rd = 0 then none else some f.rd.toNat, release := f.mark = 2 ∨ f.mark = 3
             acquire := f.mark = 1 ∨ f.mark = 3, scope := f.scope.toNat } := by
  simp only [Job.atomic, mark_releases, Bool.decide_or]

theorem atomIns_legal (h1 : f.h.x = false) (h2 : f.rsv = 0) (h3 : f.fmt.toNat < 5) (h4 : f.scope ≠ 3) :
    (atomIns op f).illegal = false := by
  simpa [atomIns, h1, h2, h3] using h4

theorem Core.mustWait_atomIns {k : Core} (ha : k.pendS f.ra.toNat = false) (hb : k.pendS f.rb.toNat = false)
    (hc : op = .cas → k.pendS f.rc.toNat = false) (hr : k.room 5 = true) : k.mustWait (atomIns op f) = false := by
  refine Core.mustWait_of_free rfl (Core.free_of_room hr) nofun ?_ rfl
  by_cases ho : op = .cas
  · simpa [atomIns, ho, ha, hb] using hc ho
  · simp [atomIns, ho, ha, hb]

theorem atomFaults_first {k : Core} (hf : op ≠ .add → f.fmt.toNat < 2) : (atomFaults op f k).first =
    if (k.sreg f.ra.toNat).toNat % atomBytes (atomFmt f) = 0 then none else some excAlign := by
  have hfmt : (atomFaults op f k).format = false := by
    simpa [atomFaults] using hf
  rw [IssueFaults.first, hfmt]
  simp [atomFaults]

end Atom

section Sig
variable {s : State} {c : Nat} {l : Launch} {add : Bool} {f : SigF}

/-- What a SIG needs at issue. -/
def sigIns (f : SigF) : Ins :=
  { h := f.h, illegal := f.h.x || f.rsv != 0 || f.mark = 1 || f.mark = 3 || f.scope = 3
    srcS := [f.ra.toNat, f.rb.toNat], unit := some 5 }

/-- What a SIG checks at issue (R191). -/
def sigFaults (f : SigF) (k : Core) : IssueFaults :=
  { align := (k.sreg f.ra.toNat).toNat % (if f.w then 8 else 4) != 0, va := (k.sreg f.ra.toNat).toNat }

theorem State.sig_issue : s.sig c add f = s.issue c (sigIns f) (fun k _ => sigFaults f k) fun s k _ =>
    s.enqueue c k (sigIns f) 5 (.sig add f (k.sreg f.ra.toNat).toNat (k.sreg f.rb.toNat).toNat)
      (fun j => { j with release := f.mark = 2, scope := f.scope.toNat }) := by
  unfold State.sig
  rfl

theorem sigIns_legal (h1 : f.h.x = false) (h2 : f.rsv = 0) (h3 : f.mark = 0 ∨ f.mark = 2) (h4 : f.scope ≠ 3) :
    (sigIns f).illegal = false := by
  obtain h3 | h3 := h3
  all_goals simpa [sigIns, h1, h2, h3] using h4

theorem Core.mustWait_sigIns {k : Core} (ha : k.pendS f.ra.toNat = false) (hb : k.pendS f.rb.toNat = false)
    (hr : k.room 5 = true) : k.mustWait (sigIns f) = false :=
  Core.mustWait_of_free rfl (Core.free_of_room hr) nofun (by simp [sigIns, ha, hb]) rfl

theorem sigFaults_first {k : Core} : (sigFaults f k).first =
    if (k.sreg f.ra.toNat).toNat % (if f.w then 8 else 4) = 0 then none else some excAlign := by
  simp [sigFaults, IssueFaults.first]

end Sig

section TstAcc
variable {s : State} {c : Nat} {l : Launch} {f : TldF}

/-- What the accumulator form of TST needs at issue. -/
def tstAccIns (f : TldF) : Ins :=
  { h := f.h, illegal := f.h.x || f.rsv != 0 || f.add || f.sc, writes := [f.td.toNat]
    unit := some f.eng.toNat, acc := some (f.eng.toNat, f.atile.toNat, false) }

/-- What the accumulator form of TST checks at issue (R183). -/
def State.tstAccFaults (s : State) (c : Nat) (f : TldF) (k : Core) (l : Launch) : IssueFaults :=
  let t := tdOf (k.treg f.td.toNat)
  { engine := !s.engineOk c l.twin f.eng.toNat, format := t.fmt != 9 && t.fmt != 10
    shape := t.badShape || 32 < t.rows || 32 < t.elems, bounds := !t.fits }

theorem execTstAcc_issue : exec (.tstAcc c f) s = s.issue c (tstAccIns f) (s.tstAccFaults c f) fun s k _ =>
    s.enqueue c k (tstAccIns f) f.eng.toNat (.readout f (k.treg f.td.toNat)) id := by
  show execTstAcc c f s = _
  unfold execTstAcc
  rfl

theorem Core.mustWait_tstAccIns {k : Core} (hf : k.free f.eng.toNat [] [f.td.toNat])
    (ha : k.accHold f.eng.toNat f.atile.toNat false = false) : k.mustWait (tstAccIns f) = false := by
  refine Core.mustWait_of_free rfl hf (fun e a b h => ?_) nofun rfl
  cases h
  exact ha

theorem State.tstAccFaults_first {k : Core} (h1 : s.engineOk c l.twin f.eng.toNat = true)
    (h2 : (tdOf (k.treg f.td.toNat)).fmt = 9 ∨ (tdOf (k.treg f.td.toNat)).fmt = 10)
    (h3 : (tdOf (k.treg f.td.toNat)).badShape = false) (h4 : (tdOf (k.treg f.td.toNat)).rows ≤ 32)
    (h5 : (tdOf (k.treg f.td.toNat)).elems ≤ 32) (h6 : (tdOf (k.treg f.td.toNat)).fits = true) :
    (s.tstAccFaults c f k l).first = none := by
  have hfmt : (s.tstAccFaults c f k l).format = false := by
    obtain h2 | h2 := h2 <;> simp [State.tstAccFaults, h2]
  refine IssueFaults.first_eq_none.mpr ⟨?_, hfmt, ?_, rfl, ?_, rfl, rfl⟩
  all_goals simp [State.tstAccFaults, h1, h3, h4, h5, h6]

end TstAcc

/-- Settles O18. -/
theorem atomSigIssue : Obligations.AtomSigIssue := by
  refine ⟨?atom, ?sig, ?tstAcc⟩
  case atom =>
    intro s c l f op i hm h k a h1 h2 h3 h4 ha hb hc hr hf
    have ho : exec i s = s.atom c op f := by
      generalize hp : (op, i) = p at hm
      fin_cases hm <;> cases hp <;> rfl
    have hx := ho.trans State.atom_issue
    have hi : (atomIns op f).illegal = false := atomIns_legal h1 h2 h3 h4
    have hw : k.mustWait (atomIns op f) = false := Core.mustWait_atomIns ha hb hc hr
    refine ⟨fun hal => ?_, fun hal => ?_⟩
    · have e := State.issuesTo_acquire (g := fun j => j.atomic f) hx h hi hw ((atomFaults_first hf).trans (if_pos hal)) rfl rfl
      rwa [Job.atomic_eq] at e
    · exact State.raises_align hx h hi hw ((atomFaults_first hf).trans (if_neg hal))
  case sig =>
    intro s c l f add i hm h k a h1 h2 h3 h4 ha hb hr
    have ho : exec i s = s.sig c add f := by
      generalize hp : (add, i) = p at hm
      fin_cases hm <;> cases hp <;> rfl
    have hx := ho.trans State.sig_issue
    have hi : (sigIns f).illegal = false := sigIns_legal h1 h2 h3 h4
    have hw : k.mustWait (sigIns f) = false := Core.mustWait_sigIns ha hb hr
    refine ⟨fun hal => ?_, fun hal => ?_⟩
    · exact State.issuesTo_enqueue hx h hi hw (sigFaults_first.trans (if_pos hal)) rfl
    · exact State.raises_align hx h hi hw (sigFaults_first.trans (if_neg hal))
  case tstAcc =>
    intro s c l f h k t h1 h2 h3 h4 hfree ha he hfmt hshape hrows helems hfits
    exact State.issuesTo_enqueue execTstAcc_issue h (by simp [tstAccIns, h1, h2, h3, h4]) (Core.mustWait_tstAccIns hfree ha)
      (State.tstAccFaults_first he hfmt hshape hrows helems hfits) rfl

end Sys2Proof.Machine

end

section

/-!
### SYNC and WAITV at issue: R186, R192, R193, R216
-/

namespace Sys2Proof.Machine

/-! #### SYNC -/

/-- The core whose issue a fence halts (R193). -/
def Core.fenced (k : Core) (scope sp : Nat) : Core := { k with block := .fence scope sp, syncTimeout := false }

section Sync
variable {s : State} {c : Nat} {f : SyncF}

theorem execSyncFence_issue : exec (.syncFence c f) s
    = s.issue c { h := f.h, illegal := f.h.x || f.rsv != 0 || f.scope = 3 } (fun _ _ => {}) fun s _ _ =>
      s.modCore c (fun k => k.fenced f.scope.toNat f.sp.toNat) := rfl

theorem execSyncBar_issue : exec (.syncBar c f) s
    = s.issue c { h := f.h, illegal := f.h.x || f.rsv != 0 || f.scope != 1, srcS := [f.rn.toNat] } (fun _ _ => {}) fun s k _ =>
      s.modCore c (fun x => { x with block := .bar f.bid.toNat (k.sreg f.rn.toNat).toNat f.sp.toNat, syncTimeout := false }) :=
  rfl

/-- A fence of scope CORE on a core with nothing in flight completes at once (R193, R216). -/
theorem State.after_of_fence {k : Core} {sp : Nat} (hk : s.core c = k) (h : k.noneInFlight) (hb : k.block = .fence 0 sp)
    (hd : s.noneDrains) : (s.after c).core c = k.endSync sp := by
  subst hk
  obtain ⟨u, hu, hdu, e⟩ := State.settle_of_noneInFlight 8 h
  have hk : u.core c = s.core c := hu.2 c
  have hun : u.unblock c = u.setCore c ((u.core c).endSync sp) := by
    simp [State.unblock, hk, hb, h.1, State.writesDone, h.2]
  have hdrain : u.noneDrains := hdu hd (by simp [hb])
  rw [State.after, e, hun, State.sweep_of_noneDrains (State.noneDrains_setCore hdrain (by simp [Core.endSync])),
    State.core_setCore_same, hk]

end Sync

/-! #### WAITV -/

section Waitv
variable {s : State} {c : Nat} {l : Launch} {f : WaitvF}

/-- What a WAITV needs at issue. -/
def waitvIns (f : WaitvF) : Ins :=
  { h := f.h
    illegal := f.rsv != 0 || 6 ≤ f.cond.toNat || f.mark = 2 || f.mark = 3 || f.scope = 3 || extBad f.h f.ext false
    srcS := [f.ra.toNat, f.rb.toNat] ++ extSrc f.h f.ext }

/-- What a WAITV checks at issue (R192). -/
def waitvFaults (f : WaitvF) (k : Core) : IssueFaults :=
  { align := (k.sreg f.ra.toNat).toNat % (waitvBits f / 8) != 0, va := (k.sreg f.ra.toNat).toNat }

theorem execWaitv_issue : exec (.waitv c f) s = s.issue c (waitvIns f) (fun k _ => waitvFaults f k) fun s k l =>
    if s.latePast k f.h f.ext then s.lateWaitv c f
    else s.waitvLook c f (k.sreg f.ra.toNat).toNat k.pc.toNat (s.deadlineOf k f.h f.ext) l := by
  show execWaitv c f s = _
  unfold execWaitv
  rfl

theorem waitvIns_legal (h1 : f.rsv = 0) (h2 : f.cond.toNat < 6) (h3 : f.mark.toNat < 2) (h4 : f.scope ≠ 3)
    (h5 : extBad f.h f.ext false = false) : (waitvIns f).illegal = false := by
  have m2 : f.mark ≠ 2 := by rintro h; simp [h] at h3
  have m3 : f.mark ≠ 3 := by rintro h; simp [h] at h3
  simpa [waitvIns, h1, h2, h5] using And.intro (And.intro m2 m3) h4

theorem Core.mustWait_waitvIns {k : Core} (ha : k.pendS f.ra.toNat = false) (hb : k.pendS f.rb.toNat = false)
    (he : ∀ r ∈ extSrc f.h f.ext, k.pendS r = false) : k.mustWait (waitvIns f) = false :=
  Core.mustWait_of_sources rfl rfl rfl rfl (by simp [waitvIns, ha, hb]; exact he) nofun

theorem waitvFaults_first {k : Core} : (waitvFaults f k).first =
    if (k.sreg f.ra.toNat).toNat % (waitvBits f / 8) = 0 then none else some excAlign := by
  simp [waitvFaults, IssueFaults.first]

end Waitv

/-- Settles O19. -/
theorem waitIssue : Obligations.WaitIssue := by
  refine ⟨?sync, ?waitv⟩
  case sync =>
    intro s c l f h hx hr k
    obtain ⟨-, -, hb, -⟩ := h.1
    have hi (hs : f.scope ≠ 3) : (f.h.x || f.rsv != 0 || f.scope = 3) = false := by simpa [hx, hr] using hs
    have hw : k.mustWait { h := f.h, illegal := f.h.x || f.rsv != 0 || f.scope = 3 } = false :=
      Core.mustWait_of_sources rfl rfl rfl rfl nofun nofun
    refine ⟨fun hs => State.issuesTo_modCore execSyncFence_issue h (hi hs) hw IssueFaults.first_empty,
      fun hs hj hwr hd => ?_, fun hs hn => ?_, fun hs => ?_⟩
    · have hx := execSyncFence_issue.trans (State.issue_runs _ _ _ h (hi (by rw [hs]; decide)) hw IssueFaults.first_empty)
      have hpast : (k.past f.h).block ≠ .draining := fun e => Block.noConfusion (hb.symm.trans e)
      have hk := State.modCore_setCore_core s c (k.past f.h) fun k => k.fenced f.scope.toNat f.sp.toNat
      have hdrain : ((s.setCore c (k.past f.h)).modCore c fun k => k.fenced f.scope.toNat f.sp.toNat).noneDrains :=
        State.noneDrains_setCore (State.noneDrains_setCore hd hpast) (by simp [Core.fenced])
      have e := State.after_of_fence (sp := f.sp.toNat) hk ⟨hj, hwr⟩ (by rw [Core.fenced, hs]; rfl) hdrain
      refine ⟨_, hx, by rw [e]; rfl, fun hsp => ?_⟩
      have hp : f.sp.toNat ≠ 0 := by simpa [BitVec.toNat_eq] using hsp
      rw [e]
      exact (Core.preg_setP _ _ f.sp.isLt hp).trans (if_pos rfl)
    · exact State.issuesTo_modCore execSyncBar_issue h (by simp [hx, hr, hs])
        (Core.mustWait_of_sources rfl rfl rfl rfl (by simpa using hn) nofun) IssueFaults.first_empty
    · exact State.issue_illegal execSyncBar_issue h.1 (by simpa [hx, hr] using .inl hs)
  case waitv =>
    intro s c l f h h1 h2 h3 h4 h5 k va ha hb he
    have hi : (waitvIns f).illegal = false := waitvIns_legal h1 h2 h3 h4 h5
    have hw : k.mustWait (waitvIns f) = false := Core.mustWait_waitvIns ha hb he
    refine ⟨fun hal => ?_, fun hal hlate => ?_, fun hal hlate => ?_⟩
    · exact State.raises_align execWaitv_issue h hi hw (waitvFaults_first.trans (if_neg hal))
    · refine State.issuesTo_of _ (waitvIns f) _ _ execWaitv_issue h hi hw (waitvFaults_first.trans (if_pos hal)) ?_ ?_
      all_goals rw [State.latePast_setCore, if_pos hlate]
      · exact State.modCore_setCore_core ..
      · exact State.onlyCore_setCore_modCore ..
    · rw [execWaitv_issue, State.issue_runs (waitvIns f) _ _ h hi hw (waitvFaults_first.trans (if_pos hal)),
        State.latePast_setCore, if_neg (Bool.not_eq_true _ ▸ hlate)]
      rfl

end Sys2Proof.Machine

end

section

/-!
### The start of a launch: R144, R156
-/

namespace Sys2Proof.Machine

/-! #### Registers loaded from lists -/

/-- A list loaded into consecutive registers reads back, and the others keep what they held. -/
theorem getD_foldl_setD {β : Type} [DecidableEq β] (z : Nat → β) (vs : List β) (a k : Nat) (t : Tbl β) :
    ((vs.zip (upFrom a vs.length)).foldl (fun t p => t.setD z p.2 p.1) t).getD z k
      = if a ≤ k then vs.getD (k - a) (t.getD z k) else t.getD z k := by
  induction vs generalizing a t with
  | nil => simp [upFrom]
  | cons v vs ih =>
    simp only [List.length_cons, upFrom, List.zip_cons_cons, List.foldl_cons]
    rw [ih]
    obtain h | rfl | h := Nat.lt_trichotomy a k
    · obtain ⟨i, rfl⟩ := Nat.exists_eq_add_of_lt h
      rw [if_pos (by omega), if_pos (by omega), Tbl.getD_setD_other _ _ _ _ _ (by omega)]
      simp [show a + i + 1 - (a + 1) = i by omega, show a + i + 1 - a = i + 1 by omega]
    · rw [if_neg (by omega), if_pos (le_refl a), Tbl.getD_setD_same]
      simp
    · rw [if_neg (by omega), if_neg (by omega), Tbl.getD_setD_other _ _ _ _ _ (by omega)]

/-! #### Launches that wait -/

/-- A core for which no launch waits takes none into its staged slots. -/
theorem State.fillSlots_of_noneWaits {s : State} {c : Nat} (h : ∀ o ∈ s.work.ops, ∀ w ∈ o.waitSlot, w.1 ≠ c) :
    s.fillSlots c = s := by
  have hnone : s.work.ops.find? (fun o => !s.hangHolds c o.ctx && o.waitSlot.any (fun w => w.1 == c)) = none := by
    refine List.find?_eq_none.mpr fun o ho => ?_
    have hw : o.waitSlot.any (fun w => w.1 == c) = false := by simpa using fun w x hw => h o ho (w, x) hw
    simp [hw]
  rw [State.fillSlots, hnone]
  exact ite_self s

theorem State.noneWaits_modOp {s : State} {c u : Nat} {f : Op → Op} (hf : ∀ o, (f o).waitSlot = o.waitSlot)
    (h : ∀ o ∈ s.work.ops, ∀ w ∈ o.waitSlot, w.1 ≠ c) : ∀ o ∈ (s.modOp u f).work.ops, ∀ w ∈ o.waitSlot, w.1 ≠ c := by
  intro o ho
  obtain ⟨p, hp, rfl⟩ := List.mem_map.mp ho
  split
  · rw [hf]
    exact h p hp
  · exact h p hp

theorem State.wakeForLaunch_work (s : State) (c : Nat) : (s.wakeForLaunch c).work = s.work := by
  have htrim (u : State) : u.trimCheck.work = u.work := by
    rw [State.trimCheck]
    split
    · rw [State.setRegBit, State.setReg, State.withRegs_work]
    · rfl
  have hwake : (s.wakeCore c).work = s.work := by
    rw [State.wakeCore]
    split
    · rw [htrim, State.withPower_work, State.scrClear, State.withMem_work]
    · rfl
  rw [State.wakeForLaunch, State.withPower_work, hwake]

theorem State.wakeForLaunch_cores (s : State) (c : Nat) : (s.wakeForLaunch c).cores = s.cores := by
  rw [State.wakeForLaunch, State.withPower_cores, State.wakeCore_cores]

/-! #### The core as its launch starts -/

section Begin
variable (k : Core) {g : Staged} (twin : Bool) (draw : Nat)

theorem Core.begin_s (h : g.args.length = 15) (r : Nat) :
    (k.begin g twin draw).s.getD (fun _ => 0) r = if 1 ≤ r then g.args.getD (r - 1) 0 else 0 := by
  have e := getD_foldl_setD (fun _ => (0 : Word)) g.args 1 r []
  rwa [h] at e

theorem Core.begin_sreg (h : g.args.length = 15) {r : Nat} (hr : 1 ≤ r) :
    (k.begin g twin draw).sreg r = g.args.getD (r - 1) 0 := by
  rw [Core.sreg, if_neg (by omega), Core.begin_s k twin draw h, if_pos hr]

theorem Core.begin_treg (h : g.tds.length = 16) (n : Nat) : (k.begin g twin draw).treg n = g.tds.getD n 0 := by
  have e := getD_foldl_setD (fun _ => (0 : BitVec 128)) g.tds 0 n []
  rwa [h, if_pos (Nat.zero_le n)] at e

end Begin

/-- The state in which the oldest staged launch has started on core `c` (R144, R156). -/
def State.launched (s : State) (c : Nat) (g : Staged) (rest : List Staged) : State :=
  ((s.wakeForLaunch c).draw.1.modCore c fun k =>
      { k.begin g (bitOf (s.regN (rFe (c / 32) 0x800)) (c % 32)) (s.wakeForLaunch c).fresh with staged := rest }).modOp
    g.launch.uid fun o => { o with start := if o.start.isNone then some ((s.wakeForLaunch c).now) else o.start }

theorem execLaunchStart_eq {s : State} {c : Nat} {g : Staged} {rest : List Staged} (hp : s.running)
    (hs : (s.core c).staged = g :: rest) (hw : ∀ o ∈ s.work.ops, ∀ w ∈ o.waitSlot, w.1 ≠ c) (hf : s.coreFree c = true)
    (hh : s.hangHolds c g.launch.ctx = false) (hr : s.rowsDone g.launch.uid = true) :
    exec (.launchStart c) s = .next (s.launched c g rest) := by
  have hw' : ∀ o ∈ (s.launched c g rest).work.ops, ∀ w ∈ o.waitSlot, w.1 ≠ c :=
    State.noneWaits_modOp (fun _ => rfl) (by
      show ∀ o ∈ (s.wakeForLaunch c).work.ops, _
      rw [State.wakeForLaunch_work]
      exact hw)
  show execLaunchStart c s = _
  rw [execLaunchStart, whenPowered_running hp]
  simp only [State.fillSlots_of_noneWaits hw, hs, hf, hh, hr, Bool.not_false, Bool.and_self, whenIt_true, Act.out_next]
  exact congrArg Host.Outcome.next (State.fillSlots_of_noneWaits hw')

/-- Settles O25. -/
theorem launchStartRegisters : Obligations.LaunchStartRegisters := by
  intro s c g rest hp hs hw hf hh hr hargs htds
  have hcores (d : Nat) : (s.wakeForLaunch c).draw.1.core d = s.core d :=
    State.core_of_cores _ _ (State.wakeForLaunch_cores s c) d
  obtain ⟨twin, draw, hk⟩ : ∃ twin draw, (s.launched c g rest).core c = { (s.core c).begin g twin draw with staged := rest } := by
    refine ⟨bitOf (s.regN (rFe (c / 32) 0x800)) (c % 32), (s.wakeForLaunch c).fresh, ?_⟩
    rw [State.launched, State.core_of_cores _ _ (State.modOp_cores ..), State.core_modCore_same, hcores]
  have hsreg (r : Nat) (h1 : 1 ≤ r) : ((s.launched c g rest).core c).sreg r = g.args.getD (r - 1) 0 := by
    rw [hk]
    exact Core.begin_sreg (s.core c) twin draw hargs h1
  refine ⟨_, execLaunchStart_eq hp hs hw hf hh hr, by rw [hk], by rw [hk]; rfl, fun r h1 h2 => ?_, fun n hn => ?_,
    fun r h1 h2 => ?_, fun p h1 h2 => ?_, by rw [hk]; rfl, by rw [hk]; rfl, by rw [hk]; rfl, by rw [hk]; rfl, fun d hd => ?_,
    fun hg => ?_⟩
  · rw [hsreg r h1, List.getD_eq_getElem _ _ (by omega), List.getElem?_eq_getElem (by omega)]
  · have ht : ((s.launched c g rest).core c).treg n = g.tds.getD n 0 := by
      rw [hk]
      exact Core.begin_treg (s.core c) twin draw htds n
    rw [ht, List.getD_eq_getElem _ _ (by omega), List.getElem?_eq_getElem (by omega)]
  · rw [hsreg r (by omega), List.getD_eq_default _ _ (by omega)]
  · rw [hk]
    simp [Core.preg, Core.begin]
    omega
  · rw [State.launched, State.core_of_cores _ _ (State.modOp_cores ..), State.modCore, State.core_setCore_other _ _ _ _ hd, hcores]
  · show (s.wakeForLaunch c).mem = s.mem
    rw [State.wakeForLaunch, State.withPower_mem, State.wakeCore_of_awake c hg]

end Sys2Proof.Machine

end

section

/-!
### Tile rows written by the vector unit and by readouts: R159, R176, R183
-/

namespace Sys2Proof.Machine

/-! #### Numbers as bytes and elements -/

theorem ofBytes_toBytes (n v : Nat) : ofBytes (toBytes n v) = v % 2 ^ (8 * n) := by
  induction n generalizing v with
  | zero => simp [toBytes, ofBytes, Nat.mod_one]
  | succ n ih =>
    rw [toBytes, ofBytes, ih, BitVec.toNat_ofNat, show 8 * (n + 1) = 8 + 8 * n by omega, Nat.pow_add, Nat.mod_mul]

/-- Elements packed densely are found again (R159). -/
theorem elemAt_packElems (w : Nat) (es : List Nat) (k : Nat) : elemAt w (packElems w es) k = es.getD k 0 % 2 ^ w := by
  induction es generalizing k with
  | nil => simp [elemAt, packElems]
  | cons e es ih =>
    cases k with
    | zero => simp [elemAt, packElems]
    | succ k =>
      rw [List.getD_cons_succ, ← ih k, elemAt, elemAt, packElems, Nat.succ_mul, Nat.add_comm (k * w) w, Nat.pow_add,
        ← Nat.div_div_eq_div_mul, Nat.add_mul_div_left _ _ (Nat.two_pow_pos w),
        Nat.div_eq_of_lt (Nat.mod_lt _ (Nat.two_pow_pos w)), Nat.zero_add]

/-- An element depends on the bits below its end alone. -/
theorem elemAt_mod {w k n : Nat} (v : Nat) (h : k * w + w ≤ n) : elemAt w (v % 2 ^ n) k = elemAt w v k := by
  rw [elemAt, elemAt, show n = k * w + (n - k * w) by omega, Nat.pow_add, Nat.mod_mul_right_div_self,
    Nat.mod_mod_of_dvd _ (Nat.pow_dvd_pow 2 (by omega))]

theorem elemAt_add_mul {w k n : Nat} (v x : Nat) (h : k * w + w ≤ n) : elemAt w (v + x * 2 ^ n) k = elemAt w v k := by
  rw [← elemAt_mod (v + x * 2 ^ n) h, Nat.add_mul_mod_self_right, elemAt_mod v h]

/-! #### Rows of a tile -/

section Rows
variable (s : State) (c : Nat) (t : Td)

/-- What the bits of a row beyond its last element hold, as a multiple of the place they begin at (R159). -/
def State.rowPad (s : State) (t : Td) (r : Nat) : Nat :=
  if t.elems * t.width % 8 = 0 then 0
  else (Config.freeByte s.fresh (t.base + r * t.stride)).toNat % 2 ^ (8 - t.elems * t.width % 8)

/-- The bytes of a row that holds elements `es`. -/
def State.rowImage (s : State) (t : Td) (r : Nat) (es : List Nat) : List Byte :=
  toBytes t.rowBytes (packElems t.width es + s.rowPad t r * 2 ^ (t.elems * t.width))

/-- A row of a tile is written at its place, with a draw for the bits beyond its last element. -/
theorem State.putRow_eq (r : Nat) (es : List Nat) : ∃ n, s.putRow c t r es
    = (s.withFresh n).scrWrite c (t.base + r * t.stride) (s.rowImage t r es) := by
  rw [State.rowImage, State.rowPad]
  by_cases h : t.elems * t.width % 8 = 0
  · refine ⟨s.fresh, ?_⟩
    simp only [State.putRow, h, if_true, Nat.zero_mul]
    rfl
  · refine ⟨s.fresh + 1, ?_⟩
    simp only [State.putRow, h, if_false]
    rfl

theorem State.rowImage_length (r : Nat) (es : List Nat) : (s.rowImage t r es).length = t.rowBytes := length_toBytes ..

/-- The elements of a row's bytes are those it was made of. -/
theorem State.elemAt_rowImage (r : Nat) (es : List Nat) {y : Nat} (hy : y < t.elems) :
    elemAt t.width (ofBytes (s.rowImage t r es)) y = es.getD y 0 % 2 ^ t.width := by
  have hend : y * t.width + t.width ≤ t.elems * t.width := by
    rw [← Nat.succ_mul]
    exact Nat.mul_le_mul_right _ hy
  have hbytes : t.elems * t.width ≤ 8 * t.rowBytes := by
    rw [Td.rowBytes]
    omega
  rw [State.rowImage, ofBytes_toBytes, elemAt_mod _ (hend.trans hbytes), elemAt_add_mul _ _ hend, elemAt_packElems]

theorem State.putRow_cores (r : Nat) (es : List Nat) : (s.putRow c t r es).cores = s.cores := by
  obtain ⟨n, e⟩ := State.putRow_eq s c t r es
  rw [e, State.scrWrite_cores, State.withFresh_cores]

theorem State.putRows_cores (r : Nat) (rows : List (List Nat)) : (s.putRows c t r rows).cores = s.cores := by
  induction rows generalizing s r with
  | nil => rfl
  | cons es rows ih => rw [State.putRows, ih, State.putRow_cores]

theorem State.putScales_cores (r : Nat) (rows : List (List Nat)) : (s.putScales c t r rows).cores = s.cores := by
  induction rows generalizing s r with
  | nil => rfl
  | cons bs rows ih => rw [State.putScales, ih, State.scrWrite_cores]

/-- A byte outside a range of the window of core `c`. -/
def outsideRange (c x o n : Nat) : Prop := localPart x < windowBase c + o ∨ windowBase c + o + n ≤ localPart x

theorem State.putRow_rawByte_other (r : Nat) (es : List Nat) {x : Nat}
    (h : outsideRange c x (t.base + r * t.stride) t.rowBytes) : (s.putRow c t r es).rawByte x = s.rawByte x := by
  obtain ⟨n, e⟩ := State.putRow_eq s c t r es
  rw [e, State.scrWrite_rawByte_other _ _ _ _ _ (by rw [State.rowImage_length]; exact h)]
  rfl

theorem State.putRows_rawByte_other (r : Nat) (rows : List (List Nat)) {x : Nat}
    (h : ∀ q, r ≤ q → q < r + rows.length → outsideRange c x (t.base + q * t.stride) t.rowBytes) :
    (s.putRows c t r rows).rawByte x = s.rawByte x := by
  induction rows generalizing s r with
  | nil => rfl
  | cons es rows ih =>
    rw [State.putRows, ih _ _ fun q h1 h2 => h q (by omega) (by simp only [List.length_cons]; omega),
      State.putRow_rawByte_other _ _ _ _ _ (h r (le_refl r) (by simp))]

theorem State.putScales_rawByte_other (r : Nat) (rows : List (List Nat)) {x : Nat}
    (h : ∀ q bs, rows[q]? = some bs → outsideRange c x (t.sbase + (r + q) * t.sstride) bs.length) :
    (s.putScales c t r rows).rawByte x = s.rawByte x := by
  induction rows generalizing s r with
  | nil => rfl
  | cons bs rows ih =>
    rw [State.putScales, ih _ _ fun q bs hq => ?later,
      State.scrWrite_rawByte_other _ _ _ _ _ (by simpa [outsideRange] using h 0 bs rfl)]
    case later => simpa only [Nat.add_assoc, Nat.add_comm 1 q] using h (q + 1) bs hq

end Rows

/-! #### Rows read back -/

section ReadBack
variable {s : State} {c : Nat} {t : Td}

theorem mem_scrRange {c x o n : Nat} (hc : c < 128) (hx : x ∈ upFrom (windowBase c + o) n) (ho : o + n ≤ 0x400000) :
    localPart x = x ∧ windowBase c + o ≤ x ∧ x < windowBase c + o + n := by
  have h := mem_upFrom.mp hx
  refine ⟨?_, h⟩
  simp only [localPart, windowBase] at h ⊢
  omega

theorem State.scrRead_congr_bytes {u v : State} {o n : Nat} (h : ∀ x ∈ upFrom (windowBase c + o) n, u.rawByte x = v.rawByte x) :
    u.scrRead c o n = v.scrRead c o n := List.map_congr_left h

/-- A row of a tile that lies in the scratchpad ends within it. -/
theorem Td.row_fits (hf : t.fits = true) {r : Nat} (hr : r < t.rows) :
    t.rowBytes = 0 ∨ t.base + r * t.stride + t.rowBytes ≤ 0x400000 := by
  have hle : r * t.stride ≤ (t.rows - 1) * t.stride := Nat.mul_le_mul_right _ (by omega)
  simp only [Td.fits, rowsFit, Bool.or_eq_true, decide_eq_true_eq] at hf
  rw [scratchSize] at hf
  omega

theorem State.scrRead_zero (s : State) (c o : Nat) : s.scrRead c o 0 = [] := rfl

/-- The bytes of a row after a list of rows is written from row `a` on. -/
theorem State.scrRead_putRows (hc : c < 128) (hf : t.fits = true) (hs : t.rowBytes ≤ t.stride) {r a : Nat} (hr : r < t.rows)
    {rows : List (List Nat)} {es : List Nat} (har : a ≤ r) (he : rows[r - a]? = some es) : ∃ u : State,
    (s.putRows c t a rows).scrRead c (t.base + r * t.stride) t.rowBytes = u.rowImage t r es := by
  obtain h0 | hend := Td.row_fits hf hr
  · refine ⟨s, ?_⟩
    rw [State.rowImage, h0, State.scrRead_zero]
    rfl
  induction rows generalizing s a with
  | nil => simp at he
  | cons fs rows ih =>
    rw [State.putRows]
    obtain rfl | hlt := Nat.eq_or_lt_of_le har
    · have hes : fs = es := by simpa using he
      subst hes
      obtain ⟨n, e⟩ := State.putRow_eq s c t a fs
      refine ⟨s, ?_⟩
      rw [State.scrRead_congr_bytes (v := s.putRow c t a fs), e]
      · have hrd := State.scrRead_scrWrite (s.withFresh n) hc (o := t.base + a * t.stride) (s.rowImage t a fs)
          (by rw [State.rowImage_length]; exact hend)
        rwa [State.rowImage_length] at hrd
      · intro x hx
        obtain ⟨hl, h1, h2⟩ := mem_scrRange hc hx hend
        refine State.putRows_rawByte_other _ c t (a + 1) rows fun q hq _ => .inl ?_
        have hm : (a + 1) * t.stride ≤ q * t.stride := Nat.mul_le_mul_right _ hq
        rw [Nat.succ_mul] at hm
        omega
    · have hrow : rows[r - (a + 1)]? = some es := by
        rwa [show r - a = r - (a + 1) + 1 by omega, List.getElem?_cons_succ] at he
      exact ih hlt hrow

/-- Row `r` holds the elements written when its bytes are those of the row. -/
theorem State.tileElems_of_rowImage {u : State} {r : Nat} {es : List Nat}
    (h : s.scrRead c (t.base + r * t.stride) t.rowBytes = u.rowImage t r es) :
    s.tileElems c t r = (upFrom 0 t.elems).map (fun y => es.getD y 0 % 2 ^ t.width) := by
  simp only [State.tileElems, State.tileRow, h]
  refine List.map_congr_left fun y hy => ?_
  exact State.elemAt_rowImage u t r es (by simpa using (mem_upFrom.mp hy).2)

end ReadBack

/-! #### An instruction that has written its rows leaves its unit -/

section Finish
variable (s : State) (c : Nat) (j : Job) (late : Bool)

/-- Nothing changes but a core's list of the writes it has performed (R198). -/
def State.notesOnly (s t : State) (c : Nat) : Prop := t.mem = s.mem ∧ ∀ w, { t.core c with wrote := w } = { s.core c with wrote := w }

theorem State.notesOnly_foldl {α : Type} (g : State → α → State) (hg : ∀ u x, State.notesOnly u (g u x) c) (l : List α) :
    s.notesOnly (l.foldl g s) c := by
  induction l generalizing s with
  | nil => exact ⟨rfl, fun _ => rfl⟩
  | cons x l ih =>
    obtain ⟨hm, hk⟩ := hg s x
    obtain ⟨ihm, ihk⟩ := ih (g s x)
    exact ⟨ihm.trans hm, fun w => (ihk w).trans (hk w)⟩

/-- The notes of a finished instruction's destination. -/
def State.noteRows (s : State) (c : Nat) (j : Job) : State :=
  j.kind.dest.foldl (fun (s : State) d => (upFrom 0 d.2.2.1).foldl (fun (s : State) r =>
    s.noteWrote c j.seq (windowBase c + d.1 + r * d.2.1) d.2.2.2) s) s

theorem State.notesOnly_noteRows : s.notesOnly (s.noteRows c j) c :=
  State.notesOnly_foldl s c _ (fun u _ => State.notesOnly_foldl u c _
    (fun _ _ => ⟨State.noteWrote_mem .., fun w => State.noteWrote_core _ _ _ _ _ w⟩) _) _

theorem State.finishJob_mem : (s.finishJob c j late).mem = s.mem := (State.notesOnly_noteRows s c j).1

theorem Core.setP_jobs (k : Core) (p : Nat) (b : Bool) : (k.setP p b).jobs = k.jobs := by
  rw [Core.setP]
  split <;> rfl

theorem State.finishJob_jobs_of_any :
    ((s.finishJob c j late).core c).jobs = (s.core c).jobs.filter (fun x => x.seq != j.seq) := by
  have hk := congrArg Core.jobs ((State.notesOnly_noteRows s c j).2 [])
  have hj : ((s.noteRows c j).core c).jobs = (s.core c).jobs := hk
  rw [← hj]
  simp only [State.finishJob, State.core_modCore_same]
  cases j.lp with
  | none => rfl
  | some p => exact congrArg (List.filter _) (Core.setP_jobs _ p late)

end Finish

/-- Where the vector unit's oldest running instruction meets no uncorrectable word and no fault has overtaken it, it writes its
rows and leaves the unit. -/
theorem execVopFinish_clean {s : State} {c op : Nat} {j : Job} {f : VopF} {d a b t : BitVec 128} {rs st : Word} (h : s.running)
    (hj : (s.core c).jobs.find? (fun j => j.unit == 4 && j.begun) = some j) (hk : j.kind = .vop op f d a b t rs st)
    (ht : j.tainted = false) (hb : s.vopBad c op f (tdOf d) (tdOf a) (tdOf b) (tdOf t) = none) :
    exec (.vopFinish c) s = .next (((((s.putRows c (tdOf d) 0
        (s.vopRows c op f (tdOf d) (tdOf a) (tdOf b) (tdOf t) rs st).1).putScales c (tdOf d) 0
        (s.vopRows c op f (tdOf d) (tdOf a) (tdOf b) (tdOf t) rs st).2).finishJob c j false).after c)) := by
  show execVopFinish c s = _
  rw [execVopFinish, whenPowered_running h, hj, withSome_some]
  simp only [hk, hb, ht, Bool.false_eq_true, if_false, Act.out_next]

theorem execReadoutComplete_clean {s : State} {c eng : Nat} {j : Job} {f : TldF} {d : BitVec 128} (h : s.running)
    (hj : (s.core c).onEngine eng true = some j) (hk : j.kind = .readout f d) (ht : j.tainted = false) :
    exec (.readoutComplete c eng none) s
      = .next (((s.putRows c (tdOf d) 0 ((s.core c).readoutRows f (tdOf d))).finishJob c j false).after c) := by
  show execReadoutComplete c eng none s = _
  rw [execReadoutComplete, whenPowered_running h, hj, withSome_some]
  simp only [hk, ht, Bool.false_eq_true, if_false, Act.out_next]

theorem getElem?_map_upFrom {α : Type} (g : Nat → α) {n r : Nat} (h : r < n) : ((upFrom 0 n).map g)[r]? = some (g r) := by
  rw [List.getElem?_map, List.getElem?_eq_getElem (by rwa [length_upFrom]), getElem_upFrom, Nat.zero_add]
  rfl

theorem getD_map_upFrom {α : Type} (g : Nat → α) (z : α) {n r : Nat} (h : r < n) : ((upFrom 0 n).map g).getD r z = g r := by
  rw [List.getD_eq_getElem?_getD, getElem?_map_upFrom g h, Option.getD_some]

/-- The tiles of 32-bit words that readouts and reductions write have elements of 32 bits (R183). -/
theorem Td.width_word {t : Td} (h : t.fmt = 9 ∨ t.fmt = 10) : t.width = 32 := by
  obtain h | h := h <;> rw [Td.width, Td.format, h] <;> rfl

/-- Settles O21: rows read back by `State.scrRead_putRows`, and bytes outside them stay by `State.putRows_rawByte_other`. -/
theorem tileResultsWritten : Obligations.TileResultsWritten := by
  refine ⟨?vop, ?readout⟩
  case vop =>
    intro s c j op f d a b t rs st h hj hk ht hb out w
    have hcores : w.cores = s.cores := by rw [State.putScales_cores, State.putRows_cores]
    have hregs : s.sameRegs (w.finishJob c j false) :=
      State.sameRegs_trans (State.sameRegs_cores (State.sameRegs_refl s) hcores) (State.finishJob_sameRegs w c j false)
    refine ⟨execVopFinish_clean h hj hk ht hb, State.finishJob_mem .., hregs, State.settles_self _ c, ?_, ?_, ?_⟩
    · rw [State.finishJob_jobs_of_any, State.core_of_cores _ _ hcores]
    · intro hc hfits hstride r es hr hes hscales
      obtain ⟨u, hu⟩ := State.scrRead_putRows (s := s) hc hfits hstride hr (Nat.zero_le r) hes
      refine State.tileElems_of_rowImage (u := u) (Eq.trans ?_ hu)
      obtain h0 | hend := Td.row_fits hfits hr
      · rw [h0, State.scrRead_zero, State.scrRead_zero]
      refine State.scrRead_congr_bytes fun x hx => State.putScales_rawByte_other _ c (tdOf d) 0 out.2 fun q bs hq => ?_
      obtain ⟨hl, h1, h2⟩ := mem_scrRange hc hx hend
      have hdis := hscales q bs hq
      rw [outsideRange, hl, Nat.zero_add]
      omega
    · intro x hrows hscales
      rw [State.putScales_rawByte_other _ _ _ _ _ (by simpa only [Nat.zero_add, outsideRange, Nat.add_assoc] using hscales),
        State.putRows_rawByte_other _ _ _ _ _ fun q _ hq => by
          simpa only [Nat.zero_add, outsideRange, Nat.add_assoc] using hrows q (by omega)]
  case readout =>
    intro s c eng j f d h hj hk ht w
    have hcores : w.cores = s.cores := State.putRows_cores ..
    have hregs : s.sameRegs (w.finishJob c j false) :=
      State.sameRegs_trans (State.sameRegs_cores (State.sameRegs_refl s) hcores) (State.finishJob_sameRegs w c j false)
    refine ⟨execReadoutComplete_clean h hj hk ht, State.finishJob_mem .., hregs, State.settles_self _ c, ?_, ?_, ?_⟩
    · rw [State.finishJob_jobs_of_any, State.core_of_cores _ _ hcores]
    · intro hc hfits hstride hfmt r hr
      obtain ⟨u, hu⟩ := State.scrRead_putRows (s := s) hc hfits hstride hr (Nat.zero_le r) (getElem?_map_upFrom _ hr)
      rw [State.tileElems_of_rowImage hu]
      refine List.map_congr_left fun y hy => ?_
      rw [getD_map_upFrom _ _ (by simpa using (mem_upFrom.mp hy).2), Td.width_word hfmt]
      exact Nat.mod_eq_of_lt (BitVec.isLt _)
    · intro x hrows
      refine State.putRows_rawByte_other _ _ _ _ _ fun q _ hq => ?_
      rw [List.length_map, length_upFrom, Nat.zero_add] at hq
      simpa only [outsideRange, Nat.add_assoc] using hrows q hq

end Sys2Proof.Machine

end

section

/-!
### The registers of the cores under the operations of the homes and of the walks

An access at a home performs what other cores have out: it changes their reads, their writes and the notes of what they wrote, and
nothing else of any core. `Core.apart` is the rest of a core. One rewriting rule for each function of the homes and of the walks:
`<function>_cores` where it changes no core, `<function>_apart` where it leaves that rest of every core.
-/

namespace Sys2Proof.Machine

/-- A core apart from its accesses that are out and from the notes of what it wrote. -/
def Core.apart (k : Core) : Core := { k with reads := [], writes := [], wrote := [] }

/-- Every core of a table, apart from its accesses. -/
def apartOf (t : Tbl Core) : Nat → Core := fun d => (t.getD (fun _ => Core.init) d).apart

theorem State.modCore_apart (s : State) (c : Nat) (f : Core → Core) (hf : ∀ k, (f k).apart = k.apart) :
    apartOf (s.modCore c f).cores = apartOf s.cores := by
  funext d
  change ((s.modCore c f).core d).apart = (s.core d).apart
  rw [State.modCore, State.core_setCore]
  split
  case isTrue hd => rw [hd, hf]
  case isFalse => rfl

@[simp] theorem State.modCore_reads_apart (s : State) (c : Nat) (g : Core → List RTag) :
    apartOf (s.modCore c (fun k => { k with reads := g k })).cores = apartOf s.cores :=
  State.modCore_apart s c _ (fun _ => rfl)

@[simp] theorem State.modCore_writes_apart (s : State) (c : Nat) (g : Core → List WTag) :
    apartOf (s.modCore c (fun k => { k with writes := g k })).cores = apartOf s.cores :=
  State.modCore_apart s c _ (fun _ => rfl)

@[simp] theorem State.modCore_wrote_apart (s : State) (c : Nat) (g : Core → List Wrote) :
    apartOf (s.modCore c (fun k => { k with wrote := g k })).cores = apartOf s.cores :=
  State.modCore_apart s c _ (fun _ => rfl)

@[simp] theorem State.ite_cores (p : Prop) [Decidable p] (a b : State) :
    (if p then a else b).cores = if p then a.cores else b.cores := apply_ite _ _ _ _

@[simp] theorem State.ite_fst_cores {β : Type} (p : Prop) [Decidable p] (a b : State × β) :
    (if p then a else b).1.cores = if p then a.1.cores else b.1.cores := by split <;> rfl

@[simp] theorem apartOf_ite (p : Prop) [Decidable p] (a b : Tbl Core) :
    apartOf (if p then a else b) = if p then apartOf a else apartOf b := apply_ite _ _ _ _

@[simp] theorem State.foldl_apart {β : Type} (g : State → β → State) (s : State) (l : List β)
    (hg : ∀ u x, apartOf (g u x).cores = apartOf u.cores) : apartOf (l.foldl g s).cores = apartOf s.cores := by
  induction l generalizing s with
  | nil => rfl
  | cons x l ih => rw [List.foldl_cons, ih, hg]

@[simp] theorem State.setRegBit_cores (s : State) (o i : Nat) (b : Bool) : (s.setRegBit o i b).cores = s.cores := by
  simp [State.setRegBit]

@[simp] theorem State.setCtl_cores (s : State) (n : Nat) (x : MemCtl) : (s.setCtl n x).cores = s.cores := by
  simp [State.setCtl]

@[simp] theorem State.setHart_cores (s : State) (h : Nat) (x : Hart) : (s.setHart h x).cores = s.cores := by
  simp [State.setHart]

@[simp] theorem State.mirrorWhole_cores (s : State) (line : Nat) (secs : List Nat) :
    (s.mirrorWhole line secs).cores = s.cores := by
  simp [State.mirrorWhole]

@[simp] theorem State.setSlc_cores (s : State) (p i : Nat) (l : List SlcLine) : (s.setSlc p i l).cores = s.cores := by
  simp [State.setSlc]

@[simp] theorem State.touch_cores (s : State) (pa : Nat) : (s.touch pa).cores = s.cores := by simp [State.touch]

@[simp] theorem State.recall_cores (s : State) (line : Nat) :
    (s.recall line).cores = s.cores := by simp [State.recall, State.foldl_cores]

@[simp] theorem State.respond_cores (s : State) (node tag : Nat) (err : Bool) (bs : List Byte) (mask : Nat) :
    (s.respond node tag err bs mask).cores = s.cores := by
  simp [State.respond]

@[simp] theorem State.takeSpare_cores (s : State) (n row : Nat) : (s.takeSpare n row).cores = s.cores := by
  simp [State.takeSpare]

@[simp] theorem State.tallyRow_cores (s : State) (n row : Nat) : (s.tallyRow n row).1.cores = s.cores := by
  simp [State.tallyRow]

@[simp] theorem State.rowBad_cores (s : State) (n row addr : Nat) : (s.rowBad n row addr).cores = s.cores := by
  simp [State.rowBad]

@[simp] theorem State.flawRead_cores (s : State) (n : Nat) (f : EccFind) : (s.flawRead n f).cores = s.cores := by
  simp [State.flawRead]

@[simp] theorem State.takeFlaws_cores (s : State) (p : EccFind → Bool) : (s.takeFlaws p).1.cores = s.cores := by
  simp [State.takeFlaws]

@[simp] theorem State.noteFlaws_cores (s : State) (e : Ecc) : (s.noteFlaws e).cores = s.cores := by simp [State.noteFlaws]

@[simp] theorem State.copyRow_cores (s : State) (n row : Nat) : (s.copyRow n row).cores = s.cores := by
  simp [State.copyRow, State.foldl_cores]

@[simp] theorem State.remapRow_cores (s : State) (n row cause : Nat) : (s.remapRow n row cause).cores = s.cores := by
  simp [State.remapRow]

@[simp] theorem State.correctedRow_cores (s : State) (n row : Nat) : (s.correctedRow n row).cores = s.cores := by
  simp [State.correctedRow]

@[simp] theorem State.rowFailed_cores (s : State) (n row addr : Nat) : (s.rowFailed n row addr).cores = s.cores := by
  simp [State.rowFailed]

@[simp] theorem State.uncorrectable_cores (s : State) (n row sec : Nat) :
    (s.uncorrectable n row sec).cores = s.cores := by
  simp [State.uncorrectable]

@[simp] theorem State.eccFind_cores (s : State) (n : Nat) (f : EccFind) : (s.eccFind n f).cores = s.cores := by
  simp [State.eccFind]

@[simp] theorem State.findFlaws_cores (s : State) (p : EccFind → Bool) (found : State → EccFind → State) (n : Nat)
    (hf : ∀ u f, (found u f).cores = u.cores) : (s.findFlaws p found n).cores = s.cores := by
  induction n generalizing s with
  | zero => rfl
  | succ n ih =>
    simp only [State.findFlaws]
    split
    · rfl
    · rw [ih, hf, State.withMem_cores]

@[simp] theorem State.checkLine_cores (s : State) (line : Nat) : (s.checkLine line).cores = s.cores := by
  simp [State.checkLine]

@[simp] theorem State.noticeTo_cores (s : State) (line k : Nat) : (s.noticeTo line k).cores = s.cores := by
  simp [State.noticeTo]

@[simp] theorem State.clusterFill_cores (s : State) (k line : Nat) : (s.clusterFill k line).cores = s.cores := by
  simp [State.clusterFill, State.foldl_cores]

@[simp] theorem State.slcUse_cores (s : State) (h line : Nat) : (s.slcUse h line).cores = s.cores := by
  simp only [State.slcUse]
  repeat' split
  all_goals simp

@[simp] theorem State.l2Fill_cores (s : State) (h line : Nat) : (s.l2Fill h line).cores = s.cores := by
  simp only [State.l2Fill]
  split <;> simp

@[simp] theorem State.l1Fill_cores (s : State) (h line : Nat) : (s.l1Fill h line).cores = s.cores := by simp [State.l1Fill]

@[simp] theorem State.dieUse_cores (s : State) (h line : Nat) : (s.dieUse h line).cores = s.cores := by simp [State.dieUse]

@[simp] theorem State.serve_apart (s : State) (c : Nat) (t : RTag) (bs : List Byte) :
    apartOf (s.serve c t bs).cores = apartOf s.cores := by
  simp [State.serve]

@[simp] theorem State.serveCluster_apart (s : State) (k line : Nat) :
    apartOf (s.serveCluster k line).cores = apartOf s.cores := by
  simp [State.serveCluster]

@[simp] theorem State.mixReads_apart (s : State) (writer line : Nat) :
    apartOf (s.mixReads writer line).cores = apartOf s.cores := by
  simp [State.mixReads]

@[simp] theorem State.noteWrote_apart (s : State) (c seq pa n : Nat) :
    apartOf (s.noteWrote c seq pa n).cores = apartOf s.cores := by
  simp [State.noteWrote]

@[simp] theorem State.performed_apart (s : State) (c tag : Nat) (old : Option Nat) :
    apartOf (s.performed c tag old).cores = apartOf s.cores := by
  simp [State.performed]

@[simp] theorem State.rowHolding_cores (s : State) (pa : Nat) : (s.rowHolding pa).1.cores = s.cores := by
  simp [State.rowHolding]

@[simp] theorem State.refusePoison_cores (s : State) (pa : Nat) (ctx uid : Option Nat) :
    (s.refusePoison pa ctx uid).cores = s.cores := by
  simp only [State.refusePoison]
  split <;> simp

@[simp] theorem State.addElems_cores (s : State) (ctx uid : Option Nat) (f : AtomFmt) (pa : Nat) (l : List Nat) :
    (s.addElems ctx uid f pa l).cores = s.cores := by
  induction l generalizing s pa with
  | nil => rfl
  | cons v l ih => simp [State.addElems, ih]

@[simp] theorem State.performTag_apart (s : State) (c tag : Nat) : apartOf (s.performTag c tag).cores = apartOf s.cores := by
  simp only [State.performTag]
  repeat' split
  all_goals simp

@[simp] theorem State.deliver_cores (s : State) (who : Agent) (pa n tag : Nat) :
    (s.deliver who pa n tag).cores = s.cores := by
  simp only [State.deliver]
  split <;> simp

@[simp] theorem State.hartTrap_cores (s : State) (h cause : Nat) (tval : Option Nat) :
    (s.hartTrap h cause tval).cores = s.cores := by
  simp [State.hartTrap]

@[simp] theorem State.hartGets_keepsCores (s : State) (h : Nat) (vec : Option Nat) (pa : Nat) (bs : List Byte) (bad : Bool) :
    (s.hartGets h vec pa bs bad).cores = s.cores := by
  simp only [State.hartGets]
  repeat' split
  all_goals simp

@[simp] theorem State.consume_cores (s : State) (who : Agent) (line : Nat) : (s.consume who line).cores = s.cores := by
  simp only [State.consume]
  split <;> simp

@[simp] theorem State.keepWay_cores (s : State) (line old : Nat) : (s.keepWay line old).cores = s.cores := by
  simp only [State.keepWay]
  split <;> simp

@[simp] theorem State.hostBytes_cores (s : State) (line : Nat) (bs : List (Nat × Byte)) (poison : Bool) :
    (s.hostBytes line bs poison).cores = s.cores := by
  simp [State.hostBytes, State.foldl_cores]

@[simp] theorem State.dropAll_cores (s : State) (line : Nat) (e : DirEntry) (me : Option Nat) :
    (s.dropAll line e me).cores = s.cores := by
  simp only [State.dropAll]
  split <;> simp [State.foldl_cores]

@[simp] theorem State.ownLost_cores (s : State) (line : Nat) (who : Agent) : (s.ownLost line who).cores = s.cores := by
  simp only [State.ownLost]
  split <;> simp [State.foldl_cores]

@[simp] theorem State.homeReply_cores (s : State) (r : HomeReq) (pa v : Nat) (refused : Bool) :
    (s.homeReply r pa v refused).cores = s.cores := by
  simp only [State.homeReply]
  split <;> simp

@[simp] theorem State.hartDone_cores (s : State) (who : Agent) (id : Nat) : (s.hartDone who id).cores = s.cores := by
  simp only [State.hartDone]
  split <;> simp

@[simp] theorem State.reqAccess_cores (s : State) (r : HomeReq) : (s.reqAccess r).cores = s.cores := by
  simp only [State.reqAccess]
  split <;> simp

@[simp] theorem State.performReq_apart (s : State) (r : HomeReq) : apartOf (s.performReq r).cores = apartOf s.cores := by
  simp only [State.performReq]
  repeat' split
  all_goals simp

@[simp] theorem State.startReq_apart (s : State) (r : HomeReq) : apartOf (s.startReq r).cores = apartOf s.cores := by
  simp only [State.startReq]
  split <;> simp

@[simp] theorem State.startEvict_apart (s : State) (line : Nat) : apartOf (s.startEvict line).cores = apartOf s.cores := by
  simp only [State.startEvict]
  split <;> simp

@[simp] theorem State.drain_apart (s : State) (n : Nat) : apartOf (s.drain n).cores = apartOf s.cores := by
  induction n generalizing s with
  | zero => rfl
  | succ n ih =>
    simp only [State.drain]
    repeat' split
    all_goals simp [ih]

@[simp] theorem State.drainAll_apart (s : State) : apartOf s.drainAll.cores = apartOf s.cores := by simp [State.drainAll]

@[simp] theorem State.endTxn_apart (s : State) (t : Txn) :
    apartOf (s.endTxn t).cores = apartOf s.cores := by simp [State.endTxn]

@[simp] theorem State.answer_apart (s : State) (line i : Nat) (q : Nat → Core) (h : apartOf s.cores = q) :
    (s.answer line i).leads (fun t => apartOf t.cores = q) := by
  simp [State.answer, h]

theorem State.answerOr_apart (s : State) (l i : Nat) :
    apartOf (match s.answer l i with | .next t => t | _ => s).cores = apartOf s.cores := by
  have h := State.answer_apart s l i (apartOf s.cores) rfl
  cases e : s.answer l i with
  | next t => exact h t e
  | stay => rfl

@[simp] theorem State.answerNow_apart (s : State) (line i : Nat) : apartOf (s.answerNow line i).cores = apartOf s.cores := by
  simp only [State.answerNow]
  refine (State.answerOr_apart _ line i).trans ?_
  simp

@[simp] theorem State.finishLine_apart (s : State) (line n : Nat) :
    apartOf (s.finishLine line n).cores = apartOf s.cores := by
  induction n generalizing s with
  | zero => rfl
  | succ n ih =>
    simp only [State.finishLine]
    split <;> simp [ih]

@[simp] theorem State.takeFrame_apart (s : State) (m : Move) : apartOf (s.takeFrame m).cores = apartOf s.cores := by
  simp [State.takeFrame]

@[simp] theorem State.finishSwitch_apart (s : State) (line : Nat) :
    apartOf (s.finishSwitch line).cores = apartOf s.cores := by
  simp only [State.finishSwitch]
  split <;> simp

@[simp] theorem State.lineTurn_apart (s : State) (line : Nat) : apartOf (s.lineTurn line).cores = apartOf s.cores := by
  simp [State.lineTurn]

@[simp] theorem State.showOwner_cores (s : State) (line : Nat) : (s.showOwner line).cores = s.cores := by
  simp [State.showOwner, State.foldl_cores]

@[simp] theorem State.homeRead_apart (s : State) (pa n : Nat) : apartOf (s.homeRead pa n).cores = apartOf s.cores := by
  simp [State.homeRead]

@[simp] theorem State.roomNow_apart (s : State) (line : Nat) : apartOf (s.roomNow line).cores = apartOf s.cores := by
  simp only [State.roomNow]
  repeat' split
  all_goals simp

@[simp] theorem State.shareNow_apart (s : State) (line i : Nat) :
    apartOf (s.shareNow line i).cores = apartOf s.cores := by
  simp [State.shareNow]

@[simp] theorem State.heldNow_apart (s : State) (k line : Nat) : apartOf (s.heldNow k line).cores = apartOf s.cores := by
  simp [State.heldNow]

@[simp] theorem State.clusterHit_cores (s : State) (k line : Nat) : (s.clusterHit k line).cores = s.cores := by
  simp [State.clusterHit]

@[simp] theorem State.clusterLine_apart (s : State) (k line : Nat) :
    apartOf (s.clusterLine k line).cores = apartOf s.cores := by
  simp [State.clusterLine]

@[simp] theorem State.fillL2_cores (s : State) (k : Nat) (l : Leaf) (path : List Node) :
    (s.fillL2 k l path).cores = s.cores := by
  simp [State.fillL2]

@[simp] theorem State.walkFrom_apart (s : State) (k asid va : Nat) (a : Acc) (n level ppn : Nat) (path : List Node) :
    apartOf (s.walkFrom k asid va a n level ppn path).1.cores = apartOf s.cores := by
  induction n generalizing s level ppn path with
  | zero => rfl
  | succ n ih =>
    simp only [State.walkFrom]
    repeat' split
    all_goals simp [ih]

@[simp] theorem State.walk_apart (s : State) (k asid root va : Nat) (a : Acc) :
    apartOf (s.walk k asid root va a).1.cores = apartOf s.cores := by
  simp only [State.walk]
  repeat' split
  all_goals simp

theorem State.pair_apart {β : Type} {s u : State} {r : State × β} {x : β} (e : r = (u, x))
    (h : apartOf r.1.cores = apartOf s.cores) : apartOf u.cores = apartOf s.cores := by rw [← h, e]

@[simp] theorem State.runWalk_apart (s : State) (u k d : Nat) (w : Cause) (asid root va : Nat) (a : Acc) :
    apartOf (s.runWalk u k d w asid root va a).1.cores = apartOf s.cores := by
  simp only [State.runWalk]
  split
  all_goals
    rename_i e
    simp [State.pair_apart e (State.walk_apart ..)]

@[simp] theorem State.translate_apart (s : State) (u k d : Nat) (w : Cause) (asid root va : Nat) (a : Acc) :
    apartOf (s.translate u k d w asid root va a).1.cores = apartOf s.cores := by
  simp only [State.translate]
  split
  · rename_i e; simp [State.pair_apart e (congrArg apartOf (State.lookup_cores ..))]
  · simp

/-- What `Core.apart` shows of a core shows the registers. -/
theorem State.sameRegs_of_apart {s t : State} (h : apartOf t.cores = apartOf s.cores) : s.sameRegs t := by
  intro d
  have hd : (t.core d).apart = (s.core d).apart := congrFun h d
  have hregs := congrArg Core.regs hd
  exact hregs

end Sys2Proof.Machine

end

section

/-!
### The ends of waits: R185 to R187, R192, R380

A wait that ends clears the core's block and writes its predicates; the registers stay. A read at the home, or a walk,
performs what other cores have out, which is none of their registers (`Core.apart`).
-/

namespace Sys2Proof.Machine

/-! #### What the end of a WAITV changes of its core -/

theorem Core.setP_only (k : Core) (a : Prop) [Decidable a] (p : Nat) (b : Bool) :
    ∃ x, (if a then k.setP p b else k) = { k with p := x } := by
  unfold Core.setP
  split
  case isTrue =>
    split
    · exact ⟨k.p, rfl⟩
    · exact ⟨_, rfl⟩
  case isFalse => exact ⟨k.p, rfl⟩

theorem Core.dropRead_only (k : Core) : ∃ t q r, k.dropRead = { k with nextTag := t, nextSeq := q, reads := r } := by
  unfold Core.dropRead
  split
  · exact ⟨_, _, _, rfl⟩
  · exact ⟨k.nextTag, k.nextSeq, k.reads, rfl⟩

/-- The core whose wait is over, before its predicates are written. -/
def Core.waitDone (k : Core) (late : Bool) : Core :=
  if late then { k.dropRead with block := .none, still := 0 }.noteLate else { k.dropRead with block := .none, still := 0 }

/-- The predicates that the end of a WAITV writes: LP, and with a deadline TP (R187, R192). -/
def Core.waitPreds (k : Core) (f : WaitvF) (late tp : Bool) : Core :=
  let k := if f.h.x then k.setP (extOf f.ext).lp late else k
  if f.h.x && (extOf f.ext).dlm != 0 then k.setP f.tp.toNat (late || tp) else k

theorem Core.endWaitv_eq (k : Core) (f : WaitvF) (late tp : Bool) :
    k.endWaitv f late tp = (k.waitDone late).waitPreds f late tp := rfl

theorem Core.waitDone_only (k : Core) (late : Bool) : ∃ t q r, k.waitDone late =
    { (if late then k.noteLate else k) with nextTag := t, nextSeq := q, reads := r, block := .none, still := 0 } := by
  obtain ⟨t, q, r, hr⟩ := k.dropRead_only
  exact ⟨t, q, r, by rw [Core.waitDone, hr]; cases late <;> rfl⟩

theorem Core.waitPreds_only (k : Core) (f : WaitvF) (late tp : Bool) : ∃ x, k.waitPreds f late tp = { k with p := x } := by
  obtain ⟨y, hy⟩ := k.setP_only (f.h.x = true) (extOf f.ext).lp late
  obtain ⟨x, hx⟩ := Core.setP_only { k with p := y } ((f.h.x && (extOf f.ext).dlm != 0) = true) f.tp.toNat (late || tp)
  exact ⟨x, by rw [Core.waitPreds, hy, hx]⟩

theorem Core.endWaitv_only (k : Core) (f : WaitvF) (late tp : Bool) : ∃ t q r x, k.endWaitv f late tp =
    { (if late then k.noteLate else k) with
      nextTag := t, nextSeq := q, reads := r, p := x, block := .none, still := 0 } := by
  obtain ⟨t, q, r, hd⟩ := k.waitDone_only late
  obtain ⟨x, hx⟩ := (k.waitDone late).waitPreds_only f late tp
  exact ⟨t, q, r, x, by rw [Core.endWaitv_eq, hx, hd]⟩

theorem Core.endWaitv_regs (k : Core) (f : WaitvF) (late tp : Bool) : (k.endWaitv f late tp).regs = k.regs := by
  obtain ⟨t, q, r, x, h⟩ := k.endWaitv_only f late tp
  rw [h]
  cases late <;> rfl

theorem Core.endWaitv_block (k : Core) (f : WaitvF) (late tp : Bool) : (k.endWaitv f late tp).block = .none := by
  obtain ⟨t, q, r, x, h⟩ := k.endWaitv_only f late tp
  rw [h]

theorem Core.endWaitv_devTimeout (k : Core) (f : WaitvF) (late tp : Bool) :
    (k.endWaitv f late tp).devTimeout = k.devTimeout := by
  obtain ⟨t, q, r, x, h⟩ := k.endWaitv_only f late tp
  rw [h]
  cases late <;> rfl

theorem Core.endWaitv_late (k : Core) (f : WaitvF) (tp : Bool) : (k.endWaitv f true tp).late = true
    ∧ (k.endWaitv f true tp).lateCount = satInc 16 k.lateCount := by
  obtain ⟨t, q, r, x, h⟩ := k.endWaitv_only f true tp
  rw [h]
  exact ⟨rfl, rfl⟩

theorem Core.preg_setP_raised (k : Core) {p q : Nat} (hq : q < 8) (h : q = p ∨ k.preg q = true) :
    (k.setP p true).preg q = true := by
  by_cases h0 : p = 0
  · subst h0
    rw [Core.setP_zero]
    rcases h with rfl | h
    · exact k.preg_zero
    · exact h
  · rw [Core.preg_setP k true hq h0]
    split
    case isTrue => rfl
    case isFalse hn => exact h.resolve_left hn

/-- A wait with a deadline that ends LATE leaves 1 in TP and in LP, p0 being always 1 (R187, R192). -/
theorem Core.endWaitv_late_preds (k : Core) {f : WaitvF} (tp : Bool) (hx : f.h.x = true) (hd : (extOf f.ext).dlm ≠ 0) :
    (k.endWaitv f true tp).preg f.tp.toNat = true ∧ (k.endWaitv f true tp).preg (extOf f.ext).lp = true := by
  have hlp : (extOf f.ext).lp < 8 := Nat.mod_lt _ (by decide)
  have he : k.endWaitv f true tp = ((k.waitDone true).setP (extOf f.ext).lp true).setP f.tp.toNat true := by
    have hdl : (f.h.x && (extOf f.ext).dlm != 0) = true := by simp [hx, hd]
    rw [Core.endWaitv_eq, Core.waitPreds, hdl, hx, Bool.true_or, if_pos rfl, if_pos rfl]
  rw [he]
  exact ⟨Core.preg_setP_raised _ f.tp.isLt (.inl rfl),
    Core.preg_setP_raised _ hlp (.inr (Core.preg_setP_raised _ hlp (.inl rfl)))⟩

/-! #### The test of a WAITV's value -/

section Test

variable {s w : State} {c : Nat} {f : WaitvF} {dl : Option Nat} {x : Nat}

theorem State.sameRegs_sreg (h : s.sameRegs w) (r : Nat) : (w.core c).sreg r = (s.core c).sreg r := by
  have hs := congrArg Prod.fst (h c)
  have hs' : (w.core c).s = (s.core c).s := hs
  rw [Core.sreg, Core.sreg, hs']

theorem State.lateWaitv_sameRegs (s : State) (c : Nat) (f : WaitvF) : s.sameRegs (s.lateWaitv c f) :=
  State.sameRegs_modCore (State.sameRegs_refl s) c _ fun k => k.endWaitv_regs f true true

theorem State.metWaitv_sameRegs (s : State) (c : Nat) (f : WaitvF) : s.sameRegs (s.metWaitv c f) :=
  State.sameRegs_modCore (State.sameRegs_cores (State.sameRegs_refl s) (State.draw_cores s)) c _
    fun k => k.endWaitv_regs f false _

theorem State.waitvTest_sameRegs (s : State) (c : Nat) (f : WaitvF) (dl : Option Nat) (x : Nat) :
    s.sameRegs (s.waitvTest c f dl x) :=
  State.sameRegs_ite (State.lateWaitv_sameRegs s c f)
    (State.sameRegs_ite (State.metWaitv_sameRegs s c f) (State.sameRegs_refl s))

theorem State.waitvTest_met (ho : s.waitOver dl = false)
    (hc : condHolds f.cond.toNat (waitvBits f) x ((s.core c).sreg f.rb.toNat).toNat = true) :
    s.waitvTest c f dl x = s.metWaitv c f := by
  rw [State.waitvTest, ho, hc]
  rfl

theorem State.waitvTest_unmet (ho : s.waitOver dl = false)
    (hc : condHolds f.cond.toNat (waitvBits f) x ((s.core c).sreg f.rb.toNat).toNat = false) :
    s.waitvTest c f dl x = s := by
  rw [State.waitvTest, ho, hc]
  rfl

theorem State.waitvTest_devTimeout (h : (s.core c).devTimeout = true) :
    ((s.waitvTest c f dl x).core c).devTimeout = true := by
  rw [State.waitvTest]
  split
  case isTrue => rw [State.lateWaitv, State.core_modCore_same, Core.endWaitv_devTimeout, h]
  case isFalse =>
    split
    case isTrue =>
      rw [State.metWaitv, State.core_modCore_same, Core.endWaitv_devTimeout, State.core_of_cores _ _ (State.draw_cores s), h]
    case isFalse => exact h

/-- The wait on a state with the registers of `s` goes on exactly while the condition does not hold on `s`'s registers. -/
theorem State.waitvTest_tests (h : s.sameRegs w) (ho : w.waitOver dl = false) :
    (condHolds f.cond.toNat (waitvBits f) x ((s.core c).sreg f.rb.toNat).toNat = true →
      ∃ y tp, w.waitvTest c f dl x = (w.withFresh y).setCore c ((w.core c).endWaitv f false tp))
    ∧ (condHolds f.cond.toNat (waitvBits f) x ((s.core c).sreg f.rb.toNat).toNat = false →
      w.waitvTest c f dl x = w) := by
  rw [← State.sameRegs_sreg h]
  exact ⟨fun hc => ⟨_, _, State.waitvTest_met ho hc⟩, fun hc => State.waitvTest_unmet ho hc⟩

end Test

/-! #### WAITV_REREAD and the deadline of a WAITV -/

section Reread

variable {s : State} {c : Nat} {f : WaitvF} {va pc : Nat} {dl : Option Nat} {l : Launch} {o : Option WaitRead}
  {dev : Option Reply} {x : WaitRead}

/-- The state in which the answer to a WAITV's read is tested: its read is out no more. -/
def State.waitvAsk (s : State) (c : Nat) (f : WaitvF) (va pc : Nat) (dl : Option Nat) : State :=
  s.modCore c (fun k => { k with block := .waitv f va pc dl none })

theorem execWaitvReread_over (h : s.running) (hl : (s.core c).launch = some l) (hb : (s.core c).block = .waitv f va pc dl o)
    (ho : s.waitOver dl = true) : exec (.waitvReread c dev) s = .next ((s.lateWaitv c f).after c) := by
  show execWaitvReread c dev s = _
  rw [execWaitvReread, whenPowered_running h, hl, withSome_some, hb]
  simp only [ho, if_true, Act.out_next]

theorem execWaitvReread_look (h : s.running) (hl : (s.core c).launch = some l)
    (hb : (s.core c).block = .waitv f va pc dl none) (ho : s.waitOver dl = false) :
    exec (.waitvReread c dev) s = .next ((s.waitvLook c f va pc dl l).after c) := by
  show execWaitvReread c dev s = _
  rw [execWaitvReread, whenPowered_running h, hl, withSome_some, hb]
  simp only [ho, Bool.false_eq_true, if_false, Act.out_next]

theorem execWaitvReread_back (h : s.running) (hl : (s.core c).launch = some l)
    (hb : (s.core c).block = .waitv f va pc dl (some x)) (ho : s.waitOver dl = false) :
    exec (.waitvReread c dev) s = ((s.waitvAsk c f va pc dl).waitvBack c f dl x dev).out s := by
  show execWaitvReread c dev s = _
  rw [execWaitvReread, whenPowered_running h, hl, withSome_some, hb]
  simp only [ho, Bool.false_eq_true, if_false]
  rfl

theorem State.waitvBack_word {n : Nat} {bs : List Byte} (ht : s.timedOut x.target x.sent = false) (hx : x.target = .remote n)
    (hn : bs.length = waitvBits f / 8) :
    s.waitvBack c f dl x (some (.data bs)) = .next ((s.waitvTest c f dl (ofBytes bs)).after c) := by
  have hh : (x.target == .host || x.target == .hostDevice) = false := by rw [hx]; rfl
  simp only [State.waitvBack, ht, hh, hn, Bool.false_eq_true, if_false, decide_true, whenIt_true]

/-- The state in which a WAITV's read has timed out: the record is made and STATUS bit 0 is set (R236). -/
def State.waitvTimedOut (s : State) (c : Nat) (x : WaitRead) : State :=
  (s.timeoutRecord (.tile 0xB 0 (s.core c).launch) (s.timeoutUnit c x.target true) x.pa).modCore c
    (fun k => { k with devTimeout := true })

theorem State.waitvBack_late (ht : s.timedOut x.target x.sent = true) : s.waitvBack c f dl x dev =
    .next (((s.waitvTimedOut c x).waitvTest c f dl (2 ^ (8 * (waitvBits f / 8)) - 1)).after c) := if_pos ht

theorem State.waitvTimedOut_sameRegs (s : State) (c : Nat) (x : WaitRead) : s.sameRegs (s.waitvTimedOut c x) :=
  State.sameRegs_modCore (State.sameRegs_cores (State.sameRegs_refl s) (State.timeoutRecord_cores ..)) c _ fun _ => rfl

theorem State.waitvAsk_sameRegs : s.sameRegs (s.waitvAsk c f va pc dl) :=
  State.sameRegs_modCore (State.sameRegs_refl s) c _ fun _ => rfl

/-- The test of a word that came back touches its own core and at most takes a free value. -/
theorem State.waitvTest_word {s u : State} {n : Nat} (hu : u = (s.waitvAsk c f va pc dl).waitvTest c f dl n)
    (ho : s.waitOver dl = false) : (s.withFresh u.fresh).onlyCore u c ∧ (u.core c).regs = (s.core c).regs
      ∧ ((u.core c).block = .none ↔
          condHolds f.cond.toNat (waitvBits f) n ((s.core c).sreg f.rb.toNat).toNat = true) := by
  have hregs : s.sameRegs (s.waitvAsk c f va pc dl) := State.waitvAsk_sameRegs
  have hu' : (u.core c).regs = (s.core c).regs := 
    hu ▸ State.sameRegs_trans hregs (State.waitvTest_sameRegs _ c f dl n) c
  have hask : (s.waitvAsk c f va pc dl).waitOver dl = false := ho
  rw [← State.sameRegs_sreg hregs]
  cases hc : condHolds f.cond.toNat (waitvBits f) n (((s.waitvAsk c f va pc dl).core c).sreg f.rb.toNat).toNat
  case true =>
    rw [State.waitvTest_met hask hc] at hu
    refine ⟨?_, hu', ?_⟩
    · rw [hu]
      exact State.onlyCore_modCore (State.onlyCore_modCore (State.onlyCore_refl (s.withFresh (s.fresh + 1)) c)
        (fun k => { k with block := .waitv f va pc dl none })) _
    · rw [hu, State.metWaitv, State.core_modCore_same, Core.endWaitv_block]
      exact iff_of_true rfl rfl
  case false =>
    rw [State.waitvTest_unmet hask hc] at hu
    refine ⟨?_, hu', ?_⟩
    · rw [hu]
      exact State.onlyCore_modCore (State.onlyCore_refl s c) _
    · rw [hu, State.waitvAsk, State.core_modCore_same]
      exact iff_of_false (by simp) (by simp)

theorem execWaitvDeadlineExpiry_reached {d : Nat} (h : s.running) (hb : (s.core c).block = .waitv f va pc (some d) o)
    (hd : s.reached d = true) : exec (.waitvDeadlineExpiry c) s = .next ((s.lateWaitv c f).after c) := by
  show execWaitvDeadlineExpiry c s = _
  rw [execWaitvDeadlineExpiry, whenPowered_running h, hb]
  simp only [hd, whenIt_true, Act.out_next]

end Reread

/-! #### The deadline of a TLD or GATH -/

section Late

variable {s : State} {c : Nat} {j : Job}

/-- No register but the count of dropped hot-block records, and no block's entry, says whether the log or the ring can take a
record. -/
theorem State.recordsOff_dropped (h : s.recordsOff) (b : Nat) (r : Remap) (v : BitVec 64) :
    ((s.setRemap b r).setReg (rPeel 0x402C) v).recordsOff := by
  have hreg {a : Nat} (ha : a ≠ rPeel 0x402C) : ((s.setRemap b r).setReg (rPeel 0x402C) v).regN a = s.regN a :=
    congrArg BitVec.toNat (State.reg_setReg_other (s.setRemap b r) v ha)
  obtain ⟨hlog, hroom, hhot⟩ := h
  refine ⟨?_, ?_, hhot⟩
  · rw [← hlog, State.logUsable, State.logUsable, hreg (by decide), hreg (by decide)]
    rfl
  · rw [← hroom, State.hotRoom, State.hotRoom, hreg (by decide), hreg (by decide), hreg (by decide)]
    rfl

/-- A nomination that no ring takes is counted, and its block marked. -/
theorem State.enrol_recordsOff (h : s.recordsOff) (b source ctx : Nat) :
    (s.enrol b source ctx).recordsOff ∧ (s.enrol b source ctx).mem = s.mem := by
  simp only [State.enrol]
  split
  case isTrue => exact ⟨h, rfl⟩
  case isFalse =>
    have hroom : (s.setRemap b { s.remap b with nominated := true }).hotRoom = false := h.2.1
    rw [if_neg (by simp [hroom])]
    exact ⟨State.recordsOff_dropped h _ _ _, rfl⟩

theorem State.nominate_recordsOff (h : s.recordsOff) (b source ctx : Nat) :
    (s.nominate b source ctx).recordsOff ∧ (s.nominate b source ctx).mem = s.mem := by
  have he := State.enrol_recordsOff h b source ctx
  rwa [State.nominate, State.recordsOut_of_hubKeeps he.1.hubKeeps]

/-- The block of a read of a late job that tiered memory has not served is nominated, from the DRAM tier (R265). -/
def State.lateRead (s : State) (ctx : Nat) (t : RTag) : State :=
  if t.target == .tiered && (s.remap (blockOf t.pa)).state = 1 then s.nominate (blockOf t.pa) 1 ctx else s

/-- The state in which the blocks of a late job's reads that are out have been nominated (R265). -/
def State.lateNominated (s : State) (c : Nat) (j : Job) : State :=
  ((s.core c).reads.filter (fun t => t.job == j.seq && !t.dead)).foldl
    (fun u t => u.lateRead (((s.core c).launch.map Launch.ctx).getD 0) t) s

/-- The core of a job that has completed late (R187). -/
def Core.lateOut (k : Core) (j : Job) : Core :=
  { k.noteLate with
    walk := if k.streamHead.map Job.seq = some j.seq then none else k.walk
    reads := (k.reads.map (fun t => if t.job == j.seq then { t with dead := true } else t)).filter (fun t =>
      !(t.job == j.seq && t.early)) }

theorem State.lateJob_eq (s : State) (c : Nat) (j : Job) :
    s.lateJob c j = ((s.lateNominated c j).modCore c (fun k => k.lateOut j)).finishJob c j true := rfl

theorem State.lateRead_recordsOff (h : s.recordsOff) (ctx : Nat) (t : RTag) :
    (s.lateRead ctx t).recordsOff ∧ (s.lateRead ctx t).mem = s.mem := by
  rw [State.lateRead]
  split
  case isTrue => exact State.nominate_recordsOff h _ _ _
  case isFalse => exact ⟨h, rfl⟩

theorem State.foldl_lateRead_mem (h : s.recordsOff) (ctx : Nat) (l : List RTag) :
    (l.foldl (fun u t => u.lateRead ctx t) s).mem = s.mem := by
  induction l generalizing s with
  | nil => rfl
  | cons t l ih =>
    obtain ⟨hoff, hmem⟩ := State.lateRead_recordsOff h ctx t
    exact (ih hoff).trans hmem

theorem State.lateNominated_core : (s.lateNominated c j).core c = s.core c := by
  refine State.core_of_cores _ _ (State.foldl_cores _ (fun u t => ?_) _ _) c
  rw [State.lateRead, State.ite_cores, State.nominate_cores, ite_self]

theorem State.lateNominated_mem (h : s.recordsOff) : (s.lateNominated c j).mem = s.mem := State.foldl_lateRead_mem h _ _

theorem State.finishJob_late (s : State) (c : Nat) (j : Job) (late : Bool) :
    ((s.finishJob c j late).core c).late = (s.core c).late
    ∧ ((s.finishJob c j late).core c).lateCount = (s.core c).lateCount := by
  have hk := (State.notesOnly_noteRows s c j).2 []
  have h1 := congrArg Core.late hk
  have h2 := congrArg Core.lateCount hk
  have h1' : ((s.noteRows c j).core c).late = (s.core c).late := h1
  have h2' : ((s.noteRows c j).core c).lateCount = (s.core c).lateCount := h2
  rw [← h1', ← h2']
  simp only [State.finishJob, State.core_modCore_same]
  cases j.lp with
  | none => exact ⟨rfl, rfl⟩
  | some p =>
    obtain ⟨x, hx⟩ := Core.setP_only ((s.noteRows c j).core c) True p late
    rw [if_pos trivial] at hx
    simp only [State.noteRows] at hx
    simp only [hx]
    exact ⟨rfl, rfl⟩

theorem execStreamDeadlineExpiry_reached {d : Nat} (h : s.running)
    (hj : (s.core c).jobs.find? (fun x => x.seq == j.seq) = some j) (hd : j.deadline = some d) (hr : s.reached d = true) :
    exec (.streamDeadlineExpiry c j.seq) s = .next ((s.lateJob c j).after c) := by
  show execStreamDeadlineExpiry c j.seq s = _
  rw [execStreamDeadlineExpiry, whenPowered_running h, hj, withSome_some, hd]
  simp only [hr, whenIt_true, Act.out_next]

end Late

/-! #### A WAITV's look at its word -/

section Look

variable {s u : State} {c : Nat} {f : WaitvF} {va pc pa : Nat} {dl : Option Nat} {l : Launch} {t : Target}

/-- The state in which a WAITV's read has left for another node or for the host. -/
def State.waitvSent (s : State) (c : Nat) (f : WaitvF) (va pc : Nat) (dl : Option Nat) (pa : Nat) (t : Target) : State :=
  ((s.waitvAsk c f va pc dl).modCore c fun k =>
    { k with block := .waitv f va pc dl (some { pa := pa, target := t, sent := s.strokeNow }) }).sendOut t pa [0] []

theorem State.waitvLook_read (hl : s.lookup c (c / 8) (c / 32) l.asid va .watch = (u, .ok pa t)) (ho : u.waitOver dl = false) :
    s.waitvLook c f va pc dl l = u.waitvRead c f va pc dl pa t := by
  rw [State.waitvLook, hl, State.waitvGo]
  simp only [ho, Bool.false_eq_true, if_false]

theorem State.waitvRead_tiered (hr : (u.waitvAsk c f va pc dl).waitvReady c pa .tiered = true)
    (hp : ((u.waitvAsk c f va pc dl).homeRead pa (waitvBits f / 8)).anyPoison pa (waitvBits f / 8) = false) :
    u.waitvRead c f va pc dl pa .tiered = ((u.waitvAsk c f va pc dl).homeRead pa (waitvBits f / 8)).waitvTest c f dl
      (((u.waitvAsk c f va pc dl).homeRead pa (waitvBits f / 8)).sysNat pa (waitvBits f / 8)) := by
  rw [State.waitvAsk] at *
  simp only [State.waitvRead, hr, hp, Bool.not_true, Bool.false_eq_true, if_false]

theorem State.waitvRead_window {x : Nat} (hr : (u.waitvAsk c f va pc dl).waitvReady c pa (.window x) = true)
    {r : State × List Byte × Bool} (he : (u.waitvAsk c f va pc dl).windowLoad x (localPart pa - windowBase x)
      (waitvBits f / 8) (.tile 0xB 0 ((u.waitvAsk c f va pc dl).core c).launch) = r) (hb : r.2.2 = false) :
    u.waitvRead c f va pc dl pa (.window x) = r.1.waitvTest c f dl (ofBytes r.2.1) := by
  subst he
  rw [State.waitvAsk] at *
  simp only [State.waitvRead, hr, hb, Bool.not_true, Bool.false_eq_true, if_false]

theorem State.waitvRead_out (ht : t = .host ∨ t = .hostDevice ∨ ∃ k, t = .remote k)
    (hr : (u.waitvAsk c f va pc dl).waitvReady c pa t = true) :
    u.waitvRead c f va pc dl pa t = u.waitvSent c f va pc dl pa t := by
  rw [State.waitvAsk] at hr
  rcases ht with rfl | rfl | ⟨k, rfl⟩ <;> (simp only [State.waitvRead, hr, Bool.not_true, Bool.false_eq_true, if_false]; rfl)

theorem State.lookup_ok_sameRegs {i j d asid : Nat} {a : Acc} {r : XRes} (hl : s.lookup i j d asid va a = (u, r)) :
    s.sameRegs u := by
  refine State.sameRegs_cores (State.sameRegs_refl s) ?_
  have h := State.lookup_cores s i j d asid va a
  rwa [hl] at h

theorem State.homeRead_sameRegs (s : State) (pa n : Nat) : s.sameRegs (s.homeRead pa n) :=
  State.sameRegs_of_apart (State.homeRead_apart s pa n)

theorem State.windowLoad_sameRegs (s : State) (x o n : Nat) (w : Cause) : s.sameRegs (s.windowLoad x o n w).1 := by
  have h : s.sameRegs ((s.wakeCore x).portUsed x) :=
    State.sameRegs_trans (State.sameRegs_cores (State.sameRegs_refl s) (State.wakeCore_cores s x)) (State.portUsed_sameRegs _ x)
  rw [State.windowLoad]
  split
  · exact h
  · exact State.sameRegs_cores h (State.scratchRecord_cores ..)

theorem State.waitvSent_sameRegs : s.sameRegs (s.waitvSent c f va pc dl pa t) :=
  State.sameRegs_cores (State.sameRegs_modCore (State.waitvAsk_sameRegs (f := f) (va := va) (pc := pc) (dl := dl)) c
    (fun k => { k with block := .waitv f va pc dl (some { pa := pa, target := t, sent := s.strokeNow }) }) fun _ => rfl)
    (State.sendOut_cores ..)

theorem State.waitvSent_block : ((s.waitvSent c f va pc dl pa t).core c).block =
    .waitv f va pc dl (some { pa := pa, target := t, sent := s.strokeNow }) := by
  rw [State.waitvSent, State.core_of_cores _ _ (State.sendOut_cores ..), State.core_modCore_same]

/-- A read that leaves the module changes no byte of it. -/
theorem State.sendOut_read_mem (s : State) (t : Target) (pa : Nat) : (s.sendOut t pa [0] []).mem = s.mem := by
  have hmsg (n : Nat) (i : List Nat) : (s.sendMsg n [] i).mem = s.mem := by
    simp only [State.sendMsg, State.sendFlit]
    split
    · rfl
    · rfl
  cases t with
  | remote n =>
    simp only [State.sendOut]
    split
    · rfl
    · exact hmsg n _
  | host =>
    simp only [State.sendOut]
    split
    · rfl
    · rfl
  | hostDevice =>
    simp only [State.sendOut]
    split
    · rfl
    · rfl
  | _ => rfl

end Look

/-! #### The end of a walk that the stream unit waits for -/

/-- Every core waits on the walk it waited on, if on any. -/
def State.sameWalks (s t : State) : Prop := ∀ d, (t.core d).walk = (s.core d).walk

namespace State.sameWalks

variable {s t u : State}

theorem trans (h : s.sameWalks t) (g : t.sameWalks u) : s.sameWalks u := fun d => (g d).trans (h d)

theorem of_cores (h : t.cores = s.cores) : s.sameWalks t := fun d => congrArg Core.walk (State.core_of_cores s t h d)

theorem of_apart (h : apartOf t.cores = apartOf s.cores) : s.sameWalks t := by
  intro d
  have hd : (t.core d).apart = (s.core d).apart := congrFun h d
  have hw := congrArg Core.walk hd
  exact hw

theorem of_unstaged (h : s.sameUnstaged t) : s.sameWalks t := by
  intro d
  have hw := congrArg Core.walk (h d)
  exact hw

theorem foldl {α : Type} (g : State → α → State) (hg : ∀ u x, State.sameWalks u (g u x)) (l : List α) (s : State) :
    s.sameWalks (l.foldl g s) := by
  induction l generalizing s with
  | nil => exact of_cores rfl
  | cons x l ih => exact (hg s x).trans (ih _)

theorem modCore (s : State) (c : Nat) (f : Core → Core) (hf : ∀ k, (f k).walk = k.walk) : s.sameWalks (s.modCore c f) := by
  intro d
  rw [State.modCore, State.core_setCore]
  split
  case isTrue hd => rw [hd, hf]
  case isFalse => rfl

theorem spoilDone (s : State) (c seq : Nat) : s.sameWalks (s.spoilDone c seq) := by
  refine of_cores ?_
  simp only [State.spoilDone, State.setCluster_cores, State.draw_cores]
  exact State.foldl_cores (fun u (w : Wrote) => u.spoilBytes w.pa w.len) (fun _ _ => rfl) _ s

theorem spoilSent (s : State) (c seq : Nat) : s.sameWalks (s.spoilSent c seq) :=
  (of_cores (State.draw_cores s)).trans (modCore _ c _ fun _ => rfl)

theorem taint (s : State) (c : Nat) (j : Job) : s.sameWalks (s.taint c j) := by
  simp only [State.taint]
  refine trans ?_ (modCore _ c _ fun _ => rfl)
  have hd : s.sameWalks (j.kind.dest.foldl (fun s r => s.spillRows c r.1 r.2.1 r.2.2.1 r.2.2.2) s).draw.1 :=
    of_cores ((State.draw_cores _).trans (State.foldSpill_cores c j.kind.dest s))
  split
  · exact hd.trans (modCore _ c _ fun _ => rfl)
  · exact hd

theorem overtake (s : State) (c seq : Nat) : s.sameWalks (s.overtake c seq) := by
  simp only [State.overtake]
  refine trans ?_ (modCore _ c _ fun _ => rfl)
  refine trans ?_ (foldl _ (fun u x => taint u c x) _ _)
  refine trans ?_ (spoilSent _ c seq)
  refine trans ?_ (spoilDone _ c seq)
  exact modCore s c _ fun _ => rfl

theorem suspectCore (s : State) (c seq : Nat) (intent : Bool) : s.sameWalks (s.suspectCore c seq intent) := by
  rw [State.suspectCore]
  split
  case isTrue =>
    refine trans (of_cores (State.setUnit_cores s (coreKey c) 1 seq intent)) (of_unstaged ?_)
    exact (State.sameUnstaged.setStaged _ c fun _ => []).trans
      (State.sameUnstaged.foldl _ (fun u g => State.sameUnstaged.placeAgain u c g) _ _)
  case isFalse => exact of_cores rfl

end State.sameWalks

section Walk

variable {s : State} {c va : Nat} {l : Launch} {j : Job}

/-- A fault leaves no walk to wait on where none was. -/
theorem State.execFault_walk (h : (s.core c).walk = none) (j : Job) (code va : Nat) :
    ((s.execFault c j code va).core c).walk = none := by
  simp only [State.execFault, State.faultAt]
  split
  case isTrue => rw [State.sameWalks.overtake s c j.seq c, h]
  case isFalse =>
    split
    case isTrue => rw [State.sameWalks.suspectCore _ c 0 false c, State.core_modCore_same]
    case isFalse => rw [State.core_modCore_same]

/-- The state in which the stream unit of a core waits on no walk. -/
def State.unwalked (s : State) (c : Nat) : State := s.modCore c fun k => { k with walk := none }

/-- What the translation for the oldest instruction of the stream unit comes to when its walk has ended. -/
def State.walkEnded (s : State) (c va : Nat) (l : Launch) (j : Job) : State × XRes :=
  (s.unwalked c).translate c (c / 8) (c / 32) ((s.unwalked c).jobCause c j.kind) l.asid l.root va (j.kind.accAt va)

/-- The state after a walk for the stream unit: its instruction faults where its leaf allows no access. -/
def State.walkAfter (s : State) (c va : Nat) (l : Launch) (j : Job) : State :=
  match (s.walkEnded c va l j).2 with
  | .fault x => ((s.walkEnded c va l j).1.noteFault (c / 32) l.ctx va x).execFault c j x.code va
  | _ => (s.walkEnded c va l j).1

theorem State.walkEnded_sameRegs (s : State) (c va : Nat) (l : Launch) (j : Job) : s.sameRegs (s.walkEnded c va l j).1 :=
  State.sameRegs_trans (t := s.unwalked c) (State.sameRegs_modCore (State.sameRegs_refl s) c _ fun _ => rfl)
    (State.sameRegs_of_apart (State.translate_apart ..))

theorem State.walkEnded_walk (s : State) (c va : Nat) (l : Launch) (j : Job) :
    ((s.walkEnded c va l j).1.core c).walk = none := by
  rw [State.walkEnded, State.sameWalks.of_apart (State.translate_apart ..) c, State.unwalked, State.core_modCore_same]

theorem State.walkAfter_keeps (s : State) (c va : Nat) (l : Launch) (j : Job) :
    ((s.walkAfter c va l j).core c).walk = none ∧ s.sameRegs (s.walkAfter c va l j) := by
  have hregs := s.walkEnded_sameRegs c va l j
  have hwalk := s.walkEnded_walk c va l j
  rw [State.walkAfter]
  split
  case h_1 x _ =>
    refine ⟨State.execFault_walk ?_ j _ _, ?_⟩
    · rw [State.core_of_cores _ _ (State.noteFault_cores ..), hwalk]
    · exact State.sameRegs_trans (State.sameRegs_cores hregs (State.noteFault_cores _ (c / 32) l.ctx va x))
        (State.execFault_sameRegs _ c j x.code va)
  case h_2 => exact ⟨hwalk, hregs⟩

theorem execWalkComplete_stream (h : s.running) (hl : (s.core c).launch = some l)
    (hb : ∀ f v p d, (s.core c).block ≠ .waitvWalk f v p d) (hw : (s.core c).walk = some va)
    (hj : (s.core c).streamHead = some j) : exec (.walkComplete c) s = .next ((s.walkAfter c va l j).after c) := by
  show execWalkComplete c s = _
  rw [execWalkComplete, whenPowered_running h, hl, withSome_some]
  simp only [hw, hj, withSome_some]
  show Act.out s (match (s.walkEnded c va l j).2 with
    | .fault x => .next ((((s.walkEnded c va l j).1.noteFault (c / 32) l.ctx va x).execFault c j x.code va).after c)
    | _ => .next ((s.walkEnded c va l j).1.after c)) = _
  rw [State.walkAfter]
  cases (s.walkEnded c va l j).2 <;> rfl

end Walk

/-! #### The obligation -/

/-- Settles O24: each wait's end is the end of its core's block; a look, a walk or a late job keeps the registers. -/
theorem waitsEnd : Obligations.WaitsEnd := by
  refine ⟨?look, ?reread, ?deadline, ?late, ?walk⟩
  case look =>
    intro s u c f va pc pa dl l t hl ho n v tests hr
    have hv : s.sameRegs v := State.sameRegs_trans (State.lookup_ok_sameRegs hl) State.waitvAsk_sameRegs
    have hlook : s.waitvLook c f va pc dl l = u.waitvRead c f va pc dl pa t := State.waitvLook_read hl ho
    refine ⟨?tiered, ?window, ?out⟩
    case tiered =>
      intro ht hp hw
      subst ht
      have hregs := State.sameRegs_trans hv (State.homeRead_sameRegs v pa n)
      rw [hlook, State.waitvRead_tiered hr hp]
      exact ⟨hregs, State.waitvTest_tests hregs hw⟩
    case window =>
      intro x ht r hb hw
      subst ht
      have hregs : s.sameRegs r.1 := State.sameRegs_trans hv (State.windowLoad_sameRegs v x _ n _)
      rw [hlook, State.waitvRead_window (r := r) hr rfl hb]
      exact ⟨hregs, State.waitvTest_tests hregs hw⟩
    case out =>
      intro ht
      refine ⟨u.waitvSent c f va pc dl pa t, by rw [hlook, State.waitvRead_out ht hr], ?_, ?_, ?_⟩
      · exact State.sameRegs_trans (State.lookup_ok_sameRegs hl) State.waitvSent_sameRegs
      · exact State.sendOut_read_mem _ t pa
      · exact State.waitvSent_block
  case reread =>
    intro s c f va pc dl l o dev h hl hb
    refine ⟨fun ho => execWaitvReread_over h hl hb ho, fun ho hn => ?_, fun x k bs ho hx hk ht hn => ?_,
      fun x ho hx ht => ?_⟩
    · subst hn
      exact execWaitvReread_look h hl hb ho
    · subst hx
      have ha : (s.waitvAsk c f va pc dl).timedOut x.target x.sent = false := ht
      refine ⟨(s.waitvAsk c f va pc dl).waitvTest c f dl (ofBytes bs), ?_, State.settles_self _ c,
        State.waitvTest_word rfl ho⟩
      rw [execWaitvReread_back h hl hb ho, State.waitvBack_word ha hk hn]
      rfl
    · subst hx
      have ha : (s.waitvAsk c f va pc dl).timedOut x.target x.sent = true := ht
      refine ⟨((s.waitvAsk c f va pc dl).waitvTimedOut c x).waitvTest c f dl (2 ^ (8 * (waitvBits f / 8)) - 1), ?_,
        State.settles_self _ c, ?_, State.waitvTest_devTimeout ?_⟩
      · rw [execWaitvReread_back h hl hb ho, State.waitvBack_late ha]
        rfl
      · have hask : s.sameRegs ((s.waitvAsk c f va pc dl).waitvTimedOut c x) :=
          State.sameRegs_trans State.waitvAsk_sameRegs (State.waitvTimedOut_sameRegs _ c x)
        exact State.sameRegs_trans hask (State.waitvTest_sameRegs _ c f dl _)
      · rw [State.waitvTimedOut, State.core_modCore_same]
  case deadline =>
    intro s c f va pc d o h hb hd hx hdl hn
    have hk : (s.lateWaitv c f).core c = (s.core c).endWaitv f true true := State.core_modCore_same s c _
    obtain ⟨htp, hlp⟩ := (s.core c).endWaitv_late_preds true hx hdl
    obtain ⟨hlate, hcount⟩ := (s.core c).endWaitv_late f true
    refine ⟨s.lateWaitv c f, execWaitvDeadlineExpiry_reached h hb hd, State.settles_self _ c,
      State.onlyCore_modCore (State.onlyCore_refl s c) _, ?_⟩
    rw [hk, hcount, satInc_eq_min (Nat.lt_succ_of_le hn)]
    exact ⟨Core.endWaitv_regs .., Core.endWaitv_block .., htp, hlp, hlate, rfl⟩
  case late =>
    intro s c j d h hj hd hr hn hoff
    have hk : ((s.lateNominated c j).modCore c (fun k => k.lateOut j)).core c = (s.core c).lateOut j := by
      rw [State.core_modCore_same, State.lateNominated_core]
    have hcount : ((s.core c).lateOut j).lateCount = min ((s.core c).lateCount + 1) 65535 :=
      satInc_eq_min (Nat.lt_succ_of_le hn)
    obtain ⟨hlate, hnum⟩ := State.finishJob_late ((s.lateNominated c j).modCore c (fun k => k.lateOut j)) c j true
    refine ⟨s.lateJob c j, execStreamDeadlineExpiry_reached h hj hd hr, State.settles_self _ c, State.lateJob_sameRegs s c j,
      ?_, ?_, fun x hx => ?_, ?_⟩
    · rw [State.lateJob_eq, hlate, hk]
      rfl
    · rw [State.lateJob_eq, hnum, hk, hcount]
    · rw [State.lateJob_eq, State.finishJob_jobs_of_any] at hx
      simpa using (List.mem_filter.mp hx).2
    · rw [State.lateJob_eq, State.finishJob_mem, State.modCore_mem, State.lateNominated_mem hoff]
  case walk =>
    intro s c va l j h hl hb hw hj
    obtain ⟨hwalk, hregs⟩ := s.walkAfter_keeps c va l j
    exact ⟨s.walkAfter c va l j, execWalkComplete_stream h hl hb hw hj, State.settles_self _ c, hwalk, hregs⟩

end Sys2Proof.Machine

end

section

/-!
### Accesses of the harts: R403 to R414
-/

namespace Sys2Proof.Machine

/-! #### A hart with nothing outstanding -/

/-- No access of the hart is open and no fence waits. -/
def Hart.isIdle (k : Hart) : Prop := k.fence = none ∧ k.stores = []

section Idle

variable {k : Hart}

theorem Hart.isIdle.canStart (hk : k.isIdle) (c l w : Bool) : k.canStart c l w = true := by
  simp [Hart.canStart, hk.1, hk.2]

theorem Hart.isIdle.older (hk : k.isIdle) (pa n : Nat) : k.older pa n = false := by simp [Hart.older, hk.2]

theorem Hart.isIdle.deviceOut (hk : k.isIdle) : k.deviceOut = false := by simp [Hart.deviceOut, hk.2]

theorem Hart.isIdle.trapTurn (hk : k.isIdle) (s : State) : k.trapTurn s = .next s := by simp [Hart.trapTurn, hk.1]

theorem Hart.trapTurn_fenced {f : HartFence} (hf : k.fence = some f) (s : State) : k.trapTurn s = .stay := by
  simp [Hart.trapTurn, hf]

end Idle

/-! #### Fences: R403 to R405, R414 -/

@[simp] theorem Hart.settle_stores (k : Hart) : k.settle.stores = k.stores := by
  unfold Hart.settle
  split <;> rfl

/-- The fence is still waiting exactly when an older access it names is open. -/
theorem Hart.settle_fence_ne_none {k : Hart} {f : HartFence} (hf : k.fence = some f) :
    k.settle.fence ≠ none ↔ ∃ x ∈ k.stores, x.id < f.upto ∧ (x.cacheable || !f.cacheable) = true
      ∧ ((f.stores = true ∧ x.writes = true) ∨ (f.loads = true ∧ x.load = true)) := by
  unfold Hart.settle Hart.fenceDone
  rw [hf]
  by_cases h : (k.stores.any fun x => decide (x.id < f.upto) && (x.cacheable || !f.cacheable)
      && (x.load && f.loads || x.writes && f.stores)) = true
  · rw [if_neg (by simp only [h, Bool.not_true, Bool.false_eq_true, not_false_eq_true])]
    simp only [hf, ne_eq, reduceCtorEq, not_false_eq_true, true_iff]
    obtain ⟨x, hx, hb⟩ := List.any_eq_true.mp h
    simp only [Bool.and_eq_true, decide_eq_true_eq, Bool.or_eq_true (x.load && f.loads)] at hb
    exact ⟨x, hx, hb.1.1, hb.1.2, hb.2.symm.imp And.symm And.symm⟩
  · rw [if_pos (by simp only [h, Bool.not_false])]
    simp only [ne_eq, not_true_eq_false, false_iff]
    rintro ⟨x, hx, hid, hc, hk⟩
    refine h (List.any_eq_true.mpr ⟨x, hx, ?_⟩)
    simp only [Bool.and_eq_true, decide_eq_true_eq, Bool.or_eq_true (x.load && f.loads)]
    exact ⟨⟨hid, hc⟩, hk.symm.imp And.symm And.symm⟩

section Fences

variable {s : State} {h : Nat} {w : BitVec 32} {cmd : Instr}

theorem exec_hartFence (hc : cmd ∈ [Instr.hartFence h w, .nwFenceCx h w, .nwFenceRg h w]) (s : State) :
    exec cmd s = s.hartFence h w := by
  simp only [List.mem_cons, List.not_mem_nil, or_false] at hc
  obtain rfl | rfl | rfl := hc <;> rfl

theorem State.hartFence_standard (hr : s.running) (hh : s.hartRuns h = true) (hf : (s.hart h).fence = none)
    (hw : isFence w = true) : s.hartFence h w = .next (s.hartWait h ((s.hart h).standardFence w)) := by
  rw [State.hartFence, whenPowered_running hr]
  simp [hh, hf, hw]

theorem isFence_of_custom (hw : w.toNat % 128 = 0x0B) : isFence w = false := by simp [isFence, hw]

theorem State.hartFence_illegal (hr : s.running) (hh : s.hartRuns h = true) (hf : (s.hart h).fence = none)
    (hw : w.toNat % 128 = 0x0B) (hi : xnwIllegal w = true) : s.hartFence h w = .next (s.hartTrap h 2 none) := by
  rw [State.hartFence, whenPowered_running hr]
  simp [hh, hf, hw, isFence_of_custom hw, hi]

theorem State.hartFence_xnw (hr : s.running) (hh : s.hartRuns h = true) (hf : (s.hart h).fence = none)
    (hw : w.toNat % 128 = 0x0B) (hi : xnwIllegal w = false) :
    s.hartFence h w = .next (s.hartWait h ((s.hart h).xnwFence w)) := by
  rw [State.hartFence, whenPowered_running hr]
  simp [hh, hf, hw, isFence_of_custom hw, hi]

theorem State.hartWait_stores (s : State) (h : Nat) (f : HartFence) : ((s.hartWait h f).hart h).stores = (s.hart h).stores := by
  rw [State.hartWait, State.hart_setHart, Hart.settle_stores]

theorem State.hartWait_fence (s : State) (h : Nat) (f : HartFence) : ((s.hartWait h f).hart h).fence ≠ none ↔
    ∃ x ∈ (s.hart h).stores, x.id < f.upto ∧ (x.cacheable || !f.cacheable) = true
      ∧ ((f.stores = true ∧ x.writes = true) ∨ (f.loads = true ∧ x.load = true)) := by
  rw [State.hartWait, State.hart_setHart, Hart.settle_fence_ne_none rfl]

end Fences

/-! #### Bytes of a range of memory -/

theorem localPart_add {pa n i : Nat} (h : localPart pa + n ≤ 2 ^ 49) (hi : i < n) : localPart (pa + i) = localPart pa + i := by
  simp only [localPart] at *
  omega

/-- A range within one line does not reach the end of the address space. -/
theorem localPart_add_le {pa n : Nat} (h : localPart pa % 128 + n ≤ 128) : localPart pa + n ≤ 2 ^ 49 := by
  simp only [localPart] at *
  omega

theorem localPart_mod_line (pa : Nat) : localPart pa % 128 = pa % 128 := by
  simp only [localPart]
  omega

theorem State.sysRead_length (s : State) (pa n : Nat) : (s.sysRead pa n).length = n := by
  rw [State.sysRead, List.length_map, length_upFrom]

/-- A coherent read returns the bytes that stand at its addresses. -/
theorem State.sysRead_eq_of_bytes {s : State} {pa : Nat} {bs : List Byte}
    (h : ∀ i (hi : i < bs.length), s.sysByte (pa + i) = bs[i]) : s.sysRead pa bs.length = bs := by
  refine List.ext_getElem (s.sysRead_length _ _) fun i hi hb => ?_
  simp only [State.sysRead, List.getElem_map, getElem_upFrom]
  exact h i hb

theorem State.sysByte_congr {s t : State} (a : Nat) (hd : t.mem.dirty = s.mem.dirty) (hb : t.mem.bytes = s.mem.bytes)
    (hu : t.mem.undef = s.mem.undef) : t.sysByte a = s.sysByte a := by
  have hblank : t.mem.blank = s.mem.blank := by
    funext x
    rw [Mem.blank, Mem.blank, hu]
  rw [State.sysByte, State.sysByte, State.rawByte, State.rawByte, hd, hb, hblank]

/-- `t` read at `x` after bytes have been put from address `a` on. -/
theorem Tbl.get?_foldl_put {β : Type} (bs : List β) (t : Tbl β) (a x : Nat) :
    ((bs.zip (upFrom a bs.length)).foldl (fun (t : Tbl β) p => t.put p.2 p.1) t).get? x
      = if a ≤ x ∧ x < a + bs.length then bs[x - a]? else t.get? x := by
  induction bs generalizing t a with
  | nil =>
    rw [if_neg (by simp only [List.length_nil]; omega)]
    rfl
  | cons b bs ih =>
    rw [List.length_cons, upFrom, List.zip_cons_cons, List.foldl_cons, ih]
    by_cases hx : x = a
    · subst hx
      rw [if_neg (by omega), if_pos (by omega), Tbl.get?_put_same, Nat.sub_self]
      rfl
    · rw [Tbl.get?_put_other _ _ _ _ hx]
      by_cases hin : a + 1 ≤ x ∧ x < a + 1 + bs.length
      · rw [if_pos hin, if_pos (by omega), show x - a = x - (a + 1) + 1 by omega, List.getElem?_cons_succ]
      · rw [if_neg hin, if_neg (by omega)]

/-! #### The caches of a die that a hart's access passes: R354 -/

/-- What a cache's use of a line leaves: of memory it changes the system-level caches, of the dies their L1 and L2 caches. -/
structure State.Cached (s t : State) : Prop where
  mem : ∃ x, t.mem = { s.mem with slc := x }
  harts : t.pds.harts = s.pds.harts
  out : t.out = s.out

section Caches

variable {s t u : State}

theorem State.Cached.refl (s : State) : s.Cached s := ⟨⟨s.mem.slc, rfl⟩, rfl, rfl⟩

theorem State.Cached.trans (h : s.Cached t) (g : t.Cached u) : s.Cached u := by
  obtain ⟨⟨x, hx⟩, hh, ho⟩ := h
  obtain ⟨⟨y, hy⟩, gh, go⟩ := g
  exact ⟨⟨y, by rw [hy, hx]⟩, gh.trans hh, go.trans ho⟩

theorem State.setSlc_cached (s : State) (p i : Nat) (l : List SlcLine) : s.Cached (s.setSlc p i l) := ⟨⟨_, rfl⟩, rfl, rfl⟩

theorem State.slcUse_cached (s : State) (h line : Nat) : s.Cached (s.slcUse h line) := by
  simp only [State.slcUse]
  split
  · exact State.Cached.refl s
  split
  · exact State.setSlc_cached s _ _ _
  split
  · exact State.setSlc_cached s _ _ _
  split
  · exact State.setSlc_cached s _ _ _
  · exact State.Cached.refl s

theorem State.l2Fill_cached (s : State) (h line : Nat) : s.Cached (s.l2Fill h line) := by
  simp only [State.l2Fill]
  split
  · exact ⟨⟨s.mem.slc, rfl⟩, rfl, rfl⟩
  · refine State.Cached.trans ?_ (State.slcUse_cached _ _ _)
    exact ⟨⟨s.mem.slc, rfl⟩, rfl, rfl⟩

theorem State.l1Fill_cached (s : State) (h line : Nat) : s.Cached (s.l1Fill h line) := by
  simp only [State.l1Fill]
  split <;> exact ⟨⟨s.mem.slc, rfl⟩, rfl, rfl⟩

theorem State.dieUse_cached (s : State) (h line : Nat) : s.Cached (s.dieUse h line) := by
  simp only [State.dieUse]
  split
  · exact State.Cached.refl s
  · split
    · exact State.l1Fill_cached s h line
    · exact ((State.slcUse_cached s h line).trans (State.l2Fill_cached _ h line)).trans (State.l1Fill_cached _ h line)

theorem State.soleCore_cached (s : State) (h line : Nat) : s.Cached (s.soleCore h line) := ⟨⟨s.mem.slc, rfl⟩, rfl, rfl⟩

theorem State.Cached.hart (c : s.Cached t) (h : Nat) : t.hart h = s.hart h := by rw [State.hart, State.hart, c.harts]

theorem State.Cached.holdsOwned (c : s.Cached t) (i line : Nat) : t.holdsOwned i line = s.holdsOwned i line := by
  obtain ⟨x, hx⟩ := c.mem
  simp only [State.holdsOwned, State.ownsLine, State.dirOf, State.tracked, hx]

theorem State.Cached.anyPoison (c : s.Cached t) (pa n : Nat) : t.anyPoison pa n = s.anyPoison pa n := by
  obtain ⟨x, hx⟩ := c.mem
  unfold State.anyPoison State.poisoned
  rw [hx]

theorem State.Cached.bytes (c : s.Cached t) : t.mem.bytes = s.mem.bytes := by
  obtain ⟨x, hx⟩ := c.mem
  rw [hx]

theorem State.Cached.dirty (c : s.Cached t) : t.mem.dirty = s.mem.dirty := by
  obtain ⟨x, hx⟩ := c.mem
  rw [hx]

theorem State.Cached.sysByte (c : s.Cached t) (a : Nat) : t.sysByte a = s.sysByte a := by
  obtain ⟨x, hx⟩ := c.mem
  exact State.sysByte_congr a c.dirty c.bytes (by rw [hx])

theorem State.Cached.sysRead (c : s.Cached t) (pa n : Nat) : t.sysRead pa n = s.sysRead pa n :=
  List.map_congr_left fun a _ => c.sysByte a

/-- An access to a line its die owns, in which the caches find no error, uses the line. -/
theorem State.slcPass_owned {h pa : Nat} {f : Finds} (ho : s.ownsLine (16 + h / 48) (localPart pa / 128) = true)
    (hs : f.slc = .none) (hm : f.sram = none) : s.slcPass h pa f = s.dieUse h (localPart pa / 128) := by
  rw [State.slcPass, if_pos ho, hs, hm]
  rfl

theorem State.ownsLine_of_holdsOwned {i line : Nat} (h : s.holdsOwned i line = true) : s.ownsLine i line = true :=
  (Bool.and_eq_true_iff.mp h).1

end Caches

/-! #### A store into a hart's L1: R407 -/

section Put

variable (s : State) (pa : Nat) (bs : List Byte)

theorem State.hartPut_sysByte_same {i : Nat} (hpa : localPart pa + bs.length ≤ 2 ^ 49) (hi : i < bs.length) :
    (s.hartPut pa bs).sysByte (pa + i) = bs[i] := by
  have hd : (s.hartPut pa bs).mem.dirty.get? (localPart (pa + i)) = some bs[i] := by
    rw [localPart_add hpa hi]
    refine (Tbl.get?_foldl_put bs s.mem.dirty (localPart pa) _).trans ?_
    rw [if_pos (by omega), Nat.add_sub_cancel_left, List.getElem?_eq_getElem hi]
  rw [State.sysByte, hd]

theorem State.hartPut_sysByte_other {a : Nat} (ha : localPart a < localPart pa ∨ localPart pa + bs.length ≤ localPart a) :
    (s.hartPut pa bs).sysByte a = s.sysByte a := by
  have hd : (s.hartPut pa bs).mem.dirty.get? (localPart a) = s.mem.dirty.get? (localPart a) := by
    refine (Tbl.get?_foldl_put bs s.mem.dirty (localPart pa) _).trans ?_
    rw [if_neg (by omega)]
  rw [State.sysByte, hd]
  rfl

theorem State.hartPut_sysRead (hpa : localPart pa + bs.length ≤ 2 ^ 49) : (s.hartPut pa bs).sysRead pa bs.length = bs :=
  State.sysRead_eq_of_bytes fun _ hi => s.hartPut_sysByte_same pa bs hpa hi

end Put

/-! #### Accesses of an idle hart: R407 to R414 -/

section Access

variable {s : State} {h pa n : Nat} {p : Pbmt}

theorem execNonAllocatingRead_hart {a : HartAcc} {e : Ecc} (hr : s.running) :
    exec (.nonAllocatingRead (.agent (.hart h a) pa n) e) s = (s.hartLoad h a pa n e).out s := by
  show execNonAllocatingRead (.agent (.hart h a) pa n) e s = _
  rw [execNonAllocatingRead, whenPowered_running hr]

theorem State.hartMay_idle (hh : s.hartRuns h = true) (hi : (s.hart h).isIdle) (a : HartAcc) (pa n : Nat) (l w : Bool) :
    s.hartMay (.hart h a) pa n l w = true := by
  simp only [State.hartMay, hartOf, hh, hi.canStart, hi.older, Bool.not_false, Bool.and_self]

/-- What one access of a hart that left the module holds in the store buffer. -/
def HartStore.awaits (x : HartStore) (pa : Nat) (t : Target) : Prop :=
  x.load = true ∧ x.writes = false ∧ x.pa = pa ∧ x.target = t ∧ x.device = decide (t = .hostDevice)

/-- A request that leaves for the host's devices or another node touches no hart. -/
theorem State.sendOut_hart {t : Target} (ht : t = .hostDevice ∨ ∃ k, t = .remote k) (s : State) (pa h : Nat) (info : List Nat)
    (bs : List Byte) : (s.sendOut t pa info bs).hart h = s.hart h := by
  have hflit (u : State) (k : Nat) (slots : List Byte) (i : List Nat) : (u.sendFlit k 1 slots i).hart h = u.hart h := by
    rw [State.sendFlit]
    split <;> rfl
  obtain rfl | ⟨k, rfl⟩ := ht
  · rw [State.sendOut]
    split <;> rfl
  · rw [State.sendOut]
    split
    · rfl
    · exact hflit _ _ _ _

section Load

variable {t : Target} {v : Option Nat} {a : HartAcc}

/-- A device takes no load of more than 8 bytes and none into a vector register (R412). -/
theorem State.hartLoad_refused (hh : s.hartRuns h = true) (hi : (s.hart h).isIdle) (hn : 1 ≤ n) (hl : pa % 128 + n ≤ 128)
    (ht : s.target pa = some t) (hd : hartDevice t a.pbmt = true) (hb : 8 < n ∨ a.vec.isSome = true) :
    s.hartLoad h a pa n [] = .next (s.hartTrap h 5 none) := by
  have hbad : (hartDevice t a.pbmt && (decide (8 < n) || a.vec.isSome)) = true := by
    rw [hd, Bool.true_and, Bool.or_eq_true, decide_eq_true_eq]
    exact hb
  simp only [State.hartLoad, State.hartMay_idle hh hi, decide_eq_true hn, decide_eq_true hl, Bool.and_self, whenIt_true, ht, hbad,
    if_true]

theorem State.hartLoad_mmio (hh : s.hartRuns h = true) (hi : (s.hart h).isIdle) (hn : 1 ≤ n) (hl : pa % 128 + n ≤ 128)
    (ht : s.target pa = some .mmio) (hv : a.vec = none) (h8 : n ≤ 8) :
    s.hartLoad h a pa n [] = .next ((s.loadMmio n (localPart pa - mmioBase) n).1.emit
      { kind := .data, args := [512 + h, pa, 0], bytes := (s.loadMmio n (localPart pa - mmioBase) n).2 }) := by
  simp only [State.hartLoad, State.hartMay_idle hh hi, decide_eq_true hn, decide_eq_true hl, Bool.and_self, whenIt_true, ht,
    hartDevice, hv, Option.isSome_none, decide_eq_false (Nat.not_lt.mpr h8), Bool.or_false, Bool.and_false, Bool.false_eq_true,
    if_false, hi.deviceOut]
  rfl

/-- A load from a host device or another node leaves, and its access is held until the answer comes (R234, R412). -/
theorem State.hartLoad_leaves (hh : s.hartRuns h = true) (hi : (s.hart h).isIdle) (hn : 1 ≤ n) (hl : pa % 128 + n ≤ 128)
    (ht : s.target pa = some t) (hv : a.vec = none) (h8 : n ≤ 8) (hout : t = .hostDevice ∨ ∃ k, t = .remote k) :
    s.hartLoad h a pa n []
      = .next ((s.hartEnter h pa (List.replicate n 0) t false (hartDevice t a.pbmt) true false false a.vec).sendOut t pa [0] []) := by
  obtain rfl | ⟨k, rfl⟩ := hout
  all_goals
    simp only [State.hartLoad, State.hartMay_idle hh hi, decide_eq_true hn, decide_eq_true hl, Bool.and_self, whenIt_true, ht,
      hartDevice, hv, Option.isSome_none, decide_eq_false (Nat.not_lt.mpr h8), Bool.or_false, Bool.and_false, Bool.false_eq_true,
      if_false, hi.deviceOut]
    rfl

/-- The access that such a load opens. -/
theorem State.hartEnter_load_awaits (hi : (s.hart h).isIdle) (hout : t = .hostDevice ∨ ∃ k, t = .remote k) (bs : List Byte) :
    ∃ x, ((s.hartEnter h pa bs t false (hartDevice t p) true false false v).hart h).stores = [x] ∧ x.awaits pa t := by
  rw [State.hartEnter, State.hart_setHart, hi.2]
  refine ⟨_, rfl, rfl, rfl, rfl, rfl, ?_⟩
  obtain rfl | ⟨k, rfl⟩ := hout <;> rfl

end Load

end Access

section Store

variable {s : State} {h pa : Nat} {src : HartData} {f : Finds} {p : Pbmt} {t : Target} {bs : List Byte}

section Turn

variable (hr : s.running) (hh : s.hartRuns h = true) (h1 : 1 ≤ (hartBytes src (s.hart h)).length)
  (h2 : (hartBytes src (s.hart h)).length ≤ 128)
include hr hh h1 h2

/-- A store no range takes raises an access fault once no older fence waits (R151, R244). -/
theorem exec_hartStore_nowhere (ht : s.hartTarget pa (hartBytes src (s.hart h)).length = none) :
    exec (.hartStore h pa ⟨src, f⟩ p) s = ((s.hart h).trapTurn (s.hartTrap h 7 none)).out s := by
  show execHartStore h pa ⟨src, f⟩ p s = _
  simp only [execHartStore, whenPowered_running hr, hh, decide_eq_true h1, decide_eq_true h2, Bool.and_self, whenIt_true, ht]

/-- A store within one range is performed as one part, unless it is to a device that does not take it (R412). -/
theorem exec_hartStore_one (ht : s.hartTarget pa (hartBytes src (s.hart h)).length = some (t, none)) :
    exec (.hartStore h pa ⟨src, f⟩ p) s =
      if (hartDevice t p && (hartVector src || decide (8 < (hartBytes src (s.hart h)).length))) = true then
        ((s.hart h).trapTurn (s.hartTrap h 7 none)).out s
      else (s.storePart h pa (hartBytes src (s.hart h)) f p t).out s := by
  show execHartStore h pa ⟨src, f⟩ p s = _
  simp only [execHartStore, whenPowered_running hr, hh, decide_eq_true h1, decide_eq_true h2, Bool.and_self, whenIt_true, ht]
  split <;> rfl

/-- A device does not take a store of more than 8 bytes, or of a vector (R412). -/
theorem exec_hartStore_refused {x : Option (Nat × Target)}
    (ht : s.hartTarget pa (hartBytes src (s.hart h)).length = some (t, x)) (hd : hartDevice t p = true)
    (hb : hartVector src = true ∨ 8 < (hartBytes src (s.hart h)).length) :
    exec (.hartStore h pa ⟨src, f⟩ p) s = ((s.hart h).trapTurn (s.hartTrap h 7 none)).out s := by
  have hbad : (hartDevice t p && (hartVector src || decide (8 < (hartBytes src (s.hart h)).length))) = true := by
    rw [hd, Bool.true_and, Bool.or_eq_true, decide_eq_true_eq]
    exact hb
  cases x with
  | none => rw [exec_hartStore_one hr hh h1 h2 ht, if_pos hbad]
  | some x =>
    obtain ⟨b, u⟩ := x
    show execHartStore h pa ⟨src, f⟩ p s = _
    simp only [execHartStore, whenPowered_running hr, hh, decide_eq_true h1, decide_eq_true h2, Bool.and_self, whenIt_true, ht,
      hbad, Bool.true_or, if_true]

/-- A store to a range that is no device is performed there as one part. -/
theorem exec_hartStore_taken (ht : s.hartTarget pa (hartBytes src (s.hart h)).length = some (t, none))
    (hd : hartDevice t p = false) :
    exec (.hartStore h pa ⟨src, f⟩ p) s = (s.storePart h pa (hartBytes src (s.hart h)) f p t).out s := by
  rw [exec_hartStore_one hr hh h1 h2 ht, hd, Bool.false_and, if_neg Bool.false_ne_true]

/-- A store over the boundary of two ranges is performed in two parts (R410). -/
theorem exec_hartStore_two {b : Nat} {t u : Target} {x y : State}
    (ht : s.hartTarget pa (hartBytes src (s.hart h)).length = some (t, some (b, u)))
    (hd : hartDevice t p = false) (hd' : hartDevice u p = false)
    (hx : s.storePart h pa ((hartBytes src (s.hart h)).take (b - pa)) f p t = .next x)
    (hy : x.storePart h b ((hartBytes src (s.hart h)).drop (b - pa)) f p u = .next y) :
    exec (.hartStore h pa ⟨src, f⟩ p) s = .next y := by
  show execHartStore h pa ⟨src, f⟩ p s = _
  simp only [execHartStore, whenPowered_running hr, hh, decide_eq_true h1, decide_eq_true h2, Bool.and_self, whenIt_true, ht,
    hd, hd', Bool.false_and, Bool.or_false, Bool.false_eq_true, if_false, hx, hy, Act.out_next]

/-- A fence that holds a store back keeps it from performing and from faulting (R404). -/
theorem exec_hartStore_fenced {g : HartFence} (hg : (s.hart h).fence = some g)
    (ht : s.hartTarget pa (hartBytes src (s.hart h)).length = some (t, none))
    (hk : g.holds (hartCacheable t p) false true = true) : exec (.hartStore h pa ⟨src, f⟩ p) s = .next s := by
  have hs : (s.hart h).canStart (hartCacheable t p) false true = false := by simp only [Hart.canStart, hg, hk]; rfl
  rw [exec_hartStore_one hr hh h1 h2 ht]
  split
  · rw [Hart.trapTurn_fenced hg, Act.out_stay]
  · simp only [State.storePart, hs, whenIt_false, Act.out_stay]

end Turn

/-! #### One part of a store -/

/-- A cacheable store enters the store buffer, and performs when its die owns the line (R407). -/
theorem State.storePart_cacheable (hi : (s.hart h).isIdle) (hc : hartCacheable t p = true) :
    s.storePart h pa bs f p t = .next ((((s.slcPass h pa f).hartEnter h pa bs t true false false true false).askHost h pa t).drainHart h) := by
  simp only [State.storePart, hi.canStart, whenIt_true, hc, if_true]

theorem State.storePart_window (hi : (s.hart h).isIdle) (c : Nat) :
    s.storePart h pa bs f p (.window c) = .next (s.windowStore c (localPart pa - windowBase c) bs) := by
  simp only [State.storePart, hi.canStart, whenIt_true, hartCacheable, hi.older, hi.deviceOut, Bool.and_false, Bool.not_false,
    Bool.and_true]
  rfl

theorem State.storePart_remote (hi : (s.hart h).isIdle) (k : Nat) : s.storePart h pa bs f p (.remote k)
    = .next ((s.hartEnter h pa bs (.remote k) false false false true false).sendOut (.remote k) pa [1] bs) := by
  simp only [State.storePart, hi.canStart, whenIt_true, hartCacheable, hi.older, hi.deviceOut, Bool.and_false, Bool.not_false,
    Bool.and_true]
  rfl

/-- A store that is not cacheable goes to its home, where the hart waits for it (R414). -/
theorem State.storePart_home (hi : (s.hart h).isIdle) (hl : pa % 128 + bs.length ≤ 128) :
    s.storePart h pa bs f .nc .tiered = ((s.hartEnter h pa bs .tiered false false false true false).reqArrive
      { line := localPart pa / 128, kind := .naWrite pa bs, who := .hart h { off := 0, n := 0 }, e := f.e
        tag := (s.hart h).nextId }).andThen State.afterAll := by
  have hc : hartCacheable .tiered .nc = false := rfl
  have hd : hartDevice .tiered .nc = false := rfl
  simp only [State.storePart, hi.canStart, whenIt_true, hc, hd, hi.older, hi.deviceOut, Bool.and_false, Bool.not_false,
    Bool.and_true, Bool.false_eq_true, if_false, hl, if_true]

theorem State.trimCheck_pds (s : State) : s.trimCheck.pds = s.pds := by
  simp only [State.trimCheck, State.setRegBit, State.setReg]
  split
  · rw [State.withRegs_pds]
  · rfl

theorem State.wakeCore_pds (s : State) (c : Nat) : (s.wakeCore c).pds = s.pds := by
  simp only [State.wakeCore]
  split
  · exact State.trimCheck_pds _
  · rfl

theorem State.portUsed_pds (s : State) (c : Nat) : (s.portUsed c).pds = s.pds := rfl

theorem State.scrWrite_pds (s : State) (c o : Nat) (bs : List Byte) : (s.scrWrite c o bs).pds = s.pds := rfl

theorem State.windowStore_hart (s : State) (c o : Nat) (bs : List Byte) (h : Nat) : (s.windowStore c o bs).hart h = s.hart h := by
  rw [State.hart, State.windowStore, State.scrWrite_pds, State.portUsed_pds, State.wakeCore_pds, State.hart]

/-- The part of a store in a second window is performed as the first one was (R410). -/
theorem State.storePart_windows (hi : (s.hart h).isIdle) (c o b : Nat) (bs cs : List Byte) :
    (s.windowStore c o bs).storePart h b cs f p (.window (c + 1))
      = .next ((s.windowStore c o bs).windowStore (c + 1) (localPart b - windowBase (c + 1)) cs) :=
  State.storePart_window (by rw [Hart.isIdle, State.windowStore_hart]; exact hi) (c + 1)

/-! #### A cacheable store and its die: R407 -/

/-- The store buffer of a hart that holds one cacheable store. -/
def HartStore.isStore (x : HartStore) (pa : Nat) (bs : List Byte) : Prop :=
  x.pa = pa ∧ x.bytes = bs ∧ x.cacheable = true ∧ x.load = false

theorem State.askHost_tiered (s : State) (h pa : Nat) : s.askHost h pa .tiered = s := rfl

theorem State.hartEnter_isStore (hi : (s.hart h).isIdle) : ∃ x,
    ((s.hartEnter h pa bs .tiered true false false true false).hart h).stores = [x] ∧ x.isStore pa bs := by
  rw [State.hartEnter, State.hart_setHart, hi.2]
  exact ⟨_, rfl, rfl, rfl, rfl, rfl⟩

theorem State.holdsOwned_setHart (s : State) (h i line : Nat) (k : Hart) :
    (s.setHart h k).holdsOwned i line = s.holdsOwned i line := rfl

/-- The lines of a store within one line. -/
theorem linesOf_localPart (h1 : 1 ≤ bs.length) (hl : localPart pa % 128 + bs.length ≤ 128) :
    linesOf (localPart pa) bs.length = [localPart pa / 128] := linesOf_within h1 hl

section Drain

variable {x : HartStore} (hs : (s.hart h).stores = [x]) (hx : x.isStore pa bs) (h1 : 1 ≤ bs.length)
  (hl : localPart pa % 128 + bs.length ≤ 128)
include hs hx h1 hl

/-- A store whose die does not own the line stays in the buffer. -/
theorem State.drainHart_waits (ho : s.holdsOwned (16 + h / 48) (localPart pa / 128) = false) :
    s.drainHart h = s.setHart h (s.hart h).settle := by
  obtain ⟨hpa, hb, hc, hld⟩ := hx
  simp only [State.drainHart, hs, List.foldl_cons, List.foldl_nil, hpa, hb, linesOf_localPart h1 hl, List.all_cons,
    List.all_nil, ho, Bool.false_and, Bool.and_false, Bool.false_eq_true, if_false, List.nil_append]
  rw [show ({ s.hart h with stores := [x] } : Hart) = s.hart h from by rw [← hs]]

/-- A store whose die owns the line performs in the hart's L1, and leaves the buffer. -/
theorem State.drainHart_performs (ho : s.holdsOwned (16 + h / 48) (localPart pa / 128) = true) :
    s.drainHart h = ((((s.dieUse h (localPart pa / 128)).soleCore h (localPart pa / 128)).hartPut pa bs).setHart h
      ({ s.hart h with stores := [] }).settle) := by
  obtain ⟨hpa, hb, hc, hld⟩ := hx
  simp only [State.drainHart, hs, List.foldl_cons, List.foldl_nil, hpa, hb, linesOf_localPart h1 hl, List.all_cons,
    List.all_nil, ho, hc, hld, Bool.not_false, Bool.and_true, List.any_nil, if_true, State.hartPerform]

end Drain

/-- A cacheable store to a line the die does not own waits in the buffer, and changes no memory. -/
theorem exec_hartStore_waits (hi : (s.hart h).isIdle) (h1 : 1 ≤ bs.length) (hl : localPart pa % 128 + bs.length ≤ 128)
    (ho : s.ownsLine (16 + h / 48) (localPart pa / 128) = false) : ∃ t : State,
      s.storePart h pa bs f .pma .tiered = .next t ∧ t.mem = s.mem ∧ ∃ x, (t.hart h).stores = [x] ∧ x.isStore pa bs := by
  rw [State.storePart_cacheable hi rfl, State.slcPass, if_neg (by simp [ho]), State.askHost_tiered]
  obtain ⟨x, hs, hx⟩ := State.hartEnter_isStore (s := s) (pa := pa) (bs := bs) hi
  have hn : (s.hartEnter h pa bs .tiered true false false true false).holdsOwned (16 + h / 48) (localPart pa / 128) = false := by
    rw [State.hartEnter, State.holdsOwned_setHart, State.holdsOwned, ho, Bool.false_and]
  rw [State.drainHart_waits hs hx h1 hl hn]
  refine ⟨_, rfl, rfl, x, ?_, hx⟩
  rw [State.hart_setHart, Hart.settle_stores, hs]

/-- A cacheable store to a line the die owns is seen by coherent reads at once, and stays out of memory. -/
theorem exec_hartStore_performs (hi : (s.hart h).isIdle) (h1 : 1 ≤ bs.length) (hl : localPart pa % 128 + bs.length ≤ 128)
    (ho : s.holdsOwned (16 + h / 48) (localPart pa / 128) = true) (hf : f.slc = .none) (hm : f.sram = none) : ∃ t : State,
      s.storePart h pa bs f .pma .tiered = .next t ∧ t.sysRead pa bs.length = bs ∧ t.mem.bytes = s.mem.bytes
        ∧ (t.hart h).stores = []
        ∧ ∀ a, localPart a < localPart pa ∨ localPart pa + bs.length ≤ localPart a → t.sysByte a = s.sysByte a := by
  rw [State.storePart_cacheable hi rfl, State.slcPass_owned (State.ownsLine_of_holdsOwned ho) hf hm, State.askHost_tiered]
  have hc := State.dieUse_cached s h (localPart pa / 128)
  obtain ⟨x, hs, hx⟩ := State.hartEnter_isStore (s := s.dieUse h (localPart pa / 128)) (h := h) (pa := pa) (bs := bs)
    (by rw [Hart.isIdle, hc.hart]; exact hi)
  have hn : ((s.dieUse h (localPart pa / 128)).hartEnter h pa bs .tiered true false false true false).holdsOwned (16 + h / 48)
      (localPart pa / 128) = true := by
    rw [State.hartEnter, State.holdsOwned_setHart, hc.holdsOwned, ho]
  rw [State.drainHart_performs hs hx h1 hl hn]
  have hu := (State.dieUse_cached ((s.dieUse h (localPart pa / 128)).hartEnter h pa bs .tiered true false false true false) h
    (localPart pa / 128)).trans (State.soleCore_cached _ h (localPart pa / 128))
  have hbyte (a : Nat) : ((((s.dieUse h (localPart pa / 128)).hartEnter h pa bs .tiered true false false true false).dieUse h
      (localPart pa / 128)).soleCore h (localPart pa / 128)).sysByte a = s.sysByte a := (hu.sysByte a).trans (hc.sysByte a)
  refine ⟨_, rfl, State.hartPut_sysRead _ pa bs (localPart_add_le hl), ?_, ?_, fun a ha => ?_⟩
  · exact hu.bytes.trans hc.bytes
  · rw [State.hart_setHart, Hart.settle_stores]
  · exact (State.hartPut_sysByte_other _ pa bs ha).trans (hbyte a)

end Store

section Amo

variable {s : State} {h pa : Nat} {op : HartAmo} {wide : Bool} {v : BitVec 64} {o : HartOrder} {f : Finds} {p : Pbmt} {t : Target}

/-! #### Atomics of a hart: R411, R413 -/

/-- The bytes of an AMO. -/
def amoLen (wide : Bool) : Nat := if wide then 8 else 4

/-- The operand of an AMO, in its width. -/
def amoArg (wide : Bool) (v : BitVec 64) : Nat := v.toNat % 2 ^ (8 * amoLen wide)

theorem ite_lrsc (op : HartAmo) (a b : Nat) : (if (op == .lrsc) = true then a else b) = if op = .lrsc then a else b := by
  simp only [beq_iff_eq]

section Turn

variable (hr : s.running) (hh : s.hartRuns h = true) (hi : (s.hart h).isIdle)
include hr hh hi

theorem exec_hartAmo_misaligned (ha : pa % amoLen wide ≠ 0) :
    exec (.hartAmo h pa ⟨op, o, f⟩ wide v p) s = .next (s.hartTrap h (if op = .lrsc then 4 else 6) none) := by
  show execHartAmo h pa ⟨op, o, f⟩ wide v p s = _
  rw [amoLen] at ha
  simp only [execHartAmo, whenPowered_running hr, hh, whenIt_true, if_pos ha, hi.trapTurn, Act.out_next, ite_lrsc]

theorem exec_hartAmo_nowhere (ha : pa % amoLen wide = 0) (ht : s.target pa = none) :
    exec (.hartAmo h pa ⟨op, o, f⟩ wide v p) s = .next (s.hartTrap h (if op = .lrsc then 5 else 7) none) := by
  show execHartAmo h pa ⟨op, o, f⟩ wide v p s = _
  rw [amoLen] at ha
  simp only [execHartAmo, whenPowered_running hr, hh, whenIt_true, ha, ne_eq, not_true_eq_false, if_false, ht, hi.trapTurn,
    Act.out_next, ite_lrsc]

/-- A place where the atomic cannot be made: a device's registers, host memory that the hart may not cache, and for LR/SC whatever
it may not cache (R411). -/
theorem exec_hartAmo_refused (ha : pa % amoLen wide = 0) (ht : s.target pa = some t)
    (hf : ((t == .mmio || t == .hostDevice || (t == .host && !hartCacheable t p)) || (op == .lrsc && !hartCacheable t p)) = true) :
    exec (.hartAmo h pa ⟨op, o, f⟩ wide v p) s = .next (s.hartTrap h (if op = .lrsc then 5 else 7) none) := by
  show execHartAmo h pa ⟨op, o, f⟩ wide v p s = _
  have hf' : (!(t != .mmio && t != .hostDevice && !(t == .host && !hartCacheable t p)) || (op == .lrsc && !hartCacheable t p)) = true := by
    simpa only [bne, Bool.not_and, Bool.not_or, Bool.not_not] using hf
  rw [amoLen] at ha
  simp only [execHartAmo, whenPowered_running hr, hh, whenIt_true, ha, ne_eq, not_true_eq_false, if_false, ht, hf', if_true,
    hi.trapTurn, Act.out_next, ite_lrsc]

theorem exec_hartAmo_window {c : Nat} (ha : pa % amoLen wide = 0) (ht : s.target pa = some (.window c)) (hop : op ≠ .lrsc) :
    exec (.hartAmo h pa ⟨op, o, f⟩ wide v p) s = .next (s.windowAmo h c pa op (amoLen wide) (amoArg wide v)) := by
  show execHartAmo h pa ⟨op, o, f⟩ wide v p s = _
  have hc : hartCacheable (.window c) p = false := rfl
  have hl : (op == .lrsc) = false := beq_false_of_ne hop
  rw [amoLen] at ha
  simp only [execHartAmo, whenPowered_running hr, hh, whenIt_true, ha, ne_eq, not_true_eq_false, if_false, ht, hc, hl,
    hi.canStart, hi.older, hi.deviceOut, hi.2, List.isEmpty_nil, Bool.not_true, Bool.not_false, Bool.and_false,
    Bool.and_true]
  rfl

/-- An AMO of a line the die owns is made in its cache (R411). -/
theorem exec_hartAmo_owned (ha : pa % amoLen wide = 0) (ht : s.target pa = some .tiered)
    (ho : s.holdsOwned (16 + h / 48) (localPart pa / 128) = true) (hs : f.slc = .none) (hm : f.sram = none) :
    exec (.hartAmo h pa ⟨op, o, f⟩ wide v .pma) s
      = .next ((s.dieUse h (localPart pa / 128)).cacheAmo h pa op (amoLen wide) (amoArg wide v) .tiered) := by
  show execHartAmo h pa ⟨op, o, f⟩ wide v .pma s = _
  have hc : hartCacheable .tiered .pma = true := rfl
  have how := State.ownsLine_of_holdsOwned ho
  have hu : ((s.dieUse h (localPart pa / 128)).ownsLine (16 + h / 48) (localPart pa / 128)
      && !(s.dieUse h (localPart pa / 128)).mem.lost.contains (localPart pa / 128)) = true :=
    ((State.dieUse_cached s h _).holdsOwned _ _).trans ho
  rw [amoLen] at ha
  simp only [execHartAmo, whenPowered_running hr, hh, whenIt_true, ha, ne_eq, not_true_eq_false, if_false, ht, hc,
    hi.canStart, hi.older, hi.deviceOut, hi.2, List.isEmpty_nil, Bool.not_true, Bool.not_false, Bool.and_false,
    Bool.and_true, if_true, how, State.slcPass_owned how hs hm, hu]
  rfl

end Turn

/-- An AMO lies within one line. -/
theorem amoLen_within (ha : pa % amoLen wide = 0) : localPart pa % 128 + amoLen wide ≤ 128 := by
  rw [localPart_mod_line]
  cases wide <;> simp only [amoLen, Bool.false_eq_true, if_false, if_true] at ha ⊢ <;> omega

/-- On poison the hart takes a hardware error, and memory stays as it is. -/
theorem State.cacheAmo_poisoned {n x : Nat} (hp : s.anyPoison pa n = true) :
    s.cacheAmo h pa op n x t = s.hartTrap h 19 (some pa) := by rw [State.cacheAmo, if_pos hp]

/-- The old value leaves for the hart, and the new one is what a coherent read returns. -/
theorem State.cacheAmo_clean {n x : Nat} (hp : s.anyPoison pa n = false) (hn : localPart pa + n ≤ 2 ^ 49) :
    (s.cacheAmo h pa op n x .tiered).sysRead pa n = toBytes n (amoNew op (8 * n) (ofBytes (s.sysRead pa n)) x)
      ∧ (s.cacheAmo h pa op n x .tiered).out
          = { kind := .data, args := [16 + h / 48, pa, 0], bytes := s.sysRead pa n } :: s.out
      ∧ (s.cacheAmo h pa op n x .tiered).mem.bytes = s.mem.bytes := by
  have hb : s.lineBytes pa n .tiered = (s, s.sysRead pa n) := rfl
  rw [State.cacheAmo, if_neg (by rw [hp]; exact Bool.false_ne_true), hb]
  refine ⟨?_, rfl, rfl⟩
  have hput := State.hartPut_sysRead (s.soleCore h (localPart pa / 128)) pa
    (toBytes n (amoNew op (8 * n) (ofBytes (s.sysRead pa n)) x)) (by rw [length_toBytes]; exact hn)
  rw [length_toBytes] at hput
  exact hput

end Amo

/-! #### An access whose target does not answer: R235, R238 -/

section Timeout

variable {s : State} {h : Nat} {x : HartStore}

/-- The state in which a hart's access has timed out, before others go on: it has left the buffer, and a load has all ones. -/
def State.hartGivesUp (s : State) (h : Nat) (x : HartStore) : State :=
  let u := s.log { errRec (s.path (4 + h / 48) (h / 24 % 2) (h / 8 % 3) (h % 8) 0) 0x0A 2 with opKind := 3, syndrome := x.pa }
  let u := u.setHart h ({ s.hart h with stores := (s.hart h).stores.filter (fun y => y.id != x.id) }).settle
  let u := if x.load then u.amoResult h x.pa (x.bytes.map (fun _ => 0xFF)) else u
  u.msi h 0 (u.regN (rPd (h / 48) 0x20) % 2 ^ 9)

theorem exec_processorDeviceTimeout (hr : s.running) (hx : (s.hart h).stores.find? (fun y => y.id == x.id) = some x)
    (ht : s.timedOut x.target x.sent = true) :
    exec (.processorDeviceTimeout h x.id) s = .next (s.hartGivesUp h x).hartDrain := by
  show execProcessorDeviceTimeout h x.id s = _
  simp only [execProcessorDeviceTimeout, whenPowered_running hr, hx, withSome_some, ht, whenIt_true, Act.out_next]
  rfl

theorem State.msi_harts (s : State) (h f i : Nat) : (s.msi h f i).pds.harts = s.pds.harts := by
  simp only [State.msi]
  repeat' split
  all_goals rfl

theorem State.msi_out (s : State) (h f i : Nat) : (s.msi h f i).out = s.out := by
  simp only [State.msi]
  repeat' split
  all_goals rfl

theorem State.hartGivesUp_stores (s : State) (h : Nat) (x : HartStore) :
    ((s.hartGivesUp h x).hart h).stores = (s.hart h).stores.filter (fun y => y.id != x.id) := by
  have hm (u : State) (i : Nat) : (u.msi h 0 i).hart h = u.hart h := by rw [State.hart, State.msi_harts, State.hart]
  rw [State.hartGivesUp, hm]
  have ha (u : State) : (if x.load then u.amoResult h x.pa (x.bytes.map (fun _ => 0xFF)) else u).hart h = u.hart h := by
    split <;> rfl
  rw [ha, State.hart_setHart, Hart.settle_stores]

theorem State.hartGivesUp_out (hl : x.load = true) : ∃ o, (s.hartGivesUp h x).out
    = { kind := .data, args := [16 + h / 48, x.pa, 0], bytes := x.bytes.map (fun _ => 0xFF) } :: o := by
  simp only [State.hartGivesUp, State.msi_out, hl, if_true]
  exact ⟨_, rfl⟩

end Timeout

end Sys2Proof.Machine

end

section

/-!
### Requests that their homes perform on arrival: R339, R340
-/

namespace Sys2Proof.Machine

/-! #### What the homes count and move aside: R254, R262, R331 -/

/-- A filter on keys, read at a key. -/
theorem Tbl.get?_filter {β : Type} (p : Nat → Bool) (t : Tbl β) (k : Nat) :
    (t.filter (fun a _ => p a)).get? k = if p k then t.get? k else none := by
  induction t with
  | nil => simp only [Tbl.filter, List.filter_nil, Tbl.get?, ite_self]
  | cons e t ih =>
    obtain ⟨k', v⟩ := e
    by_cases hk : k' = k
    · subst hk
      by_cases hp : p k' = true
      · simp only [Tbl.filter, List.filter_cons, hp, if_true, Tbl.get?]
      · rw [Bool.not_eq_true] at hp
        have hr : Tbl.get? (Tbl.filter (fun a _ => p a) t) k' = none := by rw [ih, hp, if_neg Bool.false_ne_true]
        simpa only [Tbl.filter, List.filter_cons, hp, Bool.false_eq_true, if_false] using hr
    · have hr : Tbl.get? (Tbl.filter (fun a _ => p a) ((k', v) :: t)) k = Tbl.get? (Tbl.filter (fun a _ => p a) t) k := by
        simp only [Tbl.filter, List.filter_cons]
        split
        · simp only [Tbl.get?, hk, if_false]
        · rfl
      rw [hr, ih]
      simp only [Tbl.get?, hk, if_false]

/-- `t` is `s` but for registers, the peel unit's tables, power, and the count of draws: what homes keep for other units. -/
def State.Aside (s t : State) : Prop := ∃ r p q k, t = (((s.withRegs r).withPeel p).withPower q).withFresh k

namespace State.Aside

variable {s t u : State}

theorem refl (s : State) : s.Aside s := ⟨s.regs, s.peel, s.power, s.fresh, rfl⟩

theorem trans (h : s.Aside t) (g : t.Aside u) : s.Aside u := by
  obtain ⟨r, p, q, k, rfl⟩ := h
  obtain ⟨r', p', q', k', rfl⟩ := g
  exact ⟨r', p', q', k', rfl⟩

theorem ite {p : Prop} [Decidable p] (h : s.Aside t) (g : s.Aside u) : s.Aside (if p then t else u) := by
  split
  · exact h
  · exact g

theorem withRegs (s : State) (r : Regs) : s.Aside (s.withRegs r) := ⟨r, s.peel, s.power, s.fresh, rfl⟩

theorem withPeel (s : State) (p : Peel) : s.Aside (s.withPeel p) := ⟨s.regs, p, s.power, s.fresh, rfl⟩

theorem withPower (s : State) (q : Power) : s.Aside (s.withPower q) := ⟨s.regs, s.peel, q, s.fresh, rfl⟩

theorem draw (s : State) : s.Aside s.draw.1 := ⟨s.regs, s.peel, s.power, s.fresh + 1, rfl⟩

theorem mem (h : s.Aside t) : t.mem = s.mem := by
  obtain ⟨r, p, q, k, rfl⟩ := h
  rfl

theorem pds (h : s.Aside t) : t.pds = s.pds := by
  obtain ⟨r, p, q, k, rfl⟩ := h
  rfl

theorem cores (h : s.Aside t) : t.cores = s.cores := by
  obtain ⟨r, p, q, k, rfl⟩ := h
  rfl

theorem hart (h : s.Aside t) (n : Nat) : t.hart n = s.hart n := by rw [State.hart, State.hart, h.pds]

theorem wakeCtl (s : State) (n : Nat) : s.Aside (s.wakeCtl n) := ite (withPower s _) (refl s)

theorem enrol (s : State) (b source ctx : Nat) : s.Aside (s.enrol b source ctx) :=
  ite (refl s) (ite ((withPeel s _).trans (withPeel _ _)) ((withPeel s _).trans (withRegs _ _)))

theorem count (s : State) (pa : Nat) : s.Aside (s.count pa) := by
  simp only [State.count]
  refine (ite (p := s.power.gated.isEmpty = true) (refl s) (wakeCtl s (s.homeOf pa).1)).trans ?_
  exact ite (withPeel _ _) (ite ((withPeel _ _).trans (enrol _ _ _ _)) (withPeel _ _))

theorem mirror (s : State) (pa n : Nat) : s.Aside (s.mirror pa n) := by
  simp only [State.mirror]
  split
  · exact refl s
  · exact (draw s).trans (ite ((withPeel _ _).trans (wakeCtl _ _)) (withPeel _ _))

end State.Aside

/-! #### Requests counted where no record follows -/

section Touch

variable {s : State}

/-- Counting a request of a block whose counter does not wrap, with every domain powered, changes the block's counters. -/
theorem State.count_room {pa : Nat} (hg : s.power.gated = [])
    (hn : (s.remap (blockOf pa)).subs.getD (fun _ => 0) (s.homeOf pa).1 < 63) :
    ∃ r, s.count pa = s.setRemap (blockOf pa) r := by
  simp only [State.count, hg, List.isEmpty_nil, if_true, hn]
  exact ⟨_, rfl⟩

/-- With no record waiting, counting such a request is all that its access does. -/
theorem State.touch_room {pa : Nat} (hg : s.power.gated = [])
    (hn : (s.remap (blockOf pa)).subs.getD (fun _ => 0) (s.homeOf pa).1 < 63) (hw : s.ras.waiting = []) (hh : s.peel.hot = []) :
    s.Aside (s.touch pa) := by
  obtain ⟨r, hr⟩ := State.count_room hg hn
  have hi : ((s.setRemap (blockOf pa) r).ras.waiting).isEmpty = true := by
    show s.ras.waiting.isEmpty = true
    rw [hw]
    rfl
  have hz : 2 * (s.setRemap (blockOf pa) r).peel.hot.length = 0 := by
    show 2 * s.peel.hot.length = 0
    rw [hh]
    rfl
  rw [State.touch, hr, State.recordsOut, if_pos hi, hz]
  exact State.Aside.withPeel s _

theorem State.recordsOff_setRemap (h : s.recordsOff) (b : Nat) (r : Remap) : (s.setRemap b r).recordsOff := h

theorem State.recordsOff_wakeCtl (h : s.recordsOff) (n : Nat) : (s.wakeCtl n).recordsOff := by
  rw [State.wakeCtl]
  split <;> exact h

theorem State.recordsOff_ite {p : Prop} [Decidable p] {t : State} (h : s.recordsOff) (g : t.recordsOff) :
    (if p then s else t).recordsOff := by
  split
  · exact h
  · exact g

theorem State.recordsOff_count (h : s.recordsOff) (pa : Nat) : (s.count pa).recordsOff := by
  have hg := State.recordsOff_ite (p := s.power.gated.isEmpty = true) h (State.recordsOff_wakeCtl h (s.homeOf pa).1)
  simp only [State.count]
  generalize (if s.power.gated.isEmpty = true then s else s.wakeCtl (s.homeOf pa).1) = u at hg ⊢
  exact State.recordsOff_ite (State.recordsOff_setRemap hg _ _) (State.recordsOff_ite
    (State.enrol_recordsOff (State.recordsOff_setRemap hg _ _) _ _ _).1 (State.recordsOff_setRemap hg _ _))

/-- Where no record is written, the access of a request is its counting. -/
theorem State.touch_eq_count (h : s.recordsOff) (pa : Nat) : s.touch pa = s.count pa :=
  State.recordsOut_of_hubKeeps (State.recordsOff_count h pa).hubKeeps

end Touch

/-! #### Bytes at the homes -/

section Bytes

variable {s : State} {line : Nat}

theorem State.overwrite_flaws (s : State) (secs : List Nat) : ∃ F, (∀ f ∈ F, f ∈ s.mem.flaws)
    ∧ s.overwrite secs = s.withMem { s.mem with flaws := F } := by
  rw [State.overwrite]
  split
  · exact ⟨s.mem.flaws, fun _ h => h, rfl⟩
  · exact ⟨_, fun _ h => (List.mem_filter.mp h).1, rfl⟩

/-- A line without bad check bits is read without a find. -/
theorem State.checkLine_good (h : ∀ f ∈ s.mem.flaws, f.sector / 4 ≠ line) : s.checkLine line = s := by
  have hn : s.mem.flaws.find? (fun f => f.sector / 4 == line) = none :=
    List.find?_eq_none.mpr fun f hf => by simpa only [beq_iff_eq] using h f hf
  rw [State.checkLine]
  cases s.mem.flaws.length with
  | zero => rfl
  | succ n => simp only [State.findFlaws, hn]

/-- The home's own recalls and eviction notices access no memory. -/
def HomeReq.reads (r : HomeReq) : Prop := r.kind ≠ .evict ∧ r.kind ≠ .clear ∧ ∀ i, r.kind ≠ .leave i

/-- The access of a request to a line whose check bits are good is its counting. -/
theorem State.reqAccess_good {r : HomeReq} (hr : r.reads) (he : r.e = []) (h : ∀ f ∈ s.mem.flaws, f.sector / 4 ≠ r.line) :
    ∃ F, (∀ f ∈ F, f ∈ s.mem.flaws) ∧ s.reqAccess r = (s.withMem { s.mem with flaws := F }).touch (r.line * 128) := by
  obtain ⟨hev, hcl, hlv⟩ := hr
  obtain ⟨F, hF, ho⟩ := s.overwrite_flaws (s.reqWhole r)
  refine ⟨F, hF, ?_⟩
  have hc : (s.withMem { s.mem with flaws := F }).checkLine r.line = s.withMem { s.mem with flaws := F } :=
    State.checkLine_good fun f hf => h f (hF f hf)
  rw [State.reqAccess, he, State.noteFlaws, List.isEmpty_nil, if_pos rfl, ho, hc]
  split
  case h_1 hk => exact absurd hk hev
  case h_2 hk => exact absurd hk hcl
  case h_3 hk => exact absurd hk (hlv _)
  case h_4 => rfl

/-- Without bytes that an owner holds modified, a line is not written back. -/
theorem State.flush_clean (h : ∀ e ∈ s.mem.dirty, e.1 / 128 ≠ line) : s.flush line = s := by
  have hm : s.mem.dirty.filter (fun a _ => a / 128 == line) = [] :=
    List.filter_eq_nil_iff.mpr fun e he => by simpa only [beq_iff_eq] using h e he
  rw [State.flush, hm, List.isEmpty_nil, if_pos rfl]

theorem State.foldl_homeWrite (l : Tbl Byte) (s : State) : ∃ b p, l.foldl (fun s e => s.homeWrite e.1 [e.2]) s
    = s.withMem { s.mem with bytes := b, poison := p } := by
  induction l generalizing s with
  | nil => exact ⟨s.mem.bytes, s.mem.poison, rfl⟩
  | cons e l ih =>
    obtain ⟨b, p, h⟩ := ih (s.homeWrite e.1 [e.2])
    exact ⟨b, p, h⟩

/-- Writing back a line leaves of its owner's bytes none, and of memory the rest but bytes, poison and check bits. -/
theorem State.flush_aside (s : State) (line : Nat) : ∃ b p F, (∀ f ∈ F, f ∈ s.mem.flaws)
    ∧ (s.withMem { s.mem with bytes := b, poison := p, flaws := F
                              dirty := s.mem.dirty.filter (fun a _ => a / 128 != line) }).Aside (s.flush line) := by
  by_cases hm : (s.mem.dirty.filter (fun a _ => a / 128 == line)).isEmpty = true
  · have hd : s.mem.dirty.filter (fun a _ => a / 128 != line) = s.mem.dirty := by
      refine List.filter_eq_self.mpr fun e he => ?_
      rw [List.isEmpty_iff] at hm
      have := List.filter_eq_nil_iff.mp hm e he
      simpa only [bne, Bool.not_eq_true', Bool.not_eq_true] using this
    refine ⟨s.mem.bytes, s.mem.poison, s.mem.flaws, fun _ h => h, ?_⟩
    rw [State.flush, if_pos hm, hd]
    exact State.Aside.refl s
  · obtain ⟨b, p, hb⟩ := State.foldl_homeWrite (s.mem.dirty.filter (fun a _ => a / 128 == line)) s
    obtain ⟨F, hF, hw⟩ := (s.withMem { s.mem with bytes := b, poison := p
                                                  dirty := s.mem.dirty.filter (fun a _ => a / 128 != line) }).overwrite_flaws
      (upFrom (line * 4) 4)
    refine ⟨b, p, F, hF, ?_⟩
    rw [State.flush, if_neg hm, hb]
    have hw' := hw
    simp only [State.withMem_mem] at hw'
    exact hw ▸ State.Aside.mirror _ _ _

/-- What a coherent read finds where the home has written and no owner holds bytes. -/
theorem State.homeStore_sysRead {pa : Nat} {bs : List Byte} (hl : localPart pa + bs.length ≤ 2 ^ 49)
    (hd : ∀ i, i < bs.length → s.mem.dirty.get? (localPart pa + i) = none) :
    (s.homeStore pa bs).sysRead pa bs.length = bs := by
  refine State.sysRead_eq_of_bytes fun i hi => ?_
  have hm : (s.homeStore pa bs).mem = (s.homeWrite pa bs).mem := (State.Aside.mirror _ _ _).mem
  have hb := s.homeWrite_rawByte_same pa i bs hi (localPart_add hl hi)
  have hn : (s.homeWrite pa bs).mem.dirty.get? (localPart (pa + i)) = none := by
    rw [localPart_add hl hi]
    exact hd i hi
  rw [State.sysByte_congr _ (congrArg Mem.dirty hm) (congrArg Mem.bytes hm) (congrArg Mem.undef hm), State.sysByte, hn]
  exact hb

/-- A byte that the home's write does not reach is as it was. -/
theorem State.homeStore_sysByte_other {pa a : Nat} {bs : List Byte}
    (ha : localPart a < localPart pa ∨ localPart pa + bs.length ≤ localPart a) : (s.homeStore pa bs).sysByte a = s.sysByte a := by
  have hm : (s.homeStore pa bs).mem = (s.homeWrite pa bs).mem := (State.Aside.mirror _ _ _).mem
  rw [State.sysByte_congr _ (congrArg Mem.dirty hm) (congrArg Mem.bytes hm) (congrArg Mem.undef hm), State.sysByte, State.sysByte,
    s.homeWrite_rawByte_other pa a bs ha]
  rfl

end Bytes

/-! #### A request that its home performs on arrival: R339, R340 -/

section Arrive

variable {s u : State} {r : HomeReq}

/-- The line has no holder. -/
def State.unheld (s : State) (line : Nat) : Prop := s.dirOf line = { owner := none, sharers := 0 }

theorem State.reqWaits_unheld (h : s.unheld r.line) : s.reqWaits r = [] := by
  have hs : setBitsBelow 32 (0 : BitVec 32).toNat = [] := by decide
  rw [State.reqWaits, h]
  simp only [hs, List.filter_nil, List.append_nil, ite_self]
  split
  · rfl
  · contradiction
  · rfl

theorem State.ownLost_unheld {line : Nat} {who : Agent} (h : s.unheld line) : s.ownLost line who = s := by
  simp only [State.ownLost, show s.dirOf line = _ from h]

/-- What every holder of a line without holders gives up is what its owner held modified. -/
theorem State.dropAll_unheld (s : State) (line : Nat) (me : Option Nat) :
    s.dropAll line { owner := none, sharers := 0 } me = s.flush line := by
  have hs : setBitsBelow 32 (0 : BitVec 32).toNat = [] := by decide
  simp only [State.dropAll, hs, List.foldl_nil]

/-- No request waits for a line that is not BUSY. -/
def State.waitBusy (s : State) : Prop := ∀ x ∈ s.mem.waitq, s.lineBusy x.line = true

theorem State.nextWaiting_busy {ws : List HomeReq} (before : List HomeReq) (h : ∀ x ∈ ws, s.lineBusy x.line = true) :
    s.nextWaiting before ws = none := by
  induction ws generalizing before with
  | nil => rfl
  | cons x ws ih =>
    have hx : s.canStart before x = false := by simp only [State.canStart, h x List.mem_cons_self, Bool.not_true, Bool.false_and]
    rw [State.nextWaiting, hx, if_neg Bool.false_ne_true, ih _ fun y hy => h y (List.mem_cons_of_mem x hy)]

/-- Requests that wait for BUSY lines wait on. -/
theorem State.drain_busy (h : s.waitBusy) (n : Nat) : s.drain n = s := by
  cases n with
  | zero => rfl
  | succ n => simp only [State.drain, State.nextWaiting_busy [] h]

theorem State.nextWaiting_append {ws : List HomeReq} (before : List HomeReq) (h : ∀ x ∈ ws, s.lineBusy x.line = true)
    (hr : s.canStart (before ++ ws) r = true) : s.nextWaiting before (ws ++ [r]) = some r := by
  induction ws generalizing before with
  | nil =>
    rw [List.append_nil] at hr
    rw [List.nil_append, State.nextWaiting, if_pos hr]
  | cons x ws ih =>
    have hx : s.canStart before x = false := by simp only [State.canStart, h x List.mem_cons_self, Bool.not_true, Bool.false_and]
    rw [List.cons_append, State.nextWaiting, hx, if_neg Bool.false_ne_true]
    refine ih _ (fun y hy => h y (List.mem_cons_of_mem x hy)) ?_
    rwa [List.append_assoc]

/-- A request for a line that is idle, without holders and with its place in the directory, is performed when it arrives: those
that wait go on waiting. -/
theorem State.reqArrive_performs (hb : s.busy r.line = false) (ht : s.homeTakes r.line = true) (hq : s.waitBusy)
    (hh : s.unheld r.line) (hx : r.takesEntry = false) (hr : r.held = false)
    (hu : (s.performReq r).mem.txns = s.mem.txns ∧ (s.performReq r).mem.waitq = s.mem.waitq) :
    s.reqArrive r = .next (s.performReq r) := by
  obtain ⟨hl, hsw⟩ := Bool.or_eq_false_iff.mp hb
  have hheld : ({ r with held := s.inSwitch r.line } : HomeReq) = r := by rw [hsw, ← hr]
  have hne : ∀ x ∈ s.mem.waitq, x.line ≠ r.line := fun x hx he => by
    have := hq x hx
    rw [he, hl] at this
    exact Bool.false_ne_true this
  have hnot : r ∉ s.mem.waitq := fun h => hne r h rfl
  let w : State := s.withMem { s.mem with waitq := s.mem.waitq ++ [r] }
  have hcan : w.canStart ([] ++ s.mem.waitq) r = true := by
    have h1 : w.lineBusy r.line = false := hl
    have h2 : w.inSwitch r.line = false := hsw
    have h3 : (s.mem.waitq.any fun x => x.line == r.line) = false :=
      List.any_eq_false.mpr fun x hx => by simpa only [beq_iff_eq] using hne x hx
    have h4 : w.reqWaits r = [] := State.reqWaits_unheld hh
    simp only [State.canStart, h1, h2, h3, h4, hx, List.nil_append, List.isEmpty_nil, Bool.and_false, Bool.not_false,
      Bool.and_true, Bool.true_or]
  have hnext : w.nextWaiting [] w.mem.waitq = some r := State.nextWaiting_append [] hq hcan
  have herase : w.mem.waitq.erase r = s.mem.waitq := by
    show (s.mem.waitq ++ [r]).erase r = _
    rw [List.erase_append_right _ hnot, List.erase_cons_head, List.append_nil]
  have hstart : (w.withMem { w.mem with waitq := w.mem.waitq.erase r }).startReq r = s.performReq r := by
    rw [herase]
    show s.startReq r = _
    rw [State.startReq, State.reqWaits_unheld hh]
  have hbusy : (s.performReq r).waitBusy := fun x hx => by
    rw [hu.2] at hx
    have := hq x hx
    rwa [State.lineBusy, ← hu.1] at this
  have hdrain : w.drainAll = s.performReq r := by
    show w.drain (3 * (s.mem.waitq ++ [r]).length) = _
    rw [List.length_append, List.length_singleton, show 3 * (s.mem.waitq.length + 1) = 3 * s.mem.waitq.length + 2 + 1 by omega,
      State.drain, hnext]
    simp only [hx, Bool.false_and, Bool.false_eq_true, if_false, hstart]
    exact State.drain_busy hbusy _
  rw [State.reqArrive, ht, whenIt_true, hheld]
  exact congrArg Act.next hdrain

end Arrive

end Sys2Proof.Machine

end

section

/-!
### The harts' accesses as a whole
-/

namespace Sys2Proof.Machine

/-! #### A store that is not cacheable: R407 -/

section Clear

variable {s : State} {line : Nat}

theorem State.setDir_free (s : State) (line : Nat) : s.setDir line { owner := none, sharers := 0 }
    = s.withMem { s.mem with dir := s.mem.dir.erase line, ways := s.mem.ways.erase line } := rfl

/-- A home that has written back a line, and taken it from its holders, goes on to write it. -/
def State.lineCleared (s : State) (line : Nat) : State := (s.flush line).setDir line { owner := none, sharers := 0 }

theorem State.lineCleared_pds (s : State) (line : Nat) : (s.lineCleared line).pds = s.pds := by
  obtain ⟨b, p, F, hF, ha⟩ := s.flush_aside line
  exact ha.pds

/-- No owner holds bytes of the line then, and the requests at the homes are the same. -/
theorem State.lineCleared_mem (s : State) (line : Nat) :
    (∀ a, a / 128 = line → (s.lineCleared line).mem.dirty.get? a = none) ∧ (s.lineCleared line).mem.txns = s.mem.txns
      ∧ (s.lineCleared line).mem.waitq = s.mem.waitq := by
  obtain ⟨b, p, F, hF, ha⟩ := s.flush_aside line
  rw [State.lineCleared, State.setDir_free, ha.mem]
  refine ⟨fun a hl => ?_, rfl, rfl⟩
  refine (Tbl.get?_filter (fun a => a / 128 != line) s.mem.dirty a).trans (if_neg ?_)
  rw [hl, bne_self_eq_false]
  exact Bool.false_ne_true

end Clear

section Home

variable {s : State} {h pa : Nat} {bs : List Byte} {f : Finds}

/-- The request of a store that is not cacheable. -/
def storeReq (s : State) (h pa : Nat) (bs : List Byte) : HomeReq :=
  { line := localPart pa / 128, kind := .naWrite pa bs, who := .hart h { off := 0, n := 0 }, e := [], tag := (s.hart h).nextId }

/-- The hart's store when it has been sent to its home. -/
def State.storeSent (s : State) (h pa : Nat) (bs : List Byte) : State := s.hartEnter h pa bs .tiered false false false true false

/-- The home performs such a store: it clears the line, writes the bytes, and takes the store from the hart's buffer. -/
theorem State.performReq_naWrite {u : State} {r : HomeReq} (hk : r.kind = .naWrite pa bs) (hw : r.who = .hart h { off := 0, n := 0 })
    (hu : (u.reqAccess r).unheld r.line) : u.performReq r
      = (((u.reqAccess r).lineCleared r.line).homeStore pa bs).hartDone (.hart h { off := 0, n := 0 }) r.tag := by
  simp only [State.performReq, State.ownLost_unheld hu, show (u.reqAccess r).dirOf r.line = _ from hu, State.dropAll_unheld, hk, hw,
    State.homeReply]
  rfl

/-- A byte of the range of a store within a line is in the line. -/
theorem localPart_add_line {i : Nat} (hl : localPart pa % 128 + bs.length ≤ 128) (hi : i < bs.length) :
    (localPart pa + i) / 128 = localPart pa / 128 := by omega

/-- What the home of such a store leaves: the requests as they were, the bytes, and the hart without the store. -/
theorem State.storeDone_effect (v : State) (id : Nat) (hl : localPart pa % 128 + bs.length ≤ 128) :
    let u := ((v.lineCleared (localPart pa / 128)).homeStore pa bs).hartDone (.hart h { off := 0, n := 0 }) id
    u.mem.txns = v.mem.txns ∧ u.mem.waitq = v.mem.waitq ∧ u.sysRead pa bs.length = bs
      ∧ (u.hart h).stores = (v.hart h).stores.filter (fun x => x.id != id) := by
  obtain ⟨hd, htx, hwq⟩ := v.lineCleared_mem (localPart pa / 128)
  generalize hw : v.lineCleared (localPart pa / 128) = w at hd htx hwq
  have hpds : w.pds = v.pds := hw ▸ v.lineCleared_pds _
  have hm := State.Aside.mirror (w.homeWrite pa bs) pa bs.length
  have hmem : (w.homeStore pa bs).mem = (w.homeWrite pa bs).mem := hm.mem
  have hhart : (w.homeStore pa bs).hart h = v.hart h := by
    rw [State.hart, State.hart, show (w.homeStore pa bs).pds = (w.homeWrite pa bs).pds from hm.pds, ← hpds]
    rfl
  refine ⟨(congrArg Mem.txns hmem).trans htx, (congrArg Mem.waitq hmem).trans hwq, ?_, ?_⟩
  · exact State.homeStore_sysRead (localPart_add_le hl) fun i hb => hd _ (localPart_add_line hl hb)
  · show ((State.setHart _ h _).hart h).stores = _
    rw [State.hart_setHart, hhart]

/-- The home's access to the line of a store that has been sent to it, when it is free. -/
theorem State.storeReq_access (hf : s.homeFree (localPart pa / 128)) : ∃ F,
    ((s.storeSent h pa bs).withMem { s.mem with flaws := F }).Aside
      ((s.storeSent h pa bs).reqAccess (storeReq s h pa bs)) := by
  obtain ⟨-, -, -, -, -, hflaws, hn, hw, hhot, hgate⟩ := hf
  obtain ⟨F, hF, hacc⟩ := State.reqAccess_good (s := s.storeSent h pa bs) (r := storeReq s h pa bs)
    ⟨by simp [storeReq], by simp [storeReq], by simp [storeReq]⟩ rfl hflaws
  refine ⟨F, ?_⟩
  rw [hacc]
  exact State.touch_room hgate hn hw hhot

/-- A store that is not cacheable is performed when it reaches a home that is free. -/
theorem State.storePart_home_free (hi : (s.hart h).isIdle) (hl : pa % 128 + bs.length ≤ 128) (he : f.e = [])
    (hf : s.homeFree (localPart pa / 128)) (hh : s.unheld (localPart pa / 128)) :
    ∃ u : State, s.storePart h pa bs f .nc .tiered = .next u.afterAll ∧ u.sysRead pa bs.length = bs ∧ (u.hart h).stores = [] := by
  obtain ⟨F, hv⟩ := State.storeReq_access (h := h) (bs := bs) hf
  obtain ⟨-, hbusy, htakes, hq, -⟩ := hf
  have hl' := hl
  rw [← localPart_mod_line] at hl'
  have hp := State.performReq_naWrite (u := s.storeSent h pa bs) (r := storeReq s h pa bs) (h := h) (pa := pa) (bs := bs) rfl rfl (by
    rw [State.unheld, State.dirOf, hv.mem]
    exact hh)
  have hstores : (((s.storeSent h pa bs).reqAccess (storeReq s h pa bs)).hart h).stores.filter
      (fun x => x.id != (s.hart h).nextId) = [] := by
    rw [hv.hart]
    show (((s.storeSent h pa bs).hart h).stores.filter _) = _
    rw [State.storeSent, State.hartEnter, State.hart_setHart]
    simp only [hi.2, List.nil_append, List.filter_cons, bne_self_eq_false, Bool.false_eq_true, if_false, List.filter_nil]
  generalize hve : (s.storeSent h pa bs).reqAccess (storeReq s h pa bs) = v at hv hp hstores
  obtain ⟨htx, hwq, hread, hst⟩ := v.storeDone_effect (h := h) (s.hart h).nextId hl'
  have harr := State.reqArrive_performs (s := s.storeSent h pa bs) (r := storeReq s h pa bs) hbusy htakes hq hh rfl rfl
    ⟨by rw [hp]; exact htx.trans (by rw [hv.mem]; rfl), by rw [hp]; exact hwq.trans (by rw [hv.mem]; rfl)⟩
  refine ⟨_, ?_, hread, hst.trans hstores⟩
  rw [State.storePart_home hi hl, he]
  exact congrArg (fun x : Act => x.andThen State.afterAll) (harr.trans (congrArg Act.next hp))

end Home

/-! #### The obligation -/

/-- Settles O36: each access by the case of its own definition that its target chooses. -/
theorem hartAccesses : Obligations.HartAccesses := by
  unfold Obligations.HartAccesses
  refine ⟨?fences, ?loads, ?stores, ?amos, ?fenced, ?timeout⟩
  case fences =>
    intro s h w cmd hr hh hf hc
    rw [exec_hartFence hc]
    refine ⟨fun hw => ⟨_, State.hartFence_standard hr hh hf hw, State.hartWait_stores _ _ _, rfl, ?_⟩,
      fun hw hi => State.hartFence_illegal hr hh hf hw hi,
      fun hw hi => ⟨_, State.hartFence_xnw hr hh hf hw hi, State.hartWait_stores _ _ _, rfl, ?_⟩⟩
    · rw [State.hartWait_fence]
      simp [Hart.standardFence]
    · rw [State.hartWait_fence]
      simp [Hart.xnwFence]
  case loads =>
    intro s h pa n p t hr hh hf hs hn hl ht
    have hi : (s.hart h).isIdle := ⟨hf, hs⟩
    refine ⟨fun v hd hb => ?_, fun hm h8 => ?_, fun hout h8 => ?_⟩
    · rw [execNonAllocatingRead_hart hr, State.hartLoad_refused hh hi hn hl ht hd hb, Act.out_next]
    · rw [execNonAllocatingRead_hart hr, State.hartLoad_mmio hh hi hn hl (hm ▸ ht) rfl h8, Act.out_next]
    · obtain ⟨x, hx, ha⟩ := State.hartEnter_load_awaits (s := s) (h := h) (pa := pa) (p := p) (v := none) hi hout
        (List.replicate n 0)
      refine ⟨_, (execNonAllocatingRead_hart hr).trans
        ((congrArg (Act.out s) (State.hartLoad_leaves hh hi hn hl ht rfl h8 hout)).trans (Act.out_next _ _)), x, ?_, ha⟩
      rw [State.sendOut_hart hout]
      exact hx
  case stores =>
    intro s h pa src p f hr hh hf hs bs n line h1 h2
    have hi : (s.hart h).isIdle := ⟨hf, hs⟩
    refine ⟨fun ht => ?_, fun t x ht hd hb => ?_, fun ht hp hl => ⟨fun ho => ?_, fun ho hslc hsram => ?_⟩,
      fun ht hp hl he hfree hu => ?_, fun c ht => ?_, fun c b ht => ?_, fun k ht => ?_⟩
    · rw [exec_hartStore_nowhere hr hh h1 h2 ht, hi.trapTurn, Act.out_next]
    · rw [exec_hartStore_refused hr hh h1 h2 ht hd hb, hi.trapTurn, Act.out_next]
    · subst hp
      obtain ⟨t, he, hmem, hx⟩ := exec_hartStore_waits (f := f) hi h1 hl ho
      exact ⟨t, by rw [exec_hartStore_taken hr hh h1 h2 ht rfl, he, Act.out_next], hmem, hx⟩
    · subst hp
      obtain ⟨t, he, hrest⟩ := exec_hartStore_performs hi h1 hl ho hslc hsram
      exact ⟨t, by rw [exec_hartStore_taken hr hh h1 h2 ht rfl, he, Act.out_next], hrest⟩
    · subst hp
      obtain ⟨u, hx, hrest⟩ := State.storePart_home_free hi hl he hfree hu
      exact ⟨u, by rw [exec_hartStore_taken hr hh h1 h2 ht rfl, hx, Act.out_next], hrest⟩
    · rw [exec_hartStore_taken hr hh h1 h2 ht rfl, State.storePart_window hi, Act.out_next]
    · exact exec_hartStore_two hr hh h1 h2 ht rfl rfl (State.storePart_window hi c) (State.storePart_windows hi c _ b _ _)
    · rw [exec_hartStore_taken hr hh h1 h2 ht rfl, State.storePart_remote hi, Act.out_next]
  case amos =>
    intro s h pa op wide v o f hr hh hf hs n line x
    have hi : (s.hart h).isIdle := ⟨hf, hs⟩
    refine ⟨fun p ha => exec_hartAmo_misaligned hr hh hi ha, fun p ha ht => ?_, fun p ha hp ht => ?_, fun p ha hp ht hop => ?_,
      fun c p ha ht => ?_, fun ha ht ho hslc hsram => ?_⟩
    · obtain ht | ht | ht := ht
      · exact exec_hartAmo_nowhere hr hh hi ha ht
      · exact exec_hartAmo_refused hr hh hi ha ht rfl
      · exact exec_hartAmo_refused hr hh hi ha ht rfl
    · refine exec_hartAmo_refused hr hh hi ha ht ?_
      simp [hartCacheable, hp]
    · rw [exec_hartAmo_refused hr hh hi ha ht (by simp [hartCacheable, hp, hop]), if_pos hop]
    · split
      case isTrue hop => rw [exec_hartAmo_refused hr hh hi ha ht (by simp [hartCacheable, hop]), if_pos hop]
      case isFalse hop => exact exec_hartAmo_window hr hh hi ha ht hop
    · have he := exec_hartAmo_owned (op := op) (o := o) (v := v) hr hh hi ha ht ho hslc hsram
      have hc := State.dieUse_cached s h (localPart pa / 128)
      refine ⟨fun hp => ?_, fun hp => ?_⟩
      · rw [State.cacheAmo_poisoned (n := amoLen wide) ((hc.anyPoison pa _).trans hp)] at he
        exact ⟨_, he, by rw [State.hartTrap_trap], hc.bytes, hc.dirty⟩
      · obtain ⟨hread, hout, hbytes⟩ := State.cacheAmo_clean (h := h) (op := op) (n := amoLen wide) (x := amoArg wide v)
          ((hc.anyPoison pa _).trans hp) (localPart_add_le (amoLen_within ha))
        rw [hc.sysRead] at hread
        rw [hc.sysRead, hc.out] at hout
        exact ⟨_, he, hread, hout, hbytes.trans hc.bytes⟩
  case fenced =>
    intro s h pa src p f g t hr hh hg h1 h2 ht hk
    exact exec_hartStore_fenced hr hh h1 h2 hg ht hk
  case timeout =>
    intro s h x hr hx ht
    refine ⟨s.hartGivesUp h x, exec_processorDeviceTimeout hr hx ht, fun y hy => ?_, fun hl => State.hartGivesUp_out hl⟩
    rw [State.hartGivesUp_stores] at hy
    simpa only [bne_iff_ne] using (List.mem_filter.mp hy).2

end Sys2Proof.Machine

end

section

/-!
### Cluster caches, held writes and the tags of cores at their homes: R204 to R208, R340, R347 to R351
-/

namespace Sys2Proof.Machine

/-! #### A line that a cluster cache does not hold: R349 -/

/-- Cluster `k` does not hold the line. -/
def State.lacks (s : State) (k line : Nat) : Prop := (s.cluster k).has line = false

section Lacks

variable {s t : State} {k line : Nat}

theorem State.lacks_of_clusters (h : s.lacks k line) (hc : t.mem.clusters = s.mem.clusters) : t.lacks k line := by
  rw [State.lacks, State.cluster, hc]
  exact h

theorem State.lacks_ite {p : Prop} [Decidable p] (h : s.lacks k line) (g : t.lacks k line) : (if p then s else t).lacks k line := by
  split
  · exact h
  · exact g

theorem State.lacks_foldl {β : Type} (f : State → β → State) (hf : ∀ u x, u.lacks k line → (f u x).lacks k line) (l : List β)
    (h : s.lacks k line) : (l.foldl f s).lacks k line := by
  induction l generalizing s with
  | nil => exact h
  | cons x l ih => exact ih (hf s x h)

/-- A cache from which lines are dropped does not gain one. -/
theorem Cluster.drop_has (x : Cluster) (l line : Nat) (h : x.has line = false) : (x.drop l).has line = false := by
  obtain ⟨ht, hv⟩ := Bool.or_eq_false_iff.mp h
  refine Bool.or_eq_false_iff.mpr ⟨?_, ?_⟩
  · simp only [Cluster.drop]
    generalize cacheSlot line = i at ht ⊢
    generalize cacheSlot l = j
    split
    · by_cases hs : i = j
      · rw [hs, Tbl.get?_erase_same]
        rfl
      · rwa [Tbl.get?_erase_other _ _ _ hs]
    · exact ht
  · rw [← Bool.not_eq_true, List.contains_iff_mem] at hv ⊢
    exact fun hm => hv (List.mem_filter.mp hm).1

/-- A line that has been dropped is held no more. -/
theorem Cluster.drop_has_same (x : Cluster) (line : Nat) : (x.drop line).has line = false := by
  refine Bool.or_eq_false_iff.mpr ⟨?_, ?_⟩
  · simp only [Cluster.drop]
    generalize cacheSlot line = i
    split
    · rw [Tbl.get?_erase_same]
      rfl
    · next h => exact (Bool.not_eq_true _).mp h
  · rw [← Bool.not_eq_true, List.contains_iff_mem]
    intro hm
    simpa only [bne_self_eq_false, Bool.false_eq_true] using (List.mem_filter.mp hm).2

theorem State.lacks_setCluster {j : Nat} {x : Cluster} (h : s.lacks k line) (hx : j = k → x.has line = false) :
    (s.setCluster j x).lacks k line := by
  rw [State.lacks, State.cluster, State.setCluster, State.withMem_mem]
  by_cases hj : k = j
  · subst hj
    rw [Tbl.getD_setD_same]
    exact hx rfl
  · rw [Tbl.getD_setD_other _ _ _ _ _ hj]
    exact h

theorem State.lacks_clusterInval (h : s.lacks k line) (j l : Nat) : (s.clusterInval j l).lacks k line :=
  State.lacks_setCluster h fun hj => Cluster.drop_has (s.cluster j) l line (hj ▸ h)

theorem State.lacks_aside (h : s.lacks k line) (ha : s.Aside t) : t.lacks k line :=
  State.lacks_of_clusters h (congrArg Mem.clusters ha.mem)

theorem State.lacks_recorded (h : s.lacks k line) (hr : s.Recorded t) : t.lacks k line :=
  State.lacks_of_clusters h (congrArg Mem.clusters hr.mem)

theorem State.setDir_clusters (s : State) (l : Nat) (e : DirEntry) : (s.setDir l e).mem.clusters = s.mem.clusters := by
  simp only [State.setDir, State.withMem_mem]
  split
  · rfl
  · simp only [Mem.placed]
    split <;> rfl

theorem State.notice_clusters (s : State) (l i : Nat) : (s.notice l i).mem.clusters = s.mem.clusters := s.setDir_clusters l _

theorem State.slcDrop_clusters (s : State) (p l : Nat) : (s.slcDrop p l).mem.clusters = s.mem.clusters := by
  rw [State.slcDrop]
  split <;> rfl

theorem State.flush_clusters (s : State) (l : Nat) : (s.flush l).mem.clusters = s.mem.clusters := by
  obtain ⟨b, p, F, -, ha⟩ := s.flush_aside l
  rw [ha.mem]
  rfl

theorem State.hostSilent_clusters (s : State) (l : Nat) : (s.hostSilent l).1.mem.clusters = s.mem.clusters := by
  simp only [State.hostSilent, State.notice_clusters]
  split <;> rfl

theorem State.snoopNow_clusters (s : State) (l : Nat) : (s.snoopNow l).1.mem.clusters = s.mem.clusters := by
  simp only [State.snoopNow]
  split
  · exact State.hostSilent_clusters _ _
  · dsimp only
    split <;> rfl

theorem State.askOwner_clusters (s : State) (l : Nat) : (s.askOwner l).1.mem.clusters = s.mem.clusters := by
  simp only [State.askOwner]
  split
  · exact State.snoopNow_clusters _ _
  · split <;> rfl
  · rfl

theorem State.lacks_dropCopy (h : s.lacks k line) (l i : Nat) : (s.dropCopy l i).lacks k line := by
  rw [State.dropCopy]
  split
  · exact State.lacks_clusterInval h i l
  · split
    · exact State.lacks_of_clusters h (State.slcDrop_clusters s (i - 16) l)
    · split <;> exact h

theorem State.lacks_reclaim (h : s.lacks k line) (l : Nat) : (s.reclaim l).1.lacks k line := by
  simp only [State.reclaim]
  have h1 : (if (s.dirOf l).sharers.getLsbD 22 then s.snoopNow l else s.askOwner l).1.lacks k line := by
    split
    · exact State.lacks_of_clusters h (State.snoopNow_clusters s l)
    · exact State.lacks_of_clusters h (State.askOwner_clusters s l)
  have h2 := State.lacks_foldl (fun u i => u.dropCopy l i) (fun u i hu => State.lacks_dropCopy hu l i)
    (setBitsBelow 32 (s.dirOf l).sharers.toNat) (State.lacks_of_clusters h1 (State.flush_clusters _ l))
  refine State.lacks_of_clusters ?_ (State.setDir_clusters _ _ _)
  split
  · exact State.lacks_dropCopy h2 l _
  · exact h2

theorem State.lacks_homeStore (h : s.lacks k line) (pa : Nat) (bs : List Byte) : (s.homeStore pa bs).lacks k line :=
  State.lacks_aside (s := s.homeWrite pa bs) h (State.Aside.mirror _ _ _)

theorem State.lacks_ownWrite (h : s.lacks k line) (pa : Nat) (bs : List Byte) : (s.ownWrite pa bs).1.lacks k line := by
  have hf (l : List Nat) (r : Noted) (hr : r.1.lacks k line) :
      (l.foldl (fun (r : Noted) x => ((r.1.reclaim x).1, r.2 ++ (r.1.reclaim x).2)) r).1.lacks k line := by
    induction l generalizing r with
    | nil => exact hr
    | cons x l ih => exact ih _ (State.lacks_reclaim hr x)
  simp only [State.ownWrite]
  exact State.lacks_homeStore (hf _ (s, []) h) pa bs

theorem State.lacks_logKeeps (h : s.lacks k line) (l : List ErrRec) :
    (l.foldl (fun (u : State) x => u.logKeep x u.now) s).lacks k line :=
  State.lacks_foldl _ (fun u x hu => State.lacks_recorded hu (State.Recorded.logKeep u x u.now)) l h

theorem State.lacks_logPut (h : s.lacks k line) (e : LogEnt) : (s.logPut e).lacks k line := by
  simp only [State.logPut]
  split
  · exact State.lacks_recorded h (State.Recorded.logDrop s _)
  · exact State.lacks_logKeeps (State.lacks_recorded (State.lacks_ownWrite (State.lacks_aside h (State.Aside.count s _)) _ _)
      ((State.Recorded.withRas _ _).trans (State.Recorded.rasIntr _ _))) _

theorem State.lacks_logWaiting (h : s.lacks k line) (n : Nat) : (s.logWaiting n).lacks k line := by
  induction n generalizing s with
  | zero => exact h
  | succ n ih =>
    simp only [State.logWaiting]
    split
    · exact h
    · split
      · exact h
      · exact ih (State.lacks_logPut (State.lacks_recorded h (State.Recorded.withRas s _)) _)

theorem State.lacks_logFlush (h : s.lacks k line) : s.logFlush.lacks k line := by
  rw [State.logFlush]
  exact State.lacks_ite (State.lacks_logWaiting h _) h

theorem State.lacks_hotPut (h : s.lacks k line) (r : HotRec) : (s.hotPut r).lacks k line := by
  simp only [State.hotPut]
  exact State.lacks_of_clusters
    (State.lacks_logKeeps (State.lacks_ownWrite (State.lacks_aside h (State.Aside.count s _)) _ _) _) (congrArg Mem.clusters (State.setReg_mem _ _ _))

theorem State.lacks_hotFlush (h : s.lacks k line) (n : Nat) : (s.hotFlush n).lacks k line := by
  induction n generalizing s with
  | zero => exact h
  | succ n ih =>
    simp only [State.hotFlush]
    split
    · exact h
    · split
      · exact h
      · exact ih (State.lacks_hotPut (State.lacks_aside h (State.Aside.withPeel s _)) _)

/-- A record that is logged, wherever it is written, brings no line into a cluster cache. -/
theorem State.lacks_log (h : s.lacks k line) (r : ErrRec) : (s.log r).lacks k line := by
  have hk := State.lacks_recorded h (State.Recorded.logKeep s r s.now)
  simp only [State.log, State.logAt, State.recordsOut]
  exact State.lacks_hotFlush (State.lacks_ite hk (State.lacks_logFlush hk)) _

end Lacks

/-! #### What a read of a cluster cache finds: R204, R206, R208 -/

/-- The two states show a core's plain reads the same: bytes, poison, and the writes that slices hold. -/
structure State.ShowsSame (s t : State) : Prop where
  cores : t.cores = s.cores
  byte : ∀ a, t.sysByte a = s.sysByte a
  bad : t.poisoned = s.poisoned
  held : ∀ j, (t.cluster j).held = (s.cluster j).held

namespace State.ShowsSame

variable {s t u : State}

theorem refl (s : State) : s.ShowsSame s := ⟨rfl, fun _ => rfl, rfl, fun _ => rfl⟩

theorem trans (h : s.ShowsSame t) (g : t.ShowsSame u) : s.ShowsSame u :=
  ⟨g.cores.trans h.cores, fun a => (g.byte a).trans (h.byte a), g.bad.trans h.bad, fun j => (g.held j).trans (h.held j)⟩

theorem clusterBytes (h : s.ShowsSame t) (k c tag pa n : Nat) : t.clusterBytes k c tag pa n = s.clusterBytes k c tag pa n := by
  simp only [State.clusterBytes, h.held, h.byte]

theorem heldOf (h : s.ShowsSame t) (c : Nat) : t.heldOf c = s.heldOf c := by
  rw [State.heldOf, State.heldOf, h.held]

/-- A change of a cluster that leaves the writes its slices hold. -/
theorem setCluster (s : State) (k : Nat) (x : Cluster) (hx : x.held = (s.cluster k).held) : s.ShowsSame (s.setCluster k x) := by
  refine ⟨rfl, fun _ => rfl, rfl, fun j => ?_⟩
  rw [State.cluster, State.setCluster, State.withMem_mem]
  by_cases hj : j = k
  · subst hj
    rw [Tbl.getD_setD_same, hx]
  · rw [Tbl.getD_setD_other _ _ _ _ _ hj]
    rfl

theorem setDir (s : State) (line : Nat) (e : DirEntry) : s.ShowsSame (s.setDir line e) := by
  simp only [State.setDir, Mem.placed]
  repeat' split
  all_goals exact ⟨rfl, fun _ => rfl, rfl, fun _ => rfl⟩

theorem noticeTo (s : State) (line k : Nat) : s.ShowsSame (s.noticeTo line k) := by
  rw [State.noticeTo]
  split
  · exact ⟨rfl, fun _ => rfl, rfl, fun _ => rfl⟩
  · exact setDir s line _

theorem foldl_noticeTo (l : List Nat) (k : Nat) (s : State) : s.ShowsSame (l.foldl (fun u x => u.noticeTo x k) s) := by
  induction l generalizing s with
  | nil => exact refl s
  | cons x l ih => exact (noticeTo s x k).trans (ih _)

theorem clusterFill (s : State) (k line : Nat) : s.ShowsSame (s.clusterFill k line) := by
  simp only [State.clusterFill]
  split
  · exact refl s
  · refine trans ?_ (foldl_noticeTo _ k _)
    exact setCluster s k _ rfl

theorem clusterHit (s : State) (k line : Nat) : s.ShowsSame (s.clusterHit k line) := by
  simp only [State.clusterHit]
  split
  · exact refl s
  · split
    · exact clusterFill s k line
    · exact refl s

end State.ShowsSame

section Lines

variable {s : State} {k line : Nat}

theorem State.noticeTo_clusters (s : State) (l k : Nat) : (s.noticeTo l k).mem.clusters = s.mem.clusters := by
  rw [State.noticeTo]
  split
  · rfl
  · exact s.notice_clusters l k

theorem State.foldl_noticeTo_clusters (l : List Nat) (k : Nat) (s : State) :
    (l.foldl (fun u x => u.noticeTo x k) s).mem.clusters = s.mem.clusters := by
  induction l generalizing s with
  | nil => rfl
  | cons x l ih => rw [List.foldl_cons, ih, State.noticeTo_clusters]

theorem State.cluster_setCluster_same (s : State) (k : Nat) (x : Cluster) : (s.setCluster k x).cluster k = x := by
  rw [State.cluster, State.setCluster, State.withMem_mem, Tbl.getD_setD_same]

/-- A line that is found stays (R350). -/
theorem State.clusterHit_has (h : (s.cluster k).has line = true) : ((s.clusterHit k line).cluster k).has line = true := by
  simp only [State.clusterHit]
  split
  · exact h
  · split
    · simp only [State.clusterFill]
      split
      · exact h
      · rw [State.cluster, State.foldl_noticeTo_clusters, ← State.cluster, State.cluster_setCluster_same]
        refine Bool.or_eq_true_iff.mpr (.inl ?_)
        rw [Tbl.get?_put_same, beq_self_eq_true]
    · exact h

theorem State.clusterHit_inSlice (h : (s.cluster k).tags.get? (cacheSlot line) = some line) : s.clusterHit k line = s := by
  simp only [State.clusterHit, h, beq_self_eq_true, if_true]

end Lines

/-! #### A read tag is answered, or its read is noted as missed -/

section Served

variable {s : State} {c : Nat} {t : RTag} {bs : List Byte}

/-- Each read of the tag holds the bytes that the core sees in those it is answered with. -/
theorem State.serve_reads {y : RTag} (hy : y ∈ ((s.serve c t bs).core c).reads) (ht : y.tag = t.tag) :
    ∃ z ∈ (s.core c).reads, z.tag = t.tag
      ∧ y.served = some ((s.core c).ownBytes (s.heldOf c) z bs, (sectorsOf (localPart t.pa) t.len).filter s.poisoned) := by
  rw [State.serve, State.core_modCore_same] at hy
  obtain ⟨z, hz, rfl⟩ := List.mem_map.mp hy
  by_cases hk : z.tag = t.tag
  · refine ⟨z, hz, hk, ?_⟩
    rw [if_pos (beq_iff_eq.mpr hk)]
  · rw [if_neg (mt beq_iff_eq.mp hk)] at ht
    exact absurd ht hk

/-- The core's read `tag` has found no line in its cluster cache. -/
def State.readMissed (s : State) (c tag : Nat) : State :=
  s.modCore c (fun y => { y with reads := y.reads.map (fun r => if r.tag == tag then { r with missed := true } else r) })

theorem State.readMissed_reads {tag : Nat} {y : RTag} (hy : y ∈ ((s.readMissed c tag).core c).reads) (ht : y.tag = tag) :
    y.missed = true := by
  rw [State.readMissed, State.core_modCore_same] at hy
  obtain ⟨z, -, rfl⟩ := List.mem_map.mp hy
  by_cases hk : z.tag = tag
  · rw [if_pos (beq_iff_eq.mpr hk)]
  · rw [if_neg (mt beq_iff_eq.mp hk)] at ht
    exact absurd ht hk

theorem State.readMissed_regs (s : State) (c tag : Nat) : ((s.readMissed c tag).core c).regs = (s.core c).regs := by
  rw [State.readMissed, State.core_modCore_same]
  rfl

end Served

/-! #### CLUSTER_CACHE_READ: R347, R349 to R351 -/

section CacheRead

variable {s : State} {c tag : Nat} {t : RTag} {p : CcParity}

/-- The read is a plain one that has still to look its line up. -/
structure State.looksUp (s : State) (c tag : Nat) (t : RTag) : Prop where
  rtag : s.rtag c tag = some t
  target : t.target = .tiered
  served : t.served = none
  missed : t.missed = false
  early : t.early = false
  plain : ∃ j ∈ (s.core c).jobs, j.seq = t.job ∧ j.kind.vol = false
  turn : s.lineOpen c tag t.pa .tiered false = false

theorem State.looksUp.asks (h : s.looksUp c tag t) : (t.target == .tiered && t.served.isNone && !t.missed && !t.early
    && ((s.core c).jobs.any fun j => j.seq == t.job && !j.kind.vol) && !s.lineOpen c tag t.pa .tiered false) = true := by
  have hplain : ((s.core c).jobs.any fun j => j.seq == t.job && !j.kind.vol) = true := by
    obtain ⟨j, hj, hs, hv⟩ := h.plain
    exact List.any_eq_true.mpr ⟨j, hj, by rw [hs, hv, beq_self_eq_true]; rfl⟩
  rw [h.target, h.served, h.missed, h.early, h.turn, hplain]
  rfl

/-- The cluster loses a line that it finds with bad parity (R351). -/
def State.parityLoses (s : State) (k line : Nat) (p : CcParity) : State :=
  let u := ((s.setCluster k ((s.cluster k).drop line)).notice line k).bump (rFe (k / 4) 0xC00)
  if p = .badAgain then u.ccDisable k line else u

section Turn

variable (hr : s.running) (h : s.looksUp c tag t)
include hr h

/-- A write held for a line that an invalidation has removed keeps the read waiting (R349). -/
theorem execClusterCacheRead_waits (hw : (s.cluster (c / 8)).mustWait (localPart t.pa / 128) = true) :
    exec (.clusterCacheRead c tag p) s = .next s := by
  show execClusterCacheRead c tag p s = _
  simp only [execClusterCacheRead, whenPowered_running hr, h.rtag, withSome_some, h.asks, whenIt_true, hw, if_true, Act.out_next]

variable (hw : (s.cluster (c / 8)).mustWait (localPart t.pa / 128) = false)
include hw

theorem execClusterCacheRead_misses (hm : ((s.cluster (c / 8)).has (localPart t.pa / 128)
      && !(s.cluster (c / 8)).disabled.contains (cacheSlot (localPart t.pa / 128))) = false) :
    exec (.clusterCacheRead c tag p) s = .next (s.readMissed c tag) := by
  show execClusterCacheRead c tag p s = _
  simp only [execClusterCacheRead, whenPowered_running hr, h.rtag, withSome_some, h.asks, whenIt_true, hw, Bool.false_eq_true,
    if_false, hm, Act.out_next]
  rfl

variable (hm : ((s.cluster (c / 8)).has (localPart t.pa / 128)
  && !(s.cluster (c / 8)).disabled.contains (cacheSlot (localPart t.pa / 128))) = true)
include hm

theorem execClusterCacheRead_hit : exec (.clusterCacheRead c tag .good) s
    = .next (((s.clusterHit (c / 8) (localPart t.pa / 128)).serve c t
        ((s.clusterHit (c / 8) (localPart t.pa / 128)).clusterBytes (c / 8) c tag t.pa t.len)).after c) := by
  show execClusterCacheRead c tag .good s = _
  simp only [execClusterCacheRead, whenPowered_running hr, h.rtag, withSome_some, h.asks, whenIt_true, hw, Bool.false_eq_true,
    if_false, hm, if_true, Act.out_next]

theorem execClusterCacheRead_bad (hp : p ≠ .good) : exec (.clusterCacheRead c tag p) s
    = .next ((s.parityLoses (c / 8) (localPart t.pa / 128) p).readMissed c tag) := by
  show execClusterCacheRead c tag p s = _
  simp only [execClusterCacheRead, whenPowered_running hr, h.rtag, withSome_some, h.asks, whenIt_true, hw, Bool.false_eq_true,
    if_false, hm, if_true]
  cases p with
  | good => exact absurd rfl hp
  | bad => rfl
  | badAgain => rfl

end Turn

/-- A line that is lost is held no more, wherever the record of it is written. -/
theorem State.parityLoses_lacks (s : State) (k line : Nat) (p : CcParity) : (s.parityLoses k line p).lacks k line := by
  have h1 : (s.setCluster k ((s.cluster k).drop line)).lacks k line := by
    rw [State.lacks, State.cluster_setCluster_same]
    exact Cluster.drop_has_same _ _
  have h2 : (((s.setCluster k ((s.cluster k).drop line)).notice line k).bump (rFe (k / 4) 0xC00)).lacks k line :=
    State.lacks_of_clusters h1 ((congrArg Mem.clusters (State.setReg_mem _ _ _)).trans (State.notice_clusters _ _ _))
  rw [State.parityLoses]
  refine State.lacks_ite ?_ h2
  simp only [State.ccDisable]
  generalize ((s.setCluster k ((s.cluster k).drop line)).notice line k).bump (rFe (k / 4) 0xC00) = u at h2
  have h3 := State.lacks_log h2 { errRec (u.path (k / 4) (k % 4) 0 0x8 (line % 8 * 2 ^ 29 + line / 8 % 16384)) 0x02
    (if ((u.cluster k).disabled.filter (fun d => d / 16384 == line % 8)).length < 16 then 0 else 2) with
    syndrome := line % 8 * 2 ^ 29 + line / 8 % 16384 }
  refine State.lacks_ite (State.lacks_of_clusters (s := State.setCluster _ k _) (State.lacks_setCluster h3 fun _ => ?_)
    (congrArg Mem.clusters (State.setReg_mem _ _ _))) h3
  obtain ⟨-, hv⟩ := Bool.or_eq_false_iff.mp h3
  refine Bool.or_eq_false_iff.mpr ⟨?_, hv⟩
  rw [Tbl.get?_erase_same]
  rfl

theorem State.parityLoses_cores (s : State) (k line : Nat) (p : CcParity) : (s.parityLoses k line p).cores = s.cores := by
  simp only [State.parityLoses, State.ccDisable, State.ite_cores, State.bump_cores, State.setCluster_cores, State.log_cores,
    State.notice_cores, ite_self]

end CacheRead

/-! #### Homes where engines find every line idle and good -/

section Calm

variable {s t : State} {line : Nat}

theorem Tbl.get?_of_absent {β : Type} {t : Tbl β} {k : Nat} (h : ∀ e ∈ t, e.1 ≠ k) : t.get? k = none := by
  induction t with
  | nil => rfl
  | cons e t ih =>
    rw [Tbl.get?, if_neg (h e List.mem_cons_self), ih fun x hx => h x (List.mem_cons_of_mem e hx)]

/-- What a fold leaves that each of its steps leaves. -/
theorem State.foldl_part {α β : Type} (π : State → α) (g : State → β → State) (hg : ∀ u x, π (g u x) = π u) (l : List β) (s : State) :
    π (l.foldl g s) = π s := by
  induction l generalizing s with
  | nil => rfl
  | cons x l ih => rw [List.foldl_cons, ih, hg]

/-- No block is on its way to another frame. -/
def State.settledMoves (s : State) : Prop := ∀ m ∈ s.peel.moves, m.switched = true

theorem State.calm.lineIdle (h : s.calm) (line : Nat) : s.busy line = false := by
  obtain ⟨htx, hm, -⟩ := h
  refine Bool.or_eq_false_iff.mpr ⟨?_, ?_⟩
  · rw [State.lineBusy, htx, List.any_nil]
  · refine List.any_eq_false.mpr fun m hm' => ?_
    rw [hm m hm']
    simp only [Bool.not_true, Bool.and_false, Bool.false_and, Bool.false_eq_true, not_false_eq_true]

theorem State.calm.takes (h : s.calm) (hq : s.mem.waitq = []) (line : Nat) : s.homeTakes line = true := by
  rw [State.homeTakes, State.busyRoom, h.1, hq]
  rfl

theorem State.enrol_moves (s : State) (b source ctx : Nat) : (s.enrol b source ctx).peel.moves = s.peel.moves := by
  simp only [State.enrol]
  repeat' split
  all_goals rfl

theorem State.count_moves (s : State) (pa : Nat) : (s.count pa).peel.moves = s.peel.moves := by
  have hg : (if s.power.gated.isEmpty = true then s else s.wakeCtl (s.homeOf pa).1).peel = s.peel := by
    rw [State.wakeCtl]
    repeat' split
    all_goals rfl
  simp only [State.count]
  generalize (if s.power.gated.isEmpty = true then s else s.wakeCtl (s.homeOf pa).1) = u at hg ⊢
  rw [← hg]
  split
  · rfl
  · split
    · exact State.enrol_moves _ _ _ _
    · rfl

/-- A home's write of a block that does not move has no mirror (R254). -/
theorem State.mirror_settled (h : s.settledMoves) (pa n : Nat) : s.mirror pa n = s := by
  have hn : s.peel.moves.find? (fun m => m.block == blockOf pa && !m.switched) = none :=
    List.find?_eq_none.mpr fun m hm => by
      rw [h m hm]
      simp only [Bool.not_true, Bool.and_false, Bool.false_eq_true, not_false_eq_true]
  simp only [State.mirror, hn]

theorem State.homeStore_settled (h : s.settledMoves) (pa : Nat) (bs : List Byte) : s.homeStore pa bs = s.homeWrite pa bs :=
  State.mirror_settled (s := s.homeWrite pa bs) h _ _

/-- The access of a request is its counting. -/
theorem State.calm.reqAccess (h : s.calm) {r : HomeReq} (hr : r.reads) (he : r.e = []) : s.reqAccess r = s.count (r.line * 128) := by
  obtain ⟨-, -, hf, hoff⟩ := h
  obtain ⟨F, hF, ha⟩ := State.reqAccess_good (s := s) hr he (fun f hx => by rw [hf] at hx; exact absurd hx List.not_mem_nil)
  have hF' : F = s.mem.flaws := by
    rw [hf] at hF ⊢
    exact List.eq_nil_iff_forall_not_mem.mpr fun f hx => absurd (hF f hx) List.not_mem_nil
  rw [ha, hF']
  exact State.touch_eq_count hoff _

/-- What stands at a home that is about to perform a request of a core: the cores and the data are those of `s`. -/
structure State.AtHome (s w : State) : Prop where
  cores : w.cores = s.cores
  mem : ∃ d y, w.mem = { s.mem with dir := d, ways := y }
  keeps : w.hubKeeps
  moves : w.settledMoves

theorem State.calm.atHome_count (h : s.calm) (pa : Nat) : s.AtHome (s.count pa) := by
  refine ⟨(State.Aside.count s pa).cores, ⟨s.mem.dir, s.mem.ways, (State.Aside.count s pa).mem⟩,
    (State.recordsOff_count h.2.2.2 pa).hubKeeps, ?_⟩
  rw [State.settledMoves, State.count_moves]
  exact h.2.1

namespace State.AtHome

variable {w : State}

theorem setDir_free (h : s.AtHome w) (line : Nat) : s.AtHome (w.setDir line { owner := none, sharers := 0 }) := by
  obtain ⟨d, y, hm⟩ := h.mem
  refine ⟨h.cores, ⟨w.mem.dir.erase line, w.mem.ways.erase line, ?_⟩, h.keeps, h.moves⟩
  rw [State.setDir_free, State.withMem_mem, hm]

theorem core (h : s.AtHome w) (c : Nat) : w.core c = s.core c := State.core_of_cores s w h.cores c

theorem sysByte (h : s.AtHome w) (a : Nat) : w.sysByte a = s.sysByte a := by
  obtain ⟨d, y, hm⟩ := h.mem
  exact State.sysByte_congr a (by rw [hm]) (by rw [hm]) (by rw [hm])

theorem sysRead (h : s.AtHome w) (pa n : Nat) : w.sysRead pa n = s.sysRead pa n := List.map_congr_left fun a _ => h.sysByte a

theorem sysNat (h : s.AtHome w) (pa n : Nat) : w.sysNat pa n = s.sysNat pa n := congrArg ofBytes (h.sysRead pa n)

theorem poisoned (h : s.AtHome w) : w.poisoned = s.poisoned := by
  obtain ⟨d, y, hm⟩ := h.mem
  funext x
  rw [State.poisoned, State.poisoned, hm]

theorem anyPoison (h : s.AtHome w) (pa n : Nat) : w.anyPoison pa n = s.anyPoison pa n := by
  rw [State.anyPoison, State.anyPoison, h.poisoned]

theorem dirty (h : s.AtHome w) : w.mem.dirty = s.mem.dirty := by
  obtain ⟨d, y, hm⟩ := h.mem
  rw [hm]

theorem cluster (h : s.AtHome w) (k : Nat) : w.cluster k = s.cluster k := by
  obtain ⟨d, y, hm⟩ := h.mem
  rw [State.cluster, State.cluster, hm]

theorem heldOf (h : s.AtHome w) (c : Nat) : w.heldOf c = s.heldOf c := by rw [State.heldOf, State.heldOf, h.cluster]

theorem rtag (h : s.AtHome w) (c tag : Nat) : w.rtag c tag = s.rtag c tag := by rw [State.rtag, State.rtag, h.core]

theorem wtag (h : s.AtHome w) (c tag : Nat) : w.wtag c tag = s.wtag c tag := by rw [State.wtag, State.wtag, h.core]

theorem queues (h : s.AtHome w) : w.mem.txns = s.mem.txns ∧ w.mem.waitq = s.mem.waitq := by
  obtain ⟨d, y, hm⟩ := h.mem
  rw [hm]
  exact ⟨rfl, rfl⟩

end State.AtHome

theorem State.unheld_of_mem (h : s.unheld line) (hm : t.mem = s.mem) : t.unheld line := by
  rw [State.unheld, State.dirOf, hm]
  exact h

/-- Nobody has a copy of a line, and no owner holds bytes of it. -/
def State.lineClean (s : State) (line : Nat) : Prop := s.unheld line ∧ ∀ e ∈ s.mem.dirty, e.1 / 128 ≠ line

/-- A request for such a line is performed when it arrives. -/
theorem State.calm.reqArrive (h : s.calm) (hq : s.mem.waitq = []) {r : HomeReq} (hh : s.unheld r.line) (hx : r.takesEntry = false)
    (hr : r.held = false) (hu : (s.performReq r).mem.txns = s.mem.txns ∧ (s.performReq r).mem.waitq = s.mem.waitq) :
    s.reqArrive r = .next (s.performReq r) :=
  State.reqArrive_performs (h.lineIdle _) (h.takes hq _) (fun x hx' => by rw [hq] at hx'; exact absurd hx' List.not_mem_nil) hh hx hr hu

end Calm

/-! #### What follows a core's write at the home: R198, R221 -/

section After

variable {s : State} {c : Nat}

theorem State.noteWrote_writes (s : State) (c seq pa n : Nat) : ((s.noteWrote c seq pa n).core c).writes = (s.core c).writes := by
  rw [State.noteWrote]
  split
  · rw [State.core_modCore_same]
  · rfl

/-- Another core's read of a line that has been written is served again, in part. -/
theorem State.mixReads_mem (s : State) (c line : Nat) : (s.mixReads c line).mem = s.mem :=
  State.foldl_part State.mem _ (fun u p => by
    split
    · rfl
    · refine State.foldl_part State.mem _ (fun v t => ?_) _ _
      rfl) _ _

theorem State.core_modCore_other (s : State) {c d : Nat} (f : Core → Core) (h : d ≠ c) : (s.modCore c f).core d = s.core d :=
  State.core_setCore_other s c d _ h

theorem State.mixReads_core (s : State) (c line : Nat) : (s.mixReads c line).core c = s.core c :=
  State.foldl_part (fun u => u.core c) _ (fun u p => by
    split
    · rfl
    · next hp =>
      refine State.foldl_part (fun u => u.core c) _ (fun v t => ?_) _ _
      exact State.core_modCore_other v.draw.1 _ (fun h => hp h.symm)) _ _

/-- Every write of the tag has been performed, with the old value that an atomic gives. -/
def State.tagPerformed (s : State) (c tag : Nat) (old : Option Nat) : Prop :=
  ∀ y ∈ (s.core c).writes, y.tag = tag → y.stage = .performed ∧ y.old = old

theorem State.performed_tagPerformed (s : State) (c tag : Nat) (old : Option Nat) : (s.performed c tag old).tagPerformed c tag old := by
  intro y hy ht
  rw [State.performed, State.core_modCore_same] at hy
  obtain ⟨z, -, rfl⟩ := List.mem_map.mp hy
  by_cases hk : z.tag = tag
  · rw [if_pos (beq_iff_eq.mpr hk)]
    exact ⟨rfl, rfl⟩
  · rw [if_neg (mt beq_iff_eq.mp hk)] at ht
    exact absurd ht hk

theorem State.tagPerformed_noteWrote {tag : Nat} {old : Option Nat} (h : s.tagPerformed c tag old) (seq pa n : Nat) :
    (s.noteWrote c seq pa n).tagPerformed c tag old := by
  rw [State.tagPerformed, State.noteWrote_writes]
  exact h

theorem State.tagPerformed_mixReads {tag : Nat} {old : Option Nat} (h : s.tagPerformed c tag old) (line : Nat) :
    (s.mixReads c line).tagPerformed c tag old := by
  rw [State.tagPerformed, State.mixReads_core]
  exact h

end After

/-! #### A held write at its home: R204, R340, R348 -/

section Held

variable {s : State} {cl : Nat} {h : Held}

/-- The writes that a cluster's slices hold when its home has performed the one numbered `wid`. -/
def Cluster.markDone (x : Cluster) (wid : Nat) : Cluster :=
  { x with held := x.held.map (fun y => if y.wid == wid then { y with done := true } else y) }

theorem Cluster.markDone_held {x : Cluster} {wid : Nat} {y : Held} (hy : y ∈ (x.markDone wid).held) (hw : y.wid = wid) :
    y.done = true := by
  obtain ⟨z, -, rfl⟩ := List.mem_map.mp hy
  by_cases hk : z.wid = wid
  · rw [if_pos (beq_iff_eq.mpr hk)]
  · rw [if_neg (mt beq_iff_eq.mp hk)] at hw
    exact absurd hw hk

/-- The home has written the bytes of a held write. -/
def State.heldStored (s : State) (cl : Nat) (h : Held) : State :=
  (((s.homeStore h.pa h.bytes).setCluster cl ((s.cluster cl).markDone h.wid)).noteWrote h.core h.seq h.pa h.bytes.length).setDir
    (localPart h.pa / 128) { owner := none, sharers := 0 }

/-- The request of a held write. -/
def Held.req (h : Held) (cl : Nat) : HomeReq :=
  { line := localPart h.pa / 128, kind := .writeThrough h.wid, who := .cluster cl, e := [] }

theorem State.homeStore_cluster (s : State) (pa : Nat) (bs : List Byte) (k : Nat) : (s.homeStore pa bs).cluster k = s.cluster k := by
  have hm := (State.Aside.mirror (s.homeWrite pa bs) pa bs.length).mem
  rw [State.cluster, show (s.homeStore pa bs).mem = (s.homeWrite pa bs).mem from hm]
  rfl

/-- The home performs a held write to a line that nobody holds. -/
theorem State.performReq_writeThrough {w : State} {r : HomeReq} (hk : r.kind = .writeThrough h.wid) (hw : r.who = .cluster cl)
    (hr : r.line = localPart h.pa / 128) (hacc : s.reqAccess r = w) (hl : w.lineClean (localPart h.pa / 128))
    (hfind : (w.cluster cl).held.find? (fun x => x.wid == h.wid) = some h) :
    s.performReq r = (w.heldStored cl h).mixReads h.core (localPart h.pa / 128) := by
  obtain ⟨hu, hd⟩ := hl
  have hz : (0 : BitVec 32).getLsbD cl = false := BitVec.getLsbD_zero
  simp only [State.performReq, hacc, hk, hw, hr, State.ownLost_unheld hu, show w.dirOf _ = _ from hu, State.dropAll_unheld,
    State.flush_clean hd, hfind, hz, Bool.false_eq_true, if_false, State.homeStore_cluster]
  rfl

theorem State.performReq_held (hc : s.calm) (hh : (s.cluster cl).held.find? (fun x => x.wid == h.wid) = some h)
    (hl : s.lineClean (localPart h.pa / 128)) : s.performReq (h.req cl)
      = ((s.count (localPart h.pa / 128 * 128)).heldStored cl h).mixReads h.core (localPart h.pa / 128) := by
  have hm := (State.Aside.count s (localPart h.pa / 128 * 128)).mem
  refine State.performReq_writeThrough rfl rfl rfl
    (hc.reqAccess ⟨by simp [Held.req], by simp [Held.req], by simp [Held.req]⟩ rfl) ⟨State.unheld_of_mem hl.1 hm, ?_⟩ ?_
  · rw [hm]
    exact hl.2
  · rw [State.cluster, hm]
    exact hh

/-- What the home of a held write leaves: its bytes, every other byte as it was, the write marked as performed, and the requests at
the homes. -/
theorem State.heldStored_effect (w : State) (hd : ∀ e ∈ w.mem.dirty, e.1 / 128 ≠ localPart h.pa / 128)
    (hl : localPart h.pa % 128 + h.bytes.length ≤ 128) :
    let u := (w.heldStored cl h).mixReads h.core (localPart h.pa / 128)
    u.mem.txns = w.mem.txns ∧ u.mem.waitq = w.mem.waitq ∧ u.sysRead h.pa h.bytes.length = h.bytes
      ∧ (∀ a, localPart a < localPart h.pa ∨ localPart h.pa + h.bytes.length ≤ localPart a → u.sysByte a = w.sysByte a)
      ∧ ∀ x ∈ (u.cluster cl).held, x.wid = h.wid → x.done = true := by
  have hread := State.homeStore_sysRead (s := w) (localPart_add_le hl) fun i hi =>
    Tbl.get?_of_absent fun e he hk => hd e he (by rw [hk, localPart_add_line hl hi])
  have hother {a : Nat} (ha : localPart a < localPart h.pa ∨ localPart h.pa + h.bytes.length ≤ localPart a) :=
    State.homeStore_sysByte_other (s := w) ha
  have hm := (State.Aside.mirror (w.homeWrite h.pa h.bytes) h.pa h.bytes.length).mem
  have htxns := congrArg Mem.txns hm
  have hwaitq := congrArg Mem.waitq hm
  have hmem : ((w.heldStored cl h).mixReads h.core (localPart h.pa / 128)).mem
      = (((w.homeStore h.pa h.bytes).setCluster cl ((w.cluster cl).markDone h.wid)).setDir (localPart h.pa / 128)
          { owner := none, sharers := 0 }).mem := by
    rw [State.mixReads_mem, State.heldStored, State.setDir_free, State.setDir_free, State.withMem_mem, State.withMem_mem,
      State.noteWrote_mem]
  have hbyte (a : Nat) : ((w.heldStored cl h).mixReads h.core (localPart h.pa / 128)).sysByte a
      = (w.homeStore h.pa h.bytes).sysByte a :=
    State.sysByte_congr a ((congrArg Mem.dirty hmem).trans rfl) ((congrArg Mem.bytes hmem).trans rfl)
      ((congrArg Mem.undef hmem).trans rfl)
  refine ⟨?_, ?_, ?_, fun a ha => (hbyte a).trans (hother ha), fun x hx hw => ?_⟩
  · exact (congrArg Mem.txns hmem).trans htxns
  · exact (congrArg Mem.waitq hmem).trans hwaitq
  · exact (List.map_congr_left fun a _ => hbyte a).trans hread
  · rw [State.cluster, hmem] at hx
    have hx' : x ∈ (((w.homeStore h.pa h.bytes).setCluster cl ((w.cluster cl).markDone h.wid)).cluster cl).held := hx
    rw [State.cluster_setCluster_same] at hx'
    exact Cluster.markDone_held hx' hw

/-- A held write that no other waits before is performed when it reaches an idle home. -/
theorem execWriteThroughWrite_performs (hr : s.running)
    (hh : (s.cluster cl).held.find? (fun x => x.wid == h.wid) = some h) (hdone : h.done = false)
    (hb : s.heldBefore cl h.wid = false) (hc : s.calm) (hq : s.mem.waitq = []) (hl : s.lineClean (localPart h.pa / 128))
    (hlen : localPart h.pa % 128 + h.bytes.length ≤ 128) (ho : s.lineOpen h.core h.tag h.pa .tiered true = false) :
    exec (.writeThroughWrite cl h.wid []) s = .next
      (((s.count (localPart h.pa / 128 * 128)).heldStored cl h).mixReads h.core (localPart h.pa / 128)).afterAll := by
  have hm := (State.Aside.count s (localPart h.pa / 128 * 128)).mem
  have hp := State.performReq_held hc hh hl
  obtain ⟨htx, hwq, -⟩ := State.heldStored_effect (cl := cl) (s.count (localPart h.pa / 128 * 128)) (by rw [hm]; exact hl.2) hlen
  have harr := hc.reqArrive hq (r := h.req cl) hl.1 rfl rfl ⟨by rw [hp, htx, hm], by rw [hp, hwq, hm]⟩
  rw [hp] at harr
  show execWriteThroughWrite cl h.wid [] s = _
  simp only [execWriteThroughWrite, whenPowered_running hr, hh, withSome_some, hdone, hc.1, hq, List.any_nil, Bool.or_false, hb, ho,
    Bool.not_false, Bool.and_self, whenIt_true]
  exact congrArg (fun x : Act => (x.andThen State.afterAll).out s) harr

/-- The acknowledgement of the home releases a held write (R348). -/
def State.heldReleased (s : State) (cl : Nat) (h : Held) : State :=
  (s.setCluster cl { s.cluster cl with held := (s.cluster cl).held.filter (fun x => x.wid != h.wid) }).modCore h.core (fun k =>
    { k with writes := k.writes.map (fun w =>
        if w.tag == h.tag && w.stage == .held then { w with stage := .performed } else w) })

theorem execHeldWriteAck_done (hr : s.running) (hh : (s.cluster cl).held.find? (fun x => x.wid == h.wid && x.done) = some h) :
    exec (.heldWriteAck cl h.wid) s = .next (s.heldReleased cl h).afterAll := by
  show execHeldWriteAck cl h.wid s = _
  rw [execHeldWriteAck, whenPowered_running hr, hh, withSome_some, Act.out_next]
  rfl

theorem State.heldReleased_writes {y : WTag} (hy : y ∈ ((s.heldReleased cl h).core h.core).writes) (ht : y.tag = h.tag) :
    y.stage ≠ .held := by
  rw [State.heldReleased, State.core_modCore_same] at hy
  obtain ⟨z, -, rfl⟩ := List.mem_map.mp hy
  by_cases hk : (z.tag == h.tag && z.stage == .held) = true
  · rw [if_pos hk]
    exact fun hc => WStage.noConfusion hc
  · rw [if_neg hk] at ht ⊢
    intro hs
    exact hk (by rw [ht, hs, beq_self_eq_true, beq_self_eq_true]; rfl)

end Held

/-! #### Part writes of a sector, and refusals on poison: R223, R319 -/

section Part

variable {s t : State}

theorem sectorsOf_full {a n x : Nat} (h : n < 32) : x ∉ fullSectors a n := by
  intro hx
  have := (List.mem_filter.mp hx).2
  simp only [Bool.and_eq_true, decide_eq_true_eq] at this
  omega

/-- A write of less than a sector leaves every mark of poison. -/
theorem State.homeWrite_part {pa : Nat} {bs : List Byte} (h : bs.length < 32) :
    ∃ b, (s.homeWrite pa bs).mem = { s.mem with bytes := b } := by
  have hn : fullSectors (localPart pa) bs.length = [] := List.eq_nil_iff_forall_not_mem.mpr fun x => sectorsOf_full h
  refine ⟨putBytes s.mem.blank s.mem.bytes (localPart pa) bs, ?_⟩
  simp only [State.homeWrite, State.withMem_mem, hn, putPoison]

theorem atomBytes_le (f : AtomFmt) : 1 ≤ atomBytes f ∧ atomBytes f ≤ 8 := by cases f <;> decide

/-- The refusal of an atomic on poison is a record, which goes no further than the hub (R319). -/
theorem State.refusePoison_recorded (h : s.hubKeeps) (pa : Nat) (ctx uid : Option Nat) : s.Recorded (s.refusePoison pa ctx uid) := by
  have hd : s.Recorded (s.rowHolding pa).1 := ⟨rfl, rfl, rfl, rfl, fun _ _ => rfl⟩
  simp only [State.refusePoison]
  generalize s.rowHolding pa = x at hd
  have hk : x.1.hubKeeps := hd.hubKeeps h
  cases uid with
  | none => exact hd.trans (State.log_recorded hk _)
  | some u => exact ((hd.trans (State.log_recorded hk _)).trans (State.Recorded.modOp _ _ _)).trans (State.Recorded.modOp _ _ _)

theorem State.sysNat_congr {pa n : Nat} (h : ∀ i, i < n → t.sysByte (pa + i) = s.sysByte (pa + i)) : t.sysNat pa n = s.sysNat pa n := by
  refine congrArg ofBytes (List.map_congr_left fun a ha => ?_)
  obtain ⟨h1, h2⟩ := mem_upFrom.mp ha
  obtain ⟨i, rfl⟩ := Nat.exists_eq_add_of_le h1
  exact h i (by omega)

/-- The homes write bytes and count requests, and nothing else of memory changes. -/
structure State.Writes (s t : State) : Prop where
  mem : ∃ b, t.mem = { s.mem with bytes := b }
  keeps : t.hubKeeps
  moves : t.settledMoves

namespace State.Writes

theorem trans {u : State} (h : s.Writes t) (g : t.Writes u) : s.Writes u := by
  obtain ⟨b, hb⟩ := h.mem
  obtain ⟨b', hb'⟩ := g.mem
  exact ⟨⟨b', by rw [hb', hb]⟩, g.keeps, g.moves⟩

theorem refl (hk : s.hubKeeps) (hm : s.settledMoves) : s.Writes s := ⟨⟨s.mem.bytes, rfl⟩, hk, hm⟩

theorem homeStore (hk : s.hubKeeps) (hm : s.settledMoves) {pa : Nat} {bs : List Byte} (h : bs.length < 32) :
    s.Writes (s.homeStore pa bs) := by
  rw [State.homeStore_settled hm]
  exact ⟨State.homeWrite_part h, hk, hm⟩

theorem recorded (hk : s.hubKeeps) (hm : s.settledMoves) (hr : s.Recorded t) : s.Writes t :=
  ⟨⟨s.mem.bytes, hr.mem⟩, hr.hubKeeps hk, by rw [State.settledMoves, hr.peel]; exact hm⟩

theorem anyPoison (h : s.Writes t) (pa n : Nat) : t.anyPoison pa n = s.anyPoison pa n := by
  obtain ⟨b, hb⟩ := h.mem
  unfold State.anyPoison State.poisoned
  rw [hb]

theorem dirty (h : s.Writes t) : t.mem.dirty = s.mem.dirty := by
  obtain ⟨b, hb⟩ := h.mem
  rw [hb]

theorem queues (h : s.Writes t) : t.mem.txns = s.mem.txns ∧ t.mem.waitq = s.mem.waitq := by
  obtain ⟨b, hb⟩ := h.mem
  rw [hb]
  exact ⟨rfl, rfl⟩

end State.Writes

/-- One element at the memory-side adder: it is refused on poison, or added (R223, R319). -/
def State.addElem (s : State) (ctx uid : Option Nat) (f : AtomFmt) (pa v : Nat) : State :=
  if s.anyPoison pa (atomBytes f) then s.refusePoison pa ctx uid
  else s.homeStore pa (toBytes (atomBytes f) (adderAdd f (s.sysNat pa (atomBytes f)) v))

section Elem

variable {ctx uid : Option Nat} {f : AtomFmt} {pa v : Nat} (hk : s.hubKeeps)
include hk

theorem State.addElem_writes (hm : s.settledMoves) : s.Writes (s.addElem ctx uid f pa v) := by
  rw [State.addElem]
  split
  · exact State.Writes.recorded hk hm (State.refusePoison_recorded hk pa ctx uid)
  · exact State.Writes.homeStore hk hm (by rw [length_toBytes]; exact Nat.lt_of_le_of_lt (atomBytes_le f).2 (by decide))

theorem State.addElem_sysByte_other {a : Nat} (ha : localPart a < localPart pa ∨ localPart pa + atomBytes f ≤ localPart a) :
    (s.addElem ctx uid f pa v).sysByte a = s.sysByte a := by
  rw [State.addElem]
  split
  · have hr := (State.refusePoison_recorded hk pa ctx uid).mem
    exact State.sysByte_congr a (by rw [hr]) (by rw [hr]) (by rw [hr])
  · exact State.homeStore_sysByte_other (by rwa [length_toBytes])

theorem State.addElem_sysNat (hl : localPart pa + atomBytes f ≤ 2 ^ 49) (hd : s.mem.dirty = []) :
    (s.addElem ctx uid f pa v).sysNat pa (atomBytes f) = if s.anyPoison pa (atomBytes f) then s.sysNat pa (atomBytes f)
      else adderAdd f (s.sysNat pa (atomBytes f)) v % 2 ^ (8 * atomBytes f) := by
  rw [State.addElem]
  split
  · have hr := (State.refusePoison_recorded hk pa ctx uid).mem
    exact State.sysNat_congr fun i _ => State.sysByte_congr _ (by rw [hr]) (by rw [hr]) (by rw [hr])
  · have hread := State.homeStore_sysRead (s := s) (pa := pa)
      (bs := toBytes (atomBytes f) (adderAdd f (s.sysNat pa (atomBytes f)) v)) (by rwa [length_toBytes])
      (fun i _ => by rw [hd]; rfl)
    rw [length_toBytes] at hread
    rw [State.sysNat, hread, ofBytes_toBytes]

end Elem

/-- The elements of one request at the memory-side adder: each place holds its sum, unless it is poisoned. -/
theorem State.addElems_effect {ctx uid : Option Nat} {f : AtomFmt} (es : List Nat) : ∀ {s : State} {pa : Nat}, s.hubKeeps →
    s.settledMoves → s.mem.dirty = [] → localPart pa + es.length * atomBytes f ≤ 2 ^ 49 →
    s.Writes (s.addElems ctx uid f pa es)
      ∧ (∀ a, localPart a < localPart pa ∨ localPart pa + es.length * atomBytes f ≤ localPart a →
          (s.addElems ctx uid f pa es).sysByte a = s.sysByte a)
      ∧ ∀ i e, es[i]? = some e → (s.addElems ctx uid f pa es).sysNat (pa + i * atomBytes f) (atomBytes f)
          = if s.anyPoison (pa + i * atomBytes f) (atomBytes f) then s.sysNat (pa + i * atomBytes f) (atomBytes f)
            else adderAdd f (s.sysNat (pa + i * atomBytes f) (atomBytes f)) e % 2 ^ (8 * atomBytes f) := by
  induction es with
  | nil => exact fun hk hm _ _ => ⟨State.Writes.refl hk hm, fun _ _ => rfl, fun i e he => by simp at he⟩
  | cons v es ih =>
    intro s pa hk hm hd hl
    obtain ⟨hn1, hn8⟩ := atomBytes_le f
    have hw := State.addElem_writes (ctx := ctx) (uid := uid) (f := f) (pa := pa) (v := v) hk hm
    have hother {a : Nat} := State.addElem_sysByte_other (ctx := ctx) (uid := uid) (f := f) (pa := pa) (v := v) (a := a) hk
    rw [List.length_cons, Nat.succ_mul] at hl
    have hfirst := State.addElem_sysNat (ctx := ctx) (uid := uid) (v := v) hk (pa := pa) (f := f) (by omega) hd
    have hstep : s.addElems ctx uid f pa (v :: es) = (s.addElem ctx uid f pa v).addElems ctx uid f (pa + atomBytes f) es := rfl
    generalize s.addElem ctx uid f pa v = u at hw hother hfirst hstep
    have hnext : es ≠ [] → localPart (pa + atomBytes f) = localPart pa + atomBytes f := fun hne => by
      have : 1 ≤ es.length := List.length_pos_of_ne_nil hne
      have : atomBytes f ≤ es.length * atomBytes f := Nat.le_mul_of_pos_left _ this
      exact localPart_add (n := atomBytes f + 1) (by omega) (by omega)
    rw [hstep]
    by_cases hne : es = []
    · subst hne
      refine ⟨hw, fun a ha => hother (by simpa using ha), fun i e he => ?_⟩
      cases i with
      | zero =>
        obtain rfl : v = e := by simpa using he
        rw [Nat.zero_mul, Nat.add_zero]
        exact hfirst
      | succ i => simp at he
    · have hpa := hnext hne
      have hlen : 1 ≤ es.length := List.length_pos_of_ne_nil hne
      obtain ⟨hw', hother', hsum'⟩ := ih hw.keeps hw.moves (hw.dirty.trans hd) (pa := pa + atomBytes f) (by rw [hpa]; omega)
      refine ⟨hw.trans hw', fun a ha => ?_, fun i e he => ?_⟩
      · rw [List.length_cons, Nat.succ_mul] at ha
        rw [hother' a (by rw [hpa]; omega), hother (by omega)]
      · cases i with
        | zero =>
          obtain rfl : v = e := by simpa using he
          rw [Nat.zero_mul, Nat.add_zero, ← hfirst]
          refine State.sysNat_congr fun j hj => hother' _ (.inl ?_)
          rw [localPart_add (n := atomBytes f) (by omega) hj, hpa]
          omega
        | succ i =>
          have he' : es[i]? = some e := by simpa using he
          have hi : i < es.length := (List.getElem?_eq_some_iff.mp he').1
          have him : (i + 1) * atomBytes f ≤ es.length * atomBytes f := Nat.mul_le_mul_right _ hi
          have hplace : pa + (i + 1) * atomBytes f = pa + atomBytes f + i * atomBytes f := by rw [Nat.succ_mul]; omega
          have hnat : u.sysNat (pa + atomBytes f + i * atomBytes f) (atomBytes f)
              = s.sysNat (pa + atomBytes f + i * atomBytes f) (atomBytes f) := State.sysNat_congr fun j hj => hother (.inr (by
            rw [Nat.succ_mul] at him
            rw [show pa + atomBytes f + i * atomBytes f + j = pa + (atomBytes f + i * atomBytes f + j) by omega,
              localPart_add (n := atomBytes f + i * atomBytes f + j + 1) (by omega) (by omega)]
            omega))
          rw [hplace, hsum' i e he', hw.anyPoison, hnat]

end Part

/-! #### The tags of a core at the homes: R206, R340 -/

section Tags

variable {s u : State} {c tag : Nat}

theorem State.sysByte_of_mem (h : u.mem = s.mem) (a : Nat) : u.sysByte a = s.sysByte a :=
  State.sysByte_congr a (by rw [h]) (by rw [h]) (by rw [h])

theorem State.sysRead_of_mem (h : u.mem = s.mem) (pa n : Nat) : u.sysRead pa n = s.sysRead pa n :=
  List.map_congr_left fun a _ => State.sysByte_of_mem h a

theorem State.sysNat_of_mem (h : u.mem = s.mem) (pa n : Nat) : u.sysNat pa n = s.sysNat pa n :=
  congrArg ofBytes (State.sysRead_of_mem h pa n)

/-- The homes hold nothing: no request, no copy of a line, no bytes of an owner. -/
structure State.homesEmpty (s : State) : Prop where
  calm : s.calm
  waitq : s.mem.waitq = []
  dir : s.mem.dir = []
  dirty : s.mem.dirty = []

/-- The request of a core's tag. -/
def tagReq (c tag line : Nat) : HomeReq := { line := line, kind := .coreTag c tag, who := .core c, e := [] }

theorem State.homesEmpty.unheld (h : s.homesEmpty) (line : Nat) : s.unheld line := by
  rw [State.unheld, State.dirOf, h.dir]
  rfl

theorem State.homesEmpty.reqAccess (h : s.homesEmpty) (line : Nat) :
    s.reqAccess (tagReq c tag line) = s.count (line * 128) :=
  h.calm.reqAccess ⟨by simp [tagReq], by simp [tagReq], by simp [tagReq]⟩ rfl

/-- A tag whose turn has come reaches its home and is performed there. -/
theorem State.homesEmpty.tagAtHome (h : s.homesEmpty) (line : Nat)
    (hu : (s.performReq (tagReq c tag line)).mem.txns = s.mem.txns ∧ (s.performReq (tagReq c tag line)).mem.waitq = s.mem.waitq) :
    s.tagAtHome c tag line [] = .next (s.performReq (tagReq c tag line)).afterAll := by
  have hq : s.tagQueued c tag = false := by
    rw [State.tagQueued, State.queued, h.calm.1, h.waitq]
    rfl
  rw [State.tagAtHome, hq, Bool.not_false, whenIt_true]
  exact congrArg (fun x : Act => x.andThen State.afterAll) (h.calm.reqArrive h.waitq (h.unheld line) rfl rfl hu)

/-! ##### A volatile read -/

section Read

variable {t : RTag} (h : s.homesEmpty) (ht : s.rtag c tag = some t) (he : t.early = false)
include h ht he

theorem State.homesEmpty.performReq_read (line : Nat) : s.performReq (tagReq c tag line)
    = (s.count (line * 128)).serve c t ((s.count (line * 128)).sysRead t.pa t.len) := by
  have hm := (State.Aside.count s (line * 128)).mem
  have hw := (h.calm.atHome_count (line * 128)).rtag c tag
  have hacc := h.reqAccess (c := c) (tag := tag) line
  generalize s.count (line * 128) = w at hm hw hacc ⊢
  have hun : w.unheld line := State.unheld_of_mem (h.unheld line) hm
  have hp : s.performReq (tagReq c tag line) = w.performTag c tag := by
    simp only [State.performReq, hacc]
    simp only [tagReq, State.ownLost_unheld hun, hw, ht, Option.isSome_some, if_true]
  rw [hp]
  simp only [State.performTag, hw, ht, he, Bool.false_eq_true, if_false]

theorem execNonAllocatingRead_tag (hr : s.running) (htgt : t.target = .tiered) (hs : t.served = none)
    (hv : ∀ j ∈ (s.core c).jobs, j.seq = t.job → j.kind.vol = true) (hturn : s.readTurn c t = true) :
    exec (.nonAllocatingRead (.tag c tag) []) s = .next ((s.count (localPart t.pa / 128 * 128)).serve c t
      ((s.count (localPart t.pa / 128 * 128)).sysRead t.pa t.len)).afterAll := by
  have hplain : ((s.core c).jobs.any fun j => j.seq == t.job && !j.kind.vol) = false := by
    refine List.any_eq_false.mpr fun j hj hb => ?_
    obtain ⟨h1, h2⟩ := Bool.and_eq_true_iff.mp hb
    rw [hv j hj (beq_iff_eq.mp h1)] at h2
    exact Bool.false_ne_true h2
  have hp := h.performReq_read ht he (localPart t.pa / 128)
  have hm := (State.Aside.count s (localPart t.pa / 128 * 128)).mem
  have hat := h.tagAtHome (c := c) (tag := tag) (localPart t.pa / 128)
    ⟨by rw [hp]; exact congrArg Mem.txns hm, by rw [hp]; exact congrArg Mem.waitq hm⟩
  show execNonAllocatingRead (.tag c tag) [] s = _
  simp only [execNonAllocatingRead, whenPowered_running hr, ht, withSome_some, htgt, hs, he, hplain, hturn, Option.isNone_none,
    beq_self_eq_true, Bool.not_false, Bool.and_self, whenIt_true, hat, hp, Act.out_next]

end Read

/-! ##### Writes and atomics -/

/-- The home of a line that is about to perform a core's write or atomic. -/
def State.tagHome (s : State) (line : Nat) : State := (s.count (line * 128)).setDir line { owner := none, sharers := 0 }

section Write

variable {x : WTag}

theorem State.homesEmpty.atTagHome (h : s.homesEmpty) (line : Nat) : s.AtHome (s.tagHome line) :=
  (h.calm.atHome_count _).setDir_free line

theorem State.homesEmpty.performReq_write (h : s.homesEmpty) (ht : s.rtag c tag = none) (line : Nat) :
    s.performReq (tagReq c tag line) = ((s.tagHome line).performTag c tag).mixReads c line := by
  have hm := (State.Aside.count s (line * 128)).mem
  have hw := (h.calm.atHome_count (line * 128)).rtag c tag
  have hacc := h.reqAccess (c := c) (tag := tag) line
  rw [State.tagHome]
  generalize s.count (line * 128) = w at hm hw hacc ⊢
  have hun : w.unheld line := State.unheld_of_mem (h.unheld line) hm
  have hflush : w.flush line = w := State.flush_clean (by rw [hm, h.dirty]; exact fun e he => absurd he List.not_mem_nil)
  simp only [State.performReq, hacc]
  simp only [tagReq, State.ownLost_unheld hun, hw, ht, Option.isSome_none, Bool.false_eq_true, if_false, State.dropAll_unheld,
    show w.dirOf line = _ from hun, hflush]

/-- A write tag whose turn has come is performed when it reaches its home. -/
theorem State.homesEmpty.tagAtHome_write (h : s.homesEmpty) (ht : s.rtag c tag = none) (line : Nat)
    (hu : ((s.tagHome line).performTag c tag).mem.txns = s.mem.txns ∧ ((s.tagHome line).performTag c tag).mem.waitq = s.mem.waitq) :
    s.tagAtHome c tag line [] = .next (((s.tagHome line).performTag c tag).mixReads c line).afterAll := by
  have hp := h.performReq_write ht line
  rw [h.tagAtHome line (by rw [hp, State.mixReads_mem]; exact hu), hp]

section Perform

variable {w : State} {bs : List Byte} {op : AtomOp} {f : AtomFmt} {v cmp : Nat} {es : List Nat}
  (hr : w.rtag c tag = none) (hw : w.wtag c tag = some x)
include hr hw

theorem State.performTag_store (ho : x.op = .store bs) : w.performTag c tag
    = ((w.homeStore x.pa bs).performed c tag none).noteWrote c x.job x.pa bs.length := by
  simp only [State.performTag, hr, hw, ho]

theorem State.performTag_refused (ho : x.op = .atom op f v cmp) (hp : w.anyPoison x.pa (atomBytes f) = true) : w.performTag c tag
    = (w.refusePoison x.pa (w.core c).owner.1 (w.core c).owner.2).performed c tag (some (2 ^ 64 - 1)) := by
  simp only [State.performTag, hr, hw, ho, hp, if_true]

theorem State.performTag_atom (ho : x.op = .atom op f v cmp) (hp : w.anyPoison x.pa (atomBytes f) = false) : w.performTag c tag
    = ((w.homeStore x.pa (toBytes (atomBytes f) (atomNew op f (w.sysNat x.pa (atomBytes f)) v cmp))).performed c tag
        (some (w.sysNat x.pa (atomBytes f)))).noteWrote c x.job x.pa (atomBytes f) := by
  simp only [State.performTag, hr, hw, ho, hp, Bool.false_eq_true, if_false]

theorem State.performTag_adds (ho : x.op = .adds f es) : w.performTag c tag
    = ((w.addElems (w.core c).owner.1 (w.core c).owner.2 f x.pa es).performed c tag none).noteWrote c x.job x.pa
        (es.length * atomBytes f) := by
  simp only [State.performTag, hr, hw, ho]

end Perform

/-- A write tag that has left and whose turn at its home has come. -/
structure State.asksHome (s : State) (c tag : Nat) (x : WTag) : Prop where
  rtag : s.rtag c tag = none
  wtag : s.wtag c tag = some x
  target : x.target = .tiered
  stage : x.stage = .sent
  turn : s.writeTurn c x = true

theorem execNonAllocatingWrite_tag (hr : s.running) (ha : s.asksHome c tag x) (hv : x.vol = true) {bs : List Byte}
    (ho : x.op = .store bs) :
    exec (.nonAllocatingWrite ⟨.tag c tag, []⟩ []) s = (s.tagAtHome c tag (localPart x.pa / 128) []).out s := by
  show execNonAllocatingWrite ⟨.tag c tag, []⟩ [] s = _
  simp only [execNonAllocatingWrite, whenPowered_running hr, ha.wtag, withSome_some, ha.target, hv, ha.stage, ho, ha.turn,
    beq_self_eq_true, Bool.and_self, whenIt_true]

theorem execFarAtomic_tag (hr : s.running) (ha : s.asksHome c tag x) (ho : ∀ bs, x.op ≠ .store bs) :
    exec (.farAtomic ⟨.tag c tag, []⟩ .add .i32 0 0) s = (s.tagAtHome c tag (localPart x.pa / 128) []).out s := by
  show execFarAtomic ⟨.tag c tag, []⟩ .add .i32 0 0 s = _
  simp only [execFarAtomic, whenPowered_running hr, ha.wtag, withSome_some, ha.target, ha.stage, ha.turn, beq_self_eq_true,
    Bool.and_self]
  cases hop : x.op with
  | store bs => exact absurd hop (ho bs)
  | atom => rfl
  | adds => rfl

end Write

end Tags

section Ends

variable {s u : State} {c tag : Nat} {x : WTag}

/-- How a write tag's command ends at an empty home, in `u` before the units go on. -/
structure State.tagEnds (s : State) (c tag : Nat) (x : WTag) (old : Option Nat) (u : State) : Prop where
  arrives : s.tagAtHome c tag (localPart x.pa / 128) [] = .next u.afterAll
  done : u.tagPerformed c tag old
  rest : ∀ a, localPart a < localPart x.pa ∨ localPart x.pa + x.op.span ≤ localPart a → u.sysByte a = s.sysByte a

/-- What the home does for a tag, before other cores' reads of the line find it. -/
theorem State.homesEmpty.tagEnds (h : s.homesEmpty) (ha : s.asksHome c tag x) {z : State} {old : Option Nat}
    (hz : (s.tagHome (localPart x.pa / 128)).performTag c tag = z) (hq : z.mem.txns = s.mem.txns ∧ z.mem.waitq = s.mem.waitq)
    (hd : z.tagPerformed c tag old)
    (hb : ∀ a, localPart a < localPart x.pa ∨ localPart x.pa + x.op.span ≤ localPart a → z.sysByte a = s.sysByte a) :
    s.tagEnds c tag x old (z.mixReads c (localPart x.pa / 128)) := by
  subst hz
  exact ⟨h.tagAtHome_write ha.rtag _ hq, State.tagPerformed_mixReads hd _,
    fun a hr => (State.sysByte_of_mem (State.mixReads_mem _ _ _) a).trans (hb a hr)⟩

theorem State.homesEmpty.store (h : s.homesEmpty) (ha : s.asksHome c tag x) (hl : localPart x.pa + x.op.span ≤ 2 ^ 49)
    {bs : List Byte} (ho : x.op = .store bs) :
    ∃ u, s.tagEnds c tag x none u ∧ u.sysRead x.pa bs.length = bs := by
  have hw := h.atTagHome (localPart x.pa / 128)
  have hz := State.performTag_store ((hw.rtag c tag).trans ha.rtag) ((hw.wtag c tag).trans ha.wtag) ho
  have hends (z : State) := h.tagEnds ha (z := z) (old := none)
  generalize s.tagHome (localPart x.pa / 128) = w at hw hz hends
  rw [ho] at hl
  have hmem : (((w.homeStore x.pa bs).performed c tag none).noteWrote c x.job x.pa bs.length).mem = (w.homeWrite x.pa bs).mem := by
    rw [State.noteWrote_mem, State.homeStore_settled hw.moves]
    rfl
  refine ⟨_, hends _ hz ?_ (State.tagPerformed_noteWrote (State.performed_tagPerformed _ c tag none) _ _ _) fun a hr => ?_, ?_⟩
  · rw [hmem]
    exact hw.queues
  · rw [ho] at hr
    rw [State.sysByte_of_mem hmem, ← State.homeStore_settled hw.moves, State.homeStore_sysByte_other hr, hw.sysByte]
  · rw [State.sysRead_of_mem ((State.mixReads_mem _ _ _).trans hmem), ← State.homeStore_settled hw.moves]
    exact State.homeStore_sysRead hl fun i _ => by rw [hw.dirty, h.dirty]; rfl

section Atom

variable {op : AtomOp} {f : AtomFmt} {v cmp : Nat} (h : s.homesEmpty) (ha : s.asksHome c tag x)
  (ho : x.op = .atom op f v cmp)
include h ha ho

theorem State.homesEmpty.atom (hl : localPart x.pa + x.op.span ≤ 2 ^ 49) (hp : s.anyPoison x.pa (atomBytes f) = false) :
    ∃ u, s.tagEnds c tag x (some (s.sysNat x.pa (atomBytes f))) u
      ∧ u.sysRead x.pa (atomBytes f) = toBytes (atomBytes f) (atomNew op f (s.sysNat x.pa (atomBytes f)) v cmp) := by
  have hw := h.atTagHome (localPart x.pa / 128)
  have hz := State.performTag_atom ((hw.rtag c tag).trans ha.rtag) ((hw.wtag c tag).trans ha.wtag) ho
    ((hw.anyPoison x.pa _).trans hp)
  have hends (z : State) := h.tagEnds ha (z := z) (old := some (s.sysNat x.pa (atomBytes f)))
  generalize s.tagHome (localPart x.pa / 128) = w at hw hz hends
  rw [hw.sysNat] at hz
  rw [ho] at hl
  let bs := toBytes (atomBytes f) (atomNew op f (s.sysNat x.pa (atomBytes f)) v cmp)
  have hlen : bs.length = atomBytes f := length_toBytes _ _
  have hmem : (((w.homeStore x.pa bs).performed c tag (some (s.sysNat x.pa (atomBytes f)))).noteWrote c x.job x.pa
      (atomBytes f)).mem = (w.homeWrite x.pa bs).mem := by
    rw [State.noteWrote_mem, State.homeStore_settled hw.moves]
    rfl
  refine ⟨_, hends _ hz ?_ (State.tagPerformed_noteWrote (State.performed_tagPerformed _ c tag _) _ _ _) fun a hr => ?_, ?_⟩
  · rw [hmem]
    exact hw.queues
  · rw [ho] at hr
    rw [State.sysByte_of_mem hmem, ← State.homeStore_settled hw.moves, State.homeStore_sysByte_other (by rwa [hlen]), hw.sysByte]
  · rw [State.sysRead_of_mem ((State.mixReads_mem _ _ _).trans hmem), ← State.homeStore_settled hw.moves]
    have hread := State.homeStore_sysRead (s := w) (pa := x.pa) (bs := bs) (by rwa [hlen])
      fun i _ => by rw [hw.dirty, h.dirty]; rfl
    rwa [hlen] at hread

theorem State.homesEmpty.atomRefused (hp : s.anyPoison x.pa (atomBytes f) = true) :
    ∃ u, s.tagEnds c tag x (some (2 ^ 64 - 1)) u ∧ ∀ a, u.sysByte a = s.sysByte a := by
  have hw := h.atTagHome (localPart x.pa / 128)
  have hz := State.performTag_refused ((hw.rtag c tag).trans ha.rtag) ((hw.wtag c tag).trans ha.wtag) ho
    ((hw.anyPoison x.pa _).trans hp)
  have hends (z : State) := h.tagEnds ha (z := z) (old := some (2 ^ 64 - 1))
  generalize s.tagHome (localPart x.pa / 128) = w at hw hz hends
  have hmem := (State.refusePoison_recorded hw.keeps x.pa (w.core c).owner.1 (w.core c).owner.2).mem
  have hbyte (a : Nat) := (State.sysByte_of_mem hmem a).trans (hw.sysByte a)
  refine ⟨_, hends _ hz ?_ (State.performed_tagPerformed _ c tag _) fun a _ => hbyte a,
    fun a => (State.sysByte_of_mem (State.mixReads_mem _ _ _) a).trans (hbyte a)⟩
  rw [State.performed, State.modCore_mem, hmem]
  exact hw.queues

end Atom

theorem State.homesEmpty.adds (h : s.homesEmpty) (ha : s.asksHome c tag x) (hl : localPart x.pa + x.op.span ≤ 2 ^ 49)
    {f : AtomFmt} {es : List Nat} (ho : x.op = .adds f es) :
    ∃ u, s.tagEnds c tag x none u ∧ ∀ i e, es[i]? = some e → u.sysNat (x.pa + i * atomBytes f) (atomBytes f)
      = if s.anyPoison (x.pa + i * atomBytes f) (atomBytes f) then s.sysNat (x.pa + i * atomBytes f) (atomBytes f)
        else adderAdd f (s.sysNat (x.pa + i * atomBytes f) (atomBytes f)) e % 2 ^ (8 * atomBytes f) := by
  have hw := h.atTagHome (localPart x.pa / 128)
  have hz := State.performTag_adds ((hw.rtag c tag).trans ha.rtag) ((hw.wtag c tag).trans ha.wtag) ho
  have hends (z : State) := h.tagEnds ha (z := z) (old := none)
  generalize s.tagHome (localPart x.pa / 128) = w at hw hz hends
  rw [ho] at hl
  obtain ⟨hwr, hother, hsum⟩ := State.addElems_effect (ctx := (w.core c).owner.1) (uid := (w.core c).owner.2) es hw.keeps hw.moves
    (hw.dirty.trans h.dirty) hl
  generalize w.addElems (w.core c).owner.1 (w.core c).owner.2 f x.pa es = y at hz hwr hother hsum
  have hmem : ((y.performed c tag none).noteWrote c x.job x.pa (es.length * atomBytes f)).mem = y.mem := State.noteWrote_mem _ _ _ _ _
  refine ⟨_, hends _ hz ?_ (State.tagPerformed_noteWrote (State.performed_tagPerformed _ c tag none) _ _ _) fun a hr => ?_,
    fun i e he => ?_⟩
  · rw [hmem]
    exact ⟨hwr.queues.1.trans hw.queues.1, hwr.queues.2.trans hw.queues.2⟩
  · rw [ho] at hr
    rw [State.sysByte_of_mem hmem, hother a hr, hw.sysByte]
  · rw [State.sysNat_of_mem ((State.mixReads_mem _ _ _).trans hmem), hsum i e he, hw.anyPoison, hw.sysNat]

end Ends

/-! #### The obligation -/

/-- Settles O33: a look into a cluster cache is one of the cases of `execClusterCacheRead`; a request at an idle home is performed
when it arrives (`State.reqArrive_performs`). -/
theorem coreTagsAtHomes : Obligations.CoreTagsAtHomes := by
  unfold Obligations.CoreTagsAtHomes
  refine ⟨?cacheRead, ?heldAck, ?writeThrough, ?tags⟩
  case cacheRead =>
    intro s c tag t hr ht htgt hs hm he hplain hturn line x
    have hlook : s.looksUp c tag t := ⟨ht, htgt, hs, hm, he, hplain, hturn⟩
    have htag : t.tag = tag := by simpa using List.find?_some ht
    refine ⟨fun hg hh p => ?_, fun hfree => ?_⟩
    · obtain ⟨y, hy, hl⟩ := hh
      refine execClusterCacheRead_waits hr hlook (Bool.and_eq_true_iff.mpr ⟨List.contains_iff_mem.mpr hg, ?_⟩)
      exact List.any_eq_true.mpr ⟨y, hy, beq_iff_eq.mpr hl⟩
    have hw : x.mustWait line = false := by
      rw [← Bool.not_eq_true]
      intro hmust
      obtain ⟨hg, ha⟩ := Bool.and_eq_true_iff.mp hmust
      obtain ⟨y, hy, hl⟩ := List.any_eq_true.mp ha
      exact hfree (List.contains_iff_mem.mp hg) y hy (beq_iff_eq.mp hl)
    refine ⟨fun hhas hen => ?_, fun hno p => ?_⟩
    · have hfound : (x.has line && !x.disabled.contains (cacheSlot line)) = true := by
        rw [hhas, Bool.true_and, Bool.not_eq_true', ← Bool.not_eq_true, List.contains_iff_mem]
        exact fun hd => hen _ hd rfl
      refine ⟨?_, fun p hp => ?_⟩
      · have hshow := State.ShowsSame.clusterHit s (c / 8) line
        refine ⟨_, execClusterCacheRead_hit hr hlook hw hfound, fun hin => ?_, State.clusterHit_has hhas, fun y hy hyt => ?_⟩
        · rw [State.clusterHit_inSlice hin]
          exact State.onlyCore_modCore (State.onlyCore_refl s c) _
        · obtain ⟨z, hz, hzt, hserved⟩ := State.serve_reads hy (hyt.trans htag.symm)
          rw [State.core_of_cores s _ hshow.cores] at hz hserved
          rw [hshow.heldOf, hshow.clusterBytes, hshow.bad] at hserved
          exact ⟨z, hz, hzt.trans htag, hserved⟩
      · have hlacks := State.parityLoses_lacks s (c / 8) line p
        have hcore := State.core_of_cores s _ (State.parityLoses_cores s (c / 8) line p) c
        exact ⟨_, execClusterCacheRead_bad hr hlook hw hfound hp, (State.readMissed_regs _ c tag).trans (by rw [hcore]), hlacks,
          fun y hy hyt => State.readMissed_reads hy hyt⟩
    · have hnone : (x.has line && !x.disabled.contains (cacheSlot line)) = false := by
        obtain hno | hno := hno
        · rw [hno, Bool.false_and]
        · rw [List.contains_iff_mem.mpr hno, Bool.not_true, Bool.and_false]
      exact ⟨_, execClusterCacheRead_misses hr hlook hw hnone, State.onlyCore_modCore (State.onlyCore_refl s c) _,
        State.readMissed_regs s c tag, fun y hy hyt => State.readMissed_reads hy hyt⟩
  case heldAck =>
    intro s cl h hr hh
    refine ⟨_, execHeldWriteAck_done hr hh, fun _ => rfl, ?_, fun y hy hyt => State.heldReleased_writes hy hyt, ?_, fun d hd => ?_⟩
    · exact congrArg Cluster.held (State.cluster_setCluster_same _ _ _)
    · rw [State.heldReleased, State.core_modCore_same]
      rfl
    · exact State.core_modCore_other _ _ hd
  case writeThrough =>
    intro s cl h hr hh hdone hb hc hq _ hd hdir hlen ho
    have hm := (State.Aside.count s (localPart h.pa / 128 * 128)).mem
    obtain ⟨-, -, hread, hother, hheld⟩ := State.heldStored_effect (cl := cl) (s.count (localPart h.pa / 128 * 128))
      (by rw [hm]; exact hd) hlen
    exact ⟨_, execWriteThroughWrite_performs hr hh hdone hb hc hq ⟨hdir, hd⟩ hlen ho, hread,
      fun a ha => (hother a ha).trans (State.sysByte_of_mem hm a), hheld⟩
  case tags =>
    intro s c tag hr hc hq hdir hdirty
    have hempty : s.homesEmpty := ⟨hc, hq, hdir, hdirty⟩
    refine ⟨fun t ht htgt hs he hv hturn => ?_, fun x ht hx htgt hstage hturn hl => ?_⟩
    · have htag : t.tag = tag := by simpa using List.find?_some ht
      have hw := hc.atHome_count (localPart t.pa / 128 * 128)
      refine ⟨_, execNonAllocatingRead_tag hempty ht he hr htgt hs hv hturn, fun y hy hyt => ?_⟩
      obtain ⟨z, hz, hzt, hserved⟩ := State.serve_reads hy (hyt.trans htag.symm)
      rw [hw.core] at hz hserved
      rw [hw.heldOf, hw.sysRead, hw.poisoned] at hserved
      exact ⟨z, hz, hzt.trans htag, hserved⟩
    · have ha : s.asksHome c tag x := ⟨ht, hx, htgt, hstage, hturn⟩
      refine ⟨fun bs hv ho => ?_, fun op f v cmp ho => ⟨fun hp => ?_, fun hp => ?_⟩, fun f es ho => ?_⟩
      · obtain ⟨u, hu, hread⟩ := hempty.store ha hl ho
        exact ⟨u, ⟨by rw [execNonAllocatingWrite_tag hr ha hv ho, hu.arrives, Act.out_next], hu.done, hu.rest⟩, hread⟩
      · obtain ⟨u, hu, hread⟩ := hempty.atom ha ho hl hp
        exact ⟨u, ⟨by rw [execFarAtomic_tag hr ha (by simp [ho]), hu.arrives, Act.out_next], hu.done, hu.rest⟩, hread⟩
      · obtain ⟨u, hu, hall⟩ := hempty.atomRefused ha ho hp
        exact ⟨u, ⟨by rw [execFarAtomic_tag hr ha (by simp [ho]), hu.arrives, Act.out_next], hu.done, hu.rest⟩, hall⟩
      · obtain ⟨u, hu, hsum⟩ := hempty.adds ha hl ho
        exact ⟨u, ⟨by rw [execFarAtomic_tag hr ha (by simp [ho]), hu.arrives, Act.out_next], hu.done, hu.rest⟩, hsum⟩

end Sys2Proof.Machine

end

section

/-!
### The operations, the queues and the front ends under what the engines do for anyone
-/

namespace Sys2Proof.Machine

/-- A queue without the mark that its copy of the doorbell is stale. -/
def Queue.unmarked (q : Queue) : Queue := { q with dbStale := false }

/-- An operation without the marks that an access of anyone may leave on it: the index of its first record, poison it met, and
a write of it that was dropped. -/
def Op.unmarked (o : Op) : Op := { o with errIndex := none, poison := false, devTimeout := false }

/-- Operations, queues and contexts without those marks. -/
def Work.unmarked (w : Work) : Work := { w with queues := w.queues.mapVals Queue.unmarked, ops := w.ops.map Op.unmarked }

/-- Where the operations, the queues and the front ends of a state stand. -/
def State.standing (s : State) : Work := s.work.unmarked

@[simp] theorem State.withWork_standing (s : State) (w : Work) : (s.withWork w).standing = w.unmarked := rfl

@[simp] theorem State.withPop_standing (s : State) (x : Pop) : (s.withPop x).standing = s.standing := rfl

@[simp] theorem State.withRas_standing (s : State) (x : Ras) : (s.withRas x).standing = s.standing := rfl

/-- A change of an operation's marks does not show. -/
theorem State.modOp_standing (s : State) (uid : Nat) (f : Op → Op) (hf : ∀ o, (f o).unmarked = o.unmarked) :
    (s.modOp uid f).standing = s.standing := by
  simp only [State.modOp, State.standing, State.withWork_work, Work.unmarked, List.map_map]
  congr 1
  refine List.map_congr_left fun o _ => ?_
  simp only [Function.comp_apply]
  split
  · exact hf o
  · rfl

@[simp] theorem State.doorbellLost_standing (s : State) (d line : Nat) : (s.doorbellLost d line).standing = s.standing := by
  simp only [State.doorbellLost, State.standing, State.withWork_work, Work.unmarked, Tbl.mapVals, List.map_map]
  congr 1
  refine List.map_congr_left fun e _ => ?_
  simp only [Function.comp_apply]
  split <;> rfl

@[simp] theorem State.withRegs_standing (s : State) (x : Regs) : (s.withRegs x).standing = s.standing := rfl

@[simp] theorem State.withCores_standing (s : State) (x : Tbl Core) : (s.withCores x).standing = s.standing := rfl

@[simp] theorem State.withMem_standing (s : State) (x : Mem) : (s.withMem x).standing = s.standing := rfl

@[simp] theorem State.withCtls_standing (s : State) (x : Tbl MemCtl) : (s.withCtls x).standing = s.standing := rfl

@[simp] theorem State.withPeel_standing (s : State) (x : Peel) : (s.withPeel x).standing = s.standing := rfl

@[simp] theorem State.withXlat_standing (s : State) (x : Xlat) : (s.withXlat x).standing = s.standing := rfl

@[simp] theorem State.withPds_standing (s : State) (x : Pds) : (s.withPds x).standing = s.standing := rfl

@[simp] theorem State.withPower_standing (s : State) (x : Power) : (s.withPower x).standing = s.standing := rfl

@[simp] theorem State.withLinks_standing (s : State) (x : Links) : (s.withLinks x).standing = s.standing := rfl

@[simp] theorem State.withCxl_standing (s : State) (x : Cxl) : (s.withCxl x).standing = s.standing := rfl

@[simp] theorem State.withBoot_standing (s : State) (x : Boot) : (s.withBoot x).standing = s.standing := rfl

@[simp] theorem State.withHatch_standing (s : State) (x : Hatch) : (s.withHatch x).standing = s.standing := rfl

@[simp] theorem State.withOut_standing (s : State) (x : List Output) : (s.withOut x).standing = s.standing := rfl

@[simp] theorem State.withFresh_standing (s : State) (x : Nat) : (s.withFresh x).standing = s.standing := rfl

@[simp] theorem State.withPending_standing (s : State) (x : List Instr) : (s.withPending x).standing = s.standing := rfl

@[simp] theorem State.ite_standing (p : Prop) [Decidable p] (a b : State) :
    (if p then a else b).standing = if p then a.standing else b.standing := apply_ite _ _ _ _

@[simp] theorem State.ite_fst_standing {β : Type} (p : Prop) [Decidable p] (a b : State × β) :
    (if p then a else b).1.standing = if p then a.1.standing else b.1.standing := by split <;> rfl

@[simp] theorem State.foldl_standing {β : Type} (g : State → β → State) (s : State) (l : List β)
    (hg : ∀ u x, (g u x).standing = u.standing) : (l.foldl g s).standing = s.standing := by
  induction l generalizing s with
  | nil => rfl
  | cons x l ih => rw [List.foldl_cons, ih, hg]

@[simp] theorem State.foldl_fst_standing {β γ : Type} (g : State × γ → β → State × γ) (r : State × γ) (l : List β)
    (hg : ∀ r x, (g r x).1.standing = r.1.standing) : (l.foldl g r).1.standing = r.1.standing := by
  induction l generalizing r with
  | nil => rfl
  | cons x l ih => rw [List.foldl_cons, ih, hg]

@[simp] theorem State.setReg_standing (s : State) (o : Nat) (v : BitVec 64) : (s.setReg o v).standing = s.standing := by
  simp [State.setReg]

@[simp] theorem State.setRegBit_standing (s : State) (o i : Nat) (b : Bool) : (s.setRegBit o i b).standing = s.standing := by
  simp [State.setRegBit]

@[simp] theorem State.bump_standing (s : State) (o : Nat) : (s.bump o).standing = s.standing := by simp [State.bump]

@[simp] theorem State.draw_standing (s : State) : s.draw.1.standing = s.standing := by simp [State.draw]

@[simp] theorem State.emit_standing (s : State) (o : Output) : (s.emit o).standing = s.standing := by simp [State.emit]

@[simp] theorem State.emitN_standing (s : State) (k : OutKind) (args : List Nat) : (s.emitN k args).standing = s.standing := by
  simp [State.emitN]

@[simp] theorem State.mgmt_standing (s : State) (args : List Nat) (bytes : List Byte) :
    (s.mgmt args bytes).standing = s.standing := by
  simp [State.mgmt]

@[simp] theorem State.msi_standing (s : State) (h f ident : Nat) : (s.msi h f ident).standing = s.standing := by simp [State.msi]

@[simp] theorem State.msiTarget_standing (s : State) (t : Nat) : (s.msiTarget t).standing = s.standing := by simp [State.msiTarget]

@[simp] theorem State.alert_standing (s : State) (cause : Nat) : (s.alert cause).standing = s.standing := by simp [State.alert]

@[simp] theorem State.setRemap_standing (s : State) (b : Nat) (r : Remap) : (s.setRemap b r).standing = s.standing := by
  simp [State.setRemap]

@[simp] theorem State.homeWrite_standing (s : State) (pa : Nat) (bs : List Byte) : (s.homeWrite pa bs).standing = s.standing := by
  simp [State.homeWrite]

@[simp] theorem State.setPoison_standing (s : State) (secs : List Nat) : (s.setPoison secs).standing = s.standing := by
  simp [State.setPoison]

@[simp] theorem State.setCore_standing (s : State) (c : Nat) (k : Core) : (s.setCore c k).standing = s.standing := by
  simp [State.setCore]

@[simp] theorem State.modCore_standing (s : State) (c : Nat) (f : Core → Core) : (s.modCore c f).standing = s.standing := by
  simp [State.modCore]

@[simp] theorem State.setCluster_standing (s : State) (k : Nat) (x : Cluster) : (s.setCluster k x).standing = s.standing := by
  simp [State.setCluster]

@[simp] theorem State.setCtl_standing (s : State) (n : Nat) (x : MemCtl) : (s.setCtl n x).standing = s.standing := by
  simp [State.setCtl]

@[simp] theorem State.setHart_standing (s : State) (h : Nat) (x : Hart) : (s.setHart h x).standing = s.standing := by
  simp [State.setHart]

@[simp] theorem State.scrWrite_standing (s : State) (c o : Nat) (bs : List Byte) : (s.scrWrite c o bs).standing = s.standing := by
  simp [State.scrWrite]

@[simp] theorem State.scrClear_standing (s : State) (c : Nat) : (s.scrClear c).standing = s.standing := by simp [State.scrClear]

@[simp] theorem State.wakeCtl_standing (s : State) (n : Nat) : (s.wakeCtl n).standing = s.standing := by
  simp only [State.wakeCtl]
  split <;> simp

@[simp] theorem State.mirror_standing (s : State) (pa n : Nat) : (s.mirror pa n).standing = s.standing := by
  simp only [State.mirror]
  split <;> simp

@[simp] theorem State.mirrorWhole_standing (s : State) (line : Nat) (secs : List Nat) :
    (s.mirrorWhole line secs).standing = s.standing := by
  simp [State.mirrorWhole]

@[simp] theorem State.homeStore_standing (s : State) (pa : Nat) (bs : List Byte) : (s.homeStore pa bs).standing = s.standing := by
  simp [State.homeStore]

@[simp] theorem State.overwrite_standing (s : State) (secs : List Nat) : (s.overwrite secs).standing = s.standing := by
  simp [State.overwrite]

@[simp] theorem State.setDir_standing (s : State) (line : Nat) (e : DirEntry) : (s.setDir line e).standing = s.standing := by
  simp [State.setDir]

@[simp] theorem State.notice_standing (s : State) (line i : Nat) : (s.notice line i).standing = s.standing := by simp [State.notice]

@[simp] theorem State.clusterInval_standing (s : State) (k line : Nat) : (s.clusterInval k line).standing = s.standing := by
  simp [State.clusterInval]

@[simp] theorem State.setSlc_standing (s : State) (p i : Nat) (l : List SlcLine) : (s.setSlc p i l).standing = s.standing := by
  simp [State.setSlc]

@[simp] theorem State.slcDrop_standing (s : State) (p line : Nat) : (s.slcDrop p line).standing = s.standing := by simp [State.slcDrop]

@[simp] theorem State.upperDrop_standing (s : State) (p line : Nat) : (s.upperDrop p line).standing = s.standing := by
  simp [State.upperDrop]

@[simp] theorem State.dieDrop_standing (s : State) (p line : Nat) : (s.dieDrop p line).standing = s.standing := by simp [State.dieDrop]

@[simp] theorem State.dropCopy_standing (s : State) (line i : Nat) : (s.dropCopy line i).standing = s.standing := by
  simp [State.dropCopy]

@[simp] theorem State.flush_standing (s : State) (line : Nat) : (s.flush line).standing = s.standing := by simp [State.flush]

@[simp] theorem State.hostSilent_standing (s : State) (line : Nat) : (s.hostSilent line).1.standing = s.standing := by
  simp [State.hostSilent]

@[simp] theorem State.hostShows_standing (s : State) (line : Nat) (bs : List (Nat × Byte)) :
    (s.hostShows line bs).standing = s.standing := by
  simp [State.hostShows]

@[simp] theorem State.snoopNow_standing (s : State) (line : Nat) : (s.snoopNow line).1.standing = s.standing := by simp [State.snoopNow]

@[simp] theorem State.lostCopy_standing (s : State) (line i : Nat) : (s.lostCopy line i).1.standing = s.standing := by
  simp [State.lostCopy]

@[simp] theorem State.askOwner_standing (s : State) (line : Nat) : (s.askOwner line).1.standing = s.standing := by
  simp only [State.askOwner]
  split <;> simp

@[simp] theorem State.reclaim_standing (s : State) (line : Nat) : (s.reclaim line).1.standing = s.standing := by
  simp only [State.reclaim]
  split <;> simp

@[simp] theorem State.enrol_standing (s : State) (b source ctx : Nat) : (s.enrol b source ctx).standing = s.standing := by
  simp [State.enrol]

@[simp] theorem State.count_standing (s : State) (pa : Nat) : (s.count pa).standing = s.standing := by simp [State.count]

@[simp] theorem State.ownWrite_standing (s : State) (pa : Nat) (bs : List Byte) : (s.ownWrite pa bs).1.standing = s.standing := by
  simp [State.ownWrite]

@[simp] theorem State.rasIntr_standing (s : State) (sev : Nat) : (s.rasIntr sev).standing = s.standing := by
  simp [State.rasIntr]

@[simp] theorem State.nextIndex_standing (s : State) : s.nextIndex.standing = s.standing := by simp [State.nextIndex]

@[simp] theorem State.logDrop_standing (s : State) (sev : Nat) : (s.logDrop sev).standing = s.standing := by
  simp [State.logDrop]

@[simp] theorem State.logKeep_standing (s : State) (r : ErrRec) (time : Word) : (s.logKeep r time).standing = s.standing := by
  simp [State.logKeep]

@[simp] theorem State.logPut_standing (s : State) (e : LogEnt) : (s.logPut e).standing = s.standing := by simp [State.logPut]

@[simp] theorem State.logWaiting_standing (s : State) (n : Nat) : (s.logWaiting n).standing = s.standing := by
  induction n generalizing s with
  | zero => rfl
  | succ n ih =>
    simp only [State.logWaiting]
    repeat' split
    all_goals simp [ih]

@[simp] theorem State.logFlush_standing (s : State) : s.logFlush.standing = s.standing := by simp [State.logFlush]

@[simp] theorem State.hotPut_standing (s : State) (r : HotRec) : (s.hotPut r).standing = s.standing := by simp [State.hotPut]

@[simp] theorem State.hotFlush_standing (s : State) (n : Nat) : (s.hotFlush n).standing = s.standing := by
  induction n generalizing s with
  | zero => rfl
  | succ n ih =>
    simp only [State.hotFlush]
    repeat' split
    all_goals simp [ih]

@[simp] theorem State.recordsOut_standing (s : State) : s.recordsOut.standing = s.standing := by simp [State.recordsOut]

@[simp] theorem State.logAt_standing (s : State) (r : ErrRec) (time : Word) : (s.logAt r time).standing = s.standing := by
  simp [State.logAt]

@[simp] theorem State.log_standing (s : State) (r : ErrRec) : (s.log r).standing = s.standing := by simp [State.log]

@[simp] theorem State.touch_standing (s : State) (pa : Nat) : (s.touch pa).standing = s.standing := by simp [State.touch]

@[simp] theorem State.recall_standing (s : State) (line : Nat) : (s.recall line).standing = s.standing := by simp [State.recall]

@[simp] theorem State.logOp_standing (s : State) (uid : Nat) (r : ErrRec) : (s.logOp uid r).standing = s.standing := by
  rw [State.logOp, State.modOp_standing _ _ _ (fun o => by split <;> rfl), State.log_standing]

@[simp] theorem State.logBy_standing (s : State) (w : Cause) (r : ErrRec) : (s.logBy w r).standing = s.standing := by
  simp only [State.logBy]
  split <;> simp

@[simp] theorem State.setPort_standing (s : State) (p : Nat) (x : Port) : (s.setPort p x).standing = s.standing := by
  simp [State.setPort]

@[simp] theorem State.sendOn_standing (s : State) (p type dest src hops sgen dgen : Nat) (slots : List Byte) (info : List Nat) :
    (s.sendOn p type dest src hops sgen dgen slots info).standing = s.standing := by
  simp [State.sendOn]

@[simp] theorem State.sendFlit_standing (s : State) (n type : Nat) (slots : List Byte) (info : List Nat) :
    (s.sendFlit n type slots info).standing = s.standing := by
  simp only [State.sendFlit]
  split <;> simp

@[simp] theorem State.sendMsg_standing (s : State) (n : Nat) (data : List Byte) (info : List Nat) :
    (s.sendMsg n data info).standing = s.standing := by
  simp [State.sendMsg]

@[simp] theorem State.respond_standing (s : State) (node tag : Nat) (err : Bool) (bs : List Byte) (mask : Nat) :
    (s.respond node tag err bs mask).standing = s.standing := by
  simp [State.respond]

@[simp] theorem State.takeSpare_standing (s : State) (n row : Nat) : (s.takeSpare n row).standing = s.standing := by
  simp [State.takeSpare]

@[simp] theorem State.tallyRow_standing (s : State) (n row : Nat) : (s.tallyRow n row).1.standing = s.standing := by
  simp [State.tallyRow]

@[simp] theorem State.rowBad_standing (s : State) (n row addr : Nat) : (s.rowBad n row addr).standing = s.standing := by
  simp [State.rowBad]

@[simp] theorem State.flawRead_standing (s : State) (n : Nat) (f : EccFind) : (s.flawRead n f).standing = s.standing := by
  simp [State.flawRead]

@[simp] theorem State.takeFlaws_standing (s : State) (p : EccFind → Bool) : (s.takeFlaws p).1.standing = s.standing := by
  simp [State.takeFlaws]

@[simp] theorem State.noteFlaws_standing (s : State) (e : Ecc) : (s.noteFlaws e).standing = s.standing := by simp [State.noteFlaws]

@[simp] theorem State.copyRow_standing (s : State) (n row : Nat) : (s.copyRow n row).standing = s.standing := by
  simp [State.copyRow]

@[simp] theorem State.remapRow_standing (s : State) (n row cause : Nat) : (s.remapRow n row cause).standing = s.standing := by
  simp [State.remapRow]

@[simp] theorem State.correctedRow_standing (s : State) (n row : Nat) : (s.correctedRow n row).standing = s.standing := by
  simp [State.correctedRow]

@[simp] theorem State.rowFailed_standing (s : State) (n row addr : Nat) : (s.rowFailed n row addr).standing = s.standing := by
  simp [State.rowFailed]

@[simp] theorem State.uncorrectable_standing (s : State) (n row sec : Nat) :
    (s.uncorrectable n row sec).standing = s.standing := by
  simp [State.uncorrectable]

@[simp] theorem State.eccFind_standing (s : State) (n : Nat) (f : EccFind) : (s.eccFind n f).standing = s.standing := by
  simp [State.eccFind]

@[simp] theorem State.findFlaws_standing (s : State) (p : EccFind → Bool) (found : State → EccFind → State) (n : Nat)
    (hf : ∀ u f, (found u f).standing = u.standing) : (s.findFlaws p found n).standing = s.standing := by
  induction n generalizing s with
  | zero => rfl
  | succ n ih =>
    simp only [State.findFlaws]
    split
    · rfl
    · rw [ih, hf, State.withMem_standing]

@[simp] theorem State.checkLine_standing (s : State) (line : Nat) : (s.checkLine line).standing = s.standing := by
  simp [State.checkLine]

@[simp] theorem State.noticeTo_standing (s : State) (line k : Nat) : (s.noticeTo line k).standing = s.standing := by
  simp [State.noticeTo]

@[simp] theorem State.clusterFill_standing (s : State) (k line : Nat) : (s.clusterFill k line).standing = s.standing := by
  simp [State.clusterFill]

@[simp] theorem State.slcUse_standing (s : State) (h line : Nat) : (s.slcUse h line).standing = s.standing := by
  simp only [State.slcUse]
  repeat' split
  all_goals simp

@[simp] theorem State.l2Fill_standing (s : State) (h line : Nat) : (s.l2Fill h line).standing = s.standing := by
  simp only [State.l2Fill]
  split <;> simp

@[simp] theorem State.l1Fill_standing (s : State) (h line : Nat) : (s.l1Fill h line).standing = s.standing := by simp [State.l1Fill]

@[simp] theorem State.dieUse_standing (s : State) (h line : Nat) : (s.dieUse h line).standing = s.standing := by simp [State.dieUse]

@[simp] theorem State.serve_standing (s : State) (c : Nat) (t : RTag) (bs : List Byte) : (s.serve c t bs).standing = s.standing := by
  simp [State.serve]

@[simp] theorem State.serveCluster_standing (s : State) (k line : Nat) : (s.serveCluster k line).standing = s.standing := by
  simp [State.serveCluster]

@[simp] theorem State.mixReads_standing (s : State) (writer line : Nat) : (s.mixReads writer line).standing = s.standing := by
  simp [State.mixReads]

@[simp] theorem State.noteWrote_standing (s : State) (c seq pa n : Nat) : (s.noteWrote c seq pa n).standing = s.standing := by
  simp [State.noteWrote]

@[simp] theorem State.performed_standing (s : State) (c tag : Nat) (old : Option Nat) :
    (s.performed c tag old).standing = s.standing := by
  simp [State.performed]

@[simp] theorem State.rowHolding_standing (s : State) (pa : Nat) : (s.rowHolding pa).1.standing = s.standing := by
  simp [State.rowHolding]

@[simp] theorem State.refusePoison_standing (s : State) (pa : Nat) (ctx uid : Option Nat) :
    (s.refusePoison pa ctx uid).standing = s.standing := by
  simp only [State.refusePoison]
  split
  · rw [State.modOp_standing]
    · simp
    · exact fun _ => rfl
  · simp

@[simp] theorem State.addElems_standing (s : State) (ctx uid : Option Nat) (f : AtomFmt) (pa : Nat) (l : List Nat) :
    (s.addElems ctx uid f pa l).standing = s.standing := by
  induction l generalizing s pa with
  | nil => rfl
  | cons v l ih => simp [State.addElems, ih]

@[simp] theorem State.performTag_standing (s : State) (c tag : Nat) : (s.performTag c tag).standing = s.standing := by
  simp only [State.performTag]
  repeat' split
  all_goals simp

@[simp] theorem State.deliver_standing (s : State) (who : Agent) (pa n tag : Nat) : (s.deliver who pa n tag).standing = s.standing := by
  simp only [State.deliver]
  split <;> simp

@[simp] theorem State.hartTrap_standing (s : State) (h cause : Nat) (tval : Option Nat) :
    (s.hartTrap h cause tval).standing = s.standing := by
  simp [State.hartTrap]

@[simp] theorem State.hartGets_standing (s : State) (h : Nat) (vec : Option Nat) (pa : Nat) (bs : List Byte) (bad : Bool) :
    (s.hartGets h vec pa bs bad).standing = s.standing := by
  simp only [State.hartGets]
  repeat' split
  all_goals simp

@[simp] theorem State.consume_standing (s : State) (who : Agent) (line : Nat) : (s.consume who line).standing = s.standing := by
  simp only [State.consume]
  split <;> simp

@[simp] theorem State.keepWay_standing (s : State) (line old : Nat) : (s.keepWay line old).standing = s.standing := by
  simp only [State.keepWay]
  split <;> simp

@[simp] theorem State.hostBytes_standing (s : State) (line : Nat) (bs : List (Nat × Byte)) (poison : Bool) :
    (s.hostBytes line bs poison).standing = s.standing := by
  simp [State.hostBytes]

@[simp] theorem State.dropAll_standing (s : State) (line : Nat) (e : DirEntry) (me : Option Nat) :
    (s.dropAll line e me).standing = s.standing := by
  simp only [State.dropAll]
  split <;> simp

@[simp] theorem State.ownLost_standing (s : State) (line : Nat) (who : Agent) : (s.ownLost line who).standing = s.standing := by
  simp only [State.ownLost]
  split <;> simp

@[simp] theorem State.homeReply_standing (s : State) (r : HomeReq) (pa v : Nat) (refused : Bool) :
    (s.homeReply r pa v refused).standing = s.standing := by
  simp only [State.homeReply]
  split <;> simp

@[simp] theorem State.hartDone_standing (s : State) (who : Agent) (id : Nat) : (s.hartDone who id).standing = s.standing := by
  simp only [State.hartDone]
  split <;> simp

@[simp] theorem State.reqAccess_standing (s : State) (r : HomeReq) : (s.reqAccess r).standing = s.standing := by
  simp only [State.reqAccess]
  split <;> simp

@[simp] theorem State.performReq_standing (s : State) (r : HomeReq) : (s.performReq r).standing = s.standing := by
  simp only [State.performReq]
  repeat' split
  all_goals simp

@[simp] theorem State.startReq_standing (s : State) (r : HomeReq) : (s.startReq r).standing = s.standing := by
  simp only [State.startReq]
  split <;> simp

@[simp] theorem State.startEvict_standing (s : State) (line : Nat) : (s.startEvict line).standing = s.standing := by
  simp only [State.startEvict]
  split <;> simp

@[simp] theorem State.drain_standing (s : State) (n : Nat) : (s.drain n).standing = s.standing := by
  induction n generalizing s with
  | zero => rfl
  | succ n ih =>
    simp only [State.drain]
    repeat' split
    all_goals simp [ih]

@[simp] theorem State.drainAll_standing (s : State) : s.drainAll.standing = s.standing := by simp [State.drainAll]

@[simp] theorem State.endTxn_standing (s : State) (t : Txn) : (s.endTxn t).standing = s.standing := by simp [State.endTxn]

@[simp] theorem State.answer_standing (s : State) (line i : Nat) (q : Work) (h : s.standing = q) :
    (s.answer line i).leads (fun t => t.standing = q) := by
  simp [State.answer, h]

theorem State.answerOr_standing (s : State) (l i : Nat) :
    (match s.answer l i with | .next t => t | _ => s).standing = s.standing := by
  have h := State.answer_standing s l i (s.standing) rfl
  cases e : s.answer l i with
  | next t => exact h t e
  | stay => rfl

@[simp] theorem State.answerNow_standing (s : State) (line i : Nat) : (s.answerNow line i).standing = s.standing := by
  simp only [State.answerNow]
  refine (State.answerOr_standing _ line i).trans ?_
  simp

@[simp] theorem State.finishLine_standing (s : State) (line n : Nat) : (s.finishLine line n).standing = s.standing := by
  induction n generalizing s with
  | zero => rfl
  | succ n ih =>
    simp only [State.finishLine]
    split <;> simp [ih]

@[simp] theorem State.takeFrame_standing (s : State) (m : Move) : (s.takeFrame m).standing = s.standing := by
  simp [State.takeFrame]

@[simp] theorem State.finishSwitch_standing (s : State) (line : Nat) : (s.finishSwitch line).standing = s.standing := by
  simp only [State.finishSwitch]
  split <;> simp

@[simp] theorem State.lineTurn_standing (s : State) (line : Nat) : (s.lineTurn line).standing = s.standing := by
  simp [State.lineTurn]

@[simp] theorem State.sysWrite_standing (s : State) (pa : Nat) (bs : List Byte) : (s.sysWrite pa bs).standing = s.standing := by
  simp [State.sysWrite]

@[simp] theorem State.trimCheck_standing (s : State) : s.trimCheck.standing = s.standing := by simp [State.trimCheck]

@[simp] theorem State.wakeCore_standing (s : State) (c : Nat) : (s.wakeCore c).standing = s.standing := by simp [State.wakeCore]

@[simp] theorem State.showOwner_standing (s : State) (line : Nat) : (s.showOwner line).standing = s.standing := by
  simp [State.showOwner, State.foldl_standing]

@[simp] theorem State.homeRead_standing (s : State) (pa n : Nat) : (s.homeRead pa n).standing = s.standing := by
  simp [State.homeRead]

@[simp] theorem State.roomNow_standing (s : State) (line : Nat) : (s.roomNow line).standing = s.standing := by
  simp only [State.roomNow]
  repeat' split
  all_goals simp

@[simp] theorem State.shareNow_standing (s : State) (line i : Nat) :
    (s.shareNow line i).standing = s.standing := by
  simp [State.shareNow]

@[simp] theorem State.heldNow_standing (s : State) (k line : Nat) : (s.heldNow k line).standing = s.standing := by
  simp [State.heldNow]

@[simp] theorem State.clusterHit_standing (s : State) (k line : Nat) : (s.clusterHit k line).standing = s.standing := by
  simp [State.clusterHit]

@[simp] theorem State.clusterLine_standing (s : State) (k line : Nat) :
    (s.clusterLine k line).standing = s.standing := by
  simp [State.clusterLine]

@[simp] theorem State.fillL2_standing (s : State) (k : Nat) (l : Leaf) (path : List Node) :
    (s.fillL2 k l path).standing = s.standing := by
  simp [State.fillL2]

@[simp] theorem State.fillL1_standing (s : State) (u : Nat) (l : Leaf) : (s.fillL1 u l).standing = s.standing := by
  simp [State.fillL1]

@[simp] theorem State.lookup_standing (s : State) (u k d asid va : Nat) (a : Acc) :
    (s.lookup u k d asid va a).1.standing = s.standing := by
  simp only [State.lookup]
  repeat' split
  all_goals simp

@[simp] theorem State.noteFault_standing (s : State) (d ctx va : Nat) (f : XFault) :
    (s.noteFault d ctx va f).standing = s.standing := by
  simp [State.noteFault]

@[simp] theorem State.walkFrom_standing (s : State) (k asid va : Nat) (a : Acc) (n level ppn : Nat) (path : List Node) :
    (s.walkFrom k asid va a n level ppn path).1.standing = s.standing := by
  induction n generalizing s level ppn path with
  | zero => rfl
  | succ n ih =>
    simp only [State.walkFrom]
    repeat' split
    all_goals simp [ih]

@[simp] theorem State.walk_standing (s : State) (k asid root va : Nat) (a : Acc) :
    (s.walk k asid root va a).1.standing = s.standing := by
  simp only [State.walk]
  repeat' split
  all_goals simp

theorem State.pair_standing {β : Type} {s u : State} {r : State × β} {x : β} (e : r = (u, x))
    (h : r.1.standing = s.standing) : u.standing = s.standing := by rw [← h, e]

@[simp] theorem State.runWalk_standing (s : State) (u k d : Nat) (w : Cause) (asid root va : Nat) (a : Acc) :
    (s.runWalk u k d w asid root va a).1.standing = s.standing := by
  simp only [State.runWalk]
  split
  all_goals
    rename_i e
    simp [State.pair_standing e (State.walk_standing ..)]

@[simp] theorem State.translate_standing (s : State) (u k d : Nat) (w : Cause) (asid root va : Nat) (a : Acc) :
    (s.translate u k d w asid root va a).1.standing = s.standing := by
  simp only [State.translate]
  split
  · rename_i e; simp [State.pair_standing e (State.lookup_standing ..)]
  · simp

@[simp] theorem State.feTranslate_standing (s : State) (d op ctx asid root va : Nat) (a : Acc) :
    (s.feTranslate d op ctx asid root va a).1.standing = s.standing := by
  simp only [State.feTranslate]
  split
  · rfl
  · split
    · rename_i e
      simp [State.pair_standing e (State.translate_standing ..)]
    · simp

@[simp] theorem State.windowStore_standing (s : State) (c o : Nat) (bs : List Byte) :
    (s.windowStore c o bs).standing = s.standing := by
  simp [State.windowStore, State.portUsed]

@[simp] theorem State.dirtyOut_standing (s : State) (line : Nat) : (s.dirtyOut line).standing = s.standing := by
  simp [State.dirtyOut]

@[simp] theorem State.hostYield_standing (s : State) (line i : Nat) (e : DirEntry) :
    (s.hostYield line i e).standing = s.standing := by
  simp only [State.hostYield]
  rw [State.foldl_standing _ _ _ fun u x => by split <;> simp]

@[simp] theorem State.hostDrop_standing (s : State) (line : Nat) : (s.hostDrop line).standing = s.standing := by
  simp only [State.hostDrop]
  split <;> simp

@[simp] theorem State.hostClear_standing (s : State) (pa n : Nat) : (s.hostClear pa n).standing = s.standing := by
  simp [State.hostClear]

@[simp] theorem State.sendOut_standing (s : State) (t : Target) (pa : Nat) (info : List Nat) (data : List Byte) :
    (s.sendOut t pa info data).standing = s.standing := by
  simp only [State.sendOut]
  repeat' split
  all_goals simp

end Sys2Proof.Machine

end

section

/-!
### Completions: R480 to R487
-/

namespace Sys2Proof.Machine

/-! ### The bytes of a completion entry -/

theorem leAt_append_left {a b : List Byte} {o n : Nat} (h : o + n ≤ a.length) : leAt (a ++ b) o n = leAt a o n := by
  rw [leAt, leAt, List.drop_append_of_le_length (by omega), List.take_append_of_le_length (by rw [List.length_drop]; omega)]

theorem leAt_append_toBytes {a : List Byte} {o : Nat} (n v : Nat) (h : a.length = o) :
    leAt (a ++ toBytes n v) o n = v % 2 ^ (8 * n) := by
  subst h
  rw [leAt, List.drop_left, List.take_of_length_le (length_toBytes ..).le, ofBytes_toBytes]

section

variable (o : Op) (q c n : Nat)

theorem Op.entry_length : (o.entry q c n).length = 32 := by simp [Op.entry, length_toBytes]

theorem Op.entry_seq (h : o.seq < 2 ^ 32) : leAt (o.entry q c n) 0 4 = o.seq := by
  simp only [Op.entry]
  repeat rw [leAt_append_left (by simp [length_toBytes])]
  rw [leAt, List.drop_zero, List.take_of_length_le (length_toBytes ..).le, ofBytes_toBytes, Nat.mod_eq_of_lt h]

theorem Op.entry_status (h : o.status < 2 ^ 16) : leAt (o.entry q c n) 4 2 = o.status := by
  simp only [Op.entry]
  iterate 6 rw [leAt_append_left (by simp [length_toBytes])]
  rw [leAt_append_toBytes _ _ (length_toBytes ..), Nat.mod_eq_of_lt h]

theorem Op.entry_queue (h : q < 1024) : leAt (o.entry q c n) 6 2 = q + (1 - c / 2 ^ n % 2) * 2 ^ 15 := by
  simp only [Op.entry]
  iterate 5 rw [leAt_append_left (by simp [length_toBytes])]
  rw [leAt_append_toBytes _ _ (by simp [length_toBytes])]
  split
  · next hp => rw [hp]; omega
  · next hp => rw [show c / 2 ^ n % 2 = 1 by omega]; omega

end

/-! ### Where a state stands: readings -/

theorem State.fes_of_standing {s t : State} (h : t.standing = s.standing) : t.work.fes = s.work.fes := by
  have hf := congrArg Work.fes h
  exact hf

/-- An operation stands where it stood, but for its marks. -/
theorem State.op?_of_standing {s t : State} (h : t.standing.ops = s.standing.ops) (uid : Nat) :
    (t.op? uid).map Op.unmarked = (s.op? uid).map Op.unmarked := by
  have hf : ∀ w : State, (w.op? uid).map Op.unmarked = w.standing.ops.find? (fun o => o.uid == uid) := fun w => by
    rw [State.op?, State.standing, Work.unmarked, List.find?_map]
    rfl
  rw [hf, hf, h]

/-- A queue stands where it stood, but for its mark. -/
theorem State.queue?_of_standing {s t : State} (h : t.standing.queues = s.standing.queues) (q : Nat) :
    (t.queue? q).map Queue.unmarked = (s.queue? q).map Queue.unmarked := by
  have hf : ∀ w : State, (w.queue? q).map Queue.unmarked = w.standing.queues.get? q := fun w =>
    (Tbl.get?_mapVals Queue.unmarked w.work.queues q).symm
  rw [hf, hf, h]

theorem State.some_op?_of_standing {s t : State} (h : t.standing.ops = s.standing.ops) {uid : Nat} {o : Op}
    (ho : s.op? uid = some o) : ∃ o', t.op? uid = some o' ∧ o'.unmarked = o.unmarked := by
  have := State.op?_of_standing h uid
  rw [ho] at this
  exact Option.map_eq_some_iff.mp this

theorem State.some_queue?_of_standing {s t : State} (h : t.standing.queues = s.standing.queues) {q : Nat} {x : Queue}
    (hx : s.queue? q = some x) : ∃ y, t.queue? q = some y ∧ y.unmarked = x.unmarked := by
  have := State.queue?_of_standing h q
  rw [hx] at this
  exact Option.map_eq_some_iff.mp this

theorem State.feOpen_of_fes {s t : State} (h : t.work.fes = s.work.fes) (o : Op) : t.feOpen o = s.feOpen o := by
  rw [State.feOpen, State.feOpen, State.fe, State.fe, h]

theorem State.op?_uid {s : State} {uid : Nat} {o : Op} (h : s.op? uid = some o) : o.uid = uid :=
  beq_iff_eq.mp (List.find?_some (p := fun o : Op => o.uid == uid) h)

theorem State.queue?_setQueue_same (s : State) (q : Nat) (x : Queue) : (s.setQueue q x).queue? q = some x :=
  Tbl.get?_put_same s.work.queues q x

theorem State.fe_setFe_same (s : State) (d : Nat) (x : Fe) : (s.setFe d x).fe d = x :=
  Tbl.getD_setD_same (fun _ => Fe.init) s.work.fes d x

theorem State.fe_setFe_other (s : State) (d : Nat) (x : Fe) {e : Nat} (h : e ≠ d) : (s.setFe d x).fe e = s.fe e :=
  Tbl.getD_setD_other (fun _ => Fe.init) s.work.fes d e x h

theorem State.op?_modOp {s : State} {uid : Nat} {o : Op} (h : s.op? uid = some o) {f : Op → Op} (hf : ∀ o, (f o).uid = o.uid) :
    (s.modOp uid f).op? uid = some (f o) := by
  have hb : ((fun o => o.uid == uid) ∘ fun o : Op => if o.uid == uid then f o else o) = fun o : Op => o.uid == uid := by
    funext o
    simp only [Function.comp_apply]
    split
    · rw [hf]
    · rfl
  change List.find? _ (List.map _ s.work.ops) = _
  rw [List.find?_map, hb]
  change Option.map _ (s.op? uid) = _
  rw [h, Option.map_some, if_pos (by rw [State.op?_uid h, beq_self_eq_true])]

theorem State.op?_dropOp (s : State) (uid : Nat) : (s.dropOp uid).op? uid = none := by
  change List.find? _ (List.filter _ s.work.ops) = _
  simp

/-! ### The course of a state: its queues and operations, and the hang procedures of the dies -/

/-- Where the work of a state stands but for the front ends' own records, of which it shows the hang procedures alone. -/
def State.course (s : State) : Work × (Nat → Option Hang) := ({ s.standing with fes := [] }, fun d => (s.fe d).hang)

theorem State.course_of_standing {s t : State} (h : t.standing = s.standing) : t.course = s.course := by
  rw [State.course, h, show (fun d => (t.fe d).hang) = fun d => (s.fe d).hang from funext fun d => by
    rw [State.fe, State.fe, State.fes_of_standing h]]
  rfl

theorem State.ops_of_course {s t : State} (h : t.course = s.course) : t.standing.ops = s.standing.ops :=
  congrArg (fun x => x.1.ops) h

theorem State.queues_of_course {s t : State} (h : t.course = s.course) : t.standing.queues = s.standing.queues :=
  congrArg (fun x => x.1.queues) h

/-- A change of a front end's records does not show. -/
theorem State.setFe_course (s : State) (d : Nat) (x : Fe) (hx : x.hang = (s.fe d).hang) : (s.setFe d x).course = s.course := by
  refine Prod.ext rfl (funext fun e => ?_)
  change ((s.setFe d x).fe e).hang = (s.fe e).hang
  by_cases he : e = d
  · rw [he, State.fe_setFe_same, hx]
  · rw [State.fe_setFe_other _ _ _ he]

@[simp] theorem State.ite_course (p : Prop) [Decidable p] (a b : State) :
    (if p then a else b).course = if p then a.course else b.course := apply_ite _ _ _ _

@[simp] theorem State.setRslot_course (s : State) (d i : Nat) (r : RSlot) : (s.setRslot d i r).course = s.course :=
  State.setFe_course _ _ _ rfl

@[simp] theorem State.feDrop_standing (s : State) (d : Nat) (uid : Option Nat) (ctx pa : Nat) :
    (s.feDrop d uid ctx pa).standing = s.standing := by
  simp only [State.feDrop, State.setReg_standing, State.bump_standing]
  split
  · rw [State.modOp_standing]
    · simp
    · exact fun _ => rfl
  · simp

theorem State.feSend_course (s : State) (d : Nat) (w : FeWrite) (t : Target) (info : List Nat) (bs : List Byte) :
    (s.feSend d w t info bs).course = s.course := by
  simp only [State.feSend]
  split
  · exact State.course_of_standing (by simp)
  · exact (State.course_of_standing (State.sendOut_standing ..)).trans (State.setFe_course _ _ _ rfl)

/-- A write whose target is not known lost stays with the front end until it is acknowledged. -/
theorem State.feSend_writes (s : State) (d : Nat) (w : FeWrite) {t : Target} (info : List Nat) (bs : List Byte)
    (h : s.targetLost t = false) : ∃ y ∈ ((s.feSend d w t info bs).fe d).writes,
      y.uid = w.uid ∧ y.role = w.role ∧ y.pa = w.pa ∧ y.target = t ∧ y.sent = s.strokeNow := by
  let y : FeWrite := { w with tag := (s.fe d).nextTag, target := t, sent := s.strokeNow }
  generalize hv : s.setFe d { s.fe d with nextTag := (s.fe d).nextTag + 1, writes := (s.fe d).writes ++ [y] } = v
  have hy : y ∈ (v.fe d).writes := by
    rw [← hv, State.fe_setFe_same]
    exact List.mem_append_right _ (List.mem_singleton_self y)
  have he : s.feSend d w t info bs = v.sendOut t w.pa info bs := by
    rw [State.feSend, h, ← hv]
    rfl
  have hf : (v.sendOut t w.pa info bs).fe d = v.fe d := by
    rw [State.fe, State.fe, State.fes_of_standing (State.sendOut_standing ..)]
  exact ⟨y, by rw [he, hf]; exact hy, rfl, rfl, rfl, rfl, rfl⟩

@[simp] theorem State.feWrite_course (s : State) (d : Nat) (w : FeWrite) (bs : List Byte) :
    (s.feWrite d w bs).course = s.course := by
  simp only [State.feWrite]
  split
  · exact State.course_of_standing (by simp)
  · exact State.course_of_standing (by simp)
  · exact State.feSend_course ..
  · exact State.feSend_course ..
  · exact State.feSend_course ..
  · exact State.setFe_course _ _ _ rfl
  · rfl

@[simp] theorem State.writeFreed_course (s : State) (d ctx : Nat) (v : RVersion) : (s.writeFreed d ctx v).course = s.course := by
  simp only [State.writeFreed]
  split
  all_goals
    rename_i e
    have hu := State.course_of_standing (State.pair_standing e (State.feTranslate_standing ..))
  · rw [State.feWrite_course, hu]
  · rw [← hu]
    exact State.course_of_standing (State.log_standing ..)

@[simp] theorem State.foldl_course {β : Type} (g : State → β → State) (s : State) (l : List β)
    (hg : ∀ u x, (g u x).course = u.course) : (l.foldl g s).course = s.course := by
  induction l generalizing s with
  | nil => rfl
  | cons x l ih => rw [List.foldl_cons, ih, hg]

@[simp] theorem State.freeVersions_course (s : State) (d i : Nat) : (s.freeVersions d i).course = s.course := by
  simp [State.freeVersions]

@[simp] theorem State.endRun_course (s : State) (o : Op) : (s.endRun o).course = s.course := by
  simp only [State.endRun]
  split <;> simp

@[simp] theorem State.installed_course (s : State) (o : Op) : (s.installed o).course = s.course := by
  simp only [State.installed]
  split
  · split <;> simp
  · rfl

@[simp] theorem State.queueIntr_standing (s : State) (x : Queue) : (s.queueIntr x).standing = s.standing := by
  simp [State.queueIntr, State.msixRaise]

@[simp] theorem State.queueIntr_course (s : State) (x : Queue) : (s.queueIntr x).course = s.course :=
  State.course_of_standing (State.queueIntr_standing s x)

/-! ### Hang procedures and resets that are not under way -/

/-- No hang procedure and no context reset is under way, and no hang waits. -/
def State.undisturbed (s : State) : Prop := (∀ d, (s.fe d).hang = none) ∧ s.work.hangs = [] ∧ s.work.resetting = []

theorem State.undisturbed_of_course {s t : State} (h : t.course = s.course) (hs : s.undisturbed) : t.undisturbed := by
  obtain ⟨hh, hw, hr⟩ := hs
  refine ⟨fun d => (congrFun (congrArg Prod.snd h) d).trans (hh d), ?_, ?_⟩
  · exact (congrArg (fun x => x.1.hangs) h).trans hw
  · exact (congrArg (fun x => x.1.resetting) h).trans hr

theorem State.beginHang_undisturbed {s : State} (h : s.undisturbed) : s.beginHang = (s, none) := by
  have ha : s.anyHang = false := by simp [State.anyHang, h.1]
  rw [State.beginHang, ha, h.2.1]
  rfl

theorem State.hangNext_undisturbed {s : State} (h : s.undisturbed) (d n : Nat) : s.hangNext d n = s := by
  cases n with
  | zero => rfl
  | succ n => simp only [State.hangNext, h.1 d, State.beginHang_undisturbed h]

theorem State.resetCheck_undisturbed {s : State} (h : s.undisturbed) : s.resetCheck = s := by
  simp [State.resetCheck, h.2.2]

theorem State.opGone_course (s : State) (o : Op) : (s.opGone o).course = (s.dropOp o.uid).course := State.endRun_course ..

theorem State.afterOp_undisturbed {s : State} (h : s.undisturbed) (o : Op) : s.afterOp o = s.opGone o := by
  have hg : (s.opGone o).undisturbed := State.undisturbed_of_course (State.opGone_course s o) h
  rw [State.afterOp, State.resetCheck_undisturbed hg]
  generalize s.opGone o = u at hg ⊢
  have hf : ∀ l : List Nat, l.foldl (fun s d => State.hangNext s d hangFuel) u = u := fun l => by
    induction l with
    | nil => rfl
    | cons d l ih => rw [List.foldl_cons, State.hangNext_undisturbed hg, ih]
  exact hf _

/-! ### The completion ring of a queue -/

/-- The queue has written `c` completion entries and holds those of `held`. -/
def State.ringAt (s : State) (q c : Nat) (held : List Nat) : Prop :=
  ∃ y, s.queue? q = some y ∧ y.cqCount = c ∧ y.heldCq = held

theorem State.ringAt_of_course {s t : State} (h : t.course = s.course) {q c : Nat} {held : List Nat} (hs : s.ringAt q c held) :
    t.ringAt q c held := by
  obtain ⟨x, hx, hc, hl⟩ := hs
  obtain ⟨y, hy, e⟩ := State.some_queue?_of_standing (State.queues_of_course h) hx
  exact ⟨y, hy, (congrArg Queue.cqCount e).trans hc, (congrArg Queue.heldCq e).trans hl⟩

theorem State.setQueue_ringAt (s : State) (q : Nat) (x : Queue) : (s.setQueue q x).ringAt q x.cqCount x.heldCq :=
  ⟨x, State.queue?_setQueue_same .., rfl, rfl⟩

theorem State.dropOp_ringAt {s : State} {q c : Nat} {held : List Nat} (h : s.ringAt q c held) (uid : Nat) :
    (s.dropOp uid).ringAt q c held := h

/-- A completion raises the interrupt, or is noted in a hold-off, or begins one with the interrupt. -/
theorem State.completionIntr_cases (s : State) (q : Nat) (x : Queue) :
    s.completionIntr q x = s.queueIntr x ∨ s.completionIntr q x = s.setQueue q { x with holdPend := true }
      ∨ ∃ u, s.completionIntr q x = (s.setQueue q { x with holdUntil := u, holdPend := false }).queueIntr x := by
  simp only [State.completionIntr]
  split
  · exact .inl rfl
  · refine .inr ?_
    cases x.holdUntil with
    | none => exact .inr ⟨_, rfl⟩
    | some u =>
      by_cases hu : s.reached u = true
      · exact .inr ⟨_, if_neg (by simp [hu])⟩
      · exact .inl (if_pos (by simp [hu]))

theorem State.completionIntr_ringAt (s : State) (q : Nat) (x : Queue) :
    ((s.setQueue q x).completionIntr q x).ringAt q x.cqCount x.heldCq := by
  obtain e | e | ⟨v, e⟩ := (s.setQueue q x).completionIntr_cases q x
  · rw [e]
    exact State.ringAt_of_course (State.queueIntr_course ..) (State.setQueue_ringAt ..)
  · rw [e]
    exact State.setQueue_ringAt _ q { x with holdPend := true }
  · rw [e]
    exact State.ringAt_of_course (State.queueIntr_course ..)
      (State.setQueue_ringAt _ q { x with holdUntil := v, holdPend := false })

theorem State.setQueue_undisturbed {s : State} (h : s.undisturbed) (q : Nat) (x : Queue) : (s.setQueue q x).undisturbed := h

theorem State.completionIntr_undisturbed {s : State} (h : s.undisturbed) (q : Nat) (x : Queue) :
    (s.completionIntr q x).undisturbed := by
  obtain e | e | ⟨v, e⟩ := s.completionIntr_cases q x
  · exact e ▸ State.undisturbed_of_course (State.queueIntr_course ..) h
  · exact e ▸ State.setQueue_undisturbed h ..
  · exact e ▸ State.undisturbed_of_course (State.queueIntr_course ..) (State.setQueue_undisturbed h ..)

/-- Where no procedure waits for it, a performed entry counts, and its operation is no longer in flight. -/
theorem State.entryDone_undisturbed {s : State} {o : Op} {x : Queue} (h : s.undisturbed) (hx : s.queue? o.queue = some x) :
    (s.entryDone o).op? o.uid = none
      ∧ (s.entryDone o).ringAt o.queue (if x.cfg.cqLog = 0 then x.cqCount else (x.cqCount + 1) % 2 ^ 32) x.heldCq := by
  simp only [State.entryDone, hx]
  generalize hy : Queue.mk _ _ _ _ _ _ _ _ _ _ _ _ _ _ _ _ _ _ _ _ = y
  have hr := State.completionIntr_ringAt s o.queue y
  have hu := State.completionIntr_undisturbed (State.setQueue_undisturbed h o.queue y) o.queue y
  rw [show y.cqCount = if x.cfg.cqLog = 0 then x.cqCount else (x.cqCount + 1) % 2 ^ 32 from hy ▸ rfl,
    show y.heldCq = x.heldCq from hy ▸ rfl] at hr
  generalize (s.setQueue o.queue y).completionIntr o.queue y = u at hr hu ⊢
  rw [State.afterOp_undisturbed (State.undisturbed_of_course (State.installed_course u o) hu)]
  have hg := State.opGone_course (u.installed o) o
  refine ⟨?_, State.ringAt_of_course hg (State.dropOp_ringAt (State.ringAt_of_course (State.installed_course u o) hr) _)⟩
  have hn := State.op?_of_standing (State.ops_of_course hg) o.uid
  rw [State.op?_dropOp] at hn
  exact Option.map_eq_none_iff.mp hn

/-! ### Writing the entry of the oldest held operation -/

/-- The address of the next entry of a queue's completion ring. -/
def Queue.entrySlot (x : Queue) : Nat := x.cfg.cqBase + x.cqCount % 2 ^ x.cfg.cqLog * 32

section

variable {s : State} {uid q : Nat} {o : Op} {x : Queue} {rest : List Nat}

theorem State.writeEntry_eq (hx : s.queue? q = some x) (hl : x.heldCq = uid :: rest) (ho : s.op? uid = some o) :
    s.writeEntry q = (s.setQueue q { x with heldCq := rest }).tell o x x.entrySlot (o.entry q x.cqCount x.cfg.cqLog) := by
  have ho' : (s.setQueue q { x with heldCq := rest }).op? uid = some o := ho
  simp only [State.writeEntry, hx, hl, ho']
  rfl

/-- An entry in module memory is performed at once. -/
theorem State.tell_tiered (z : Queue) {pa : Nat} {bs : List Byte} (hu : s.undisturbed) (hx : s.queue? o.queue = some x)
    (hf : s.feOpen o = false) (ht : s.target pa = some .tiered) :
    (s.tell o z pa bs).op? o.uid = none
      ∧ (s.tell o z pa bs).ringAt o.queue (if x.cfg.cqLog = 0 then x.cqCount else (x.cqCount + 1) % 2 ^ 32) x.heldCq := by
  have hw : (s.modOp o.uid fun o => { o with phase := .written }).feWrite z.die (feFor (some o.queue) (some o.uid) .entry o.ctx pa) bs
      = (s.modOp o.uid fun o => { o with phase := .written }).sysWrite pa bs := by
    have ht' : (s.modOp o.uid fun o => { o with phase := .written }).target (feFor (some o.queue) (some o.uid) .entry o.ctx pa).pa
        = some .tiered := ht
    simp only [State.feWrite, ht']
    rfl
  rw [State.tell, hw]
  generalize hm : s.modOp o.uid (fun o => { o with phase := .written }) = m
  have hmq : m.queue? o.queue = some x := hm ▸ hx
  have hmu : m.undisturbed := hm ▸ hu
  have hmf : m.feOpen o = false := hm ▸ hf
  have hs := State.sysWrite_standing m pa bs
  obtain ⟨y, hy, e⟩ := State.some_queue?_of_standing (congrArg Work.queues hs) hmq
  have hd := State.entryDone_undisturbed (State.undisturbed_of_course (State.course_of_standing hs) hmu) hy
  rw [State.feOpen_of_fes (State.fes_of_standing hs), hmf, if_neg Bool.false_ne_true]
  have hcfg := congrArg Queue.cfg e
  change y.cfg = x.cfg at hcfg
  have hcount := congrArg Queue.cqCount e
  have hheld := congrArg Queue.heldCq e
  change y.cqCount = x.cqCount at hcount
  change y.heldCq = x.heldCq at hheld
  rwa [hcfg, hcount, hheld] at hd

/-- An entry in host memory leaves, and the front end keeps it until it is acknowledged. -/
theorem State.tell_host {pa : Nat} {bs : List Byte} (ho : s.op? o.uid = some o) (hd : x.die = o.die)
    (ht : s.target pa = some .host) (hc : s.cxl.session = true) :
    ∃ o', (s.tell o x pa bs).op? o.uid = some o' ∧ o'.phase = .written
      ∧ ∃ w ∈ ((s.tell o x pa bs).fe o.die).writes, w.uid = some o.uid ∧ w.role = .entry ∧ w.pa = pa := by
  generalize hm : s.modOp o.uid (fun o => { o with phase := .written }) = m
  have hmo : m.op? o.uid = some { o with phase := .written } := by rw [← hm]; exact State.op?_modOp ho fun _ => rfl
  have hmt : m.target (feFor (some o.queue) (some o.uid) .entry o.ctx pa).pa = some .host := hm ▸ ht
  have hml : m.targetLost .host = false := by
    rw [← hm]
    simp only [State.targetLost, State.modOp, State.withWork_cxl, hc, Bool.not_true]
  obtain ⟨w, hw, hwu, hwr, hwp, -, -⟩ := m.feSend_writes o.die (feFor (some o.queue) (some o.uid) .entry o.ctx pa) [1] bs hml
  obtain ⟨o', h', e⟩ := State.some_op?_of_standing (State.ops_of_course (m.feSend_course o.die
    (feFor (some o.queue) (some o.uid) .entry o.ctx pa) .host [1] bs)) hmo
  have he : s.tell o x pa bs = m.feSend o.die (feFor (some o.queue) (some o.uid) .entry o.ctx pa) .host [1] bs := by
    simp only [State.tell, hd, hm, State.feWrite, hmt]
    exact if_pos (List.any_eq_true.mpr ⟨w, hw, (beq_iff_eq (a := w.uid)).mpr hwu⟩)
  rw [he]
  exact ⟨o', h', congrArg Op.phase e, w, hw, hwu, hwr, hwp⟩

theorem State.turn_head (h : s.turn x q uid = true) : ∃ rest, x.heldCq = uid :: rest := by
  simp only [State.turn, Bool.and_eq_true, beq_iff_eq] at h
  obtain ⟨⟨-, hh⟩, -⟩ := h
  exact List.head?_eq_some_iff.mp hh

end

/-! ### OPERATION_COMPLETE -/

section

variable {s : State} {uid : Nat} {o : Op} {x : Queue} (hr : s.running) (ho : s.op? uid = some o) (hx : s.queue? o.queue = some x)
  (act : List (Nat × Nat))
include hr ho hx

theorem execOperationComplete_ended (hp : o.phase = .ended) (hf : s.feOpen o = true) :
    exec (.operationComplete uid act) s = .next s := by
  change execOperationComplete uid act s = _
  simp only [execOperationComplete, whenPowered_running hr, ho, hx, withSome_some, hp, hf, Bool.not_true, Bool.false_and,
    whenIt_false]
  rfl

theorem execOperationComplete_held (hp : o.phase = .held) (ht : s.turn x o.queue uid = true) :
    exec (.operationComplete uid act) s = .next (s.writeEntry o.queue) := by
  change execOperationComplete uid act s = _
  simp only [execOperationComplete, whenPowered_running hr, ho, hx, withSome_some, hp, ht, whenIt_true]
  rfl

end

/-! ### The acknowledgement of a front end's write -/

theorem State.feAcked_oldest {s : State} {d tag : Nat} {w : FeWrite} {ok : FeWrite → Bool}
    (hw : (s.fe d).writes.find? (fun x => x.tag == tag) = some w) (hk : ok w = true) (ho : (s.fe d).oldest w = true)
    (ht : s.timedOut w.target w.sent = false) :
    s.feAcked d tag ok = .next ((if w.target = .mmio then s.writeMmioBytes w.bytes.length (localPart w.pa - mmioBase) w.bytes
      else s).feAck d w).afterAll := by
  simp only [State.feAcked, hw, withSome_some, hk, ho, ht, Bool.and_self, Bool.not_false, whenIt_true, beq_iff_eq]

theorem State.feAck_other {s : State} {d : Nat} {w : FeWrite} (h : w.role ≠ .entry ∨ w.uid = none) :
    s.feAck d w = s.feFree d w.tag := by
  simp only [State.feAck]
  obtain h | h := h
  · split
    · exact absurd ‹_› h
    · rfl
  · rw [h]
    cases w.role <;> rfl

theorem State.feAck_entry {s : State} {d k : Nat} {w : FeWrite} {o : Op} (hr : w.role = .entry) (hk : w.uid = some k)
    (ho : s.op? k = some o) (hp : o.phase = .written) : s.feAck d w = (s.feFree d w.tag).entryDone o := by
  have ho' : w.uid.bind (s.feFree d w.tag).op? = some o := by rw [hk]; exact ho
  simp only [State.feAck, hr, ho', hp, beq_self_eq_true, if_true]

/-! ### A failed entry -/

/-- A failed entry leaves its queue in COMPLETION_FAULT with the entry held again. -/
theorem State.entryFailed_queue (s : State) (o : Op) (x : Queue) (b : Bool) :
    ∃ y, (s.entryFailed o x b).queue? o.queue = some y ∧ y.state = .completionFault
      ∧ y.left = (if x.state = .completionFault then x.left else x.state) ∧ y.heldCq = o.uid :: x.heldCq
      ∧ y.cqCount = x.cqCount := by
  refine ⟨_, State.queue?_setQueue_same .., rfl, ?_, rfl, rfl⟩
  simp only [beq_iff_eq]

/-! ### The obligation -/

/-- Settles O44. An entry in module memory is performed with its write, and where no procedure waits for the operation's end nothing
but the operation and its recipe version goes; one to the host stays among the front end's writes. -/
theorem completions : Obligations.Completions := by
  unfold Obligations.Completions
  refine ⟨fun o q c n hseq hst hq => ⟨o.entry_length q c n, o.entry_seq q c n hseq, o.entry_status q c n hst, o.entry_queue q c n hq⟩,
    ?_, ?_, ?_, ?_⟩
  · intro s uid act o x hr ho hx
    have hu := State.op?_uid ho
    refine ⟨whenPowered_next hr _, execOperationComplete_ended hr ho hx act, fun hp ht => ?_⟩
    obtain ⟨rest, hl⟩ := State.turn_head ht
    have he := execOperationComplete_held hr ho hx act hp ht
    rw [State.writeEntry_eq hx hl ho] at he
    refine ⟨fun _ hf htgt hh hw hres => ?_, fun htgt hc hd => ?_⟩
    · obtain ⟨hn, y, hy, hyc, hyl⟩ := State.tell_tiered (s := s.setQueue o.queue { x with heldCq := rest }) (o := o)
        (x := { x with heldCq := rest }) x (pa := x.entrySlot) (bs := o.entry o.queue x.cqCount x.cfg.cqLog) ⟨hh, hw, hres⟩
        (State.queue?_setQueue_same ..) hf htgt
      exact ⟨_, y, he, hu ▸ hn, hy, hyc, by rw [hyl, hl]⟩
    · obtain ⟨o', h', hp', w, hmem, hwu, hwr, hwp⟩ := State.tell_host (s := s.setQueue o.queue { x with heldCq := rest }) (o := o)
        (x := x) (pa := x.entrySlot) (bs := o.entry o.queue x.cqCount x.cfg.cqLog) (hu.symm ▸ ho) hd htgt hc
      exact ⟨_, o', he, hu ▸ h', hp', w, hmem, hu ▸ hwu, hwr, hwp⟩
  · intro s d w hr hw hold ht r u acked
    have key : ∀ v : State, r.feAck d w = v → acked v := by
      rintro v rfl
      refine ⟨fun htg hc => ?_, fun htg => ?_⟩
      · change execGlobalObservation (1024 + d) w.tag s = _
        simp only [execGlobalObservation, whenPowered_running hr, hc, whenIt_true, Nat.le_add_right, if_true, Nat.add_sub_cancel_left]
        rw [State.feAcked_oldest hw (by simp [htg]) hold ht]
        rfl
      · change execWriteAck (1024 + d) w.tag (some .ack) s = _
        simp only [execWriteAck, whenPowered_running hr, Nat.le_add_right, if_true, Nat.add_sub_cancel_left]
        rw [State.feAcked_oldest hw (by simp [htg]) hold ht]
        rfl
    exact ⟨fun h => key _ (State.feAck_other h), fun k o hrole hk ho hp => key _ (State.feAck_entry hrole hk ho hp)⟩
  · intro s uid cause o x w hr ho hx hlog hp hw hto hlink
    have hcond : (x.cfg.cqLog != 0 && o.phase == .written && cause.timedOut == s.timedOut w.target w.sent
        && (cause.timedOut || s.cxl.link != .retrain)) = true := by
      simp only [Bool.and_eq_true, bne_iff_ne, ne_eq, beq_iff_eq, Bool.or_eq_true]
      exact ⟨⟨⟨hlog, hp⟩, hto⟩, hlink⟩
    obtain ⟨y, hy, hst, hleft, hheld, hcount⟩ := State.entryFailed_queue (if cause.timedOut then
      (s.feFree x.die w.tag).feDrop x.die none o.ctx w.pa else s.feFree x.die w.tag) o x cause.fallbackFails
    refine ⟨_, y, ?_, hy, hst, hleft, State.op?_uid ho ▸ hheld, hcount⟩
    change execCompletionWriteFail uid cause s = _
    simp only [execCompletionWriteFail, whenPowered_running hr, ho, hx, withSome_some, hw, hcond, whenIt_true]
    rfl
  · intro s q u x hr hx hu hre
    have he : ∀ b, x.holdPend = b → exec (.intrHoldoffExpiry q) s = .next (if b then
        ((s.setQueue q { x with
          holdUntil := (if s.regN (rFe x.die 0xD04) % 2 ^ 16 = 0 then none
            else some (s.strokeNow + s.regN (rFe x.die 0xD04) % 2 ^ 16)), holdPend := false }).queueIntr x)
        else s.setQueue q { x with holdUntil := none }) := by
      rintro b rfl
      change execIntrHoldoffExpiry q s = _
      simp only [execIntrHoldoffExpiry, whenPowered_running hr, hx, withSome_some, hu, hre, whenIt_true]
      split <;> rfl
    exact ⟨fun hb => he false hb, fun hb => ⟨_, _, he true hb, rfl, rfl⟩⟩

end Sys2Proof.Machine

end

section

/-!
### Engines at calm homes: writes, adds, and what taking copies back leaves (R203, R224, R340)
-/

namespace Sys2Proof.Machine

/-! #### Taking back the copies of a line -/

section Reclaim

variable {s t u : State} {line : Nat}

/-- What taking back copies leaves as it is. -/
structure State.Copies (s t : State) : Prop where
  pop : t.pop = s.pop
  regs : t.regs = s.regs
  peel : t.peel = s.peel
  xlat : t.xlat = s.xlat

namespace State.Copies

theorem refl (s : State) : s.Copies s := ⟨rfl, rfl, rfl, rfl⟩

theorem trans (h : s.Copies t) (g : t.Copies u) : s.Copies u :=
  ⟨g.pop.trans h.pop, g.regs.trans h.regs, g.peel.trans h.peel, g.xlat.trans h.xlat⟩

theorem ite {p : Prop} [Decidable p] (h : s.Copies t) (g : s.Copies u) : s.Copies (if p then t else u) := by
  split
  · exact h
  · exact g

theorem foldl {β : Type} {g : State → β → State} (hg : ∀ (v : State) x, v.Copies (g v x)) (l : List β) (s : State) :
    s.Copies (l.foldl g s) := by
  induction l generalizing s with
  | nil => exact refl s
  | cons x l ih => exact (hg s x).trans (ih _)

theorem settled (h : s.Copies t) (hm : s.settledMoves) : t.settledMoves := by
  rw [State.settledMoves, h.peel]
  exact hm

theorem withMem (s : State) (m : Mem) : s.Copies (s.withMem m) := ⟨rfl, rfl, rfl, rfl⟩

theorem setDir (s : State) (l : Nat) (e : DirEntry) : s.Copies (s.setDir l e) := withMem s _

theorem dropCopy (s : State) (l i : Nat) : s.Copies (s.dropCopy l i) := by
  refine ite (withMem s _) (ite ?_ (ite ⟨rfl, rfl, rfl, rfl⟩ (refl s)))
  exact (ite (withMem s _) (refl s)).trans ⟨rfl, rfl, rfl, rfl⟩

theorem snoopNow (s : State) (l : Nat) : s.Copies (s.snoopNow l).1 := by
  have hd : s.Copies (s.emitN .snoop [22, l]).draw.1 := ⟨rfl, rfl, rfl, rfl⟩
  simp only [State.snoopNow]
  generalize (s.emitN .snoop [22, l]).draw = r at hd
  split
  · exact hd.trans ((ite (withMem _ _) (refl _)).trans (setDir _ _ _))
  · exact hd.trans (ite (withMem _ _) (refl _))

theorem askOwner (s : State) (l : Nat) : s.Copies (s.askOwner l).1 := by
  simp only [State.askOwner]
  split
  · exact snoopNow s l
  · split
    · exact (withMem s _).trans (withMem _ _)
    · exact refl s
  · exact refl s

theorem homeStore (hm : s.settledMoves) (pa : Nat) (bs : List Byte) : s.Copies (s.homeStore pa bs) := by
  rw [State.homeStore_settled hm]
  exact withMem s _

theorem overwrite (s : State) (secs : List Nat) : s.Copies (s.overwrite secs) := ite (refl s) (withMem s _)

theorem flush (hm : s.settledMoves) (l : Nat) : s.Copies (s.flush l) := by
  have key : ∀ w : State, s.Copies w → ∀ secs a n, s.Copies ((w.overwrite secs).mirror a n) := fun w h secs a n => by
    have ho := h.trans (overwrite w secs)
    rw [State.mirror_settled (ho.settled hm)]
    exact ho
  obtain ⟨b, p, hb⟩ := State.foldl_homeWrite (s.mem.dirty.filter (fun a _ => a / 128 == l)) s
  rw [State.flush, hb]
  exact ite (refl s) (key _ ((withMem s _).trans (withMem _ _)) _ _ _)

theorem reclaim (hm : s.settledMoves) (l : Nat) : s.Copies (s.reclaim l).1 := by
  have hr : s.Copies (if (s.dirOf l).sharers.getLsbD 22 then s.snoopNow l else s.askOwner l).1 := by
    split
    · exact snoopNow s l
    · exact askOwner s l
  simp only [State.reclaim]
  generalize (if (s.dirOf l).sharers.getLsbD 22 then s.snoopNow l else s.askOwner l) = r at hr
  refine ((hr.trans (flush (hr.settled hm) l)).trans (foldl (fun v x => dropCopy v l x)
    (setBitsBelow 32 (s.dirOf l).sharers.toNat) _)).trans ?_
  refine Copies.trans ?_ (setDir _ _ _)
  split
  · exact dropCopy _ _ _
  · exact refl _

theorem recordsOff (h : s.Copies t) (hs : s.recordsOff) : t.recordsOff := by
  obtain ⟨h1, h2, h3⟩ := hs
  refine ⟨?_, ?_, h.peel ▸ h3⟩
  · rw [← h1]
    unfold State.logUsable State.inTiered State.tieredEnd State.node State.regN State.reg
    rw [h.pop, h.regs, h.peel, h.xlat]
  · rw [← h2]
    unfold State.hotRoom State.regN State.reg
    rw [h.pop, h.regs, h.peel]

end State.Copies

/-- Records that go no further than the hub leave the log and the hot-block ring off. -/
theorem State.Recorded.recordsOff (h : s.Recorded t) (hs : s.recordsOff) : t.recordsOff := by
  obtain ⟨h1, h2, h3⟩ := hs
  refine ⟨h.logUsable.trans h1, ?_, h.peel ▸ h3⟩
  have hn : ∀ k ≤ 8, ¬ recordReg (rPeel (0x4020 + k)) := by
    rintro k hk (e | e | ⟨p, e⟩) <;> simp only [rPeel, rRas, rPd] at e <;> omega
  rw [← h2]
  unfold State.hotRoom
  rw [h.regN (hn 0 (by omega)), h.regN (hn 4 (by omega)), h.regN (hn 8 (by omega)), h.peel]

theorem State.foldl_log_recorded (h : s.hubKeeps) (l : List ErrRec) : s.Recorded (l.foldl State.log s) := by
  induction l generalizing s with
  | nil => exact State.Recorded.refl s
  | cons r l ih =>
    have hr := State.log_recorded h r
    exact hr.trans (ih (hr.hubKeeps h))

theorem State.foldl_touch_mem (h : s.recordsOff) (l : List Nat) : (l.foldl (fun (s : State) x => s.touch (x * 128)) s).mem = s.mem := by
  induction l generalizing s with
  | nil => rfl
  | cons x l ih =>
    have hc : (s.touch (x * 128)).recordsOff ∧ (s.touch (x * 128)).mem = s.mem := by
      rw [State.touch_eq_count h]
      exact ⟨State.recordsOff_count h _, (State.Aside.count s _).mem⟩
    rw [List.foldl_cons, ih hc.1, hc.2]

/-! #### The bytes that owners hold modified -/

/-- A holder that drops its copy changes its own caches. -/
theorem State.dropCopy_mem (s : State) (l i : Nat) : ∃ x y, (s.dropCopy l i).mem = { s.mem with slc := x, clusters := y } := by
  simp only [State.dropCopy]
  split
  · exact ⟨s.mem.slc, _, rfl⟩
  split
  · simp only [State.dieDrop, State.upperDrop, State.withPds_mem, State.slcDrop]
    split
    · exact ⟨_, s.mem.clusters, rfl⟩
    · exact ⟨s.mem.slc, s.mem.clusters, rfl⟩
  split
  · exact ⟨s.mem.slc, s.mem.clusters, rfl⟩
  · exact ⟨s.mem.slc, s.mem.clusters, rfl⟩

/-- Every holder a directory entry names drops its copy. -/
def State.dropHolders (s : State) (l : Nat) (e : DirEntry) : State :=
  let u := (setBitsBelow 32 e.sharers.toNat).foldl (fun s i => s.dropCopy l i) s
  match e.owner with
  | some i => u.dropCopy l i
  | none => u

theorem State.dropHolders_mem (s : State) (l : Nat) (e : DirEntry) :
    ∃ x y, (s.dropHolders l e).mem = { s.mem with slc := x, clusters := y } := by
  have hf : ∀ (L : List Nat) (u : State), ∃ x y, (L.foldl (fun s i => s.dropCopy l i) u).mem = { u.mem with slc := x, clusters := y } := by
    intro L
    induction L with
    | nil => exact fun u => ⟨u.mem.slc, u.mem.clusters, rfl⟩
    | cons i L ih =>
      intro u
      obtain ⟨x, y, h⟩ := ih (u.dropCopy l i)
      obtain ⟨x', y', h'⟩ := u.dropCopy_mem l i
      exact ⟨x, y, by rw [List.foldl_cons, h, h']⟩
  obtain ⟨x, y, h⟩ := hf (setBitsBelow 32 e.sharers.toNat) s
  simp only [State.dropHolders]
  split
  · next i _ =>
    obtain ⟨x', y', h'⟩ := State.dropCopy_mem ((setBitsBelow 32 e.sharers.toNat).foldl (fun s i => s.dropCopy l i) s) l i
    exact ⟨x', y', by rw [h', h]⟩
  · exact ⟨x, y, h⟩

/-- The copies of a line are taken back: its owner is asked, what it holds is written back, and every holder drops the line. -/
theorem State.reclaim_eq (s : State) (l : Nat) :
    let r := if (s.dirOf l).sharers.getLsbD 22 then s.snoopNow l else s.askOwner l
    s.reclaim l = (((r.1.flush l).dropHolders l (s.dirOf l)).setDir l { owner := none, sharers := 0 }, r.2) := rfl

theorem State.setDir_dirty (s : State) (l : Nat) (e : DirEntry) : (s.setDir l e).mem.dirty = s.mem.dirty := by
  simp only [State.setDir, Mem.placed, State.withMem_mem]
  split
  · rfl
  · split <;> rfl

theorem Tbl.get?_foldl_put_other {β γ : Type} (f : γ → Nat) (g : γ → β) (l : List γ) (t : Tbl β) {x : Nat} (h : ∀ e ∈ l, f e ≠ x) :
    (l.foldl (fun t e => t.put (f e) (g e)) t).get? x = t.get? x := by
  induction l generalizing t with
  | nil => rfl
  | cons e l ih =>
    rw [List.foldl_cons, ih _ fun y hy => h y (List.mem_cons_of_mem _ hy),
      Tbl.get?_put_other _ _ _ _ (h e List.mem_cons_self).symm]

/-- A snoop of the host for a line brings modified bytes of that line alone. -/
theorem State.snoopNow_dirty (s : State) (l : Nat) {a : Nat} (ha : a / 128 ≠ l) :
    (s.snoopNow l).1.mem.dirty.get? a = s.mem.dirty.get? a := by
  simp only [State.snoopNow]
  have hd : (s.emitN .snoop [22, l]).draw.1.mem = s.mem := rfl
  generalize (s.emitN .snoop [22, l]).draw = r at hd
  split
  · simp only [State.hostSilent, State.notice, State.setDir_dirty]
    split
    all_goals
      change r.1.mem.dirty.get? a = _
      rw [hd]
  · split
    · simp only [State.hostShows, State.withMem_mem]
      rw [Tbl.get?_foldl_put_other (fun b : Nat × Byte => l * 128 + b.1 % 128) Prod.snd _ _ (fun e _ => by omega), hd]
    · exact congrArg (fun m : Mem => m.dirty.get? a) hd

theorem State.askOwner_dirty (s : State) (l : Nat) {a : Nat} (ha : a / 128 ≠ l) :
    (s.askOwner l).1.mem.dirty.get? a = s.mem.dirty.get? a := by
  simp only [State.askOwner]
  split
  · exact State.snoopNow_dirty s l ha
  · split
    · simp only [State.lostCopy, State.setPoison, State.withMem_mem]
      rw [Tbl.get?_filter, if_pos (by simpa using ha)]
    · rfl
  · rfl

theorem State.flush_dirty (s : State) (l a : Nat) :
    (s.flush l).mem.dirty.get? a = if a / 128 = l then none else s.mem.dirty.get? a := by
  obtain ⟨b, p, F, -, hf⟩ := s.flush_aside l
  rw [hf.mem, State.withMem_mem]
  refine (Tbl.get?_filter (fun a => a / 128 != l) _ _).trans ?_
  by_cases ha : a / 128 = l
  · rw [if_pos ha, if_neg (by simpa using ha)]
  · rw [if_neg ha, if_pos (by simpa using ha)]

/-- No owner holds bytes of a line whose copies have been taken back, and of the others what they held. -/
theorem State.reclaim_dirty (s : State) (l a : Nat) :
    (s.reclaim l).1.mem.dirty.get? a = if a / 128 = l then none else s.mem.dirty.get? a := by
  have hr : a / 128 ≠ l → (if (s.dirOf l).sharers.getLsbD 22 then s.snoopNow l else s.askOwner l).1.mem.dirty.get? a
      = s.mem.dirty.get? a := fun ha => by
    split
    · exact State.snoopNow_dirty s l ha
    · exact State.askOwner_dirty s l ha
  rw [State.reclaim_eq]
  generalize (if (s.dirOf l).sharers.getLsbD 22 then s.snoopNow l else s.askOwner l) = r at hr
  obtain ⟨x, y, hm⟩ := (r.1.flush l).dropHolders_mem l (s.dirOf l)
  rw [State.setDir_dirty, hm, State.flush_dirty]
  split
  · rfl
  · exact hr ‹_›

end Reclaim

/-! #### Writes and adds of the engines at calm homes -/

section Engine

variable {s : State}

theorem mem_linesOf_add {a n i : Nat} (h : i < n) : (a + i) / 128 ∈ linesOf a n := by
  rw [linesOf, if_neg (by omega), mem_upFrom]
  omega

theorem State.finishLine_idle (h : s.mem.txns = []) (line n : Nat) : s.finishLine line n = s := by
  cases n with
  | zero => rfl
  | succ n => simp only [State.finishLine, h, List.find?_nil]

theorem State.calm.lineTurn (h : s.calm) (line : Nat) : s.lineTurn line = s := by
  obtain ⟨htx, hm, -, -⟩ := h
  have hf : s.peel.moves.find? (fun m => m.switching && !m.switched && m.block == blockOf (line * 128)) = none :=
    List.find?_eq_none.mpr fun m hm' => by simp [hm m hm']
  simp only [State.lineTurn, State.finishSwitch, hf]
  exact State.finishLine_idle htx _ _

theorem State.calm.checkLine (h : s.calm) (line : Nat) : s.checkLine line = s :=
  State.checkLine_good fun f hf => by rw [h.2.2.1] at hf; exact absurd hf List.not_mem_nil

theorem State.foldl_eq {β : Type} {g : State → β → State} (h : ∀ x, g s x = s) (l : List β) : l.foldl g s = s := by
  induction l with
  | nil => rfl
  | cons x l ih => rw [List.foldl_cons, h, ih]

theorem State.calm.overwrite (h : s.calm) (secs : List Nat) : s.overwrite secs = s := by
  rw [State.overwrite, h.2.2.1, List.isEmpty_nil, if_pos rfl]

/-- The copies of several lines are taken back one after the other. -/
def State.reclaims (s : State) (ls : List Nat) : State := ls.foldl (fun u l => (u.reclaim l).1) s

theorem State.reclaims_copies (hm : s.settledMoves) (ls : List Nat) : s.Copies (s.reclaims ls) := by
  induction ls generalizing s with
  | nil => exact State.Copies.refl s
  | cons l ls ih =>
    have hr := State.Copies.reclaim hm l
    exact hr.trans (ih (hr.settled hm))

theorem State.reclaims_dirty (ls : List Nat) (s : State) (a : Nat) :
    (s.reclaims ls).mem.dirty.get? a = if a / 128 ∈ ls then none else s.mem.dirty.get? a := by
  induction ls generalizing s with
  | nil => rfl
  | cons l ls ih =>
    refine (ih (s.reclaim l).1).trans ?_
    rw [State.reclaim_dirty]
    by_cases h : a / 128 = l <;> by_cases h' : a / 128 ∈ ls <;> simp [h, h']

theorem State.ownWrite_fst (s : State) (pa : Nat) (bs : List Byte) :
    (s.ownWrite pa bs).1 = (s.reclaims (linesOf (localPart pa) bs.length)).homeStore pa bs := by
  have hf : ∀ (ls : List Nat) (r : Noted), (ls.foldl (fun (r : Noted) l => ((r.1.reclaim l).1, r.2 ++ (r.1.reclaim l).2)) r).1
      = r.1.reclaims ls := fun ls => by
    induction ls with
    | nil => exact fun _ => rfl
    | cons l ls ih => exact fun r => ih _
  exact congrArg (fun u : State => u.homeStore pa bs) (hf _ (s, []))

/-- At calm homes a write of an engine leaves exactly its bytes. -/
theorem State.calm.sysWrite_sysRead (h : s.calm) {pa : Nat} {bs : List Byte} (hl : localPart pa + bs.length ≤ 2 ^ 49) :
    (s.sysWrite pa bs).sysRead pa bs.length = bs := by
  simp only [State.sysWrite]
  rw [State.foldl_eq h.lineTurn, h.overwrite, State.foldl_eq h.checkLine]
  obtain ⟨-, hm, -, hoff⟩ := h
  have hw := s.ownWrite_fst pa bs
  generalize s.ownWrite pa bs = w at hw
  have hc := State.reclaims_copies hm (linesOf (localPart pa) bs.length)
  have hcs := hc.trans (State.Copies.homeStore (hc.settled hm) pa bs)
  have hread := State.homeStore_sysRead (s := s.reclaims (linesOf (localPart pa) bs.length)) hl fun i hi => by
    rw [State.reclaims_dirty, if_pos (mem_linesOf_add hi)]
  rw [← hw] at hcs hread
  have hwoff := hcs.recordsOff hoff
  have hlog := State.foldl_log_recorded hwoff.hubKeeps w.2
  have hloff := hlog.recordsOff hwoff
  generalize w.2.foldl State.log w.1 = v at hlog hloff
  have hv : v.sysRead pa bs.length = bs := (State.sysRead_of_mem hlog.mem pa bs.length).trans hread
  split
  · exact (State.sysRead_of_mem (State.foldl_touch_mem hloff _) pa bs.length).trans hv
  · exact hv

/-! #### Bytes that are written back -/

theorem localPart_of_lt {a : Nat} (h : a < 2 ^ 49) : localPart a = a := by
  rw [localPart]
  omega

theorem State.rawByte_localPart (s : State) (a : Nat) : s.rawByte (localPart a) = s.rawByte a := by
  rw [State.rawByte, State.rawByte, localPart, localPart, Nat.mod_mod]

theorem Tbl.le_of_risingFrom {β : Type} (t : Tbl β) (lo : Nat) (h : Tbl.risingFrom lo t = true) : ∀ e ∈ t, lo ≤ e.1 := by
  induction t generalizing lo with
  | nil => exact fun e he => absurd he List.not_mem_nil
  | cons x t ih =>
    simp only [Tbl.risingFrom, Bool.and_eq_true, decide_eq_true_eq] at h
    intro e he
    obtain rfl | he := List.mem_cons.mp he
    · exact h.1
    · have := ih _ h.2 e he
      omega

/-- Bytes of distinct addresses written home one by one stand there. -/
theorem State.foldl_homeWrite_rawByte (l : Tbl Byte) (lo : Nat) (hl : Tbl.risingFrom lo l = true) (hb : ∀ e ∈ l, e.1 < 2 ^ 49)
    (s : State) (a : Nat) :
    (l.foldl (fun s e => s.homeWrite e.1 [e.2]) s).rawByte a = (l.get? (localPart a)).getD (s.rawByte a) := by
  induction l generalizing lo s with
  | nil => rfl
  | cons e l ih =>
    simp only [Tbl.risingFrom, Bool.and_eq_true, decide_eq_true_eq] at hl
    have he := localPart_of_lt (hb e List.mem_cons_self)
    rw [List.foldl_cons, ih _ hl.2 (fun x hx => hb x (List.mem_cons_of_mem _ hx)), Tbl.get?]
    split
    · next hk =>
      have hn : Tbl.get? l (localPart a) = none := Tbl.get?_of_absent fun x hx => by
        have := Tbl.le_of_risingFrom l _ hl.2 x hx
        omega
      have hw := s.homeWrite_rawByte_same e.1 0 [e.2] Nat.one_pos rfl
      rw [hn, Option.getD_none, ← State.rawByte_localPart _ a, ← hk]
      exact hw
    · next hk =>
      rw [s.homeWrite_rawByte_other]
      rw [he, List.length_singleton]
      omega

theorem State.foldl_homeWrite_poison (l : Tbl Byte) (s : State) :
    (l.foldl (fun s e => s.homeWrite e.1 [e.2]) s).poisoned = s.poisoned :=
  State.foldl_part State.poisoned _ (fun u e => by
    obtain ⟨b, hb⟩ := u.homeWrite_part (pa := e.1) (bs := [e.2]) (by rw [List.length_singleton]; omega)
    unfold State.poisoned
    rw [hb]) l s

/-- The bytes of a line that its owner holds modified. -/
def State.modified (s : State) (line : Nat) : Tbl Byte := s.mem.dirty.filter (fun a _ => a / 128 == line)

/-- Writing a line back is writing those bytes, for all that a read of memory finds. -/
theorem State.flush_written (s : State) (line : Nat) :
    let w := (s.modified line).foldl (fun s e => s.homeWrite e.1 [e.2]) s
    (s.flush line).mem.bytes = w.mem.bytes ∧ (s.flush line).mem.undef = w.mem.undef ∧ (s.flush line).mem.poison = w.mem.poison := by
  intro w
  by_cases hm : (s.modified line).isEmpty = true
  · have hf : s.flush line = s := if_pos hm
    have hw : w = s := by
      change (s.modified line).foldl (fun s e => s.homeWrite e.1 [e.2]) s = s
      rw [List.isEmpty_iff.mp hm]
      rfl
    rw [hf, hw]
    exact ⟨rfl, rfl, rfl⟩
  · have hf : s.flush line = ((w.withMem { w.mem with dirty := w.mem.dirty.filter (fun a _ => a / 128 != line) }).overwrite
        (upFrom (line * 4) 4)).mirror (line * 128) 128 := if_neg hm
    obtain ⟨F, -, ho⟩ := (w.withMem { w.mem with dirty := w.mem.dirty.filter (fun a _ => a / 128 != line) }).overwrite_flaws
      (upFrom (line * 4) 4)
    rw [hf, (State.Aside.mirror _ _ _).mem, ho]
    exact ⟨rfl, rfl, rfl⟩

theorem State.flush_poisoned (s : State) (line : Nat) : (s.flush line).poisoned = s.poisoned := by
  refine Eq.trans ?_ (State.foldl_homeWrite_poison (s.modified line) s)
  unfold State.poisoned
  rw [(s.flush_written line).2.2]

/-- What the engines see of a line stays as it is when its owner's bytes go to memory. -/
theorem State.flush_sysByte (hd : Tbl.rising s.mem.dirty = true) (hb : ∀ e ∈ s.mem.dirty, e.1 < 2 ^ 49) (line a : Nat) :
    (s.flush line).sysByte a = s.sysByte a := by
  obtain ⟨hbytes, hundef, -⟩ := s.flush_written line
  have hraw : (s.flush line).rawByte a = ((s.modified line).get? (localPart a)).getD (s.rawByte a) :=
    (State.rawByte_congr hbytes hundef a).trans (State.foldl_homeWrite_rawByte _ 0 (Tbl.rising_filter _ _ _ hd)
      (fun e he => hb e (List.mem_filter.mp he).1) s a)
  have hmine : (s.modified line).get? (localPart a) = if localPart a / 128 = line then s.mem.dirty.get? (localPart a) else none := by
    refine (Tbl.get?_filter (fun a => a / 128 == line) _ _).trans ?_
    simp only [beq_iff_eq]
  rw [State.sysByte, State.sysByte, State.flush_dirty, hraw, hmine]
  by_cases hl : localPart a / 128 = line
  · simp only [if_pos hl]
    cases s.mem.dirty.get? (localPart a) <;> rfl
  · simp only [if_neg hl]
    rfl

/-! #### Adds where no run leaves a holder's data open -/

/-- Every coherent byte and every mark of poison is the same, and no holder has data that a run leaves open. -/
structure State.SameData (s t : State) : Prop where
  byte : ∀ a, t.sysByte a = s.sysByte a
  bad : t.poisoned = s.poisoned
  plain : t.plainLines

theorem State.SameData.trans {t u : State} (h : s.SameData t) (g : t.SameData u) : s.SameData u :=
  ⟨fun a => (g.byte a).trans (h.byte a), g.bad.trans h.bad, g.plain⟩

theorem State.askOwner_plain (h : s.plainLines) (l : Nat) : s.askOwner l = (s, []) := by
  obtain ⟨hd, hlost, -⟩ := h
  simp only [State.askOwner, hlost, List.contains_nil, Bool.false_eq_true, if_false]
  split
  · exact absurd ‹_› (hd l).1
  · rfl
  · rfl

theorem State.flush_sameData (h : s.plainLines) (l : Nat) : s.SameData (s.flush l) := by
  obtain ⟨hd, hlost, hrise, hlt⟩ := h
  refine ⟨s.flush_sysByte hrise hlt l, s.flush_poisoned l, ?_⟩
  obtain ⟨b, p, F, -, hf⟩ := s.flush_aside l
  unfold State.plainLines State.dirOf
  rw [hf.mem]
  exact ⟨hd, hlost, Tbl.rising_filter (fun a _ => a / 128 != l) _ 0 hrise, fun e he => hlt e (List.mem_filter.mp he).1⟩

theorem State.dropHolders_sameData (h : s.plainLines) (l : Nat) (e : DirEntry) : s.SameData (s.dropHolders l e) := by
  obtain ⟨x, y, hm⟩ := s.dropHolders_mem l e
  have hp : (s.dropHolders l e).plainLines := by
    unfold State.plainLines State.dirOf
    rw [hm]
    exact h
  refine ⟨fun a => State.sysByte_congr a (by rw [hm]) (by rw [hm]) (by rw [hm]), ?_, hp⟩
  unfold State.poisoned
  rw [hm]

theorem State.setDir_free_sameData (h : s.plainLines) (l : Nat) : s.SameData (s.setDir l { owner := none, sharers := 0 }) := by
  obtain ⟨hd, hrest⟩ := h
  refine ⟨fun a => rfl, rfl, fun k => ?_, hrest⟩
  have hk := hd k
  rw [State.setDir_free]
  simp only [State.dirOf, State.withMem_mem] at hk ⊢
  by_cases he : k = l
  · rw [he, Tbl.get?_erase_same]
    exact ⟨nofun, rfl⟩
  · rw [Tbl.get?_erase_other _ _ _ he]
    exact hk

/-- Taking a line back there leaves every coherent byte as it is, and nothing to log. -/
theorem State.reclaim_plain (h : s.plainLines) (l : Nat) : (s.reclaim l).2 = [] ∧ s.SameData (s.reclaim l).1 := by
  rw [State.reclaim_eq, (h.1 l).2, State.askOwner_plain h]
  have hf := State.flush_sameData h l
  have hd := State.dropHolders_sameData hf.plain l (s.dirOf l)
  exact ⟨rfl, (hf.trans hd).trans (State.setDir_free_sameData hd.plain l)⟩

theorem State.foldl_recall_plain (h : s.plainLines) (ls : List Nat) :
    ls.foldl State.recall s = s.reclaims ls ∧ s.SameData (s.reclaims ls) := by
  induction ls generalizing s with
  | nil => exact ⟨rfl, fun _ => rfl, rfl, h⟩
  | cons l ls ih =>
    obtain ⟨hr, hd⟩ := State.reclaim_plain h l
    obtain ⟨he, hs⟩ := ih hd.plain
    have hc : s.recall l = (s.reclaim l).1 := by rw [State.recall, hr, List.foldl_nil]
    exact ⟨by rw [List.foldl_cons, hc, he]; rfl, hd.trans hs⟩

/-- At calm homes an add of an engine takes the old value, and leaves the new one. -/
theorem State.calm.sysAdd (h : s.calm) (hp : s.plainLines) {pa : Nat} {op : AtomOp} {f : AtomFmt} {v cmp : Nat}
    (hl : localPart pa + atomBytes f ≤ 2 ^ 49) (hb : s.anyPoison pa (atomBytes f) = false) :
    ∃ t, s.sysAdd pa op f v cmp = (t, some (s.sysNat pa (atomBytes f)))
      ∧ t.sysRead pa (atomBytes f) = toBytes (atomBytes f) (atomNew op f (s.sysNat pa (atomBytes f)) v cmp) := by
  obtain ⟨hrec, hsame⟩ := State.foldl_recall_plain hp (linesOf (localPart pa) (atomBytes f))
  have hclean : ∀ i, i < atomBytes f →
      (s.reclaims (linesOf (localPart pa) (atomBytes f))).mem.dirty.get? (localPart pa + i) = none := fun i hi => by
    rw [State.reclaims_dirty, if_pos (mem_linesOf_add hi)]
  have hoff := (State.reclaims_copies h.2.1 (linesOf (localPart pa) (atomBytes f))).recordsOff h.2.2.2
  simp only [State.sysAdd]
  rw [State.foldl_eq h.lineTurn, State.foldl_eq h.checkLine, hrec]
  generalize s.reclaims (linesOf (localPart pa) (atomBytes f)) = u at hsame hclean hoff
  have hw : (if localPart pa < u.tieredEnd then u.touch pa else u).mem = u.mem := by
    split
    · rw [State.touch_eq_count hoff]
      exact (State.Aside.count u pa).mem
    · rfl
  generalize (if localPart pa < u.tieredEnd then u.touch pa else u) = w at hw
  have hnat : w.sysNat pa (atomBytes f) = s.sysNat pa (atomBytes f) :=
    (State.sysNat_of_mem hw pa _).trans (State.sysNat_congr fun i _ => hsame.byte _)
  have hbad : w.anyPoison pa (atomBytes f) = false := by
    rw [← hb]
    unfold State.anyPoison
    rw [← hsame.bad]
    unfold State.poisoned
    rw [hw]
  rw [if_neg (by rw [hbad]; exact Bool.false_ne_true), hnat]
  refine ⟨_, rfl, ?_⟩
  have hlen : (toBytes (atomBytes f) (atomNew op f (s.sysNat pa (atomBytes f)) v cmp)).length = atomBytes f := length_toBytes ..
  have hread := State.homeStore_sysRead (s := w) (pa := pa)
    (bs := toBytes (atomBytes f) (atomNew op f (s.sysNat pa (atomBytes f)) v cmp)) (by rwa [hlen])
    (fun i hi => by rw [hw]; exact hclean i (hlen ▸ hi))
  rwa [hlen] at hread

end Engine

end Sys2Proof.Machine

end

section

/-!
### Descriptors without cores: R390, R456 to R470
-/

namespace Sys2Proof.Machine

/-! #### Operations that start -/

section Starts

variable {s t : State} {uid : Nat} {o : Op}

/-- What an operation did, with no record logged, is all that it leaves. -/
theorem State.causing_same (h : t.ras.logIndex = s.ras.logIndex) : s.causing uid t = t := if_pos h

/-- The index of a record that an operation causes is a mark. -/
theorem State.causing_standing (s : State) (uid : Nat) (t : State) : (s.causing uid t).standing = t.standing := by
  rw [State.causing]
  split
  · rfl
  · exact State.modOp_standing _ _ _ fun o => by split <;> rfl

theorem State.causing_mem (s : State) (uid : Nat) (t : State) : (s.causing uid t).mem = t.mem := by
  rw [State.causing]
  split <;> rfl

theorem State.causing_xlat (s : State) (uid : Nat) (t : State) : (s.causing uid t).xlat = t.xlat := by
  rw [State.causing]
  split <;> rfl

theorem State.causing_fe (s : State) (uid : Nat) (t : State) (d : Nat) : (s.causing uid t).fe d = t.fe d := by
  rw [State.fe, State.fe, State.fes_of_standing (State.causing_standing s uid t)]

/-- An operation stands as it was left, but for its marks. -/
theorem State.causing_op? {k : Nat} {x : Op} (h : t.op? k = some x) : ∃ y, (s.causing uid t).op? k = some y ∧ y.unmarked = x.unmarked :=
  State.some_op?_of_standing (congrArg Work.ops (State.causing_standing s uid t)) h

section

variable {c : Nat} {k : Op → Act} (hr : s.running) (ho : s.op? uid = some o) (hs : s.startable o = true) (hc : o.opcode = c)
include hr ho hs hc

theorem State.starts_eq : s.starts uid c k = ((k o).andThen (s.causing uid)).out s := by
  simp only [State.starts, whenPowered_running hr, ho, withSome_some, hc, hs, beq_self_eq_true, Bool.and_self, whenIt_true]

theorem State.starts_next (hk : k o = .next t) : s.starts uid c k = .next (s.causing uid t) := by
  rw [State.starts_eq hr ho hs hc, hk]
  rfl

theorem State.starts_stay (hk : k o = .stay) : s.starts uid c k = .next s := by
  rw [State.starts_eq hr ho hs hc, hk]
  rfl

/-- An operation that logs nothing. -/
theorem State.starts_quiet (hk : k o = .next t) (hq : t.ras.logIndex = s.ras.logIndex) : s.starts uid c k = .next t := by
  rw [State.starts_next hr ho hs hc hk, State.causing_same hq]

end

end Starts

/-! #### PHASE, FENCE, recipes and invalidations -/

section Simple

variable {s : State} {uid : Nat} {o : Op}

/-- The preferences of a queue of four dies after a PHASE. -/
theorem Queue.prefer_prefs {x : Queue} (hl : x.prefs.length = 4) (b : List Byte) {d : Nat} (hd : d < 4) :
    (x.prefer b).prefs[d]? = if leAt b 17 1 = 0 ∨ bitOf (leAt b 17 1) d = true then some (leAt b 16 1) else x.prefs[d]? := by
  have hx : x.prefs[d]? = some (x.prefs.getD d 0) := by
    rw [List.getD_eq_getElem?_getD, List.getElem?_eq_getElem (by omega)]
    rfl
  simp only [Queue.prefer]
  rw [getElem?_map_upFrom _ hd, hx]
  simp only [Bool.or_eq_true, decide_eq_true_eq]
  exact apply_ite some _ _ _

theorem State.fence_ends (he : s.earlier o = []) (wide : Bool) :
    whenIt (!(s.earlier o).any (fun x => x.queue == o.queue || (wide && x.ctx == o.ctx && x.die == o.die)))
      (.next (s.modOp uid (fun o => { o with phase := .ended }))) = .next (s.modOp uid (fun o => { o with phase := .ended })) := by
  rw [he]
  rfl

theorem State.rslot_setRslot (s : State) (d i : Nat) (r : RSlot) : (s.setRslot d i r).rslot d i = r := by
  rw [State.rslot, State.setRslot, State.fe_setFe_same]
  exact Tbl.getD_setD_same (fun _ => RSlot.init) (s.fe d).recipes i r

theorem State.adPresent_lt {d : Nat} (h : s.adPresent d = true) : d < 4 := by
  simp only [State.adPresent, Bool.and_eq_true, decide_eq_true_eq] at h
  exact h.1

/-- An invalidation for which the front end's own ATU has to answer is in progress once it has begun. -/
theorem State.beginInval_invals {i : Inval} {d : Nat} (hp : s.adPresent d = true) (hg : s.atuGated (128 + d) = false)
    (hn : ∀ j ∈ s.xlat.invals, j.id ≠ s.xlat.nextInv) :
    (s.beginInval i).xlat.invals.length = s.xlat.invals.length + 1 := by
  have hmem : 128 + d ∈ s.atus.filter (fun u => !s.atuGated u) := by
    refine List.mem_filter.mpr ⟨List.mem_append_right _ (List.mem_map.mpr ⟨d, List.mem_filter.mpr ⟨?_, hp⟩, Nat.add_comm d 128⟩), ?_⟩
    · exact mem_upFrom.mpr ⟨Nat.zero_le d, by have := State.adPresent_lt hp; omega⟩
    · rw [hg]
      rfl
  have hnone : (s.startInval i).xlat.invals.find? (fun x => x.id == s.xlat.nextInv && x.waits.isEmpty) = none := by
    refine List.find?_eq_none.mpr fun x hx => ?_
    obtain hx | hx := List.mem_append.mp hx
    · simp [hn x hx]
    · obtain rfl := List.mem_singleton.mp hx
      have : (s.atus.filter (fun u => !s.atuGated u)).isEmpty = false := by
        rw [← Bool.not_eq_true, List.isEmpty_iff]
        exact List.ne_nil_of_mem hmem
      simp [this]
  simp only [State.beginInval, hnone]
  exact List.length_append

end Simple

section Effects

variable {s : State} {uid : Nat} {o : Op}

/-! #### INLINE_WRITE and SIGNAL -/

theorem State.feStore_tiered {d k ctx pa : Nat} {bs : List Byte} (ht : s.target pa = some .tiered) :
    s.feStore d k ctx pa bs = s.sysWrite pa bs := by
  have ht' : s.target (feFor ((s.op? k).map Op.queue) (some k) .data ctx pa).pa = some .tiered := ht
  simp only [State.feStore, ht, State.feWrite, ht']
  rfl

/-- The write of an operation to the host or another node stays with its front end. -/
theorem State.feStore_away {d k ctx pa : Nat} {bs : List Byte} {g : Target} (ht : s.target pa = some g)
    (hg : g = .host ∨ g = .hostDevice ∨ ∃ n, g = .remote n) (hl : s.targetLost g = false) :
    ∃ w ∈ ((s.feStore d k ctx pa bs).fe d).writes, w.uid = some k ∧ w.pa = pa ∧ w.target = g ∧ w.sent = s.strokeNow := by
  have ht' : s.target (feFor ((s.op? k).map Op.queue) (some k) .data ctx pa).pa = some g := ht
  have he : s.feStore d k ctx pa bs = s.feSend d (feFor ((s.op? k).map Op.queue) (some k) .data ctx pa) g [1] bs := by
    obtain rfl | rfl | ⟨n, rfl⟩ := hg
    all_goals simp only [State.feStore, ht, State.feWrite, ht']
  obtain ⟨w, hw, hu, -, hp, hgt, hsent⟩ := s.feSend_writes d (feFor ((s.op? k).map Op.queue) (some k) .data ctx pa) [1] bs hl
  exact he ▸ ⟨w, hw, hu, hp, hgt, hsent⟩

/-- An operation whose bytes lie in one page writes them all to its first address. -/
theorem execInlineWrite_next (hr : s.running) (ho : s.op? uid = some o) (hs : s.startable o = true) (hc : o.opcode = 0x03)
    (hh : s.opHeld o = false) (hp : o.va % 4096 + (descInline o.desc).length ≤ 4096) : exec (.inlineWrite uid) s
      = .next (s.causing uid ((s.feStore o.die uid o.ctx o.pa (descInline o.desc)).opEnd uid)) := by
  refine State.starts_next hr ho hs hc ?_
  have hm : ¬ 4096 - o.va % 4096 < (descInline o.desc).length := by omega
  simp only [hh, Bool.not_false, whenIt_true, if_neg hm, List.take_of_length_le (Nat.not_lt.mp hm)]

theorem execSignal_write (hr : s.running) (ho : s.op? uid = some o) (hs : s.startable o = true) (hc : o.opcode = 0x04)
    (hh : s.opHeld o = false) (hw : leAt o.desc 16 1 ≠ 1) : exec (.signal uid) s
      = .next (s.causing uid ((s.feStore o.die uid o.ctx o.pa (toBytes (flagBytes o.desc) (flagValue o.desc))).opEnd uid)) := by
  refine State.starts_next hr ho hs hc ?_
  simp only [hh, Bool.not_false, whenIt_true, if_neg hw]

theorem execSignal_add (hr : s.running) (ho : s.op? uid = some o) (hs : s.startable o = true) (hc : o.opcode = 0x04)
    (hh : s.opHeld o = false) (hw : leAt o.desc 16 1 = 1) :
    exec (.signal uid) s = .next (s.causing uid ((s.signalAdd o).opEnd uid)) := by
  refine State.starts_next hr ho hs hc ?_
  simp only [hh, Bool.not_false, whenIt_true, if_pos hw]

theorem flagBytes_le (b : List Byte) : 0 < flagBytes b ∧ flagBytes b ≤ 8 := by
  rw [flagBytes]
  split <;> decide

theorem flagValue_lt (b : List Byte) : flagValue b < 2 ^ (8 * flagBytes b) := by
  refine lt_of_lt_of_le (ofBytes_lt _) ?_
  rw [show (256 : Nat) = 2 ^ 8 from rfl, ← pow_mul]
  exact Nat.pow_le_pow_right Nat.two_pos (Nat.mul_le_mul_left 8 (by rw [List.length_take]; omega))

theorem State.sysNat_of_sysRead {t : State} {pa n v : Nat} (h : t.sysRead pa n = toBytes n v) : t.sysNat pa n = v % 2 ^ (8 * n) := by
  rw [State.sysNat, h, ofBytes_toBytes]

/-- What an operation leaves is seen by the engines as the write left it. -/
theorem State.ended_sysRead (t : State) (pa n : Nat) : (s.causing uid (t.opEnd uid)).sysRead pa n = t.sysRead pa n :=
  State.sysRead_of_mem (State.causing_mem s uid (t.opEnd uid)) pa n

/-- The sum that a SIGNAL leaves at a calm home. -/
theorem State.calm.signalAdd (h : s.calm) (hp : s.plainLines) (ht : s.target o.pa = some .tiered) (hl : localPart o.pa + 8 ≤ 2 ^ 49)
    (hb : s.anyPoison o.pa (flagBytes o.desc) = false) : (s.signalAdd o).sysNat o.pa (flagBytes o.desc)
      = (s.sysNat o.pa (flagBytes o.desc) + flagValue o.desc) % 2 ^ (8 * flagBytes o.desc) := by
  have key : ∀ f : AtomFmt, f = .i64 ∨ f = .i32 → (if flagBytes o.desc = 8 then AtomFmt.i64 else .i32) = f →
      atomBytes f = flagBytes o.desc → (s.signalAdd o).sysNat o.pa (flagBytes o.desc)
        = (s.sysNat o.pa (flagBytes o.desc) + flagValue o.desc) % 2 ^ (8 * flagBytes o.desc) := by
    intro f hf hif hn
    have hle := (flagBytes_le o.desc).2
    obtain ⟨t, hadd, hread⟩ := h.sysAdd hp (pa := o.pa) (op := .add) (f := f) (v := flagValue o.desc) (cmp := 0)
      (by rw [hn]; omega) (by rw [hn]; exact hb)
    have hs : s.signalAdd o = t := by simp only [State.signalAdd, ht, hif, hadd]
    have hnew : ∀ a, atomNew .add f a (flagValue o.desc) 0 % 2 ^ (8 * flagBytes o.desc)
        = (a + flagValue o.desc) % 2 ^ (8 * flagBytes o.desc) := fun a => by
      rw [← hn]
      obtain rfl | rfl := hf
      · simp only [atomNew, adderAdd, atomBytes]
        omega
      · simp only [atomNew, adderAdd, atomBytes]
        omega
    rw [hs, ← hnew, ← hn]
    exact State.sysNat_of_sysRead hread
  by_cases h8 : flagBytes o.desc = 8
  · exact key .i64 (.inl rfl) (if_pos h8) h8.symm
  · refine key .i32 (.inr rfl) (if_neg h8) ?_
    have h4 : flagBytes o.desc = 4 := by
      unfold flagBytes at h8 ⊢
      split at h8
      · exact absurd rfl h8
      · next hw => exact if_neg hw
    exact h4.symm

end Effects

/-! #### What the answer to a WAIT's read does -/

section Back

variable {s : State} {o : Op} {g : Target} {sent : Nat}

theorem State.waitBack_late (h : s.timedOut g sent = true) (r : Option Reply) :
    s.waitBack o g sent r = some ((s.feLost o.die o.opcode o.ctx o.pa g).waitTest o (2 ^ (8 * flagBytes o.desc) - 1)) := by
  simp only [State.waitBack, h, if_true]

theorem State.waitBack_data (h : s.timedOut g sent = false) {b : List Byte} (hb : b.length = flagBytes o.desc) :
    s.waitBack o g sent (some (.data b))
      = some (s.waitTest o (ofBytes (if g = .host ∨ g = .hostDevice then s.underDirty o.pa b else b))) := by
  simp only [State.waitBack, h, Bool.false_eq_true, if_false, hb, if_true, Bool.or_eq_true, beq_iff_eq]

theorem State.waitBack_none (h : s.timedOut g sent = false) : s.waitBack o g sent none = none := by
  simp only [State.waitBack, h, Bool.false_eq_true, if_false]

end Back

section Waits

variable {s : State} {uid : Nat} {o : Op}

/-! #### WAIT and WAIT_REREAD -/

/-- The phase in which a WAIT leaves its operation that has read `v`. -/
def Op.waited (o : Op) (v : Nat) : OpPhase :=
  if condHolds (leAt o.desc 16 1) (8 * flagBytes o.desc) v (flagValue o.desc) then .ended else .running

theorem State.waitTest_op? {v : Nat} {x : Op} (h : s.op? o.uid = some x) :
    ∃ y, (s.waitTest o v).op? o.uid = some y ∧ y.phase = o.waited v :=
  ⟨_, State.op?_modOp h fun _ => rfl, rfl⟩

theorem State.waitLook_tiered (ht : s.target o.pa = some .tiered) (dev : Option Reply) : s.waitLook o dev
    = (s.homeRead o.pa (flagBytes o.desc)).waitTest o ((s.homeRead o.pa (flagBytes o.desc)).sysNat o.pa (flagBytes o.desc)) := by
  simp only [State.waitLook, ht]

/-- A WAIT on module memory ends exactly when its condition holds of what it read there. -/
theorem State.waitLook_tiered_op? (ho : s.op? uid = some o) (ht : s.target o.pa = some .tiered) (dev : Option Reply) :
    ∃ x, (s.causing uid (s.waitLook o dev)).op? uid = some x
      ∧ x.phase = o.waited ((s.homeRead o.pa (flagBytes o.desc)).sysNat o.pa (flagBytes o.desc)) := by
  have hu := State.op?_uid ho
  subst hu
  obtain ⟨x, hx, -⟩ := State.some_op?_of_standing (congrArg Work.ops (s.homeRead_standing o.pa (flagBytes o.desc))) ho
  obtain ⟨y, hy, hp⟩ := State.waitTest_op? (v := (s.homeRead o.pa (flagBytes o.desc)).sysNat o.pa (flagBytes o.desc)) hx
  rw [State.waitLook_tiered ht]
  obtain ⟨z, hz, hm⟩ := State.causing_op? (s := s) (uid := o.uid) hy
  exact ⟨z, hz, (congrArg Op.phase hm).trans hp⟩

/-- A read that leaves the module changes nothing by which a target counts as lost or an access as late. -/
theorem State.sendOut_read_timedOut (g : Target) (pa : Nat) (t : Target) (n : Nat) :
    (s.sendOut g pa [0] []).timedOut t n = s.timedOut t n := by
  have hflit : ∀ (u : State) k slots, u.links = s.links → u.cxl = s.cxl → u.ruling = s.ruling →
      (u.sendFlit k 1 slots [0, pa]).timedOut t n = s.timedOut t n := by
    intro u k slots hl hc hrl
    have hu : ∀ v : State, v.links.isolated = u.links.isolated → v.links.routes = u.links.routes →
        v.links.fresetAt = u.links.fresetAt → v.cxl = u.cxl → v.ruling = u.ruling → v.timedOut t n = s.timedOut t n := by
      intro v h1 h2 h3 h4 h5
      unfold State.timedOut State.nodeLost State.isolated State.route State.reached State.strokeNow
      rw [h1, h2, h3, h4, h5, hl, hc, hrl]
    simp only [State.sendFlit]
    split
    · exact hu u rfl rfl rfl rfl rfl
    · exact hu _ rfl rfl rfl rfl rfl
  simp only [State.sendOut]
  split
  · split
    · rfl
    · exact hflit _ _ _ rfl rfl rfl
  · split
    · simp only [bne_self_eq_false, Bool.and_false, Bool.false_eq_true, if_false]
      rfl
    · rfl
  · split
    · simp only [bne_self_eq_false, Bool.and_false, Bool.false_eq_true, if_false]
      rfl
    · rfl
  · rfl

theorem execWait_away (hr : s.running) (ho : s.op? uid = some o) (hs : s.startable o = true) (hc : o.opcode = 0x05)
    (hh : s.opHeld o = false) {g : Target} (ht : s.target o.pa = some g) (hg : g = .host ∨ g = .hostDevice ∨ ∃ n, g = .remote n)
    (hl : s.timedOut g s.strokeNow = false) : ∃ t o', exec (.wait uid none) s = .next t ∧ t.op? uid = some o' ∧ o'.phase = .running
      ∧ o'.asked = some s.strokeNow := by
  let u := (s.sendOut g o.pa [0] []).modOp o.uid fun o => { o with phase := .running, asked := some s.strokeNow }
  have hlate : u.timedOut g s.strokeNow = false := (State.sendOut_read_timedOut g o.pa g s.strokeNow).trans hl
  have hback : u.waitBack o g s.strokeNow none = none := State.waitBack_none hlate
  have hlook : s.waitLook o none = u := by
    have : s.waitLook o none = (u.waitBack o g s.strokeNow none).getD u := by
      obtain rfl | rfl | ⟨n, rfl⟩ := hg
      all_goals
        simp only [State.waitLook, ht]
        rfl
    rw [this, hback]
    rfl
  have hu := State.op?_uid ho
  obtain ⟨x, hx, -⟩ := State.some_op?_of_standing (congrArg Work.ops (s.sendOut_standing g o.pa [0] [])) ho
  have hx' : u.op? uid = some { x with phase := .running, asked := some s.strokeNow } := by
    rw [← hu] at hx ⊢
    exact State.op?_modOp hx fun _ => rfl
  obtain ⟨y, hy, hm⟩ := State.causing_op? (s := s) (uid := uid) hx'
  refine ⟨_, y, State.starts_next hr ho hs hc (t := u) ?_, hy, congrArg Op.phase hm, congrArg Op.asked hm⟩
  rw [hh, ← hlook]
  rfl

section Reread

variable (hr : s.running) (ho : s.op? uid = some o) (hc : o.opcode = 0x05) (hp : o.phase = .running)
include hr ho hc hp

theorem execWaitReread_here (ha : o.asked = none) (hh : s.opHeld o = false) (dev : Option Reply) :
    exec (.waitReread uid dev) s = .next (s.causing uid (s.waitLook o dev)) := by
  change execWaitReread uid dev s = _
  simp only [execWaitReread, whenPowered_running hr, ho, withSome_some, hc, hp, beq_self_eq_true, Bool.and_self, whenIt_true, ha, hh,
    Bool.not_false]
  rfl

theorem execWaitReread_asked {g : Target} {sent : Nat} (ha : o.asked = some sent) (ht : s.target o.pa = some g)
    (dev : Option Reply) : exec (.waitReread uid dev) s
      = (withSome (s.waitBack o g sent dev) fun t => .next (s.causing uid t)).out s := by
  change execWaitReread uid dev s = _
  simp only [execWaitReread, whenPowered_running hr, ho, withSome_some, hc, hp, beq_self_eq_true, Bool.and_self, whenIt_true, ha, ht]

end Reread

end Waits

/-- The version that an INSTALL puts into its slot. -/
def Op.version (o : Op) (uid : Nat) : RVersion :=
  { num := 0, va := o.va, asid := o.asid, root := o.root, body := o.block, runs := 0, arriving := some uid }

/-- A free slot with the first version of an INSTALL. -/
def Op.newSlot (o : Op) (uid : Nat) : RSlot := { RSlot.init with state := 1, ctx := o.ctx, live := [o.version uid] }

/-- The slot and the operation that an INSTALL leaves. -/
def State.installs (s : State) (uid : Nat) (o : Op) : State :=
  ((s.setRslot o.die (leAt o.desc 16 1) (o.newSlot uid)).modOp uid fun x => { x with recipe := some (leAt o.desc 16 1, 0) }).opEnd uid

theorem State.installs_rslot (s : State) (uid : Nat) (o : Op) :
    (s.installs uid o).rslot o.die (leAt o.desc 16 1) = o.newSlot uid := State.rslot_setRslot ..

theorem State.opEnd_op? {s : State} {uid : Nat} {o : Op} (h : s.op? uid = some o) :
    ∃ x, (s.opEnd uid).op? uid = some x ∧ x.phase = .ended ∧ x.recipe = o.recipe :=
  ⟨_, State.op?_modOp h fun _ => rfl, rfl, rfl⟩

theorem State.installs_op? {s : State} {uid : Nat} {o : Op} (h : s.op? uid = some o) :
    ∃ x, (s.installs uid o).op? uid = some x ∧ x.phase = .ended ∧ x.recipe = some (leAt o.desc 16 1, 0) :=
  State.opEnd_op? (State.op?_modOp (s := s.setRslot o.die (leAt o.desc 16 1) (o.newSlot uid))
    (f := fun x => { x with recipe := some (leAt o.desc 16 1, 0) }) h fun _ => rfl)

theorem State.causing_waitTest (s : State) (uid : Nat) (o : Op) (v : Nat) : s.causing uid (s.waitTest o v) = s.waitTest o v :=
  State.causing_same rfl

theorem State.waitTest_mem (s : State) (o : Op) (v : Nat) : (s.waitTest o v).mem = s.mem := rfl

theorem State.invals_idle {s : State} {d : Nat} (h : ∀ i ∈ s.xlat.invals, i.uid = none) :
    s.xlat.invals.any (fun i => i.die == d && i.uid.isSome) = false :=
  List.any_eq_false.mpr fun i hi => by rw [h i hi, Option.isSome_none, Bool.and_false]; exact Bool.false_ne_true

section Opcodes

variable {s : State} {uid : Nat} {o : Op} (hr : s.running) (ho : s.op? uid = some o) (hs : s.startable o = true)
include hr ho hs

/-! #### Each opcode as its operation starts -/

theorem execPhase_prefs (hc : o.opcode = 0x06) {x : Queue} (hx : s.queue? o.queue = some x) :
    exec (.phase uid) s = .next ((s.setQueue o.queue (x.prefer o.desc)).opEnd uid) := by
  refine State.starts_quiet hr ho hs hc ?_ rfl
  rw [hx, withSome_some]

theorem execInlineWrite_held (hc : o.opcode = 0x03) (hh : s.opHeld o = true) : exec (.inlineWrite uid) s = .next s := by
  refine State.starts_stay hr ho hs hc ?_
  rw [hh, Bool.not_true, whenIt_false]

/-- A SIGNAL that writes leaves its value at a calm home. -/
theorem execSignal_writes (hc : o.opcode = 0x04) (hcalm : s.calm) (hh : s.opHeld o = false) (hl : localPart o.pa + 8 ≤ 2 ^ 49)
    (ht : s.target o.pa = some .tiered) (hw : leAt o.desc 16 1 ≠ 1) :
    ∃ t : State, exec (.signal uid) s = .next t ∧ t.sysNat o.pa (flagBytes o.desc) = flagValue o.desc := by
  refine ⟨_, execSignal_write hr ho hs hc hh hw, ?_⟩
  rw [State.feStore_tiered ht]
  have hlen : (toBytes (flagBytes o.desc) (flagValue o.desc)).length = flagBytes o.desc := length_toBytes ..
  have hread := hcalm.sysWrite_sysRead (pa := o.pa) (bs := toBytes (flagBytes o.desc) (flagValue o.desc))
    (by rw [hlen]; exact (Nat.add_le_add_left (flagBytes_le o.desc).2 _).trans hl)
  rw [hlen] at hread
  have hval := State.sysNat_of_sysRead ((State.ended_sysRead (s := s) (uid := uid) _ o.pa (flagBytes o.desc)).trans hread)
  rwa [Nat.mod_eq_of_lt (flagValue_lt o.desc)] at hval

theorem execFence_ends (hc : o.opcode = 0x07) (he : s.earlier o = []) :
    exec (.fence uid) s = .next (s.modOp uid fun o => { o with phase := .ended }) :=
  State.starts_quiet hr ho hs hc (State.fence_ends he _) rfl

/-- A WAIT on module memory reads there and changes no memory more. -/
theorem execWait_tiered (hc : o.opcode = 0x05) (hh : s.opHeld o = false) (ht : s.target o.pa = some .tiered) :
    ∃ t x, exec (.wait uid none) s = .next t ∧ t.op? uid = some x
      ∧ x.phase = o.waited ((s.homeRead o.pa (flagBytes o.desc)).sysNat o.pa (flagBytes o.desc))
      ∧ t.mem = (s.homeRead o.pa (flagBytes o.desc)).mem := by
  obtain ⟨x, hx, hp⟩ := State.waitLook_tiered_op? ho ht none
  refine ⟨_, x, State.starts_next hr ho hs hc (t := s.waitLook o none) ?_, hx, hp, ?_⟩
  · rw [hh, Bool.not_false, whenIt_true]
  · rw [State.causing_mem, State.waitLook_tiered ht, State.waitTest_mem]

section Install

variable (hc : o.opcode = 0x08) (hw : leAt o.desc 17 1 = 0) (hrec : o.recipe = none)
include hc hw hrec

theorem execInstall_badBody (hb : bodyBad o.block = true) : exec (.install uid) s = .next (s.opFail uid 0x207) := by
  refine State.starts_quiet hr ho hs hc ?_ rfl
  simp only [hw, beq_self_eq_true, whenIt_true, hrec, Option.isSome_none, Bool.false_eq_true, if_false, hb, if_true]

theorem execInstall_free (hb : bodyBad o.block = false) (hfree : s.rslot o.die (leAt o.desc 16 1) = RSlot.init) :
    exec (.install uid) s = .next (s.installs uid o) := by
  refine State.starts_quiet hr ho hs hc ?_ rfl
  simp only [hw, beq_self_eq_true, whenIt_true, hrec, Option.isSome_none, Bool.false_eq_true, if_false, hb, hfree,
    show RSlot.init.state = 0 from rfl, show RSlot.init.alive = [] from rfl, ne_eq, not_true_eq_false, decide_false, Bool.false_and,
    List.length_nil, show RSlot.init.live = [] from rfl, List.nil_append]
  rw [if_neg (by omega), State.installs, Op.newSlot, Op.version]

end Install

theorem execRemove_absent (hc : o.opcode = 0x08) (hw : leAt o.desc 17 1 = 1)
    (h0 : (s.rslot o.die (leAt o.desc 16 1)).state = 0) : exec (.remove uid) s = .next (s.opFail uid 0x209) := by
  refine State.starts_quiet hr ho hs hc ?_ rfl
  simp only [hw, beq_self_eq_true, whenIt_true, h0, if_true]

section Context

variable {s' : State}

theorem execInvalidateRange_begins (hc : o.opcode = 0x09) (hi : ∀ i ∈ s.xlat.invals, i.uid = none) {asid root : Nat}
    (hx : s.feCtx o.die o.opcode o.ctx = (s', .ok (asid, root))) (hp : s'.adPresent o.die = true)
    (hg : s'.atuGated (128 + o.die) = false) (hn : ∀ i ∈ s'.xlat.invals, i.id ≠ s'.xlat.nextInv) :
    ∃ t : State, exec (.invalidateRange uid) s = .next t ∧ t.xlat.invals.length = s'.xlat.invals.length + 1 := by
  have hk := State.beginInval_invals (s := s'.modOp uid fun o => { o with phase := .running, start := some s'.now })
    (i := { invalOf ((o.desc.drop 16).take 16) o.die (some uid) with asid := asid, allAsids := false, global := false }) hp hg hn
  refine ⟨_, State.starts_next hr ho hs hc (t := (s'.modOp uid fun o =>
    { o with phase := .running, start := some s'.now }).beginInval _) ?_, (congrArg (fun x : Xlat => x.invals.length)
      (State.causing_xlat ..)).trans hk⟩
  simp only [State.invals_idle hi, Bool.not_false, whenIt_true, hx]

theorem execInvalidateRange_fails (hc : o.opcode = 0x09) (hi : ∀ i ∈ s.xlat.invals, i.uid = none) {e : Nat}
    (hx : s.feCtx o.die o.opcode o.ctx = (s', .error e)) :
    exec (.invalidateRange uid) s = .next (s.causing uid (s'.opFail uid e)) := by
  refine State.starts_next hr ho hs hc ?_
  simp only [State.invals_idle hi, Bool.not_false, whenIt_true, hx]

theorem execPeelHint_fails (hc : o.opcode = 0x0B) {e : Nat} (hx : s.feCtx o.die o.opcode o.ctx = (s', .error e)) :
    exec (.peelHint uid) s = .next (s.causing uid (s'.opFail uid e)) := by
  refine State.starts_next hr ho hs hc ?_
  simp only [hx]

end Context

end Opcodes

/-! #### The obligation -/

/-- Settles O41. What an operation does as it starts, each opcode by itself; the engines' writes and adds leave their bytes because
taking the copies of a line back leaves no owner's bytes over them. -/
theorem descriptorEffects : Obligations.DescriptorEffects := by
  unfold Obligations.DescriptorEffects
  intro s uid o hr ho n v holds away u
  refine ⟨fun hs => ⟨?nop, ?phase, ?inline, ?signal, ?fence, ?wait, ?install, ?absent, ?remove, ?entry, ?noEntry⟩, ?reread⟩
  case nop => exact fun hc => State.starts_quiet hr ho hs hc rfl rfl
  case phase =>
    exact fun hc x hx hl => ⟨_, x.prefer o.desc, execPhase_prefs hr ho hs hc hx, State.queue?_setQueue_same ..,
      fun d hd => Queue.prefer_prefs hl o.desc hd⟩
  case inline =>
    intro hc
    refine ⟨whenPowered_next hr _, execInlineWrite_held hr ho hs hc, fun hh hp => ?_⟩
    have he := execInlineWrite_next hr ho hs hc hh hp
    refine ⟨fun hcalm hl ht => ⟨_, he, ?_⟩, fun g ht hg hlost => ⟨_, he, ?_⟩⟩
    · rw [State.ended_sysRead, State.feStore_tiered ht]
      exact hcalm.sysWrite_sysRead hl
    · rw [State.causing_fe]
      exact State.feStore_away ht hg hlost
  case signal =>
    refine fun hc => ⟨whenPowered_next hr _, fun hcalm hh hl ht => ⟨execSignal_writes hr ho hs hc hcalm hh hl ht,
      fun hw hplain hb => ⟨_, execSignal_add hr ho hs hc hh hw, ?_⟩⟩⟩
    exact (State.sysNat_of_mem (State.causing_mem s uid _) o.pa n).trans (hcalm.signalAdd hplain ht hl hb)
  case fence => exact execFence_ends hr ho hs
  case wait =>
    exact fun hc => ⟨whenPowered_next hr _, fun _ hh ht => execWait_tiered hr ho hs hc hh ht,
      fun g ht hg hh hl => execWait_away hr ho hs hc hh ht hg hl⟩
  case install =>
    refine fun hc hw hrec => ⟨execInstall_badBody hr ho hs hc hw hrec, fun hb hfree => ?_⟩
    obtain ⟨x, hx, hp, hx'⟩ := State.installs_op? ho
    refine ⟨_, execInstall_free hr ho hs hc hw hrec hb hfree, ?_⟩
    rw [State.installs_rslot]
    exact ⟨rfl, rfl, rfl, rfl, x, hx, hp, hx'⟩
  case absent => exact execRemove_absent hr ho hs
  case remove => exact fun _ _ _ _ => whenPowered_next hr _
  case entry =>
    exact fun s' asid root hx => ⟨fun hc hi => ⟨whenPowered_next hr _, execInvalidateRange_begins hr ho hs hc hi hx⟩,
      fun _ => whenPowered_next hr _⟩
  case noEntry =>
    exact fun s' e hx => ⟨fun hc hi => execInvalidateRange_fails hr ho hs hc hi hx, fun hc => execPeelHint_fails hr ho hs hc hx⟩
  case reread =>
    refine fun hc hp => ⟨fun _ ha hh ht => ?_, fun g sent r b ha ht hg => ?_⟩
    · obtain ⟨x, hx, hph⟩ := State.waitLook_tiered_op? ho ht none
      exact ⟨_, x, execWaitReread_here hr ho hc hp ha hh none, hx, hph⟩
    · have he := execWaitReread_asked hr ho hc hp ha ht
      refine ⟨fun hl => ?_, fun hl hb => ?_, fun hl => ?_⟩
      · rw [he, State.waitBack_late hl, withSome_some, Act.out_next]
      · rw [he, State.waitBack_data hl hb, withSome_some, Act.out_next, State.causing_waitTest]
      · rw [he, State.waitBack_none hl, withSome_none, Act.out_stay]

end Sys2Proof.Machine

end
